-- ==== Sys2Proof/Word.lean ====
section
/-! DEFINITION. The plain value types of the model: bytes, registers of bits, and the closed sets of names
the spec numbers (formats, rounding modes, causes). Nothing here computes. -/

namespace Sys2Proof

/-- One byte as the device stores and sends it (00 R6). -/
abbrev Byte := BitVec 8

/-- A channel of the device, 0 to 3 (00 R5). -/
abbrev ChanId := Fin 4

/-- A physical Reed of a channel, 0 to 67 (00 R5). -/
abbrev ReedId := Fin 68

/-- A Bell port of a channel, 0 to 7 (00 R5). -/
abbrev PortId := Fin 8

/-- The eight tensor formats, in the order of their format IDs 0x0 to 0x7 (02 R29). -/
inductive Fmt where
  | e2m1 | int4 | e3m2 | e4m3 | e5m2 | int8 | fp16 | bf16
deriving DecidableEq, Repr

/-- Rounding modes; the first three serve every converter (02 R46), the rest strict-mode Valve code (06 R144). -/
inductive Rnd where
  | rne | rtz | sr | up | down | away
deriving DecidableEq, Repr

/-- An exact value as the arithmetic rules see it: a signed magnitude `m * 2^e` (so that a zero keeps its sign,
06 R147), an infinity or a NaN (payloads are not preserved, 02 R52). -/
inductive XNum where
  | fin (neg : Bool) (m : Nat) (e : Int)
  | inf (neg : Bool)
  | nan
deriving DecidableEq, Repr

/-- Error classes in the order of their codes 1 to 6 (17 R403). -/
inductive ErrClass where
  | C | D | S | J | H | F
deriving DecidableEq, Repr

/-- Error causes in the order of their codes 0x01 to 0x2D (17 R412). -/
inductive Cause where
  | chkMismatch | chkSuspect | chkFail | parity | valveRestart | valveFault | versionReload | versionFault
  | holdTimeout | addrFault | pickRefused | memUncorr | eccFrame | cxlLink | hbmTrain | epochExhausted
  | scoreRefused | fmtUnsupported | authFail | portDown | sendRefused | recvOverrun | collTimeout | digestMismatch
  | dualMismatch | located | adderFault | paramMismatch | repeatLimit | commitSplit | collPathLost | rollbackReq
  | rollbackRepeat | shardFail | ckptTarget | ckptFail | restartFailed | confRefused | measRefused | etudeFail
  | etudeMarginal | mpRestart | bootImage | keystore | mpRepeat
deriving DecidableEq, Repr

/-- Hold causes in the order of their codes 0 to 7 (07 R171). -/
inductive HoldCause where
  | errorRetry | versionWait | lateLink | tileRecomp | farTier | hbmRefresh | scalar | other
deriving DecidableEq, Repr

/-- The Valve's opcodes 0x00 to 0x1E in the order of the instruction table (06 R146). -/
inductive VOp where
  | nop | add | sub | mul | fma | min | max | cmp | sel | exp2 | log2 | rcp | rsqrt | tanh | sigm | cvt
  | qnt | dq | perm | permx | shl | shr | sar | and | or | xor | mov | in_ | out | drn | movi
deriving DecidableEq, Repr

/-- A memory: address and byte pairs, addresses strictly rising, no entry equal to what an unlisted byte reads as. -/
abbrev Memory := List (Nat × Byte)

/-- A sparse map from a natural number, held in the same canonical form as a memory. -/
abbrev SMap (V : Type) := List (Nat × V)

end Sys2Proof
end

