-- ==== Sys2Proof/Syntax.lean ====
section
/-! DEFINITION. The commands of the block: one constructor of `Instr` for each row of the operation and event table,
and the operands they carry. A command that is a stop-protocol request carries the request's header fields and its
payload; a command that is an event carries what the surroundings show the device at that moment (log 12). -/

namespace Sys2Proof

/-- Header fields of an authenticated request (14 R356): session handle, transaction ID, protocol version. -/
structure Req where
  session : Nat := 0
  txid : Nat := 0
  version : Nat := 1
deriving DecidableEq, Repr

/-- A job binding as written (21 R477), reserved fields included. -/
structure BindArg where
  job : Nat := 0
  rsvA : Nat := 0
  span : Nat := 1
  rsvB : Nat := 0
  seed : Nat := 0
deriving DecidableEq, Repr

/-- What the boot ROM finds (15 R372; 17 R412): images that fail their check as (component 0 to 2, slot B), and whether
the secure key store fails its self-check. -/
structure BootObs where
  bad : List (Nat × Bool) := []
  keystoreBad : Bool := false
deriving DecidableEq, Repr

/-- A CXL device as the port finds it after training (09 R253). -/
structure CxlObs where
  present : Bool := false
  rate : Nat := 0
  width : Nat := 0
  type3 : Bool := false
  capacity : Nat := 0
deriving DecidableEq, Repr

/-- What a channel boot finds (20 R463): a pseudo-channel that fails training, Reeds failing the boot set with the
first failing Étude, failures of other units, columns found failed, and the CXL expander. -/
structure ChannelBootObs where
  hbmFail : Option Nat := none
  resetFail : Bool := false
  failing : List (Nat × Nat) := []
  otherFail : Option Nat := none
  columns : List (Nat × Nat) := []
  cxl : CxlObs := {}
  tj : Nat := 60
deriving DecidableEq, Repr

/-- Fields of a SESSION OPEN (14 R358) with the randomness the device draws for it. -/
structure OpenFrame where
  role : Nat := 0
  job : Nat := 0
  cap : Nat := 8192
  nonce : List Byte := []
  kemKey : List Byte := []
  pub : List Byte := []
deriving DecidableEq, Repr

/-- A frame at the host port (13 R332 to R334): source channel when a channel of this device sent it, endpoint
addressed (0 Mouthpiece, 1 to 4 channels), frame length, bytes each endpoint's consumer has taken since the last frame,
whether it is a pause frame or a congestion notification, the stop-protocol datagram it carries, and the microsecond. -/
structure HostFrame where
  src : Option Nat := none
  dst : Option Nat := none
  len : Nat := 64
  drained : List Nat := []
  pause : Bool := false
  cnp : Bool := false
  dgram : Option (List Byte) := none
  now : Nat := 0
deriving DecidableEq, Repr

/-- A disturbance of stored bits (03 R86; 09 R236, R240, R251, R255), as the surroundings show it with the commands that name one: kind 0 parity of a Reed SRAM chord, 1 parity of a
wind chest chord, 2 one symbol of a codeword, 3 more than one, 4 on-die correction, 5 on-die uncorrected error,
6 CXL poison, 7 parity of a Reed's accumulators, 8 parity of its output buffer (03 R84); the physical Reed for kinds 0, 7 and 8; the
chord address, the tier address of the codeword, or for kind 8 the place in the output buffer, its slots first. -/
structure Upset where
  kind : Nat := 0
  reed : Nat := 0
  addr : Nat := 0
deriving DecidableEq, Repr

/-- A flit as a receiver has decoded it (10 R262 to R264): its 256 bytes, the codewords that FEC corrected in it and those that it
could not correct. -/
structure RxFlit where
  bytes : List Byte := []
  fecCorr : Nat := 0
  fecUncorr : Nat := 0
deriving DecidableEq, Repr

/-- What the surroundings show at a beat test: prefetch starved (07 R172), crossings on which an action's source is
stalled with whether a refresh collision causes it (07 R170), and bits disturbed since the last test. -/
structure BeatObs where
  starved : Bool := false
  stalls : List (Nat × Bool) := []
  upsets : List Upset := []
deriving DecidableEq, Repr

/-- A finished phase of a full Étude run (18 R431): passed, first failing Étude, highest junction temperature, whether
the junction target was missed, and a column found failed (01 R16). -/
structure EtudeObs where
  pass : Bool := true
  etude : Nat := 0xFFFF
  tj : Nat := 60
  heatShort : Bool := false
  column : Option Nat := none
deriving DecidableEq, Repr

/-- A manifest and the objects behind it, whole LBAs as written, as read from one target (13 R341, R343). -/
structure CkptImage where
  target : Nat := 0
  manifest : List Byte := []
  objects : List (List Byte) := []
deriving DecidableEq, Repr

/-- The result of one shard read (13 R337): the data as stored, or none when every attempt on every source failed. -/
structure ShardObs where
  step : Nat := 0
  data : Option (List Byte) := none
deriving DecidableEq, Repr

/-- The commands: one constructor for each row of the operation and event table. -/
inductive Instr where
  | powerOn (o : BootObs)
  | strapEnd (samples : List Nat)
  | resetN
  | mpFirmwareReady
  | channelReady (c : ChanId) (o : ChannelBootObs)
  | channelReset (q : Req) (c : ChanId) (arg : List Byte)
  | stopListRestore (q : Req) (arg : List Byte)
  | bind (q : Req) (c : ChanId) (b : BindArg)
  | unbind (q : Req) (c : ChanId) (b : BindArg)
  | stopWrite (q : Req) (index sub : Nat) (data : List Byte)
  | read (q : Req) (index sub : Nat)
  | readBlock (q : Req) (index sub offset maximum : Nat)
  | readBlockSnapshotExpire (session : Nat)
  | writeBlock (q : Req) (index sub total offset : Nat) (data : List Byte)
  | writeBlockTimeout (session : Nat)
  | subscribeCancel (q : Req) (index sub : Nat)
  | subscribeOnChange (q : Req) (index sub interval : Nat)
  | subscribeEachEntry (q : Req) (index sub interval : Nat)
  | sessionOpen (q : Req) (f : OpenFrame)
  | sessionFinish (q : Req) (handle : Nat) (signature : List Byte)
  | sessionClose (q : Req)
  | sessionOpenExpire (handle : Nat)
  | sessionIdleTimeout (handle idle : Nat)
  | closeSession (q : Req) (arg : List Byte)
  | clientKeyListWrite (q : Req) (data : List Byte)
  | hostFrameReceive (f : HostFrame)
  | hostLinkDown
  | hostLinkUp (lanes : Nat)
  | cmRequest (c : ChanId)
  | hostRdmaWrite (c : ChanId) (addr : Nat) (data : List Byte)
  | bounceRecordReceive (c : ChanId) (record : List Byte)
  | hostEncapKeyWrite (q : Req) (data : List Byte)
  | confidentialModeWrite (q : Req) (arg : List Byte)
  | loadScore (q : Req) (c : ChanId) (arg : List Byte)
  | scoreCheckDone (c : ChanId)
  | startFromPhrase0 (q : Req) (c : ChanId)
  | startFromStep (q : Req) (c : ChanId)
  | stopAtPhraseWrite (q : Req) (c : ChanId) (arg : List Byte)
  | stopComplete (c : ChanId)
  | beatTest (c : ChanId) (o : BeatObs)
  | holdTimeout (c : ChanId)
  | aclkBinChangeDone (c : ChanId)
  | crossingFifoSpace (c : ChanId) (crossing : Nat)
  | versionReloadDone (c : ChanId) (r : ReedId)
  | overflowRetry (c : ChanId) (r : ReedId)
  | checksumMismatch (c : ChanId) (r : ReedId)
  | tilePassEnd (c : ChanId) (r : ReedId)
  | underflowPass (c : ChanId) (r : ReedId)
  | tileRelease (c : ChanId) (r : ReedId)
  | valveRestart (c : ChanId) (r : ReedId)
  | vrunComplete (c : ChanId) (r : ReedId)
  | nop (c : ChanId) (r : ReedId)
  | add (c : ChanId) (r : ReedId)
  | sub (c : ChanId) (r : ReedId)
  | mul (c : ChanId) (r : ReedId)
  | fma (c : ChanId) (r : ReedId)
  | min (c : ChanId) (r : ReedId)
  | max (c : ChanId) (r : ReedId)
  | cmp (c : ChanId) (r : ReedId)
  | sel (c : ChanId) (r : ReedId)
  | exp2 (c : ChanId) (r : ReedId)
  | log2 (c : ChanId) (r : ReedId)
  | rcp (c : ChanId) (r : ReedId)
  | rsqrt (c : ChanId) (r : ReedId)
  | tanh (c : ChanId) (r : ReedId)
  | sigm (c : ChanId) (r : ReedId)
  | cvt (c : ChanId) (r : ReedId)
  | qnt (c : ChanId) (r : ReedId)
  | dq (c : ChanId) (r : ReedId)
  | perm (c : ChanId) (r : ReedId)
  | permx (c : ChanId) (r : ReedId)
  | shl (c : ChanId) (r : ReedId)
  | shr (c : ChanId) (r : ReedId)
  | sar (c : ChanId) (r : ReedId)
  | and_ (c : ChanId) (r : ReedId)
  | or_ (c : ChanId) (r : ReedId)
  | xor_ (c : ChanId) (r : ReedId)
  | mov (c : ChanId) (r : ReedId)
  | in_ (c : ChanId) (r : ReedId)
  | out (c : ChanId) (r : ReedId)
  | drn (c : ChanId) (r : ReedId)
  | movi (c : ChanId) (r : ReedId)
  | scalarWrite (c : ChanId) (r : Option ReedId) (reg : Fin 32) (value : BitVec 16)
  | ploadComplete (c : ChanId) (mover : Fin 32)
  | moveComplete (c : ChanId) (mover : Fin 32)
  | pickComplete (c : ChanId) (mover : Fin 32)
  | mxioComplete (c : ChanId) (mover : Fin 32)
  | openGranted (c : ChanId)
  | verdictAgreed (c : ChanId) (upsets : List Upset)
  | scalarsDone (c : ChanId)
  | rollback (c : ChanId)
  | tunerClearCounters (q : Req) (c : ChanId)
  | tunerClearLog (q : Req) (c : ChanId)
  | sendComplete (c : ChanId) (p : PortId)
  | collMainPassDone (c : ChanId) (cseq : Nat)
  | collDelivered (c : ChanId) (cseq : Nat) (upsets : List Upset)
  | collTimeout (c : ChanId) (cseq : Nat)
  | sequencedFlitReceive (c : ChanId) (p : PortId) (flit : List Byte) (now fecCorr fecUncorr : Nat)
  | keyDerived (c : ChanId) (p : PortId)
  | ackReceive (c : ChanId) (p : PortId) (flit : RxFlit)
  | nakReceive (c : ChanId) (p : PortId) (flit : RxFlit)
  | creditReceive (c : ChanId) (p : PortId) (flit : RxFlit)
  | helloReceive (c : ChanId) (p : PortId) (flit : RxFlit)
  | flitSlot (c : ChanId) (p : PortId)
  | ackTimer (c : ChanId) (p : PortId)
  | replayTimeout (c : ChanId) (p : PortId)
  | creditTimer (c : ChanId) (p : PortId)
  | helloTimer (c : ChanId) (p : PortId)
  | laneLockLoss (c : ChanId) (p : PortId)
  | downIdleEnd (c : ChanId) (p : PortId)
  | trainingDone (c : ChanId) (p : PortId)
  | portCountersClear (q : Req) (c : ChanId) (mask : BitVec 8)
  | collCountersClear (q : Req) (c : ChanId)
  | pathPlanWrite (q : Req) (c : ChanId) (data : List Byte)
  | discoveryWindowEnd (c : ChanId)
  | classMapWrite (q : Req) (c : ChanId) (space1 : Bool) (data : List Byte)
  | hbmRefresh (c : ChanId) (delayed : List Nat)
  | scrubRead (c : ChanId) (found : Option Upset)
  | cxlLinkLoss (c : ChanId)
  | memCountersClear (q : Req) (c : ChanId)
  | shardFetch (c : ChanId)
  | shardResident (c : ChanId) (o : ShardObs)
  | targetReconnect (c : ChanId) (target : Fin 4) (ok : Bool)
  | checkpointTargetFail (c : ChanId) (target : Fin 4)
  | checkpointDone (c : ChanId) (target : Fin 4)
  | restart (q : Req) (c : ChanId) (arg : List Byte)
  | weightLoadOpen (q : Req) (c : ChanId) (data : List Byte)
  | weightLoadClose (q : Req) (c : ChanId) (arg : List Byte)
  | weightMeasureDone (c : ChanId)
  | attestationNonce (q : Req) (nonce : List Byte)
  | attestationSigned
  | updateImage (q : Req) (image : List Byte) (stored : Bool)
  | activateMpFirmware (q : Req)
  | activateChanterFirmware (q : Req)
  | activateEtudePack (q : Req)
  | mouthpieceReset (q : Req) (mask : BitVec 3)
  | raiseMinSvn (q : Req) (arg : List Byte) (sagAfter : Option Nat)
  | programOperatorSlot (q : Req) (digest : List Byte) (interrupted : Bool)
  | mpWatchdog (pclk : Nat)
  | mpTrap (pclk : Nat)
  | errorFifoDrain (c : ChanId)
  | haltResetTimer (c : ChanId)
  | logClear (q : Req) (arg : List Byte)
  | etudeDue (c : ChanId) (r : ReedId)
  | rotationCopyDone (c : ChanId)
  | etudePhaseDone (c : ChanId) (o : EtudeObs)
  | deferralDeadline (c : ChanId) (r : ReedId)
  | etudeWindowEnd (c : ChanId)
  | reinstate (q : Req) (arg : List Byte)
  | reinstateAll (q : Req) (c : ChanId)
  | operatorSupplementWrite (q : Req) (data : List Byte)
  | sagDetect (psag : Bool) (vin : Nat)
  | channelSaveWritten (c : ChanId)
  | saveComplete (micros vmin : Nat)
  | resumeDecision (vin micros : Nat)
  | resumeStart (c : ChanId)
  | powerOff (vin : Nat)
  | ovEvent (vin : Nat)
  | capCheck (milliwatts : Nat) (channels : List Nat)
  | boardCapLevel (level : Fin 16)
  | enterStandby (q : Req)
  | leaveStandby (q : Req)
  | thermalSample (c : ChanId) (tj : Nat) (readouts : List Nat)
  | thermN (low : Bool)
  | thermalTrip
  | refclkLLoss
  | refclkCLoss
  | declaredTimeWrite (q : Req) (arg : List Byte)
  | meterPoll (linkUp : Bool)
  | meterReadoutRequest (q : Req) (data : List Byte)
  | readoutComplete
  | meterInterval (input : Nat) (channels : List Nat)
  | mtrPulseEnd
  | sealLoopSample (ohms : Nat)
  | sealBroken
  | sealed
  | meterPowerUp (wireIntact snapshotOk : Bool)
  | resetNRelease
  | refclkLReturn
  | lowInput (vin : Nat)
  | ovEpisodeEnd (vin : Nat)
  | ovAlertHoldEnd
  | crystalStop
  | restartLoadDone (c : ChanId) (images : List CkptImage)
  | returnToP2
  | chordReloadDone (c : ChanId) (r : ReedId) (upsets : List Upset)
deriving DecidableEq, Repr

end Sys2Proof
end

