-- ==== Sys2Proof/Machine/Bytes.lean ====
section
/-! DEFINITION. Little-endian fields, bit fields and small list helpers: how every structure of the device is laid
out in bytes (00 R6), and the sparse maps in canonical form that memories and large tables are held in. -/

namespace Sys2Proof

/-- The byte with the low eight bits of a number. -/
def byteOf (n : Nat) : Byte := BitVec.ofNat 8 n

/-- `k` bytes of `v`, least significant byte first (00 R6). -/
def leBytes (k v : Nat) : List Byte :=
  match k with
  | 0 => []
  | k + 1 => byteOf v :: leBytes k (v / 256)

/-- The number spelt by bytes, least significant byte first (00 R6). -/
def ofLe : List Byte → Nat
  | [] => 0
  | b :: bs => b.toNat + 256 * ofLe bs

/-- The number spelt by bytes, most significant byte first (fields of published standards, 00 R6). -/
def ofBe (bs : List Byte) : Nat := bs.foldl (fun acc b => acc * 256 + b.toNat) 0

/-- `k` bytes of `v`, most significant byte first. -/
def beBytes (k v : Nat) : List Byte := (leBytes k v).reverse

/-- `n` bytes of `bs` from offset `i`; bytes beyond the end read as zero. -/
def slice (bs : List Byte) (i n : Nat) : List Byte :=
  let l := (bs.drop i).take n
  l ++ List.replicate (n - l.length) 0#8

/-- The little-endian field of `n` bytes at offset `i`. -/
def fieldLe (bs : List Byte) (i n : Nat) : Nat := ofLe (slice bs i n)

/-- One byte at offset `i` as a number; zero beyond the end. -/
def byteAt (bs : List Byte) (i : Nat) : Nat := (bs.getD i 0#8).toNat

/-- Bits `[hi:lo]` of a number (00 R5). -/
def bitsOf (v hi lo : Nat) : Nat := v / 2 ^ lo % 2 ^ (hi + 1 - lo)

/-- Bit `i` of a number as a truth value. -/
def bitOf (v i : Nat) : Bool := v / 2 ^ i % 2 == 1

/-- A truth value as a bit. -/
def bit (b : Bool) : Nat := if b then 1 else 0

/-- A number with bit `i` set. -/
def withBit (v i : Nat) : Nat := if bitOf v i then v else v + 2 ^ i

/-- A number with bit `i` clear. -/
def withoutBit (v i : Nat) : Nat := if bitOf v i then v - 2 ^ i else v

/-- Signed value of an `n`-bit two's complement field. -/
def toSigned (n v : Nat) : Int := if v % 2 ^ n ≥ 2 ^ (n - 1) then (v % 2 ^ n : Nat) - (2 ^ n : Nat) else (v % 2 ^ n : Nat)

/-- Two's complement code of a signed number in `n` bits. -/
def ofSigned (n : Nat) (z : Int) : Nat := (z % ((2 ^ n : Nat) : Int)).toNat

/-- Clamp of an integer to a range. -/
def clampInt (lo hi z : Int) : Int := max lo (min hi z)

/-- Bytes with the bytes at offset `i` replaced by `v`, the length unchanged. -/
def patch (bs : List Byte) (i : Nat) (v : List Byte) : List Byte :=
  bs.take i ++ v.take (bs.length - i) ++ bs.drop (i + v.length)

/-- Bytes cut or filled with zeros to a length. -/
def fitTo (n : Nat) (bs : List Byte) : List Byte := slice bs 0 n

/-- All bytes are zero. -/
def allZero (bs : List Byte) : Bool := bs.all (· == 0#8)

/-- A list with its element `i` replaced. -/
def setAt {α : Type} (l : List α) (i : Nat) (x : α) : List α := l.set i x

/-- A list with its element `i` changed. -/
def modAt {α : Type} (l : List α) (i : Nat) (f : α → α) : List α := l.modify i f

/-- Cut a list into pieces of `n` elements (`fuel` bounds the pieces). -/
def chunks {α : Type} (n : Nat) (fuel : Nat) (l : List α) : List (List α) :=
  match fuel with
  | 0 => []
  | fuel + 1 => if l.isEmpty then [] else l.take n :: chunks n fuel (l.drop n)

/-- Counters saturate at their width (03 R93, 04 R104 and every other counter table). -/
def sat32 (n k : Nat) : Nat := min (n + k) 0xFFFFFFFF

/-- Saturating 64-bit counter. -/
def sat64 (n k : Nat) : Nat := min (n + k) 0xFFFFFFFFFFFFFFFF

/-- Saturating 16-bit counter. -/
def sat16 (n k : Nat) : Nat := min (n + k) 0xFFFF

/-- Wrapping 32-bit value. -/
def wrap32 (n : Nat) : Nat := n % 2 ^ 32

/-- Wrapping 64-bit value. -/
def wrap64 (n : Nat) : Nat := n % 2 ^ 64

/-! ### Sparse maps in canonical form -/

/-- The value at a key; an unlisted key reads as the default. -/
def SMap.get {V : Type} (dflt : V) (m : SMap V) (k : Nat) : V :=
  match m with
  | [] => dflt
  | (k', v) :: rest => if k = k' then v else if k < k' then dflt else SMap.get dflt rest k

/-- Insert or replace an entry, whatever the value. -/
def SMap.put {V : Type} (m : SMap V) (k : Nat) (v : V) : SMap V :=
  match m with
  | [] => [(k, v)]
  | (k', v') :: rest =>
    if k = k' then (k, v) :: rest
    else if k < k' then (k, v) :: (k', v') :: rest
    else (k', v') :: SMap.put rest k v

/-- Remove an entry. -/
def SMap.drop {V : Type} (m : SMap V) (k : Nat) : SMap V :=
  match m with
  | [] => []
  | (k', v') :: rest =>
    if k = k' then rest
    else if k < k' then (k', v') :: rest
    else (k', v') :: SMap.drop rest k

/-- Write a value, keeping the canonical form: writing the default removes the entry. -/
def SMap.set {V : Type} [DecidableEq V] (dflt : V) (m : SMap V) (k : Nat) (v : V) : SMap V :=
  if v = dflt then SMap.drop m k else SMap.put m k v

/-- The canonical form: keys strictly rising and no entry equal to the default. -/
def SMap.wf {V : Type} [DecidableEq V] (dflt : V) (m : SMap V) : Bool :=
  match m with
  | [] => true
  | (k, v) :: rest =>
    decide (v ≠ dflt) && (match rest with | [] => true | (k', _) :: _ => decide (k < k')) && SMap.wf dflt rest

/-- Change every listed value, keeping the canonical form. -/
def SMap.mapVals {V : Type} [DecidableEq V] (dflt : V) (m : SMap V) (f : V → V) : SMap V :=
  match m with
  | [] => []
  | (k, v) :: rest => if f v = dflt then SMap.mapVals dflt rest f else (k, f v) :: SMap.mapVals dflt rest f

/-- Remove every entry with a key in `[lo, hi)`. -/
def SMap.clear {V : Type} (m : SMap V) (lo hi : Nat) : SMap V := m.filter (fun e => e.1 < lo || hi ≤ e.1)

/-! ### Memories -/

/-- What a byte of memory that nothing has written reads as.
DESIGN CHOICE (log 6): the spec gives no contents after power-on. Unsafe. -/
def unwritten : Byte := 0#8

/-- Read one byte. -/
def Memory.rd (m : Memory) (a : Nat) : Byte := SMap.get unwritten m a

/-- Write one byte. -/
def Memory.wr (m : Memory) (a : Nat) (b : Byte) : Memory := SMap.set unwritten m a b

/-- The canonical form of a memory. -/
def Memory.wf (m : Memory) : Bool := SMap.wf unwritten m

/-- Read `n` bytes from an address. -/
def Memory.read (m : Memory) (a n : Nat) : List Byte :=
  match n with
  | 0 => []
  | n + 1 => m.rd a :: Memory.read m (a + 1) n

/-- Write bytes at an address. -/
def Memory.write (m : Memory) (a : Nat) (bs : List Byte) : Memory :=
  match bs with
  | [] => m
  | b :: bs => Memory.write (m.wr a b) (a + 1) bs

/-- Make every byte of a range read as unwritten. -/
def Memory.zeroRange (m : Memory) (a n : Nat) : Memory := SMap.clear m a (a + n)

end Sys2Proof
end

