-- ==== Sys2Proof/Machine/Hash.lean ====
section
/-! DEFINITION. The published algorithms the spec names: CRC-32C (02 R43), CRC-64/XZ (15 R377 and the chapters that
cite it), SHAKE256 (02 R48, 03 R70, 15), AES-256 in GCM (10 R274, 14 R358). Each is written from its standard; that
the device computes these functions is what the spec says by naming them (log 4). -/

namespace Sys2Proof.Hash

open Sys2Proof

/-- One bit of a reflected CRC register. -/
def crcBit (poly c : Nat) : Nat := if c % 2 = 1 then (c / 2) ^^^ poly else c / 2

/-- One byte into a reflected CRC register. -/
def crcByte (poly c : Nat) (b : Byte) : Nat :=
  let c := c ^^^ b.toNat
  crcBit poly (crcBit poly (crcBit poly (crcBit poly (crcBit poly (crcBit poly (crcBit poly (crcBit poly c)))))))

/-- CRC-32C: polynomial 0x1EDC6F41 reflected, initial value and final XOR all ones (02 R43). -/
def crc32c (bs : List Byte) : Nat := (bs.foldl (crcByte 0x82F63B78) 0xFFFFFFFF) ^^^ 0xFFFFFFFF

/-- CRC-64/XZ: polynomial 0x42F0E1EBA9EA3693 reflected, initial value and final XOR all ones. -/
def crc64xz (bs : List Byte) : Nat :=
  (bs.foldl (crcByte 0xC96C5795D7870F42) 0xFFFFFFFFFFFFFFFF) ^^^ 0xFFFFFFFFFFFFFFFF

/-! ### SHAKE256 (FIPS 202) -/

/-- A 64-bit lane rotated left. -/
def rotl64 (v n : Nat) : Nat := ((v <<< n) ||| (v >>> (64 - n))) % 2 ^ 64

/-- Rotation offsets of the rho step, lane `x + 5y`. -/
def rhoOffsets : List Nat :=
  [0, 1, 62, 28, 27, 36, 44, 6, 55, 20, 3, 10, 43, 25, 39, 41, 45, 15, 21, 8, 18, 2, 61, 56, 14]

/-- One step of the round-constant LFSR of Keccak. -/
def rcStep (r : Nat) : Nat := let r2 := r * 2; if r2 ≥ 256 then (r2 % 256) ^^^ 0x71 else r2

/-- Round constant of a round, and the LFSR after it. -/
def rcRound (r : Nat) : Nat × Nat :=
  [0, 1, 2, 3, 4, 5, 6].foldl (fun (p : Nat × Nat) j =>
    ((if p.2 % 2 = 1 then p.1 ^^^ 2 ^ (2 ^ j - 1) else p.1), rcStep p.2)) (0, r)

/-- One round of Keccak-f[1600] on 25 lanes with a round constant. -/
def keccakRound (a : List Nat) (rc : Nat) : List Nat :=
  let ix := fun (l : List Nat) (x y : Nat) => l.getD (x % 5 + 5 * (y % 5)) 0
  let c := (List.range 5).map (fun x => ix a x 0 ^^^ ix a x 1 ^^^ ix a x 2 ^^^ ix a x 3 ^^^ ix a x 4)
  let d := (List.range 5).map (fun x => c.getD ((x + 4) % 5) 0 ^^^ rotl64 (c.getD ((x + 1) % 5) 0) 1)
  let th := (List.range 25).map (fun i => a.getD i 0 ^^^ d.getD (i % 5) 0)
  let ro := (List.range 25).map (fun i => rotl64 (th.getD i 0) (rhoOffsets.getD i 0))
  -- pi: lane (x, y) takes lane (x + 3y, x)
  let pi := (List.range 25).map (fun i => let x := i % 5; let y := i / 5; ix ro (x + 3 * y) x)
  let chi := (List.range 25).map (fun i =>
    let x := i % 5; let y := i / 5
    ix pi x y ^^^ ((ix pi (x + 1) y ^^^ (2 ^ 64 - 1)) &&& ix pi (x + 2) y))
  match chi with
  | [] => []
  | l :: ls => (l ^^^ rc) :: ls

/-- Keccak-f[1600], `n` rounds left. -/
def keccakRounds (n r : Nat) (a : List Nat) : List Nat :=
  match n with
  | 0 => a
  | n + 1 => let (rc, r') := rcRound r; keccakRounds n r' (keccakRound a rc)

/-- Keccak-f[1600]. -/
def keccakF (a : List Nat) : List Nat := keccakRounds 24 1 a

/-- XOR a block of bytes into the state from lane 0 on. -/
def absorb (a : List Nat) (blk : List Byte) : List Nat :=
  (List.range 25).map (fun i => a.getD i 0 ^^^ fieldLe blk (8 * i) 8)

/-- Pad a message for SHAKE with rate 136. -/
def shakePad (m : List Byte) : List Byte :=
  let k := 136 - m.length % 136
  if k = 1 then m ++ [0x9F#8] else m ++ [0x1F#8] ++ List.replicate (k - 2) 0#8 ++ [0x80#8]

/-- Squeeze `n` bytes. -/
def squeeze (fuel : Nat) (a : List Nat) (n : Nat) : List Byte :=
  match fuel with
  | 0 => []
  | fuel + 1 =>
    let out := ((a.take 17).map (leBytes 8)).flatten
    if n ≤ 136 then out.take n else out ++ squeeze fuel (keccakF a) (n - 136)

/-- SHAKE256 of a message, `n` bytes of output. -/
def shake256 (m : List Byte) (n : Nat) : List Byte :=
  let p := shakePad m
  let a := (chunks 136 (p.length / 136) p).foldl (fun a blk => keccakF (absorb a blk)) (List.replicate 25 0)
  squeeze (n / 136 + 1) a n

/-- The 64-byte hash of the device: SHAKE256 with 512 bits of output (15). -/
def shake512 (m : List Byte) : List Byte := shake256 m 64

/-! ### AES-256 (FIPS 197) and GCM (SP 800-38D) -/

/-- Multiplication by x in GF(2^8) of AES. -/
def xtime (a : Nat) : Nat := let b := a * 2; if b ≥ 256 then (b % 256) ^^^ 0x1B else b

/-- Product in GF(2^8), over the bits of `b`. -/
def gmulAux (n a b : Nat) : Nat :=
  match n with
  | 0 => 0
  | n + 1 => (if b % 2 = 1 then a else 0) ^^^ gmulAux n (xtime a) (b / 2)

/-- Product in GF(2^8) of AES. -/
def gmul (a b : Nat) : Nat := gmulAux 8 a b

/-- The inverse `a^254` in GF(2^8), 0 for 0. -/
def ginv (a : Nat) : Nat :=
  let a2 := gmul a a
  let a4 := gmul a2 a2
  let a8 := gmul a4 a4
  let a16 := gmul a8 a8
  let a32 := gmul a16 a16
  let a64 := gmul a32 a32
  let a128 := gmul a64 a64
  gmul (gmul (gmul a128 a64) (gmul a32 a16)) (gmul (gmul a8 a4) a2)

/-- The AES S-box. -/
def sbox (a : Nat) : Nat :=
  let b := ginv a
  let r := fun (k : Nat) => (b * 2 ^ k) % 256 + b / 2 ^ (8 - k)
  b ^^^ r 1 ^^^ r 2 ^^^ r 3 ^^^ r 4 ^^^ 0x63

/-- Key schedule of AES-256: 60 words of 4 bytes, built in order (`w` newest first). -/
def keyWords (n i rcon : Nat) (w : List (List Nat)) : List (List Nat) :=
  match n with
  | 0 => w.reverse
  | n + 1 =>
    let prev := w.getD 0 []
    let back := w.getD 7 []
    let t :=
      if i % 8 = 0 then
        let r := (prev.drop 1 ++ prev.take 1).map sbox
        (List.range 4).map (fun k => r.getD k 0 ^^^ (if k = 0 then rcon else 0))
      else if i % 8 = 4 then prev.map sbox
      else prev
    let new := (List.range 4).map (fun k => t.getD k 0 ^^^ back.getD k 0)
    keyWords n (i + 1) (if i % 8 = 0 then xtime rcon else rcon) (new :: w)

/-- Round keys of a 32-byte key: 15 keys of 16 bytes. -/
def roundKeys (key : List Byte) : List (List Nat) :=
  let k := (chunks 4 8 (fitTo 32 key)).map (fun c => c.map BitVec.toNat)
  chunks 16 15 (keyWords 52 8 1 k.reverse).flatten

/-- XOR of two byte lists of 16. -/
def xor16 (a b : List Nat) : List Nat := (List.range 16).map (fun i => a.getD i 0 ^^^ b.getD i 0)

/-- ShiftRows on the column-major state. -/
def shiftRows (s : List Nat) : List Nat :=
  (List.range 16).map (fun i => let r := i % 4; let c := i / 4; s.getD (r + 4 * ((c + r) % 4)) 0)

/-- MixColumns. -/
def mixColumns (s : List Nat) : List Nat :=
  (List.range 16).map (fun i =>
    let c := i / 4 * 4; let r := i % 4
    let g := fun k => s.getD (c + (r + k) % 4) 0
    xtime (g 0) ^^^ (xtime (g 1) ^^^ g 1) ^^^ g 2 ^^^ g 3)

/-- Encrypt one block with expanded keys. -/
def aesBlock (rk : List (List Nat)) (blk : List Nat) : List Nat :=
  let s0 := xor16 blk (rk.getD 0 [])
  let s := (List.range 13).foldl (fun s r =>
    xor16 (mixColumns (shiftRows (s.map sbox))) (rk.getD (r + 1) [])) s0
  xor16 (shiftRows (s.map sbox)) (rk.getD 14 [])

/-- Product in the GCM field, operands as 128-bit numbers with bit 127 first. -/
def ghMulAux (n : Nat) (z v x : Nat) : Nat :=
  match n with
  | 0 => z
  | n + 1 =>
    let z := if x / 2 ^ n % 2 = 1 then z ^^^ v else z
    let v := if v % 2 = 1 then (v / 2) ^^^ 0xE1000000000000000000000000000000 else v / 2
    ghMulAux n z v x

/-- GHASH of zero-padded blocks. -/
def ghash (h : Nat) (bs : List Byte) : Nat :=
  (chunks 16 (bs.length / 16 + 1) bs).foldl (fun y blk => ghMulAux 128 0 h (y ^^^ ofBe (fitTo 16 blk))) 0

/-- Bytes padded with zeros to a multiple of 16. -/
def pad16 (bs : List Byte) : List Byte := bs ++ List.replicate ((16 - bs.length % 16) % 16) 0#8

/-- The counter-mode stream of GCM. -/
def ctrStream (rk : List (List Nat)) (j : Nat) (n : Nat) : List Byte :=
  match n with
  | 0 => []
  | n + 1 =>
    let blk := (beBytes 16 j).map BitVec.toNat
    let j' := j / 2 ^ 32 * 2 ^ 32 + (j + 1) % 2 ^ 32
    (aesBlock rk blk).map byteOf ++ ctrStream rk j' n

/-- XOR of two byte lists, to the length of the first. -/
def xorBytes (a b : List Byte) : List Byte := (a.zip b).map (fun p => p.1 ^^^ p.2)

/-- AES-256-GCM with a 12-byte nonce: ciphertext and 16-byte tag. -/
def gcmSeal (key nonce aad pt : List Byte) : List Byte × List Byte :=
  let rk := roundKeys key
  let h := ofBe ((aesBlock rk (List.replicate 16 0)).map byteOf)
  let j0 := ofBe (fitTo 12 nonce) * 2 ^ 32 + 1
  let ct := xorBytes pt (ctrStream rk (j0 + 1) ((pt.length + 15) / 16))
  let s := ghash h (pad16 aad ++ pad16 ct ++ beBytes 8 (8 * aad.length) ++ beBytes 8 (8 * ct.length))
  (ct, xorBytes (beBytes 16 s) (ctrStream rk j0 1))

/-- Open an AES-256-GCM record: the plaintext when the tag holds. -/
def gcmOpen (key nonce aad ct tag : List Byte) : Option (List Byte) :=
  let rk := roundKeys key
  let h := ofBe ((aesBlock rk (List.replicate 16 0)).map byteOf)
  let j0 := ofBe (fitTo 12 nonce) * 2 ^ 32 + 1
  let s := ghash h (pad16 aad ++ pad16 ct ++ beBytes 8 (8 * aad.length) ++ beBytes 8 (8 * ct.length))
  if xorBytes (beBytes 16 s) (ctrStream rk j0 1) = tag then
    some (xorBytes ct (ctrStream rk (j0 + 1) ((ct.length + 15) / 16)))
  else none

end Sys2Proof.Hash
end

