-- ==== Sys2Proof/Config.lean ====
section
/-! DEFINITION. What one part fixes at manufacture and the manual does not state, and the values the manual leaves
open. Every constant here is opaque: nothing can be proved of its value, so a claim holds whatever it is (logs 4, 5, 11). -/

namespace Sys2Proof.Config

open Sys2Proof

/-- The free values: the n-th value drawn (log 5). The model reduces it to the range the manual leaves. -/
opaque freeNat : Nat → Nat

/-- 0x1018.04 of this part (15 R501). -/
opaque serial : Nat

/-- 0x1018.03 of this part (15 R501). -/
opaque revision : Nat

/-- 0x8004 of this part (15 R501). -/
opaque keyDomain : Nat

/-- The key-domain key, 32 bytes (15 R366). -/
opaque keyDomainKey : List Byte

/-- Identity public key, 1,793 bytes (15 R369). -/
opaque identityPub : List Byte

/-- Vendor signature of the device certificate, 1,280 bytes (15 R369). -/
opaque certificateSig : List Byte

/-- Fused vendor key digest (15 R366). -/
opaque vendorDigest : List Byte

/-- Fused operator provisioning key digest (15 R366, 14 R354). -/
opaque provisioningDigest : List Byte

/-- Meter serial, approval ID, meter public key and vendor signature block of 0x9000 (16 R399). -/
opaque meterSerial : Nat
/-- Approval ID, 32 bytes. -/
opaque meterApproval : List Byte
/-- Meter public key, 1,793 bytes. -/
opaque meterPub : List Byte
/-- Vendor signature block of the meter identity, 1,282 bytes. -/
opaque meterVendorSig : List Byte
/-- Legal firmware identity and checksum, 96 bytes (16 R399). -/
opaque meterLegal : List Byte

/-- MAC addresses of the five endpoints (13 R332). -/
opaque mac : Nat → List Byte

/-- Falcon-1024 signature by the identity key (15 R366): the padded encoding of 1,280 bytes. -/
opaque identitySign : List Byte → List Byte

/-- Identity public key of the device with a serial number, as its certificate gives it (15 R369): a checkpoint may have been
written by another device (13 R341). -/
opaque peerKey : Nat → List Byte

/-- Falcon-1024 signature by the meter key (16 R398). -/
opaque meterSign : List Byte → List Byte

/-- Falcon-1024 verification: public key, message, signature. -/
opaque falconVerify : List Byte → List Byte → List Byte → Bool

/-- ML-KEM-1024 encapsulation (FIPS 203): the ciphertext for a key and the randomness drawn. -/
opaque kemCiphertext : List Byte → Nat → List Byte

/-- ML-KEM-1024 encapsulation: the shared secret. -/
opaque kemSecret : List Byte → Nat → List Byte

/-- The body digest of a component image that is active at the factory (15 R372). -/
opaque factoryDigest : Nat → List Byte

/-- The digest of the operator key that has co-signed a component image that is active at the factory, if one has (15 R371; log 79). -/
opaque factoryCosigner : Nat → Option (List Byte)

/-- The entry count of the Étude pack that is active at the factory (18 R425). -/
opaque factoryEntries : Nat

/-- The lane number of a quantiser lane in the seed of its random source (02 R48), which the manual does not give (log 62). -/
opaque quantiserLane : Nat → Nat

/-- The bytes of the service state stop, whose layout the manual does not give (13 R335): per target connected and errors, the
last shard, and whether a checkpoint is in progress. -/
opaque serviceState : List (Bool × Nat) → Nat → Bool → List Byte

/-- The link and fault flags byte of 0x9000, whose bits the manual does not give (16 R399): the link is up, the clock runs. -/
opaque meterFlags : Bool → Bool → Nat

/-- The result code 0x8006.02 shows when fuse programming failed, which the manual does not give (15 R376). -/
opaque fuseFailure : Nat

/-- The pending SVN of 0x8006.02 while no slot is pending, which the manual does not give (15 R376). -/
opaque noPendingSvn : Nat

/-- The event codes, as 0x9000 and 0x9005 hold them, are concrete; the fill of an event slot of 0x9005 that has never been written
is not given by the manual (16 R395). -/
opaque emptyEvent : Byte

/-- LBA size in bytes of the namespace of a target, given its entry (13 R336). -/
opaque lbaSize : List Byte → Nat

/-- MTAG of the DATA packets of an exchange, by its stage and CSEQ (11 R290), which the manual does not give (log 67). -/
opaque exchangeTag : Nat → Nat → Nat

/-- Does a tensor of role 2, named by its descriptor, hold second moments? The descriptor's ROLE does not tell first from second (07 R181;
13 R341; log 47). -/
opaque secondMoments : Nat → Bool

/-- First LBA of an object of a checkpoint, given BASE of its target and the object's number, which the manual does not give (13 R341). -/
opaque objectLba : Nat → Nat → Nat

/-- Sequence numbers of the records that seal an object, which the manual does not give (13 R346, R347; log 69). -/
opaque recordSeq : Nat → Nat → Nat

end Sys2Proof.Config
end

