-- ==== Sys2Proof/Machine/Num.lean ====
section
/-! DEFINITION. Exact arithmetic and rounding: the signed-magnitude numbers the rules compute with, the element
formats of 02 R29, and every rounding and overflow rule (02 R46, R47, R49, R50, R52). -/

namespace Sys2Proof.Num

open Sys2Proof

/-- `2^e` times a natural number, when the exponent may be negative, as quotient and remainder of a shift:
`(m * 2^e) = q + rem / 2^sh`. -/
def shiftSplit (m : Nat) (e : Int) : Nat × Nat × Nat :=
  if 0 ≤ e then (m * 2 ^ e.toNat, 0, 0)
  else let sh := (-e).toNat; (m / 2 ^ sh, m % 2 ^ sh, sh)

/-- Does the magnitude `q + rem/2^sh` round away from zero? `r8` are the eight random bits of stochastic rounding
(02 R46, R47; the directed modes and ties-away are those of the Valve's RND field, 06 R144). -/
def roundsUp (mode : Rnd) (neg : Bool) (q rem sh r8 : Nat) : Bool :=
  match mode with
  | .rne => if 2 * rem > 2 ^ sh then true else if 2 * rem = 2 ^ sh then q % 2 == 1 else false
  | .rtz => false
  | .sr => rem * 256 / 2 ^ sh + r8 ≥ 256
  | .up => !neg && rem != 0
  | .down => neg && rem != 0
  | .away => 2 * rem ≥ 2 ^ sh && rem != 0

/-- Round `m * 2^e` to an integer magnitude (02 R46). -/
def roundInt (mode : Rnd) (neg : Bool) (m : Nat) (e : Int) (r8 : Nat) : Nat :=
  let (q, rem, sh) := shiftSplit m e
  if rem ≠ 0 ∧ roundsUp mode neg q rem sh r8 then q + 1 else q

/-- Floor of the base-2 logarithm of a nonzero magnitude `m * 2^e`. -/
def floorLog2 (m : Nat) (e : Int) : Int := (Nat.log2 m : Int) + e

/-- Compare two magnitudes `m * 2^e`. -/
def magLt (m : Nat) (e : Int) (m' : Nat) (e' : Int) : Bool :=
  if e ≤ e' then m < m' * 2 ^ (e' - e).toNat else m * 2 ^ (e - e').toNat < m'

/-- Equality of two magnitudes. -/
def magEq (m : Nat) (e : Int) (m' : Nat) (e' : Int) : Bool :=
  !magLt m e m' e' && !magLt m' e' m e

/-- A signed integer times a power of two. -/
def ofInt (z : Int) (e : Int) : XNum := .fin (decide (z < 0)) z.natAbs e

/-- The zero of the given sign. -/
def zero (neg : Bool) : XNum := .fin neg 0 0

/-- Is the value a zero of either sign? -/
def isZero : XNum → Bool
  | .fin _ m _ => m == 0
  | _ => false

/-- Is the value finite? -/
def isFin : XNum → Bool
  | .fin _ _ _ => true
  | _ => false

/-- Is the value a NaN? -/
def isNan : XNum → Bool
  | .nan => true
  | _ => false

/-- The sign of a value; NaN counts as positive. -/
def signOf : XNum → Bool
  | .fin n _ _ => n
  | .inf n => n
  | .nan => false

/-- Change of sign. -/
def negate : XNum → XNum
  | .fin n m e => .fin (!n) m e
  | .inf n => .inf (!n)
  | .nan => .nan

/-- Magnitude. -/
def abs : XNum → XNum
  | .fin _ m e => .fin false m e
  | .inf _ => .inf false
  | .nan => .nan

/-- Exact sum; `Inf - Inf` is a NaN. The sum of two values of opposite sign that cancel is `+0`, or `-0` when
rounding toward minus infinity (IEEE 754, cited by 06 R150). -/
def add (down : Bool) : XNum → XNum → XNum
  | .nan, _ => .nan
  | _, .nan => .nan
  | .inf a, .inf b => if a = b then .inf a else .nan
  | .inf a, _ => .inf a
  | _, .inf b => .inf b
  | .fin a m e, .fin b m' e' =>
    let lo := min e e'
    let x : Int := (if a then -1 else 1) * ((m * 2 ^ (e - lo).toNat : Nat) : Int)
    let y : Int := (if b then -1 else 1) * ((m' * 2 ^ (e' - lo).toNat : Nat) : Int)
    let z := x + y
    if z = 0 then .fin (if a = b then a else down) 0 0 else .fin (decide (z < 0)) z.natAbs lo

/-- Exact product; `0 × Inf` is a NaN. -/
def mul : XNum → XNum → XNum
  | .nan, _ => .nan
  | _, .nan => .nan
  | .inf a, .inf b => .inf (a != b)
  | .inf a, .fin b m _ => if m = 0 then .nan else .inf (a != b)
  | .fin a m _, .inf b => if m = 0 then .nan else .inf (a != b)
  | .fin a m e, .fin b m' e' => .fin (a != b) (m * m') (e + e')

/-- A value times `2^k`. -/
def scale (k : Int) : XNum → XNum
  | .fin n m e => .fin n m (e + k)
  | x => x

/-- Order of two values that are not NaN: -1, 0 or 1; both zeros are equal (02 R53). -/
def cmp : XNum → XNum → Int
  | .inf a, .inf b => if a = b then 0 else if a then -1 else 1
  | .inf a, _ => if a then -1 else 1
  | _, .inf b => if b then 1 else -1
  | .fin a m e, .fin b m' e' =>
    if m = 0 ∧ m' = 0 then 0
    else
      let a' := a && m != 0
      let b' := b && m' != 0
      if a' ≠ b' then (if a' then -1 else 1)
      else
        let c : Int := if magLt m e m' e' then -1 else if magLt m' e' m e then 1 else 0
        if a' then -c else c
  | _, _ => 0

/-- Value as a signed integer number of `2^k`, floor. -/
def floorAt (k : Int) : XNum → Int
  | .fin n m e =>
    let (q, rem, _) := shiftSplit m (e - k)
    if n then -((q : Int) + (if rem = 0 then 0 else 1)) else q
  | _ => 0

/-- The larger of two magnitudes of finite values. -/
def maxAbs (x y : XNum) : XNum := if cmp (abs x) (abs y) < 0 then abs y else abs x

/-! ### Element formats (02 R29 to R32) -/

/-- Width of an element in bits (02 R29). -/
def Fmt.bits : Fmt → Nat
  | .e2m1 | .int4 => 4
  | .e3m2 => 6
  | .e4m3 | .e5m2 | .int8 => 8
  | .fp16 | .bf16 => 16

/-- The format with a format ID 0x0 to 0x7; IDs 0x8 to 0xF are reserved (02 R29). -/
def Fmt.ofId? (n : Nat) : Option Fmt :=
  match n with
  | 0 => some .e2m1 | 1 => some .int4 | 2 => some .e3m2 | 3 => some .e4m3
  | 4 => some .e5m2 | 5 => some .int8 | 6 => some .fp16 | 7 => some .bf16
  | _ => none

/-- The format's ID (02 R29). -/
def Fmt.id : Fmt → Nat
  | .e2m1 => 0 | .int4 => 1 | .e3m2 => 2 | .e4m3 => 3 | .e5m2 => 4 | .int8 => 5 | .fp16 => 6 | .bf16 => 7

/-- Is the element a two's complement integer? -/
def Fmt.isInt : Fmt → Bool
  | .int4 | .int8 => true
  | _ => false

/-- Mantissa bits of a floating-point format (02 R29, layout S.E.M). -/
def Fmt.mbits : Fmt → Nat
  | .e2m1 => 1 | .e3m2 => 2 | .e4m3 => 3 | .e5m2 => 2 | .fp16 => 10 | .bf16 => 7 | _ => 0

/-- Exponent bits of a floating-point format (02 R29). -/
def Fmt.ebits : Fmt → Nat
  | .e2m1 => 2 | .e3m2 => 3 | .e4m3 => 4 | .e5m2 => 5 | .fp16 => 5 | .bf16 => 8 | _ => 0

/-- Exponent bias (02 R29). -/
def Fmt.bias : Fmt → Int
  | .e2m1 => 1 | .e3m2 => 3 | .e4m3 => 7 | .e5m2 => 15 | .fp16 => 15 | .bf16 => 127 | _ => 0

/-- Has the format infinities? (02 R29) -/
def Fmt.hasInf : Fmt → Bool
  | .e5m2 | .fp16 | .bf16 => true
  | _ => false

/-- Has the format NaNs? (02 R29) -/
def Fmt.hasNan : Fmt → Bool
  | .e4m3 | .e5m2 | .fp16 | .bf16 => true
  | _ => false

/-- Largest finite value, as a magnitude `m * 2^e` (02 R29). -/
def Fmt.maxMag : Fmt → Nat × Int
  | .e2m1 => (6, 0) | .int4 => (7, 0) | .e3m2 => (28, 0) | .e4m3 => (448, 0)
  | .e5m2 => (57344, 0) | .int8 => (127, 0) | .fp16 => (65504, 0) | .bf16 => (255, 120)

/-- The canonical NaN code of a format with NaNs (02 R52); 0 where there is none. -/
def Fmt.nanCode : Fmt → Nat
  | .e4m3 => 0x7F | .e5m2 => 0x7E | .fp16 => 0x7E00 | .bf16 => 0x7FC0 | _ => 0

/-- The code of an infinity in a format that has one. -/
def Fmt.infCode (f : Fmt) (neg : Bool) : Nat :=
  (if neg then 2 ^ (Fmt.bits f - 1) else 0) + (2 ^ Fmt.ebits f - 1) * 2 ^ Fmt.mbits f

/-- Value of an element code, before any scale (02 R30, R31). A negative-zero code gives `-0` here; every decoder
of memory turns it into `+0` (R49, R45). -/
def decode (f : Fmt) (code : Nat) : XNum :=
  let b := Fmt.bits f
  let c := code % 2 ^ b
  if Fmt.isInt f then
    if c ≥ 2 ^ (b - 1) then .fin true (2 ^ b - c) 0 else .fin false c 0
  else
    let neg := c ≥ 2 ^ (b - 1)
    let E := c / 2 ^ Fmt.mbits f % 2 ^ Fmt.ebits f
    let M := c % 2 ^ Fmt.mbits f
    let top := E = 2 ^ Fmt.ebits f - 1
    if top ∧ Fmt.hasInf f then (if M = 0 then .inf neg else .nan)
    else if top ∧ f = .e4m3 ∧ M = 7 then .nan
    else if E = 0 then .fin neg M (1 - Fmt.bias f - Fmt.mbits f)
    else .fin neg (2 ^ Fmt.mbits f + M) ((E : Int) - Fmt.bias f - Fmt.mbits f)

/-- Exponent of the unit in the last place at which a nonzero magnitude is rounded (02 R46): the spacing of its
binade, or of the subnormals. -/
def ulpExp (f : Fmt) (m : Nat) (e : Int) : Int :=
  if Fmt.isInt f then 0 else max (floorLog2 m e) (1 - Fmt.bias f) - Fmt.mbits f

/-- A rounded magnitude `q * 2^u` that lies in range, as a floating-point code (02 R30). -/
def packMag (f : Fmt) (neg : Bool) (q : Nat) (u : Int) : Nat :=
  let s := if neg then 2 ^ (Fmt.bits f - 1) else 0
  let mb := Fmt.mbits f
  let (q, u) := if q = 2 ^ (mb + 1) then (q / 2, u + 1) else (q, u)
  if q < 2 ^ mb then s + q else s + (u + mb + Fmt.bias f).toNat * 2 ^ mb + (q - 2 ^ mb)

/-- What rounding a value into a format gives: the code and the events the counters and flags are made of. -/
structure Rounded where
  code : Nat := 0
  /-- the value lay outside the finite range and R50 decided (a saturation for the Tuner) -/
  ovf : Bool := false
  /-- the result is not the exact value -/
  inexact : Bool := false
  /-- the result is tiny after rounding: rounded with an unbounded exponent, it lies below the smallest normal (06 R150) -/
  tiny : Bool := false
deriving DecidableEq, Repr

/-- Round an exact finite value into a format and encode it (02 R46, R50). `ieee` is the overflow mode 0x3n01,
`sym` the INT4 symmetric option (R31). The sign of a zero result is kept here; writers apply R49. -/
def roundFin (f : Fmt) (mode : Rnd) (ieee sym : Bool) (neg : Bool) (m : Nat) (e : Int) (r8 : Nat) : Rounded :=
  if m = 0 then { code := if neg ∧ ¬ Fmt.isInt f then 2 ^ (Fmt.bits f - 1) else 0 }
  else
    let u := ulpExp f m e
    let q := roundInt mode neg m (e - u) r8
    let inexact := !magEq q u m e
    if Fmt.isInt f then
      let b := Fmt.bits f
      let lim := 2 ^ (b - 1)
      let low := if sym ∧ f = .int4 then lim - 1 else lim
      if neg then
        if q > low then { code := 2 ^ b - low, ovf := true, inexact := true }
        else { code := (2 ^ b - q) % 2 ^ b, inexact := inexact }
      else if q ≥ lim then { code := lim - 1, ovf := true, inexact := true }
      else { code := q, inexact := inexact }
    else
      let (mm, me) := Fmt.maxMag f
      if magLt mm me q u then
        let toInf := ieee && Fmt.hasInf f &&
          (match mode with
           | .rtz => false
           | .up => !neg
           | .down => neg
           | _ => true)
        if toInf then { code := Fmt.infCode f neg, ovf := true, inexact := true }
        else
          let ue := floorLog2 mm me - Fmt.mbits f
          { code := packMag f neg (shiftSplit mm (me - ue)).1 ue, ovf := true, inexact := true }
      else
        -- tiny after rounding: the result of the same rounding with an unbounded exponent lies below the smallest normal
        let uFree := floorLog2 m e - Fmt.mbits f
        { code := packMag f neg q u, inexact := inexact,
          tiny := magLt (roundInt mode neg m (e - uFree) r8) uFree 1 (1 - Fmt.bias f) }

/-- Round any value into a format. Infinities and NaN keep their class where the format has one; an infinity that
enters E4M3 becomes NaN (02 R51). A format with neither gives 0; its block is poisoned by the caller. -/
def round (f : Fmt) (mode : Rnd) (ieee sym : Bool) (x : XNum) (r8 : Nat) : Rounded :=
  match x with
  | .fin n m e => roundFin f mode ieee sym n m e r8
  | .inf n => if Fmt.hasInf f then { code := Fmt.infCode f n } else { code := Fmt.nanCode f }
  | .nan => { code := Fmt.nanCode f }

/-- A code with a negative zero replaced by `+0`, as every tensor output is written (02 R49). -/
def noNegZero (f : Fmt) (code : Nat) : Nat :=
  if !Fmt.isInt f && code == 2 ^ (Fmt.bits f - 1) then 0 else code

/-- A code with a NaN replaced by the canonical NaN of its format, as every NaN is written (02 R52). -/
def canonNan (f : Fmt) (code : Nat) : Nat := if isNan (decode f code) then Fmt.nanCode f else code

/-- A code as a tensor holds it: no negative zero, no NaN but the canonical one (02 R49, R52). -/
def writeCode (f : Fmt) (code : Nat) : Nat := noNegZero f (canonNan f code)

/-- BF16 code of an exact value, RNE, `+0` for `-0`: the conversion most rules name (03 R75, R121, 04 R109). -/
def toBf16 (ieee : Bool) (x : XNum) : Nat := noNegZero .bf16 (round .bf16 .rne ieee false x 0).code

/-- The linear logarithm of a positive BF16 code in units of 1/256 binade: `x + m/128`, truncated (04 R101). A
subnormal code is normalised first. -/
def log2Bf16 (code : Nat) : Int :=
  match decode .bf16 code with
  | .fin _ m e =>
    if m = 0 then 0
    else
      let x := floorLog2 m e
      let frac := m * 128 / 2 ^ Nat.log2 m - 128
      x * 256 + 2 * frac
  | _ => 0

/-- Saturating addition for a counter of `bits` bits. -/
def satAdd (bits n k : Nat) : Nat := min (n + k) (2 ^ bits - 1)

end Sys2Proof.Num
end

