-- ==== Sys2Proof/Machine/Chord.lean ====
section
/-! DEFINITION. Chords: element packing, the side record, the CRC, format faults and the order in which a decoder
resolves an element (02 R33 to R45), and the outlier table beside a stored operand (04 R111). -/

namespace Sys2Proof

/-- The side record of a chord, field by field (02 R40). The CRC is not held: it is computed when a chord is
written and checked on the bytes when one is read (R43). -/
structure Side where
  scales : List Nat := List.replicate 16 0
  zb : Bool := false
  uz : Bool := false
  psn : Bool := false
  crush : Bool := false
  dir : Nat := 0
  blk : Nat := 1
  obv : Bool := false
  ver : Nat := 0
  fmt : Nat := 0
  scl : Bool := false
  sym : Bool := false
  rot : Bool := false
  /-- bytes 24 to 29 -/
  outl : List Nat := List.replicate 6 0
  /-- byte 30 -/
  ocnt : Nat := 0
  /-- byte 31 -/
  b31 : Nat := 0
deriving DecidableEq, Repr

/-- A chord: 256 element codes in index order and the side record (02 R33, R39). -/
structure Chord where
  codes : List Nat := []
  side : Side := {}
deriving DecidableEq, Repr

/-- What reading a stored chord gives before any element is decoded (02 R43, R44, R45 orders 1 and 2). -/
inductive ChordRead where
  /-- the CRC does not match: handled by the page's protection class, no value -/
  | crcBad
  /-- a format fault: every block decodes as poisoned -/
  | fault
  | good (c : Chord)
deriving DecidableEq, Repr

namespace Chord

open Sys2Proof.Num Sys2Proof.Hash

/-- Data bytes of a chord in a format (02 R39). -/
def dataLen (f : Fmt) : Nat := 32 * Fmt.bits f

/-- Bytes of a chord with its side record (02 R39). -/
def size (f : Fmt) : Nat := dataLen f + 32

/-- Elements packed together into whole bytes (02 R33). -/
def group (f : Fmt) : Nat := match Fmt.bits f with | 4 => 2 | 6 => 4 | _ => 1

/-- Elements of one group as one little-endian number, first element in the lowest bits. -/
def packGroup (b : Nat) : List Nat → Nat
  | [] => 0
  | c :: cs => c % 2 ^ b + 2 ^ b * packGroup b cs

/-- Element codes of one group. -/
def unpackGroup (b n v : Nat) : List Nat :=
  match n with
  | 0 => []
  | n + 1 => v % 2 ^ b :: unpackGroup b n (v / 2 ^ b)

/-- Pack element codes in index order (02 R33). -/
def packData (f : Fmt) (codes : List Nat) : List Byte :=
  let g := group f
  ((chunks g codes.length codes).map (fun c => leBytes (g * Fmt.bits f / 8) (packGroup (Fmt.bits f) c))).flatten

/-- Unpack element codes (02 R33). -/
def unpackData (f : Fmt) (bs : List Byte) : List Nat :=
  let g := group f
  ((chunks (g * Fmt.bits f / 8) bs.length bs).map (fun c => unpackGroup (Fmt.bits f) g (ofLe c))).flatten

/-- The flag word (02 R40). -/
def flagWord (s : Side) : Nat :=
  bit s.zb + 2 * bit s.uz + 4 * bit s.psn + 8 * bit s.crush + 16 * (s.dir % 4) + 64 * (s.blk % 8) + 512 * bit s.obv

/-- The layout byte (02 R40). -/
def layoutByte (s : Side) : Nat := s.fmt % 16 + 16 * bit s.scl + 32 * bit s.sym + 64 * bit s.rot

/-- The 32 bytes of a side record with a CRC value (02 R40). -/
def sideBytes (s : Side) (crc : Nat) : List Byte :=
  (fitTo 16 (s.scales.map byteOf)) ++ leBytes 2 (flagWord s) ++ [byteOf s.ver, byteOf (layoutByte s)]
    ++ leBytes 4 crc ++ fitTo 6 (s.outl.map byteOf) ++ [byteOf s.ocnt, byteOf s.b31]

/-- Read a side record (02 R40). -/
def sideOf (bs : List Byte) : Side :=
  let w := fieldLe bs 16 2
  let l := byteAt bs 19
  { scales := (slice bs 0 16).map BitVec.toNat
    zb := bitOf w 0, uz := bitOf w 1, psn := bitOf w 2, crush := bitOf w 3
    dir := bitsOf w 5 4, blk := bitsOf w 8 6, obv := bitOf w 9
    ver := byteAt bs 18
    fmt := l % 16, scl := bitOf l 4, sym := bitOf l 5, rot := bitOf l 6
    outl := (slice bs 24 6).map BitVec.toNat, ocnt := byteAt bs 30, b31 := byteAt bs 31 }

/-- The CRC of data bytes and a side record whose CRC field counts as zero (02 R43). -/
def crcOf (data side : List Byte) : Nat := crc32c (data ++ patch side 20 [0#8, 0#8, 0#8, 0#8])

/-- A chord's bytes with a freshly computed CRC (02 R39, R43). -/
def toBytes (f : Fmt) (c : Chord) : List Byte :=
  let data := packData f c.codes
  data ++ sideBytes c.side (crcOf data (sideBytes c.side 0))

/-- Value-outlier entries of a side record: element index and BF16 code (02 R40). -/
def outliers (s : Side) : List (Nat × Nat) :=
  if s.obv then
    ([(s.outl.getD 0 0, s.outl.getD 1 0 + 256 * s.outl.getD 2 0),
      (s.outl.getD 3 0, s.outl.getD 4 0 + 256 * s.outl.getD 5 0)]).take (s.ocnt % 4)
  else []

/-- Signed delta of line `k` with blocks of 8 (02 R42). -/
def delta (s : Side) (k : Nat) : Int :=
  let bytes := s.outl ++ [s.ocnt, s.b31]
  toSigned 4 (bytes.getD (k / 2) 0 / (if k % 2 = 0 then 1 else 16))

/-- Line of an element and its position in the line (02 R37). -/
def lineOf (s : Side) (i : Nat) : Nat × Nat := if s.dir = 1 then (i % 16, i / 16) else (i / 16, i % 16)

/-- The scale code in force for an element (02 R37, R42). -/
def codeOf (s : Side) (i : Nat) : Nat :=
  if s.dir = 2 then s.scales.getD 0 0
  else
    let (k, p) := lineOf s i
    let c := s.scales.getD k 0
    if s.blk = 0 ∧ 8 ≤ p ∧ c ≠ 0xFF then ((c : Int) + delta s k).toNat else c

/-- The codes of the blocks that lie in a chord, first blocks of the lines only. -/
def lineCodes (s : Side) : List Nat := if s.dir = 2 then [s.scales.getD 0 0] else s.scales

/-- Is a block code poison? (02 R34, R35) -/
def isPoison (scl : Bool) (c : Nat) : Bool := if scl then c == 0x7F || c == 0xFF else c == 0xFF

/-- The rules whose breach is a format fault, the reader's expected format apart (02 R44). -/
def faulty (c : Chord) : Bool :=
  let s := c.side
  let badScl := s.scl && (!(s.fmt == 0 || s.fmt == 1 || s.fmt == 2) || s.dir == 2 || s.blk != 1)
  let lineZero := fun (k : Nat) =>
    (List.range 16).all (fun p =>
      let i := if s.dir = 1 then 16 * p + k else 16 * k + p
      match Fmt.ofId? s.fmt with
      | some f => isZero (decode f (c.codes.getD i 0))
      | none => true)
  let badCode := s.scl && (List.range 16).any (fun k =>
    let cd := s.scales.getD k 0
    (0x80 ≤ cd && cd ≤ 0xFE) || (cd == 0 && !lineZero k))
  let badZb := s.zb && (s.uz || s.psn || s.crush || s.obv)
  let n := s.ocnt % 4
  let badOut :=
    if s.blk = 0 then s.obv
    else (s.obv && (n == 0 || n == 3)) || (!s.obv && n != 0) || (n == 2 && s.outl.getD 0 0 == s.outl.getD 3 0)
  let badDelta := s.blk == 0 && s.dir != 2 && (List.range 16).any (fun k =>
    let cd := s.scales.getD k 0
    cd != 0xFF && (let z := (cd : Int) + delta s k; z < 0 || 0xFE < z))
  s.fmt ≥ 8 || s.dir == 3 || s.blk ≥ 5 || (s.dir == 2 && s.blk != 1) || badScl || badCode || badZb || badOut || badDelta

/-- Read a chord of an expected format from its bytes: the CRC first, then the format rules, with a chord of
another format a fault (02 R39, R43, R44). -/
def ofBytes (f : Fmt) (bs : List Byte) : ChordRead :=
  let bs := fitTo (size f) bs
  let data := bs.take (dataLen f)
  let side := bs.drop (dataLen f)
  if crcOf data side ≠ fieldLe side 20 4 then .crcBad
  else
    let s := sideOf side
    let c : Chord := { codes := unpackData f data, side := s }
    if s.fmt ≠ Fmt.id f ∨ faulty c then .fault else .good c

/-- The scale of a block code as an exact value (02 R34, R35); `t` is the tensor scale. -/
def scaleVal (scl : Bool) (t : XNum) (code : Nat) : XNum :=
  if scl then mul t (decode .e4m3 code) else .fin false 1 ((code : Int) - 127)

/-- Decode element `i` of a good chord by the precedence of 02 R45, orders 3 to 8. A poisoned block decodes as NaN;
a target without NaN turns that back into a poisoned block. -/
def element (f : Fmt) (t : XNum) (c : Chord) (i : Nat) : XNum :=
  let s := c.side
  if s.zb then zero false
  else
    let code := codeOf s i
    if isPoison s.scl code then .nan
    else match (outliers s).find? (fun o => o.1 == i) with
      | some (_, v) => (match decode .bf16 v with | .fin _ 0 _ => zero false | x => x)
      | none =>
        match decode f (c.codes.getD i 0) with
        | .fin n m e => if m = 0 then zero false else mul (.fin n m e) (scaleVal s.scl t code)
        | x => x

/-- Is element `i` in a poisoned block of a good chord? -/
def elementPoisoned (c : Chord) (i : Nat) : Bool := !c.side.zb && isPoison c.side.scl (codeOf c.side i)

/-- Every element of a good chord. -/
def elements (f : Fmt) (t : XNum) (c : Chord) : List XNum := (List.range 256).map (element f t c)

/-- Elements as a reader sees a stored chord: a faulty chord is all NaN (02 R44). -/
def readElements (f : Fmt) (t : XNum) : ChordRead → List XNum
  | .good c => elements f t c
  | _ => List.replicate 256 .nan

/-- A fully poisoned chord of a format (02 R45, 03 R82): every code 0xFF, every element 0, PSN set. -/
def poisoned (f : Fmt) (dir blk : Nat) : Chord :=
  { codes := List.replicate 256 0
    side := { scales := (if dir = 2 then 0xFF :: List.replicate 15 0 else List.replicate 16 0xFF), psn := true,
              dir := dir, blk := blk, fmt := Fmt.id f } }

/-! ### The outlier table (04 R111) -/

/-- Bytes of one outlier table section. -/
def outTableSize : Nat := 4136

/-- One section of an outlier table: channel indices in use and, for each, 128 BF16 codes. -/
structure OutSection where
  chans : List Nat := []
  ver : Nat := 0
  vals : List (List Nat) := []
deriving DecidableEq, Repr

/-- Read a section: none when its CRC fails or it is a format fault; the flag tells a format fault (04 R111). -/
def readSection (bs : List Byte) : Option OutSection × Bool :=
  let bs := fitTo outTableSize bs
  if crc32c (patch bs 36 [0#8, 0#8, 0#8, 0#8]) ≠ fieldLe bs 36 4 then (none, false)
  else
    let n := byteAt bs 32
    let idx := (List.range (min n 16)).map (fun j => fieldLe bs (2 * j) 2)
    if n > 16 ∨ ¬ idx.Nodup ∨ idx.any (· > 4095) then (none, true)
    else
      (some { chans := idx, ver := byteAt bs 33,
              vals := (List.range n).map (fun j => (List.range 128).map (fun r => fieldLe bs (40 + 256 * j + 2 * r) 2)) },
       false)

/-- Write a section with a fresh CRC (04 R111). -/
def sectionBytes (s : OutSection) : List Byte :=
  let ch := (List.range 16).map (fun j => leBytes 2 (s.chans.getD j 0xFFFF))
  let dat := (List.range 16).map (fun j => ((List.range 128).map (fun r => leBytes 2 ((s.vals.getD j []).getD r 0))).flatten)
  let raw := ch.flatten ++ [byteOf s.chans.length, byteOf s.ver, 0#8, 0#8] ++ leBytes 4 0 ++ dat.flatten
  patch raw 36 (leBytes 4 (crc32c raw))

end Chord
end Sys2Proof
end

