-- ==== Sys2Proof/Machine/Score.lean ====
section
/-! DEFINITION. The score image as data: header, phrases, entries, descriptors, layer table and region map, and the
checks a load makes in the order of their refusal codes (07 R176 to R185; 08 R199, R206 to R208, R222; 09 R246;
10 R279; 11 R289, R290; 05 R131). -/

namespace Sys2Proof

/-- A tensor descriptor (07 R181). -/
structure TensorDesc where
  /-- 0 HBM, 1 far tier, 2 wind chest, 3 Reed SRAM -/
  space : Nat := 0
  addr : Nat := 0
  rows : Nat := 0
  cols : Nat := 0
  layout : Nat := 0
  geom : Nat := 0
  /-- FP16 code of the tensor scale -/
  t : Nat := 0
  derived : Bool := false
  versioned : Bool := false
  role : Nat := 0
deriving DecidableEq, Repr

/-- An operand record of a tile descriptor (07 R180). -/
structure OpndDesc where
  tensor : Nat := 0xFFFFFFFF
  sram : Nat := 0
  k0 : Nat := 0
  obm : Nat := 0
  ceil : Nat := 0
  verChk : Bool := false
  wide : Option Nat := none
  otab : Option Nat := none
deriving DecidableEq, Repr

/-- A tile descriptor (07 R180). -/
structure TileDesc where
  layer : Nat := 0
  prod : Nat := 0
  rotn : Nat := 0
  k : Nat := 0
  pInit : Int := 0
  m0 : Nat := 0
  n0 : Nat := 0
  a : OpndDesc := {}
  b : OpndDesc := {}
  otensor : Nat := 0
  oaddr : Nat := 0
  odest : Nat := 0
  olayout : Nat := 0
  ogeom : Nat := 0
deriving DecidableEq, Repr

/-- A Drone record of a Valve run descriptor (07 R182, 06 R157). -/
structure DroneDesc where
  opr : Nat := 0
  group : Nat := 0
  span : Nat := 0
  outf : Nat := 0
  dest : Nat := 0
  tuner : Bool := false
  metric : Nat := 0
deriving DecidableEq, Repr

/-- A stream descriptor (07 R182). -/
structure StreamDesc where
  tensor : Nat := 0
  first : Nat := 0
  mode : Nat := 0
  ty : Nat := 0
  rnd : Nat := 0
  xmap : Bool := false
  vout : Bool := false
deriving DecidableEq, Repr

/-- A Valve run descriptor (07 R182). -/
structure VrunDesc where
  pslot : Nat := 0
  n : Nat := 0
  vl : Nat := 0
  e : Nat := 0
  ins : List (Option StreamDesc) := []
  outs : List (Option StreamDesc) := []
  prod : Nat := 0
  drones : List DroneDesc := []
deriving DecidableEq, Repr

/-- A program load descriptor (07 R184). -/
structure PloadDesc where
  space : Nat := 0
  addr : Nat := 0
  slot : Nat := 0
  pslot : Nat := 0
  count : Nat := 0
deriving DecidableEq, Repr

/-- A MOVE descriptor (07 R184). -/
structure MoveDesc where
  srct : Nat := 0
  dstt : Nat := 0
  sfirst : Nat := 0
  dfirst : Nat := 0
  count : Nat := 0
  sslot : Nat := 0
  dslot : Nat := 0
deriving DecidableEq, Repr

/-- An MXIO descriptor (07 R184). -/
structure MxioDesc where
  elemSpace : Nat := 0
  elem : Nat := 0
  scaleSpace : Nat := 0
  scale : Nat := 0
  tensor : Nat := 0
  blocks : Nat := 0
  export_ : Bool := false
  colAxis : Bool := false
  mxtype : Nat := 0
deriving DecidableEq, Repr

/-- A PICK descriptor (09 R246). -/
structure PickDesc where
  listSpace : Nat := 0
  list : Nat := 0
  destSpace : Nat := 0
  dest : Nat := 0
  count : Nat := 0
  chord : Bool := false
  slot : Nat := 0
deriving DecidableEq, Repr

/-- A SEND or RECV descriptor (10 R279). -/
structure SendDesc where
  tensor : Nat := 0
  first : Nat := 0
  count : Nat := 0
  mtag : Nat := 0
  peer : Nat := 0
  route : Nat := 0
deriving DecidableEq, Repr

/-- A COLL descriptor (11 R289). -/
structure CollDesc where
  src : Nat := 0
  dst : Nat := 0
  first : Nat := 0
  chords : Nat := 0
  stab : Nat := 0
  bucket : Nat := 0
  cidx : Nat := 0
  kind : Nat := 1
  tree : Bool := false
  p : Nat := 1
  rank : Nat := 0
  /-- ports A to F, when present -/
  ports : List (Option Nat) := []
  tpred : Nat := 0
deriving DecidableEq, Repr

/-- A phrase table entry (07 R177). -/
structure Phrase where
  first : Nat := 0
  count : Nat := 0
  /-- beats -/
  len : Nat := 1
  stepStart : Bool := false
  stepEnd : Bool := false
  ckpt : Bool := false
  next : Nat := 0
deriving DecidableEq, Repr

/-- A score entry (07 R178). -/
structure Entry where
  beat : Nat := 0
  action : Nat := 0
  unit : Nat := 0
  waitScalar : Bool := false
  desc : Nat := 0xFFFFFFFF
  waits : List Nat := []
  sets : Option Nat := none
  layer : Nat := 0
  mb : Nat := 0
deriving DecidableEq, Repr

/-- A layer table entry with its static outlier list: index, product, operand code (07 R183). -/
structure LayerInfo where
  seed : Nat := 0
  keep : Bool := false
  pass : Bool := false
  attn : Bool := false
  outliers : List (Nat × Nat × Nat) := []
deriving DecidableEq, Repr

/-- A region of Reed SRAM (07 R183). -/
structure Region where
  start : Nat := 0
  length : Nat := 0
  backed : Bool := false
  producer : Option Nat := none
deriving DecidableEq, Repr

/-- A loaded score: what the loader keeps of an accepted image (07 R176, R185, R186). -/
structure Score where
  addr : Nat := 0
  length : Nat := 0
  phrases : List Phrase := []
  entries : List Entry := []
  layers : List LayerInfo := []
  /-- 16 regions per slot -/
  regions : List (List Region) := []
  slots : Nat := 0
  tokens : Nat := 0
  /-- the descriptor pool -/
  pool : List Byte := []
  /-- SHAKE256 of the image, 64 bytes -/
  digest : List Byte := []
deriving DecidableEq, Repr

namespace Score

/-- Absent index. -/
def optIx (n : Nat) : Option Nat := if n = 0xFFFFFFFF then none else some n

/-- Tensor descriptor at a pool (07 R181). -/
def tensorAt (pool : List Byte) (t : Nat) : TensorDesc :=
  let b := slice pool (32 * t) 32
  let base := fieldLe b 0 8
  let f := byteAt b 21
  { space := base / 2 ^ 60, addr := base % 2 ^ 60, rows := fieldLe b 8 4, cols := fieldLe b 12 4
    layout := byteAt b 16, geom := fieldLe b 17 2, t := fieldLe b 19 2
    derived := bitOf f 0, versioned := bitOf f 1, role := bitsOf f 4 2 }

/-- Element format of a layout byte; the default stands for a code the loader refuses. -/
def fmtOf (layout : Nat) : Fmt := (Num.Fmt.ofId? (layout % 16)).getD .e2m1

/-- Block size of geometry bits (07 R181: DIR and BLK as flag-word bits [8:4]). -/
def geomDir (g : Nat) : Nat := bitsOf g 1 0

/-- BLK code of geometry bits. -/
def geomBlk (g : Nat) : Nat := bitsOf g 4 2

/-- Value-outlier bit of geometry bits. -/
def geomVout (g : Nat) : Bool := bitOf g 5

/-- Is a layout byte with geometry bits malformed? (07 R181, Malformed layout) -/
def badLayout (layout geom : Nat) : Bool :=
  let fmt := layout % 16
  let scl := bitOf layout 4
  let dir := geomDir geom
  let blk := geomBlk geom
  fmt ≥ 8 || dir == 3 || blk ≥ 5 || (dir == 2 && blk != 1)
    || (scl && (fmt > 2 || dir == 2 || blk != 1)) || (geomVout geom && blk == 0) || (bitOf layout 5 && fmt != 1)

/-- Operand record at an offset (07 R180). -/
def opndAt (b : List Byte) (o : Nat) : OpndDesc :=
  let opf := byteAt b (o + 12)
  let wide := fieldLe b (o + 14) 4
  { tensor := fieldLe b o 4, sram := fieldLe b (o + 4) 4, k0 := fieldLe b (o + 8) 4
    obm := bitsOf opf 2 0, ceil := bitsOf opf 4 3, verChk := bitOf opf 5
    wide := optIx wide, otab := optIx (fieldLe b (o + 18) 4) }

/-- Tile descriptor at a pool offset (07 R180). -/
def tileAt (pool : List Byte) (off : Nat) : TileDesc :=
  let b := slice pool off 128
  { layer := fieldLe b 0 2, prod := byteAt b 2 % 4, rotn := byteAt b 3, k := fieldLe b 4 4
    pInit := toSigned 8 (byteAt b 8), m0 := fieldLe b 12 4, n0 := fieldLe b 16 4
    a := opndAt b 32, b := opndAt b 64, otensor := fieldLe b 96 4, oaddr := fieldLe b 100 4
    odest := byteAt b 104, olayout := byteAt b 105, ogeom := fieldLe b 106 2 }

/-- Drone record (07 R182). -/
def droneAt (b : List Byte) (o : Nat) : DroneDesc :=
  let t := byteAt b (o + 6)
  { opr := byteAt b o, group := byteAt b (o + 1), span := fieldLe b (o + 2) 2, outf := byteAt b (o + 4)
    dest := byteAt b (o + 5), tuner := bitOf t 0, metric := bitsOf t 2 1 }

/-- Stream descriptor at a pool offset (07 R182). -/
def streamAt (pool : List Byte) (off : Nat) : StreamDesc :=
  let b := slice pool off 16
  { tensor := fieldLe b 0 4, first := fieldLe b 4 4, mode := byteAt b 8, ty := byteAt b 9, rnd := byteAt b 10
    xmap := bitOf (byteAt b 11) 0, vout := bitOf (byteAt b 11) 1 }

/-- Valve run descriptor at a pool offset (07 R182). -/
def vrunAt (pool : List Byte) (off : Nat) : VrunDesc :=
  let b := slice pool off 96
  let st := fun i => (optIx (fieldLe b (8 + 4 * i) 4)).map (streamAt pool)
  { pslot := byteAt b 0 % 4, n := byteAt b 1, vl := fieldLe b 2 2, e := fieldLe b 4 4
    ins := [st 0, st 1, st 2], outs := [st 3, st 4], prod := byteAt b 28 % 4
    drones := (List.range 8).map (fun j => droneAt b (32 + 8 * j)) }

/-- PLOAD descriptor (07 R184). -/
def ploadAt (pool : List Byte) (off : Nat) : PloadDesc :=
  let b := slice pool off 16
  let src := fieldLe b 0 8
  { space := src / 2 ^ 60, addr := src % 2 ^ 60, slot := byteAt b 8, pslot := byteAt b 9, count := byteAt b 10 }

/-- MOVE descriptor (07 R184). -/
def moveAt (pool : List Byte) (off : Nat) : MoveDesc :=
  let b := slice pool off 32
  { srct := fieldLe b 0 4, dstt := fieldLe b 4 4, sfirst := fieldLe b 8 4, dfirst := fieldLe b 12 4
    count := fieldLe b 16 4, sslot := byteAt b 20, dslot := byteAt b 21 }

/-- MXIO descriptor (07 R184). -/
def mxioAt (pool : List Byte) (off : Nat) : MxioDesc :=
  let b := slice pool off 32
  let e := fieldLe b 0 8
  let s := fieldLe b 8 8
  { elemSpace := e / 2 ^ 60, elem := e % 2 ^ 60, scaleSpace := s / 2 ^ 60, scale := s % 2 ^ 60
    tensor := fieldLe b 16 4, blocks := fieldLe b 20 4, export_ := bitOf (byteAt b 24) 0
    colAxis := bitOf (byteAt b 24) 1, mxtype := byteAt b 25 }

/-- PICK descriptor (09 R246). -/
def pickAt (pool : List Byte) (off : Nat) : PickDesc :=
  let b := slice pool off 32
  let l := fieldLe b 0 8
  let d := fieldLe b 8 8
  { listSpace := l / 2 ^ 60, list := l % 2 ^ 60, destSpace := d / 2 ^ 60, dest := d % 2 ^ 60
    count := fieldLe b 16 4, chord := byteAt b 20 == 1, slot := byteAt b 21 }

/-- SEND or RECV descriptor (10 R279). -/
def sendAt (pool : List Byte) (off : Nat) : SendDesc :=
  let b := slice pool off 32
  { tensor := fieldLe b 0 4, first := fieldLe b 4 4, count := fieldLe b 8 4, mtag := fieldLe b 12 4
    peer := fieldLe b 16 2, route := byteAt b 18 }

/-- COLL descriptor (11 R289). -/
def collAt (pool : List Byte) (off : Nat) : CollDesc :=
  let b := slice pool off 64
  let ports := fieldLe b 34 4
  { src := fieldLe b 0 4, dst := fieldLe b 4 4, first := fieldLe b 8 4, chords := fieldLe b 12 4
    stab := fieldLe b 16 8, bucket := fieldLe b 24 2, cidx := fieldLe b 26 2 % 4096, kind := byteAt b 28
    tree := byteAt b 29 == 1, p := fieldLe b 30 2, rank := fieldLe b 32 2
    ports := (List.range 6).map (fun i => if bitOf ports (18 + i) then some (bitsOf ports (3 * i + 2) (3 * i)) else none)
    tpred := fieldLe b 38 4 }

/-- Phrase table entry (07 R177). -/
def phraseAt (img : List Byte) (o : Nat) : Phrase :=
  let f := byteAt img (o + 11)
  { first := fieldLe img o 4, count := fieldLe img (o + 4) 4, len := fieldLe img (o + 8) 3 + 1
    stepStart := bitOf f 0, stepEnd := bitOf f 1, ckpt := bitOf f 2, next := fieldLe img (o + 12) 2 }

/-- Score entry (07 R178). -/
def entryAt (img : List Byte) (o : Nat) : Entry :=
  let sets := fieldLe img (o + 20) 2
  { beat := fieldLe img o 3, action := byteAt img (o + 3), unit := fieldLe img (o + 4) 2
    waitScalar := bitOf (byteAt img (o + 6)) 0, desc := fieldLe img (o + 8) 4
    waits := ((List.range 4).map (fun k => fieldLe img (o + 12 + 2 * k) 2)).filter (· != 0xFFFF)
    sets := if sets = 0xFFFF then none else some sets
    layer := fieldLe img (o + 22) 2, mb := byteAt img (o + 24) }

/-- Region map entry (07 R183). -/
def regionAt (img : List Byte) (o : Nat) : Region :=
  { start := fieldLe img o 4, length := fieldLe img (o + 4) 4, backed := bitOf (byteAt img (o + 8)) 0
    producer := optIx (fieldLe img (o + 12) 4) }

/-- What the loader knows of the channel while it checks an image. -/
structure Ctx where
  job : Nat
  active : Nat
  /-- outlier capacity 0x3n06 -/
  cap : Nat := 16
deriving DecidableEq, Repr

/-- A part of the image: offset and length. -/
abbrev Part := Nat × Nat

/-- Is a part placed as 07 R185 asks: aligned, after the header, inside, overlapping no other part? -/
def placed (len : Nat) (p : Part) (others : List Part) : Bool :=
  p.1 % 32 == 0 && 64 ≤ p.1 && p.1 + p.2 ≤ len
    && others.all (fun q => p.2 == 0 || q.2 == 0 || p.1 + p.2 ≤ q.1 || q.1 + q.2 ≤ p.1)

/-- Is a descriptor of `n` bytes at a pool offset inside the pool? -/
def inPool (pool : List Byte) (off n : Nat) : Bool := off + n ≤ pool.length

/-- Is a tensor index wholly inside the pool? (07 R181) -/
def tensorIn (pool : List Byte) (t : Nat) : Bool := 32 * t + 32 ≤ pool.length

/-- Are the given bytes of a descriptor all zero? -/
def zeroAt (pool : List Byte) (off : Nat) (from_ n : Nat) : Bool := allZero (slice pool (off + from_) n)

/-- A well-formed tensor descriptor: inside the pool, BASE a multiple of 32, space 0 to 3, layout well formed, reserved bits and
bytes zero, and a tensor scale in use positive and finite (02 R35). -/
def tensorPlain (pool : List Byte) (t : Nat) : Bool :=
  tensorIn pool t &&
  (let d := tensorAt pool t
   d.addr % 32 == 0 && d.space ≤ 3 && !badLayout d.layout d.geom && d.layout / 128 == 0 && d.geom / 64 == 0 && d.role != 7
     && byteAt (slice pool (32 * t) 32) 21 / 32 == 0 && zeroAt pool (32 * t) 22 10
     && (!bitOf d.layout 4 || d.derived || decide (0 < d.t ∧ d.t < 0x7C00)))

/-- A usable tensor descriptor: well formed, and paired as 08 R206 asks when versioned. -/
def tensorOk (pool : List Byte) (t : Nat) : Bool :=
  tensorPlain pool t &&
  (let d := tensorAt pool t
   !d.versioned ||
     (t % 2 == 0 && tensorPlain pool (t + 1) &&
      (let e := tensorAt pool (t + 1)
       e.rows == d.rows && e.cols == d.cols && e.layout == d.layout && e.geom == d.geom)))

/-- An optional tensor index is absent or usable. -/
def tensorOpt (pool : List Byte) : Option Nat → Bool
  | none => true
  | some t => tensorOk pool t

/-- Space of a tensor. -/
def spaceOf (pool : List Byte) (t : Nat) : Nat := (tensorAt pool t).space

/-- Do the blocks of a tile's output cross its edge? (04 R99, refusal 0x17): a tile is 128 × 128, so they do when the
tile's origin in the output tensor is not on a block boundary along the block direction. -/
def outCrosses (d : TileDesc) : Bool :=
  let b := blkSize (geomBlk d.ogeom)
  match geomDir d.ogeom with
  | 0 => d.n0 % b != 0
  | 1 => d.m0 % b != 0
  | _ => d.m0 % 16 != 0 || d.n0 % 16 != 0
where
  /-- block size of a BLK code -/
  blkSize : Nat → Nat
    | 0 => 8 | 2 => 32 | 3 => 64 | 4 => 128 | _ => 16

/-- Refusal codes an entry's TILE descriptor gives (07 R180, R185; 08 R192, R207, R216, R222). -/
def tileFaults (pool : List Byte) (layers : List LayerInfo) (e : Entry) : List Nat :=
  let off := e.desc
  if !inPool pool off 128 then [0x16] else
  let d := tileAt pool off
  let raw := slice pool off 128
  let copy := d.prod == 3
  let plain := fun (at_ : Nat) =>
    byteAt raw (at_ + 12) / 64 == 0 && byteAt raw (at_ + 13) == 0 && allZero (slice raw (at_ + 22) 10)
  let opOk := fun (o : OpndDesc) (at_ : Nat) => tensorOk pool o.tensor && tensorOpt pool o.wide && plain at_
  let bOk := if copy then d.b.tensor == 0xFFFFFFFF && plain 64 else opOk d.b 64
  let rotOk := d.rotn == 0 || (4 ≤ d.rotn && d.rotn ≤ 8)
  let kOk := d.k % 16 == 0 && d.k != 0 && (d.rotn == 0 || d.k % 2 ^ d.rotn == 0)
  let li := layers.getD d.layer {}
  let passBad := li.pass && (d.prod ≥ 2 || d.a.verChk || d.b.verChk)
  let outT := tensorAt pool d.otensor
  let ok := byteAt raw 2 / 4 == 0 && rotOk && kOk && allZero (slice raw 9 3) && allZero (slice raw 20 12)
    && opOk d.a 32 && bOk && tensorOk pool d.otensor && d.odest ≤ 2 && byteAt raw 105 / 64 == 0
    && !badLayout d.olayout d.ogeom && d.ogeom / 64 == 0 && allZero (slice raw 108 20)
    && d.layer < layers.length && !passBad && (!(outT.versioned) || e.mb == 0xFF)
  (if ok then [] else [0x16]) ++ (if outCrosses d then [0x17] else [])

/-- Is a stream descriptor offset usable? (07 R182) -/
def streamOk (pool : List Byte) (off : Nat) : Bool :=
  off == 0xFFFFFFFF ||
  (inPool pool off 16 &&
   (let s := streamAt pool off
    tensorOk pool s.tensor && s.mode ≤ 2 && s.ty ≤ 3 && s.rnd ≤ 5 && byteAt (slice pool off 16) 11 / 4 == 0
      && zeroAt pool off 12 4))

/-- Is a Drone record usable? (07 R182) -/
def droneOk (raw : List Byte) (o : Nat) : Bool :=
  let d := droneAt raw o
  if d.opr = 0 then allZero (slice raw (o + 1) 7)
  else d.opr ≤ 5 && d.group ≤ 2 && d.outf ≤ 2 && d.dest ≤ 2 && byteAt raw (o + 6) / 8 == 0 && byteAt raw (o + 7) == 0

/-- Refusal codes of a VRUN entry (07 R182, 08 R207). N and VL are checked by the Valve at the cue (06 R145). -/
def vrunFaults (pool : List Byte) (e : Entry) : List Nat :=
  let off := e.desc
  if !inPool pool off 96 then [0x16] else
  let raw := slice pool off 96
  let outs := [fieldLe raw 20 4, fieldLe raw 24 4]
  let verBad := outs.any (fun o => o != 0xFFFFFFFF && inPool pool o 16
    && (tensorAt pool (streamAt pool o).tensor).versioned && e.mb != 0xFF)
  let ok := byteAt raw 0 / 4 == 0 && byteAt raw 28 / 4 == 0 && allZero (slice raw 29 3)
    && (List.range 5).all (fun i => streamOk pool (fieldLe raw (8 + 4 * i) 4))
    && (List.range 8).all (fun j => droneOk raw (32 + 8 * j)) && !verBad
  if ok then [] else [0x16]

/-- Refusal codes of a PLOAD, MOVE, PICK or MXIO entry (07 R184, 09 R246). -/
def moverFaults (pool : List Byte) (active : Nat) (e : Entry) : List Nat :=
  let off := e.desc
  match e.action with
  | 3 =>
    if !inPool pool off 16 then [0x16] else
    let d := ploadAt pool off
    (if (d.space == 0 || d.space == 2 || d.space == 3) && d.slot ≤ 67 && d.pslot ≤ 3 && 1 ≤ d.count && d.count ≤ 64
        && zeroAt pool off 11 5 then [] else [0x16]) ++ (if d.slot ≥ active then [0x15] else [])
  | 4 =>
    if !inPool pool off 32 then [0x16] else
    let d := moveAt pool off
    let s := tensorAt pool d.srct
    let t := tensorAt pool d.dstt
    (if tensorOk pool d.srct && tensorOk pool d.dstt && s.layout == t.layout && s.geom == t.geom && 1 ≤ d.count
        && d.count ≤ 2 ^ 24 && zeroAt pool off 22 10 && (s.space == 3 || d.sslot == 0) && (t.space == 3 || d.dslot == 0)
        && (!t.versioned || e.mb == 0xFF) then [] else [0x16])
      ++ (if (s.space == 3 && d.sslot ≥ active) || (t.space == 3 && d.dslot ≥ active) then [0x15] else [])
  | 5 =>
    if !inPool pool off 32 then [0x16] else
    let d := pickAt pool off
    (if d.listSpace ≤ 1 && (d.destSpace == 2 || d.destSpace == 3) && 1 ≤ d.count && d.count ≤ 65536
        && byteAt (slice pool off 32) 20 ≤ 1 && zeroAt pool off 22 10 then [] else [0x16])
      ++ (if d.destSpace == 3 && d.slot ≥ active then [0x15] else [])
  | _ =>
    if !inPool pool off 32 then [0x16] else
    let d := mxioAt pool off
    let t := tensorAt pool d.tensor
    let up16 := fun n => (n + 15) / 16 * 16
    let want := if d.colAxis then (t.rows + 31) / 32 * up16 t.cols else up16 t.rows * ((t.cols + 31) / 32)
    let fmtOk := match d.mxtype with
      | 0 => t.layout % 16 == 0 | 1 => t.layout % 16 == 2 | 2 => true | 3 => t.layout % 16 == 3
      | 4 => t.layout % 16 == 4 | 5 => t.layout % 16 == 5 | _ => false
    if d.elemSpace ≤ 1 && d.scaleSpace ≤ 1 && tensorOk pool d.tensor && t.space != 3 && 1 ≤ d.blocks
        && d.blocks ≤ 2 ^ 26 && d.blocks == want && byteAt (slice pool off 32) 24 / 4 == 0 && fmtOk
        && !bitOf t.layout 4 && geomBlk t.geom == 2 && geomDir t.geom == bit d.colAxis
        && zeroAt pool off 26 6 && (!t.versioned || d.export_ || e.mb == 0xFF) then [] else [0x16]

/-- Are a COLL descriptor's own fields in range? (11 R289 to R291) A VERDICT that names it uses no tensor of it (05 R131). -/
def collFields (pool : List Byte) (off : Nat) : Bool :=
  inPool pool off 64 &&
  (let d := collAt pool off
   let raw := slice pool off 64
   let ports := fieldLe raw 34 4
   let n := if d.tree then 3 else 2
   let distinct := (d.ports.take n).all (fun p => p.isNone || !((d.ports.drop n).take n).contains p)
   1 ≤ d.chords && d.chords ≤ 2 ^ 21 && fieldLe raw 26 2 < 4096 && 1 ≤ d.kind && d.kind ≤ 3
     && byteAt raw 29 ≤ 1 && 1 ≤ d.p && d.p ≤ 4096 && d.rank < d.p && ports / 2 ^ 24 == 0
     && d.stab / 2 ^ 60 == 0 && distinct && zeroAt pool off 42 22)

/-- Is a COLL descriptor well formed, and are its tensors? (07 R181; 11 R289) -/
def collOk (pool : List Byte) (off : Nat) : Bool :=
  collFields pool off &&
  (let d := collAt pool off
   tensorOk pool d.src && tensorOk pool d.dst && (tensorAt pool d.src).space != 3 && (tensorAt pool d.dst).space != 3)

/-- Refusal codes of a Bell DMA entry (10 R279, 11 R289). -/
def bellFaults (pool : List Byte) (e : Entry) : List Nat :=
  if e.action = 9 then (if collOk pool e.desc && (!(tensorAt pool (collAt pool e.desc).dst).versioned || e.mb == 0xFF) then [] else [0x16])
  else if !inPool pool e.desc 32 then [0x16]
  else
    let d := sendAt pool e.desc
    let peerOk := d.peer / 2 ^ 14 == 0 || (e.action == 8 && d.peer == 0xFFFF)
    let t := tensorAt pool d.tensor
    if tensorOk pool d.tensor && t.space != 3 && 1 ≤ d.count && d.count ≤ 2 ^ 24 && peerOk
        && d.route ≤ (if e.action == 7 then 1 else 0) && zeroAt pool e.desc 19 13
        && (e.action == 7 || !t.versioned || e.mb == 0xFF) then [] else [0x16]

/-- Refusal codes of a Chanter entry (08 R208, 05 R131). -/
def chntFaults (pool : List Byte) (e : Entry) : List Nat :=
  let code := e.desc % 256
  let rest := e.desc / 256
  if code < 1 ∨ 6 < code then [0x16]
  else if code = 4 then (if rest = 0xFFFFFF ∨ (collFields pool (32 * rest)) then [] else [0x16])
  else if rest ≠ 0 then [0x16] else []

/-- Is the entry's unit of the kind its action needs, and present? (07 R178, R179, refusal 0x15) -/
def unitOk (active : Nat) (e : Entry) : Bool :=
  match e.action with
  | 1 => e.unit ≤ 0x43 && e.unit < active
  | 2 => 0x100 ≤ e.unit && e.unit ≤ 0x143 && e.unit - 0x100 < active
  | 3 | 4 | 5 | 6 => 0x200 ≤ e.unit && e.unit ≤ 0x21F
  | 7 | 8 | 9 => 0x300 ≤ e.unit && e.unit ≤ 0x307
  | 0x0A | 0x0B => e.unit == 0x3F0
  | _ => true

/-- Refusal codes of one entry taken alone. -/
def entryFaults (img pool : List Byte) (layers : List LayerInfo) (c : Ctx) (enOff i : Nat) (e : Entry) : List Nat :=
  let o := enOff + 32 * i
  (if unitOk c.active e then [] else [0x15])
    ++ (if e.action < 1 ∨ 0x0B < e.action ∨ fieldLe img (o + 6) 2 > 1 ∨ ¬ allZero (slice img (o + 25) 7)
          ∨ layers.length ≤ e.layer ∨ (e.action = 0x0B ∧ e.desc ≠ 0xFFFFFFFF) then [0x16] else [])
    ++ (if e.waits.any (· ≥ 4096) || (e.sets.getD 0) ≥ 4096 then [0x18] else [])
    ++ (match e.action with
        | 1 => tileFaults pool layers e
        | 2 => vrunFaults pool e
        | 3 | 4 | 5 | 6 => moverFaults pool c.active e
        | 7 | 8 | 9 => bellFaults pool e
        | 0x0A => chntFaults pool e
        | _ => [])

/-- Refusal 0x14 inside one phrase: order, range, at most 256 per beat, one entry per unit and beat (07 R178). -/
def phraseOrderOk (len : Nat) : List Entry → Bool
  | [] => true
  | e :: es =>
    e.beat < len && (match es with | [] => true | f :: _ => e.beat ≤ f.beat)
      && !(es.takeWhile (fun f => f.beat == e.beat)).any (fun f => f.unit == e.unit)
      && (es.takeWhile (fun f => f.beat == e.beat)).length < 256 && phraseOrderOk len es

/-- A static outlier list (07 R183): its entries, none when the list is malformed. -/
def outlierList (img : List Byte) (dpOff dpLen cap off n : Nat) : Option (List (Nat × Nat × Nat)) :=
  if n = 0 then (if off = 0 then some [] else none)
  else if off % 32 ≠ 0 ∨ off < dpOff ∨ dpOff + dpLen < off + 4 * n then none
  else
    let es := (List.range n).map (fun i =>
      let v := fieldLe img (off + 4 * i) 4
      (v % 2 ^ 28, bitsOf v 29 28, bitsOf v 31 30))
    let tooMany := es.any (fun x =>
      (es.filter (fun y => y.2.1 == x.2.1 && (y.2.2 == x.2.2 || y.2.2 == 2) && y.1 / 4096 == x.1 / 4096)).length > cap)
    if es.any (fun x => x.2.2 == 3 || x.2.1 == 3) || !es.Nodup || tooMany then none else some es

/-- The refusal codes of an image whose header stands, and the score when none applies. -/
def body (img : List Byte) (c : Ctx) (addr len : Nat) : List Nat × Score :=
  let h := fun o n => fieldLe img o n
  let nph := h 6 2
  let nen := h 12 4
  let pt : Part := (h 16 4, 16 * nph)
  let en : Part := (h 20 4, 32 * nen)
  let dp : Part := (h 24 4, h 28 4)
  let nl := h 34 2
  let ns := h 36 2
  let lt : Part := (h 40 4, 16 * nl)
  let rg : Part := (h 44 4, 256 * ns)
  if nph = 0 ∨ ¬ placed len pt [en, dp, lt, rg] then ([0x13], {})
  else
    let phrases := (List.range nph).map (fun i => phraseAt img (pt.1 + 16 * i))
    let phBad := (phrases.zipIdx).any (fun p => p.1.next ≥ nph || p.1.first + p.1.count > nen
      || byteAt img (pt.1 + 16 * p.2 + 11) / 8 != 0 || h (pt.1 + 16 * p.2 + 14) 2 != 0)
    if phBad then ([0x13], {})
    else if ¬ placed len en [pt, dp, lt, rg] then ([0x14], {})
    else
      let entries := (List.range nen).map (fun i => entryAt img (en.1 + 32 * i))
      let ord := phrases.all (fun p => phraseOrderOk p.len ((entries.drop p.first).take p.count))
      let partsOk := placed len dp [pt, en, lt, rg] && placed len lt [pt, en, dp, rg] && placed len rg [pt, en, dp, lt]
      let pool := if placed len dp [pt, en, lt, rg] then slice img dp.1 dp.2 else []
      let rawLayers := (List.range nl).map (fun i =>
        let o := lt.1 + 16 * i
        let f := byteAt img (o + 8)
        (outlierList img dp.1 dp.2 c.cap (h (o + 9) 4) (h (o + 13) 2),
         ({ seed := h o 8, keep := bitOf f 0, pass := bitOf f 1, attn := bitOf f 2 } : LayerInfo),
         f / 8 == 0 && byteAt img (o + 15) == 0))
      let layers := rawLayers.map (fun r => { r.2.1 with outliers := r.1.getD [] })
      let layersOk := rawLayers.all (fun r => r.1.isSome && r.2.2) && 1 ≤ nl && nl ≤ 4096
      let regions := (List.range ns).map (fun s => (List.range 16).map (fun j => regionAt img (rg.1 + 256 * s + 16 * j)))
      let regRaw := (List.range (16 * ns)).all (fun j =>
        byteAt img (rg.1 + 16 * j + 8) / 2 == 0 && allZero (slice img (rg.1 + 16 * j + 9) 3)
          && (h (rg.1 + 16 * j + 4) 4 == 0 || h (rg.1 + 16 * j) 4 % 32 == 0))
      let hdrOk := h 32 2 / 4096 == 0 && allZero (slice img 48 12)
      let codes := (if ord then [] else [0x14]) ++ (if ns > c.active then [0x15] else [])
        ++ (if partsOk && layersOk && regRaw && hdrOk then [] else [0x16])
        ++ (if h 38 2 > 4096 then [0x18] else [])
        ++ ((entries.zipIdx).map (fun p => entryFaults img pool layers c en.1 p.2 p.1)).flatten
      (codes, { addr := addr, length := len, phrases := phrases, entries := entries, layers := layers
                regions := regions, slots := ns, tokens := h 38 2, pool := pool, digest := Hash.shake512 img })

/-- Smallest of some codes. -/
def minCode : List Nat → Option Nat
  | [] => none
  | c :: cs => some (cs.foldl min c)

/-- Check an image of `len` bytes: the refusal code of the first check that fails in code order, or the score
(07 R185). The 0x19 check is made from the argument before the image is read. -/
def check (img : List Byte) (c : Ctx) (addr len : Nat) : Nat ⊕ Score :=
  if fieldLe img 0 4 ≠ 0x43535645 ∨ fieldLe img 4 2 ≠ 1 ∨ fieldLe img 8 4 ≠ len ∨ len < 64 then .inl 0x10
  else if Hash.crc32c (patch img 60 [0#8, 0#8, 0#8, 0#8]) ≠ fieldLe img 60 4 then .inl 0x11
  else if fieldLe img 32 2 % 4096 ≠ c.job then .inl 0x12
  else
    let (codes, s) := body img c addr len
    match minCode codes with
    | some k => .inl k
    | none => .inr s

/-- The region of a slot that holds an address, if any (07 R183, 03 R86). -/
def regionOf (s : Score) (slot a : Nat) : Option Region :=
  (s.regions.getD slot []).find? (fun r => r.length != 0 && r.start ≤ a && a < r.start + r.length)

/-- A dimension in chords, padded to whole blocks along the block direction and to 16 across it (02 R38). -/
def padChords (n blk : Nat) (along : Bool) : Nat :=
  let b := if along then max 16 (outCrosses.blkSize blk) else 16
  (n + b - 1) / b * b / 16

/-- Chords across a tensor's padded grid (07 R181, 02 R38). -/
def gridCols (t : TensorDesc) : Nat := padChords t.cols (geomBlk t.geom) (geomDir t.geom == 0)

/-- Chords down a tensor's padded grid (07 R181, 02 R38). -/
def gridRows (t : TensorDesc) : Nat := padChords t.rows (geomBlk t.geom) (geomDir t.geom == 1)

/-- Chord size of a tensor's format. -/
def chordSize (t : TensorDesc) : Nat := Chord.size (fmtOf t.layout)

/-- Address of chord `k` of a tensor within its space (07 R181). -/
def chordAddr (t : TensorDesc) (k : Nat) : Nat := t.addr + k * chordSize t

/-- The tensor descriptors that the entries of a score name, in ascending order; a versioned pair by its first. -/
def entryTensors (s : Score) : List Nat :=
  ((s.entries.map (fun e =>
    let p := s.pool
    match e.action with
    | 1 => let d := tileAt p e.desc; [d.a.tensor, d.b.tensor, d.otensor] ++ d.a.wide.toList ++ d.b.wide.toList
    | 2 => let d := vrunAt p e.desc; (d.ins ++ d.outs).filterMap (fun x => x.map (fun y => y.tensor))
    | 4 => let d := moveAt p e.desc; [d.srct, d.dstt]
    | 6 => [(mxioAt p e.desc).tensor]
    | 7 | 8 => [(sendAt p e.desc).tensor]
    | 9 => let d := collAt p e.desc; [d.src, d.dst]
    | _ => [])).flatten).eraseDups.mergeSort

/-- The tensor descriptors that the entries of a score name, with the second of each versioned pair. -/
def namedTensors (s : Score) : List Nat :=
  let own := s.entryTensors
  (own ++ own.filterMap (fun t => if (tensorAt s.pool t).versioned then some (t + 1) else none)).eraseDups

/-- The tensor of a score that holds an address of space 0, 1 or 2 (09 R238; log 64). -/
def tensorHolding (s : Score) (space a : Nat) : Option TensorDesc :=
  ((namedTensors s).map (tensorAt s.pool)).find? (fun t =>
    t.space == space && decide (t.addr ≤ a ∧ a < t.addr + gridCols t * gridRows t * chordSize t))

/-- Exact tensor scale: the FP16 code, or 1 without two-level scaling (02 R35). -/
def tensorScale (t : TensorDesc) : XNum :=
  if bitOf t.layout 4 then Num.decode .fp16 t.t else .fin false 1 0

/-- Walk the phrases by NEXT from phrase `i` on until one satisfies `stop`; phrase 0 when none does. -/
def walk (s : Score) (stop : Nat → Phrase → Bool) (i : Nat) : Nat → Nat
  | 0 => 0
  | fuel + 1 =>
    let p := s.phrases.getD i {}
    if stop i p then i else walk s stop p.next fuel

/-- The first STEP_START phrase from phrase `i` on (07 R177). -/
def nextStart (s : Score) (i : Nat) : Nat := walk s (fun _ p => p.stepStart) i (s.phrases.length + 1)

/-- The phrase at which a channel that waits for the host stops: the next STEP_END phrase from phrase `i` on, unless the
host's stop index names a phrase reached first (17 R406). -/
def waitPhrase (s : Score) (hostIx i : Nat) : Nat := walk s (fun j p => j == hostIx || p.stepEnd) i (s.phrases.length + 1)

end Score
end Sys2Proof
end

