-- ==== Sys2Proof/Machine/Quant.lean ====
section
/-! DEFINITION. The quantiser: the choice of block scales, the block conditions and counters, outlier selection and
the writing of whole chords (02 R36 to R42, R49 to R51, R55; 04 R95 to R99, R103 to R110, R118). -/

namespace Sys2Proof.Quant

open Sys2Proof Sys2Proof.Num

/-- What a quantiser is told: target, rounding, overflow mode, options, crush threshold and two-level scale. -/
structure Cfg where
  fmt : Fmt
  rnd : Rnd := .rne
  ieee : Bool := false
  strict : Bool := false
  sym : Bool := false
  scl : Bool := false
  /-- tensor scale of two-level scaling -/
  t : XNum := .fin false 1 0
  /-- crush threshold stop 0x3n04 -/
  crush : Nat := 8
  /-- an infinite source is written as ±max of a format that has infinities: a tile's tagged accumulators in SAT mode
  (03 R82) -/
  infMax : Bool := false
deriving DecidableEq, Repr

/-- One source element: its value, padding (02 R38) and whether it is carried as an outlier (04 R97). -/
structure Src where
  x : XNum
  pad : Bool := false
  out : Bool := false
  /-- eight random bits for stochastic rounding (02 R47) -/
  r8 : Nat := 0
deriving DecidableEq, Repr

/-- What quantising one block gives: its code, its element codes and the events of 04 R104. -/
structure Blk where
  code : Nat := 0
  codes : List Nat := []
  zero : Bool := false
  uz : Bool := false
  psn : Bool := false
  crush : Bool := false
  crushed : Nat := 0
  sat : Nat := 0
  /-- for each element, whether it saturated -/
  sats : List Bool := []
  low : Bool := false
  high : Bool := false
deriving DecidableEq, Repr

/-- Rounding limit of a format under RNE or RTZ, or the largest finite value under SR, as `m * 2^e` (04 R95). -/
def limOf (f : Fmt) (rnd : Rnd) : Nat × Int :=
  if rnd = .sr then Fmt.maxMag f
  else match f with
    | .e2m1 => (7, 0) | .int4 => (15, -1) | .e3m2 => (30, 0) | .e4m3 => (464, 0)
    | .e5m2 => (61440, 0) | .int8 => (255, -1) | _ => Fmt.maxMag f

/-- Has the format codes for NaN or infinity, so that such a source element does not poison its block? (02 R51) -/
def carriesSpecial (f : Fmt) : Bool := Fmt.hasNan f

/-- Floor of the base-2 logarithm of the quotient of two nonzero magnitudes, exactly (04 R95). -/
def floorLog2Quot (m : Nat) (e : Int) (lm : Nat) (le : Int) : Int :=
  let k := floorLog2 m e - floorLog2 lm le
  if magLt m e lm (le + k) then k - 1 else k

/-- emax of a format in the OCP MX choice of scale (02 R55). -/
def emax : Fmt → Int
  | .e2m1 => 2 | .int4 => 2 | .e3m2 => 4 | .e4m3 => 8 | .e5m2 => 15 | .int8 => 6 | _ => 0

/-- A code with what clamping did to it. -/
structure CodeChoice where
  code : Nat
  low : Bool := false
  high : Bool := false
deriving DecidableEq, Repr

/-- Clamp an E8M0 code to 0x00 to 0xFE (04 R96, 02 R55). -/
def clampCode (z : Int) : CodeChoice :=
  if z < 0 then { code := 0, low := true }
  else if z > 0xFE then { code := 0xFE, high := true }
  else { code := z.toNat }

/-- The code chosen for a block with a nonzero amax (04 R95, R96, R98; 02 R36, R55). -/
def chooseCode (q : Cfg) (m : Nat) (e : Int) : CodeChoice :=
  let (lm, le) := limOf q.fmt q.rnd
  if q.fmt = .fp16 ∨ q.fmt = .bf16 then { code := 0x7F }
  else if q.scl then
    let fits := fun s => cmp (.fin false m e) (mul (Chord.scaleVal true q.t s) (.fin false lm le)) < 0
    match ((List.range 126).map (· + 1)).find? fits with
    | none => { code := 0x7E, high := true }
    | some s =>
      -- half the smallest subnormal of the format
      let half := (if Fmt.isInt q.fmt then 0 else 1 - Fmt.bias q.fmt - Fmt.mbits q.fmt) - 1
      { code := s
        low := s == 1 && cmp (.fin false m e) (mul (Chord.scaleVal true q.t 1) (.fin false 1 half)) < 0 }
  else if q.strict then { code := (clampCode (floorLog2 m e - emax q.fmt + 127)).code }
  else clampCode (floorLog2Quot m e lm le + 128)

/-- Largest finite magnitude of a list of values, none when every one is zero or not finite (04 R97). -/
def amaxOf (xs : List XNum) : Option (Nat × Int) :=
  xs.foldl (fun acc x =>
    match x with
    | .fin _ m e =>
      if m = 0 then acc
      else match acc with
        | none => some (m, e)
        | some (m', e') => if magLt m' e' m e then some (m, e) else acc
    | _ => acc) none

/-- An exact value divided by a scale code's value. Under two-level scaling the quotient by `T * s` need not be a
binary fraction; 80 bits below the smallest subnormal are kept with a sticky bit, which rounding cannot tell
from the exact quotient. -/
def divScale (q : Cfg) (code : Nat) (x : XNum) : XNum :=
  if q.scl then
    match x, Chord.scaleVal true q.t code with
    | .fin n m e, .fin _ sm se =>
      if sm = 0 ∨ m = 0 then zero n
      else
        let up := 2 ^ (80 + Nat.log2 sm + 1)
        let qq := m * up / sm
        let sticky := if m * up % sm = 0 then 0 else 1
        .fin n (2 * qq + sticky) (e - se - (80 + Nat.log2 sm + 1 : Nat) - 1)
    | x, _ => x
  else scale (127 - (code : Int)) x

/-- The largest finite code of a format with a sign. -/
def maxCode (f : Fmt) (neg : Bool) : Nat := (if neg then 2 ^ (Fmt.bits f - 1) else 0) + (Fmt.infCode f false - 1)

/-- One element under a given code: its code and whether it saturated (04 R118; 02 R46, R49 to R51; 03 R82). -/
def elementCode (q : Cfg) (code : Nat) (s : Src) : Nat × Bool :=
  match s.x with
  | .inf n => if q.infMax && Fmt.hasInf q.fmt then (maxCode q.fmt n, true) else ((round q.fmt q.rnd q.ieee q.sym s.x s.r8).code, false)
  | x =>
    let r := round q.fmt q.rnd q.ieee q.sym (if q.fmt = .fp16 ∨ q.fmt = .bf16 then x else divScale q code x) s.r8
    (noNegZero q.fmt r.code, r.ovf)

/-- The element loop of 04 R118 under a given code: element codes and counts. `(codes, any nonzero, crushed, sat)`.
DEDUCED: an element carried as an outlier makes its block not all-underflow even where its entry is zero, as the pseudocode of 04
R118 has it and the text of 04 R103 does not (log 58). -/
def elementLoop (q : Cfg) (code : Nat) (src : List Src) : List Nat × Bool × Nat × Nat :=
  src.foldr (fun s (acc : List Nat × Bool × Nat × Nat) =>
    if s.pad then (0 :: acc.1, acc.2)
    else if s.out then (0 :: acc.1, true, acc.2.2)
    else
      let (c, sat) := elementCode q code s
      let crushed := if isFin s.x && !isZero s.x && c == 0 then 1 else 0
      (c :: acc.1, acc.2.1 || c != 0, acc.2.2.1 + crushed, acc.2.2.2 + bit sat)) ([], false, 0, 0)

/-- Which elements of a block saturate under a code. -/
def satFlags (q : Cfg) (code : Nat) (src : List Src) : List Bool :=
  src.map (fun s => !s.pad && !s.out && (elementCode q code s).2)

/-- A poisoned block (02 R45, R51): code 0xFF, elements 0. -/
def poisonBlk (n : Nat) : Blk := { code := 0xFF, codes := List.replicate n 0, psn := true }

/-- Crush threshold of a block of `b` elements (04 R103). -/
def thrOf (crush b : Nat) : Nat := max 1 (crush * b / 32)

/-- Must this block be poisoned? (02 R51) -/
def mustPoison (q : Cfg) (src : List Src) : Bool :=
  !carriesSpecial q.fmt && src.any (fun s => !s.pad && !isFin s.x)

/-- Quantise one block with a given code (the element loop and the flags of 04 R103). -/
def finishBlk (q : Cfg) (b : Nat) (src : List Src) (c : CodeChoice) : Blk :=
  let (codes, nz, crushed, sat) := elementLoop q c.code src
  let anySrc := src.any (fun s => !s.pad && isFin s.x && !isZero s.x)
  { code := c.code, codes := codes, uz := anySrc && !nz, crush := crushed ≥ thrOf q.crush b, crushed := crushed,
    sat := sat, sats := satFlags q c.code src, low := c.low, high := c.high }

/-- The code for a block: its own choice, or 0 (0x7F in a sixteen-bit format) when only outliers are nonzero. -/
def codeFor (q : Cfg) (src : List Src) : CodeChoice :=
  match amaxOf ((src.filter (fun s => !s.pad && !s.out)).map (·.x)) with
  | some (m, e) => chooseCode q m e
  | none => { code := if q.fmt = .fp16 ∨ q.fmt = .bf16 then 0x7F else 0 }

/-- Is the block a zero block? (02 R41) -/
def isZeroBlk (src : List Src) : Bool := src.all (fun s => s.pad || isZero s.x)

/-- A zero block (02 R36, R41). -/
def zeroBlk (q : Cfg) (n : Nat) : Blk :=
  { code := (if q.fmt = .fp16 ∨ q.fmt = .bf16 then 0x7F else 0), codes := List.replicate n 0, zero := true }

/-- Quantise one block of `b` elements (04 R118, 02 R55). -/
def block (q : Cfg) (b : Nat) (src : List Src) : Blk :=
  if mustPoison q src then poisonBlk src.length
  else if isZeroBlk src then zeroBlk q src.length
  else finishBlk q b src (codeFor q src)

/-- Quantise the two blocks of 8 of one line (02 R42): the second code stays within the delta range of the first. -/
def pair8 (q : Cfg) (src : List Src) : Blk × Blk :=
  let a := src.take 8
  let b := src.drop 8
  if mustPoison q a || mustPoison q b then (poisonBlk 8, poisonBlk 8)
  else
    let ba := block q 8 a
    let lo : Int := max ((ba.code : Int) - 8) 0
    let hi : Int := min ((ba.code : Int) + 7) 0xFE
    let need := codeFor q b
    let c := clampInt lo hi need.code
    let bb : Blk :=
      if isZeroBlk b then { zeroBlk q 8 with code := c.toNat }
      else finishBlk q 8 b
        { code := c.toNat, low := need.low && c == (need.code : Int), high := need.high && c == (need.code : Int) }
    (ba, bb)

/-! ### Outlier selection (04 R105 to R110) -/

/-- Order magnitudes descending, ties to the lower index. -/
def byMag (a b : Nat × XNum) : Bool :=
  let c := cmp (abs a.2) (abs b.2)
  if c > 0 then true else if c < 0 then false else a.1 ≤ b.1

/-- Insert into a list ordered by `byMag`. -/
def insertMag (x : Nat × XNum) : List (Nat × XNum) → List (Nat × XNum)
  | [] => [x]
  | y :: ys => if byMag x y then x :: y :: ys else y :: insertMag x ys

/-- Sort descending by magnitude, ties to the lower index. -/
def sortMag : List (Nat × XNum) → List (Nat × XNum)
  | [] => []
  | x :: xs => insertMag x (sortMag xs)

/-- The `(n/2)`-th smallest magnitude of `n` values, zeros included, infinities and NaN counting as largest. -/
def medianOf (xs : List XNum) : XNum :=
  let key := fun x => match x with | .nan => XNum.inf false | x => abs x
  let s := (sortMag ((xs.map key).zipIdx.map (fun p => (p.2, p.1)))).map (·.2)
  s.getD (s.length - s.length / 2) (zero false)

/-- Does a magnitude exceed the promote ratio times a median? (04 R108, R109) -/
def exceeds (ratio med x : XNum) : Bool := isFin x && cmp (abs x) (mul ratio med) > 0

/-- Index of the largest finite element of a block, ties to the lower index. -/
def largestIx (src : List (Nat × XNum)) : Option Nat :=
  ((sortMag (src.filter (fun p => isFin p.2 && !isZero p.2))).head?).map (·.1)

/-- Candidates of one block: ratio candidates and the crush candidate, as (index, value) (04 R109). The median is taken over
every element of the block; elements of outlier channels are only barred as candidates. A block that is written poisoned has
none. -/
def candidates (q : Cfg) (b : Nat) (ratio : XNum) (blk : List (Nat × Src)) :
    List (Nat × XNum) × List (Nat × XNum) :=
  if mustPoison q (blk.map (·.2)) then ([], []) else
  let med := medianOf (blk.map (fun p => p.2.x))
  let live := blk.filter (fun p => !p.2.pad && !p.2.out)
  let rc := (live.filter (fun p => exceeds ratio med p.2.x)).map (fun p => (p.1, p.2.x))
  let q0 := block q b (blk.map (·.2))
  let cc := if q0.crush then
      match largestIx (live.map (fun p => (p.1, p.2.x))) with
      | some i => (live.filter (fun p => p.1 == i && !rc.any (fun r => r.1 == i))).map (fun p => (p.1, p.2.x))
      | none => []
    else []
  (rc, cc)

/-- Fill `n` places: ratio candidates first, then crush candidates; also how many ratio candidates were left out,
the excess entries (04 R109, R110). -/
def fill (n : Nat) (rc cc : List (Nat × XNum)) : List (Nat × XNum) × Nat :=
  let r := sortMag rc
  let got := r.take n
  (got ++ (sortMag cc).take (n - got.length), r.length - got.length)

/-- A value-outlier's stored BF16 code and whether it saturated: a value whose rounding overflows is stored as the
largest BF16 magnitude (04 R109). -/
def outlierCode (x : XNum) : Nat × Bool :=
  let r := round .bf16 .rne false false x 0
  (noNegZero .bf16 r.code, r.ovf)

end Sys2Proof.Quant
end

