-- ==== Sys2Proof/Machine/QGrid.lean ====
section
/-! DEFINITION. Quantising a whole region into chords: blocks that span chords, two-dimensional blocks, blocks of 8,
value-outliers and channel outliers (02 R37, R38, R41, R42; 04 R104 to R110, R118), and the Crook (03 R69, R70). A
region is a list of lines; a line runs along the block direction. -/

namespace Sys2Proof.QGrid

open Sys2Proof Sys2Proof.Num Sys2Proof.Quant

/-- Quantiser counters, in the order of 04 R104. -/
structure Counts where
  zbBlk : Nat := 0
  uzBlk : Nat := 0
  crushBlk : Nat := 0
  crushElem : Nat := 0
  satElem : Nat := 0
  psnBlk : Nat := 0
  codeLow : Nat := 0
  codeHigh : Nat := 0
  promote : Nat := 0
deriving DecidableEq, Repr

/-- Sum of counters, saturating at 32 bits (04 R104). -/
def Counts.add (a b : Counts) : Counts :=
  { zbBlk := sat32 a.zbBlk b.zbBlk, uzBlk := sat32 a.uzBlk b.uzBlk, crushBlk := sat32 a.crushBlk b.crushBlk,
    crushElem := sat32 a.crushElem b.crushElem, satElem := sat32 a.satElem b.satElem,
    psnBlk := sat32 a.psnBlk b.psnBlk, codeLow := sat32 a.codeLow b.codeLow, codeHigh := sat32 a.codeHigh b.codeHigh,
    promote := sat32 a.promote b.promote }

/-- What one block adds to the counters (04 R104). -/
def Counts.ofBlk (b : Blk) : Counts :=
  { zbBlk := bit b.zero, uzBlk := bit b.uz, crushBlk := bit b.crush, crushElem := b.crushed, satElem := b.sat,
    psnBlk := bit b.psn, codeLow := bit b.low, codeHigh := bit b.high }

/-- Geometry of a region: block size in elements, whether blocks are 2-D, and whether the lines are columns (02 R37). -/
structure Geom where
  blk : Nat := 16
  twoD : Bool := false
  cols : Bool := false
deriving DecidableEq, Repr

/-- One quantised chord, line by line along the block direction. -/
structure LChord where
  scales : List Nat := []
  /-- second codes of the lines, with blocks of 8 -/
  second : List Nat := []
  codes : List (List Nat) := []
  zb : Bool := false
  uz : Bool := false
  psn : Bool := false
  crush : Bool := false
  /-- value-outliers: line, position, BF16 code -/
  outs : List (Nat × Nat × Nat) := []
  /-- for each line, whether the block it belongs to is all-underflow -/
  uzLines : List Bool := []
  /-- elements that saturated, line by line, and the value-outliers that did, as line and position -/
  sats : List (List Bool) := []
  outSats : List (Nat × Nat) := []
deriving DecidableEq, Repr

/-- Did the element at a position of a line saturate, in its element code or as a value-outlier? -/
def LChord.sat (c : LChord) (ln p : Nat) : Bool := (c.sats.getD ln []).getD p false || c.outSats.contains (ln, p)

/-- The quantised region: chords by strip of 16 lines, then along the lines; counters; excess outlier entries. -/
structure Result where
  chords : List (List LChord) := []
  counts : Counts := {}
  excess : Nat := 0
deriving DecidableEq, Repr

/-- The blocks of one line. -/
def lineBlocks (b : Nat) (line : List Src) : List (List Src) := chunks b line.length line

/-- Chord `j` of a strip of 16 lines, as the sources of its 256 elements line by line. -/
def chordSrc (strip : List (List Src)) (j : Nat) : List (List Src) :=
  strip.map (fun l => (l.drop (16 * j)).take 16)

/-- Element index in its chord of a position of a line, and back (02 R33). -/
def Geom.index (g : Geom) (ln p : Nat) : Nat := if g.cols then 16 * p + ln else 16 * ln + p

/-- Line of an element index. -/
def Geom.line (g : Geom) (i : Nat) : Nat := if g.cols then i % 16 else i / 16

/-- Position of an element index in its line. -/
def Geom.pos (g : Geom) (i : Nat) : Nat := if g.cols then i / 16 else i % 16

/-- Candidates for value-outliers of chord `j` of a strip, by element index of the chord (04 R109). -/
def chordCands (q : Cfg) (g : Geom) (ratio : XNum) (strip : List (List Src)) (j : Nat) :
    List (Nat × XNum) × List (Nat × XNum) :=
  let perLine := fun (ln : Nat) (l : List Src) =>
    let b := max g.blk 16
    let start := 16 * j / b * b
    let blkSrc := (l.drop start).take b
    let ix := (List.range blkSrc.length).map (· + start)
    let (rc, cc) := candidates q b ratio (ix.zip blkSrc)
    let here := fun (p : Nat × XNum) => 16 * j ≤ p.1 && p.1 < 16 * j + 16
    let conv := fun (p : Nat × XNum) => (g.index ln (p.1 - 16 * j), p.2)
    ((rc.filter here).map conv, (cc.filter here).map conv)
  if g.twoD then
    let src := (chordSrc strip j).flatten
    candidates q 256 ratio ((List.range src.length).zip src)
  else
    ((strip.zipIdx.map (fun p => (perLine p.2 p.1).1)).flatten, (strip.zipIdx.map (fun p => (perLine p.2 p.1).2)).flatten)

/-- Value-outliers of every chord of a strip, and the excess entries (04 R109, R110). Blocks of 8 have none (R42). -/
def stripOuts (q : Cfg) (g : Geom) (vout : Bool) (ratio : XNum) (strip : List (List Src)) (n : Nat) :
    List (List (Nat × XNum)) × Nat :=
  if vout && g.blk != 8 && !q.strict then
    let per := (List.range n).map (fun j => let (rc, cc) := chordCands q g ratio strip j; fill 2 rc cc)
    (per.map (·.1), (per.map (·.2)).foldl (· + ·) 0)
  else (List.replicate n [], 0)

/-- Mark the selected elements of a strip as outliers. -/
def markOuts (g : Geom) (strip : List (List Src)) (outs : List (List (Nat × XNum))) : List (List Src) :=
  strip.zipIdx.map (fun (l, ln) => l.zipIdx.map (fun (s, p) =>
    if (outs.getD (p / 16) []).any (fun o => o.1 == g.index ln (p % 16)) then { s with out := true } else s))

/-- Quantise one strip of 16 lines into its chords. -/
def strip (q : Cfg) (g : Geom) (vout : Bool) (ratio : XNum) (st : List (List Src)) : List LChord × Counts × Nat :=
  let n := ((st.getD 0 []).length + 15) / 16
  let (outs, excess) := stripOuts q g vout ratio st n
  let st := markOuts g st outs
  let outRec := fun (j : Nat) =>
    (outs.getD j []).map (fun o => (g.line o.1, g.pos o.1, (outlierCode o.2).1))
  let overs := fun (j : Nat) => ((outs.getD j []).filter (fun o => (outlierCode o.2).2)).map (fun o => (g.line o.1, g.pos o.1))
  let outSat := (outs.flatten.filter (fun o => (outlierCode o.2).2)).length
  let promo := outs.flatten.length
  let sum := fun (bs : List Blk) => bs.foldl (fun c b => Counts.add c (Counts.ofBlk b)) ({} : Counts)
  let (chs, cnt) :=
    if g.twoD then
      let bs := (List.range n).map (fun j => block q 256 (chordSrc st j).flatten)
      (bs.zipIdx.map (fun (b, j) =>
        ({ scales := [b.code], codes := chunks 16 16 b.codes, zb := b.zero, uz := b.uz, psn := b.psn, crush := b.crush,
           outs := outRec j, uzLines := List.replicate 16 b.uz, sats := chunks 16 16 b.sats, outSats := overs j } : LChord)), sum bs)
    else if g.blk = 8 then
      let rows := st.map (fun l => (chunks 16 n l).map (pair8 q))
      let at_ := fun (j : Nat) => rows.map (fun r => r.getD j ({}, {}))
      ((List.range n).map (fun j =>
        let ps := at_ j
        ({ scales := ps.map (·.1.code), second := ps.map (·.2.code), codes := ps.map (fun p => p.1.codes ++ p.2.codes),
           zb := ps.all (fun p => p.1.zero && p.2.zero), uz := ps.any (fun p => p.1.uz || p.2.uz),
           psn := ps.any (fun p => p.1.psn || p.2.psn), crush := ps.any (fun p => p.1.crush || p.2.crush),
           uzLines := ps.map (fun p => p.1.uz || p.2.uz)
           sats := ps.map (fun p => (List.range 16).map (fun i => if i < 8 then p.1.sats.getD i false else p.2.sats.getD (i - 8) false)) }
             : LChord)),
       sum ((rows.map (fun r => (r.map (fun p => [p.1, p.2])).flatten)).flatten))
    else
      let rows := st.map (fun l => (lineBlocks g.blk l).map (block q g.blk))
      let per := g.blk / 16
      ((List.range n).map (fun j =>
        let bs := rows.map (fun r => r.getD (j / per) {})
        let part := fun (b : Blk) => (b.codes.drop (16 * (j % per))).take 16
        ({ scales := bs.map (·.code), codes := bs.map part, zb := bs.all (·.zero), uz := bs.any (·.uz),
           psn := bs.any (·.psn), crush := bs.any (·.crush), outs := outRec j, uzLines := bs.map (·.uz)
           sats := bs.map (fun b => (b.sats.drop (16 * (j % per))).take 16), outSats := overs j } : LChord)),
       sum rows.flatten)
  (chs, { cnt with satElem := sat32 cnt.satElem outSat, promote := sat32 cnt.promote promo }, excess)

/-- Quantise a region of lines (a multiple of 16) into chords. -/
def run (q : Cfg) (g : Geom) (vout : Bool) (ratio : XNum) (lines : List (List Src)) : Result :=
  let per := (chunks 16 (lines.length / 16 + 1) lines).map (strip q g vout ratio)
  { chords := per.map (·.1)
    counts := per.foldl (fun c p => Counts.add c p.2.1) {}
    excess := (per.map (·.2.2)).foldl (· + ·) 0 }

/-- BLK code of a block size (02 R40). -/
def blkCode : Nat → Nat
  | 8 => 0 | 16 => 1 | 32 => 2 | 64 => 3 | 128 => 4 | _ => 1

/-- Block size of a BLK code. -/
def blkSize : Nat → Nat
  | 0 => 8 | 2 => 32 | 3 => 64 | 4 => 128 | _ => 16

/-- Fix the indices of value-outliers and lay a quantised chord out with its side record (02 R33, R40, R41). With
`cols`, lines are columns. -/
def toChord (f : Fmt) (scl sym rot : Bool) (g : Geom) (ver : Nat) (c : LChord) : Chord :=
  let cols := g.cols
  let at_ := fun ln p => (c.codes.getD ln []).getD p 0
  let codes := (List.range 256).map (fun i => if cols then at_ (i % 16) (i / 16) else at_ (i / 16) (i % 16))
  let ix := fun (o : Nat × Nat × Nat) => if cols then 16 * o.2.1 + o.1 else 16 * o.1 + o.2.1
  let outl := (c.outs.map (fun o => [ix o, o.2.2 % 256, o.2.2 / 256])).flatten
  let deltas := (List.range 16).map (fun k =>
    if c.scales.getD k 0 = 0xFF then 0 else ofSigned 4 ((c.second.getD k 0 : Int) - (c.scales.getD k 0 : Int)))
  let dbytes := (List.range 8).map (fun k => deltas.getD (2 * k) 0 + 16 * deltas.getD (2 * k + 1) 0)
  let side : Side :=
    { scales := (if g.twoD then c.scales ++ List.replicate 15 0 else c.scales)
      zb := c.zb, uz := c.uz, psn := c.psn, crush := c.crush
      dir := (if g.twoD then 2 else if cols then 1 else 0)
      blk := blkCode g.blk, obv := !c.outs.isEmpty && g.blk != 8, ver := ver, fmt := Fmt.id f, scl := scl
      sym := sym && f == .int4, rot := rot
      outl := (if g.blk = 8 ∧ ¬ g.twoD then dbytes.take 6 else outl ++ List.replicate (6 - outl.length) 0)
      ocnt := (if g.blk = 8 ∧ ¬ g.twoD then dbytes.getD 6 0 else c.outs.length)
      b31 := (if g.blk = 8 ∧ ¬ g.twoD then dbytes.getD 7 0 else 0) }
  { codes := codes, side := side }

/-! ### Channel outliers (04 R107, R108) -/

/-- Largest finite magnitude of channel `k` over the lines. -/
def chanMax (lines : List (List XNum)) (k : Nat) : XNum :=
  match amaxOf (lines.map (fun l => l.getD k (zero false))) with
  | some (m, e) => .fin false m e
  | none => zero false

/-- Does channel `k` (position from `k0` on) hold the largest magnitude of a block that reaches the crush threshold when quantised
without outliers? Blocks are those of the operand: lines of 8 with their pairing (02 R42), lines of `b`, or the whole chord
(04 R108). -/
def crushChannel (q : Cfg) (g : Geom) (lines : List (List XNum)) (k0 k : Nat) : Bool :=
  let b := if g.twoD then 16 else max 16 g.blk
  let s := k0 + (k - k0) / b * b
  let part := lines.map (fun l => (l.drop s).take b)
  let src := fun (l : List XNum) => l.map (fun x => ({ x := x } : Src))
  let top := fun (l : List XNum) => largestIx ((List.range l.length).zip l)
  if g.twoD then
    (chunks 16 (part.length / 16 + 1) part).any (fun rows =>
      (block q 256 (src rows.flatten)).crush && (match top rows.flatten with | some i => i % 16 == k - s | none => false))
  else if g.blk = 8 then
    part.any (fun l =>
      let (x, y) := pair8 q (src l)
      if k - s < 8 then x.crush && top (l.take 8) == some (k - s) else y.crush && top (l.drop 8) == some (k - s - 8))
  else part.any (fun l => (block q b (src l)).crush && top l == some (k - s))

/-- Outlier channels of one slice of up to 4,096 reduction indices starting at `k0`: the static ones first, then ratio
candidates, then crush candidates, in free capacity; and the excess entries (04 R107, R108, R110). -/
def sliceChannels (q : Cfg) (g : Geom) (cap : Nat) (ratio : XNum) (static : List Nat) (dynamic : Bool)
    (lines : List (List XNum)) (k0 n : Nat) : List Nat × Nat × Nat :=
  let st := (static.filter (fun k => k0 ≤ k && k < k0 + n)).take cap
  if dynamic && !q.strict then
    let b := if g.twoD then 16 else g.blk
    let a := (List.range n).map (fun i => (k0 + i, chanMax lines (k0 + i)))
    let med := fun (k : Nat) =>
      let s := (k - k0) / b * b
      medianOf (((a.drop s).take b).map (·.2))
    let rc := a.filter (fun p => !st.contains p.1 && exceeds ratio (med p.1) p.2)
    let cc := a.filter (fun p => !st.contains p.1 && !rc.any (fun r => r.1 == p.1) && crushChannel q g lines k0 p.1)
    let (got, ex) := fill (cap - st.length) rc cc
    (st ++ got.map (·.1), ex, got.length)
  else (st, 0, 0)

/-- Outlier channels over the whole reduction length, slice by slice: channels, excess entries, dynamic promotions. -/
def channels (q : Cfg) (g : Geom) (cap : Nat) (ratio : XNum) (static : List Nat) (dynamic : Bool)
    (lines : List (List XNum)) (k : Nat) : List Nat × Nat × Nat :=
  ((List.range ((k + 4095) / 4096)).map (fun s =>
    sliceChannels q g cap ratio static dynamic lines (4096 * s) (min 4096 (k - 4096 * s)))).foldl
      (fun acc r => (acc.1 ++ r.1, acc.2.1 + r.2.1, acc.2.2 + r.2.2)) ([], 0, 0)

/-! ### The Crook (03 R69, R70) -/

/-- Number of ones in a number below `2^n`. -/
def popcount (n v : Nat) : Nat :=
  match n with
  | 0 => 0
  | n + 1 => v % 2 + popcount n (v / 2)

/-- The Crook sign table of a layer seed: 512 bytes of SHAKE256 over the seed (03 R70). -/
def signTable (seed : Nat) : List Byte := Hash.shake256 (leBytes 8 seed) 512

/-- Is the sign of reduction index `k` negative? (03 R70) -/
def signNeg (tab : List Byte) (k : Nat) : Bool := let b := k % 4096; bitOf (byteAt tab (b / 8)) (b % 8)

/-- One rotated value: `Σ d_i x_i (-1)^popcount(i AND j) 2^(-floor(h/2))`, rounded once to BF16 with RNE under the overflow mode
(03 R69; 02 R50); and whether it overflowed. -/
def rotOne (ieee : Bool) (h : Nat) (tab : List Byte) (k0 : Nat) (blk : List XNum) (j : Nat) : XNum × Bool :=
  let s := blk.zipIdx.foldl (fun acc (x, i) =>
    let neg := (popcount 9 (i &&& j) % 2 == 1) != signNeg tab (k0 + i)
    add false acc (if neg then negate x else x)) (zero false)
  let r := round .bf16 .rne ieee false (scale (-((h / 2 : Nat) : Int)) s) 0
  (decode .bf16 (noNegZero .bf16 r.code), r.ovf)

/-- Rotate one line along its reduction, in aligned blocks of `2^h` (03 R69): the values, and how many overflowed. -/
def rotLine (ieee : Bool) (h : Nat) (tab : List Byte) (k0 : Nat) (line : List XNum) : List XNum × Nat :=
  let ys := ((chunks (2 ^ h) line.length line).zipIdx.map (fun (blk, b) =>
    (List.range blk.length).map (rotOne ieee h tab (k0 + 2 ^ h * b) blk))).flatten
  (ys.map (·.1), (ys.filter (·.2)).length)

/-- The Crook correction `2·floor(h/2) − h` of the frame exponent (03 R69). -/
def crookCorr (h : Nat) : Int := if h = 0 then 0 else 2 * ((h / 2 : Nat) : Int) - (h : Int)

end Sys2Proof.QGrid
end

