-- ==== Sys2Proof/Machine/TileMath.lean ====
section
/-! DEFINITION. The arithmetic of one tile pass: cell integers, group sums and frame exponents, accumulation with its
overflow test, the Overblow products, special tags, strict accumulation, output conversion and the all-underflow test
(03 R65 to R68, R72 to R84). -/

namespace Sys2Proof.Tile

open Sys2Proof Sys2Proof.Num Sys2Proof.Quant Sys2Proof.QGrid

/-- One operand element as the array sees it: the element before its scale, its block code, whether its block is
poisoned, its decoded narrow value, and the BF16 value that an outlier entry gives it (03 R66, R77, R78). -/
structure Elem where
  raw : XNum := .fin false 0 0
  code : Nat := 0x7F
  psn : Bool := false
  main : XNum := .fin false 0 0
  out : Option XNum := none
deriving DecidableEq, Repr

/-- A decoded operand: 128 lines along the reduction. -/
structure Operand where
  fmt : Fmt
  scl : Bool := false
  t : XNum := .fin false 1 0
  blk8 : Bool := false
  lines : List (List Elem) := []
  /-- the chords that were refused or faulty -/
  faults : Nat := 0
  /-- at least one operand element passed through the Crook or is stored rotated -/
  rot : Bool := false
deriving DecidableEq, Repr

/-- One accumulator: the 20-bit value, the nonzero bit, the special tag (0 none, 1 +Inf, 2 -Inf, 3 invalid) and
whether it saturated after the retries were spent (03 R72, R81). -/
structure Acc where
  v : Int := 0
  nz : Bool := false
  tag : Nat := 0
  sat : Bool := false
deriving DecidableEq, Repr

/-- What one pass gives. -/
structure Pass where
  accs : List (List Acc) := []
  /-- strict mode: the exact sums -/
  sums : List (List XNum) := []
  /-- the group at whose end the pass must be abandoned, and the slabs that overflowed in it (03 R73) -/
  ovf : Option (Nat × List Nat) := none
  inv : Nat := 0
  psnIn : Bool := false
  wloss : Nat := 0
  /-- strict mode: the invalid elements in order, as row, column and cause (03 R83) -/
  invalid : List (Nat × Nat × Nat) := []
deriving DecidableEq, Repr

/-- Decoded value of an element with its outlier (03 R77). -/
def Elem.dec (e : Elem) : XNum := e.out.getD e.main

/-- Unbiased exponent of a nonzero finite element, that of its exponent field (03 R66). -/
def elemExp (f : Fmt) (m : Nat) (e : Int) : Int := max (floorLog2 m e) (1 - Fmt.bias f)

/-- Largest unbiased exponent of the finite nonzero elements of a group, 0 when there is none (03 R66). -/
def groupG (f : Fmt) (g : List Elem) : Int :=
  (g.foldl (fun (acc : Option Int) e =>
    match e.raw with
    | .fin _ m x =>
      if m = 0 then acc
      else let k := elemExp f m x
        some (match acc with | some a => max a k | none => k)
    | _ => acc) none).getD 0

/-- Grid offset of a format for a group (03 R66). -/
def gridOff (f : Fmt) (g : Int) : Int :=
  match f with
  | .e2m1 => -1 | .int4 => 0 | .e3m2 => -4 | .int8 => 0
  | .e4m3 | .e5m2 => g - 10
  | .fp16 | .bf16 => g - 14

/-- Cell integer of an element on the grid `2^off`, RNE; specials count as 0 here (03 R66). -/
def cellInt (off : Int) (e : Elem) : Int :=
  match e.raw with
  | .fin n m x => let q := roundInt .rne n m (x - off) 0; if n then -(q : Int) else q
  | _ => 0

/-- Significand integer of an E4M3 block code and the exponent that goes into the frame (03 R68); E8M0 codes have
significand 1 (03 R67). -/
def codeParts (scl : Bool) (code : Nat) : Int × Int :=
  if scl then
    let E := code / 8 % 16
    let M := code % 8
    if E = 0 then ((M : Int), -9) else ((8 + M : Int), (E : Int) - 10)
  else (1, (code : Int) - 127)

/-- One line's share of a (half) group: cell integers, grid offset, scale significand, scale exponent, lost elements. -/
structure GroupLine where
  ints : List Int
  off : Int
  q : Int
  e : Int
  lost : Nat
deriving DecidableEq, Repr

/-- Form one line's cell integers (03 R66). -/
def groupLine (o : Operand) (g : List Elem) (gAll : List Elem) : GroupLine :=
  let off := gridOff o.fmt (groupG o.fmt gAll)
  let ints := g.map (cellInt off)
  let (q, e) := codeParts o.scl ((g.getD 0 {}).code)
  { ints := ints, off := off, q := q, e := e
    lost := ((g.zip ints).filter (fun p => isFin p.1.raw && !isZero p.1.raw && p.2 == 0)).length }

/-- Exact group sum of two lines (03 R67). -/
def groupSum (a b : List Int) : Int := ((a.zip b).map (fun p => p.1 * p.2)).foldl (· + ·) 0

/-- Add an exact term `s * 2^f` to an accumulator whose least significant bit is `2^l` (03 R72). The last component
tells an overflow. -/
def addGroup (acc : Acc) (s : Int) (f l : Int) : Acc × Bool :=
  let nz := acc.nz || s != 0
  let q := roundInt .rne (decide (s < 0)) s.natAbs (f - l) 0
  let v : Int := if s < 0 then -(q : Int) else q
  let t := acc.v + v
  if t > 2 ^ 19 - 1 then ({ acc with v := 2 ^ 19 - 1, nz := nz, sat := true }, true)
  else if t < -(2 ^ 19) then ({ acc with v := -(2 ^ 19), nz := nz, sat := true }, true)
  else ({ acc with v := t, nz := nz }, false)

/-- Add an exact value of the Overblow array, with frame exponent 0 (03 R77, R78). -/
def addVal (acc : Acc) (x : XNum) (l : Int) : Acc × Bool :=
  match x with
  | .fin n m e => addGroup acc (if n then -(m : Int) else m) e l
  | _ => (acc, false)

/-- A special term and what it does to a tag: the new tag, whether the term is invalid, and whether only a poisoned
block made it so (03 R81). -/
def specialTerm (tag : Nat) (a b : Elem) : Nat × Bool × Bool :=
  let x := a.dec
  let y := b.dec
  let anyNan := isNan x || isNan y || a.psn || b.psn
  if anyNan then
    let fromPsn := (a.psn || !isNan x) && (b.psn || !isNan y)
    (3, !fromPsn, fromPsn)
  else
    match mul x y with
    | .nan => (3, true, false)
    | .inf n => if tag = 3 then (3, false, false)
      else
        let t := if n then 2 else 1
        if tag = 0 then (t, false, false) else if tag = t then (tag, false, false) else (3, true, false)
    | _ => (tag, false, false)

/-- Is an element's decoded value special? -/
def isSpecial (e : Elem) : Bool := e.psn || !isFin e.dec

/-- Everything one group adds to one accumulator: the group sum or its two halves, the Overblow terms in order of the
reduction index, then the special terms. `(acc, overflowed, invalid terms, poison seen)`.
DESIGN CHOICE: 03 R77 and R78 do not say when an Overblow term enters the running sum; here it does so with the group of its
reduction index, after the group sum (log 59). -/
def cellGroup (blk8 : Bool) (c : Int) (tInv : XNum → XNum) (l : Int) (acc : Acc)
    (a b : List Elem) (ga gb : List GroupLine) : Acc × Bool × Nat × Bool :=
  let step := fun (st : Acc × Bool) (p : GroupLine × GroupLine) =>
    let s := groupSum p.1.ints p.2.ints * p.1.q * p.2.q
    let f := p.1.e + p.1.off + p.2.e + p.2.off + c
    let (acc', o) := addGroup st.1 s f l
    (acc', st.2 || o)
  let _ := blk8
  let (acc1, o1) := (ga.zip gb).foldl step (acc, false)
  let obTerm := fun (st : Acc × Bool) (p : Elem × Elem) =>
    if isSpecial p.1 || isSpecial p.2 then st
    else
      let st := match p.1.out with
        | some x => let (a', o) := addVal st.1 (tInv (mul x p.2.dec)) l; (a', st.2 || o)
        | none => st
      match p.1.out, p.2.out with
      | none, some y => let (a', o) := addVal st.1 (tInv (mul p.1.main y)) l; (a', st.2 || o)
      | _, _ => st
  let (acc2, o2) := (a.zip b).foldl obTerm (acc1, o1)
  let sp := fun (st : Nat × Nat × Bool) (p : Elem × Elem) =>
    if isSpecial p.1 || isSpecial p.2 then
      let (t, inv, ps) := specialTerm st.1 p.1 p.2
      (t, st.2.1 + bit inv, st.2.2 || ps)
    else st
  let (tag, inv, ps) := (a.zip b).foldl sp (acc2.tag, 0, false)
  let acc3 := { acc2 with tag := tag }
  -- accumulators whose special tag is set are excluded from the overflow test (R72)
  if tag ≠ 0 then ({ acc3 with sat := acc.sat }, false, inv, ps) else (acc3, o2, inv, ps)

/-- `floor(log2(T_A · T_B))`, subtracted from the predicted exponent under two-level scaling (03 R68). -/
def tLog (t : XNum) : Int := match t with | .fin _ m e => if m = 0 then 0 else floorLog2 m e | _ => 0

/-- Divide by the product of the tensor scales, kept exact to 80 bits with a sticky bit.
DEDUCED: an Overblow product carries the tensor scales, and the accumulators do not (03 R68); 03 R77 gives only frame exponent 0, so
it is divided by `T_A · T_B` before alignment (log 59). -/
def divBy (t x : XNum) : XNum :=
  match x, t with
  | .fin n m e, .fin _ sm se =>
    if sm = 0 ∨ m = 0 then x
    else
      let k := 80 + Nat.log2 sm + 1
      .fin n (2 * (m * 2 ^ k / sm) + (if m * 2 ^ k % sm = 0 then 0 else 1)) (e - se - k - 1)
  | _, _ => x

/-- State of a pass while its groups are added. -/
structure Running where
  accs : List (List Acc)
  ovf : Option (Nat × List Nat) := none
  inv : Nat := 0
  psn : Bool := false
  wloss : Nat := 0
deriving DecidableEq, Repr

/-- One reduction group over the whole tile. -/
def oneGroup (A B : Operand) (c : Int) (t : XNum) (ps : List Int) (stopOnOvf : Bool) (st : Running) (g : Nat) : Running :=
  if stopOnOvf && st.ovf.isSome then st
  else
    let cut := fun (l : List Elem) => (l.drop (16 * g)).take 16
    let halves := fun (l : List Elem) => if A.blk8 || B.blk8 then [l.take 8, l.drop 8] else [l]
    let prep := fun (o : Operand) => o.lines.map (fun l => let e := cut l; (e, (halves e).map (fun h => groupLine o h e)))
    let pa := prep A
    let pb := prep B
    let lost := ((pa ++ pb).map (fun p => (p.2.map (·.lost)).foldl (· + ·) 0)).foldl (· + ·) 0
    let two := A.scl || B.scl
    let tInv := fun x => if two then divBy t x else x
    let rows : List (List (Acc × Bool × Nat × Bool)) := (st.accs.zip pa).zipIdx.map (fun ((accRow, a), m) =>
      let l := ps.getD (m / 16) 0 - (if two then tLog t else 0) - 18
      (accRow.zip pb).map (fun (acc, b) => cellGroup (A.blk8 || B.blk8) c tInv l acc a.1 b.1 a.2 b.2))
    let slabs := (rows.zipIdx.filter (fun p => p.1.any (fun r => r.2.1))).map (fun p => p.2 / 16)
    { accs := rows.map (fun r => r.map (·.1))
      ovf := match st.ovf with
        | some o => some o
        | none => if slabs.isEmpty then none else some (g, slabs.dedup)
      inv := st.inv + (rows.map (fun r => (r.map (fun x => x.2.2.1)).foldl (· + ·) 0)).foldl (· + ·) 0
      psn := st.psn || rows.any (fun r => r.any (fun x => x.2.2.2))
      wloss := st.wloss + lost }

/-- A fast-mode pass: every group in order; when `stopOnOvf` it ends at the first group with an overflow (03 R73). -/
def fastPass (A B : Operand) (k : Nat) (c : Int) (ps : List Int) (stopOnOvf : Bool) : Pass :=
  let t := mul A.t B.t
  let init : Running := { accs := List.replicate 128 (List.replicate 128 {}) }
  let r := (List.range ((k + 15) / 16)).foldl (oneGroup A B c t ps stopOnOvf) init
  { accs := r.accs, ovf := r.ovf, inv := r.inv, psnIn := r.psn, wloss := r.wloss }

/-- Cause of an invalid strict element: 0 NaN operand, 1 zero times infinity, 2 infinities of opposite sign (03 R83).
DESIGN CHOICE: of several causes the lowest code is listed (log 59). -/
def strictCause (a b : List Elem) : Nat :=
  if (a.zip b).any (fun p => isNan p.1.dec || isNan p.2.dec || p.1.psn || p.2.psn) then 0
  else if (a.zip b).any (fun p => isNan (mul p.1.dec p.2.dec)) then 1
  else 2

/-- A decoded element with poison as NaN. -/
def Elem.val (e : Elem) : XNum := if e.psn then .nan else e.dec

/-- A strict-mode pass: exact products, exact sums, with the Crook correction `c` of a rotated product (03 R69, R83).
DESIGN CHOICE: the invalid elements stand in the list row by row (log 59). -/
def strictPass (A B : Operand) (c : Int) : Pass :=
  let cell := fun (a b : List Elem) => scale c ((a.zip b).foldl (fun s p => add false s (mul p.1.val p.2.val)) (zero false))
  let sums := A.lines.map (fun a => B.lines.map (fun b => cell a b))
  let bad := (sums.zipIdx.map (fun (row, m) => (row.zipIdx.filter (fun p => isNan p.1)).map (fun p =>
    (m, p.2, strictCause (A.lines.getD m []) (B.lines.getD p.2 []))))).flatten
  { sums := sums, inv := bad.length, invalid := bad
    psnIn := (A.lines ++ B.lines).any (fun l => l.any (·.psn)) }

/-- The value of an accumulator at output conversion: BF16 of `acc · 2^L`, RNE, then times the tensor scales (03 R75).
The second component tells a saturation of that conversion.
DESIGN CHOICE: 03 R75 does not say whether the product with the tensor scales is rounded again; here it is rounded to BF16 with RNE
(log 59). -/
def accValue (ieee : Bool) (l : Int) (two : Bool) (t : XNum) (a : Acc) : XNum × Bool :=
  let r := Num.round .bf16 .rne ieee false (ofInt a.v l) 0
  let x := decode .bf16 (noNegZero .bf16 r.code)
  if two then
    let r2 := Num.round .bf16 .rne ieee false (mul x t) 0
    (decode .bf16 (noNegZero .bf16 r2.code), r.ovf || r2.ovf)
  else (x, r.ovf)

/-- What the output stage gives for a finished pass. -/
structure Out where
  /-- 8 × 8 chords, row-major -/
  chords : List Chord := []
  counts : Counts := {}
  /-- saturated output elements (SAT_OUT) -/
  sat : Nat := 0
  /-- all-underflow output blocks and the slabs that hold one (03 R74) -/
  uzBlocks : Nat := 0
  uzSlabs : List Nat := []
  psnOut : Bool := false
  inf : Bool := false
  /-- BF16 code of the largest finite magnitude (04 R100) -/
  amax : Nat := 0
  ovfFinal : Bool := false
deriving DecidableEq, Repr

/-- How the output is to be written: from the tile descriptor and the latched settings. -/
structure OutCfg where
  q : Cfg
  g : Geom
  vout : Bool := false
  ratio : XNum := .fin false 8 0
  ver : Nat := 0
deriving DecidableEq, Repr

/-- Blocks of a 128 × 128 grid with a chord written poisoned, and those wholly in such chords; `bad` tells strip and chord along
the lines. -/
def poisonedBlocks (g : Geom) (bad : Nat → Nat → Bool) : Nat × Nat :=
  let per := if g.twoD || g.blk < 16 then 1 else g.blk / 16
  let each := if g.twoD then 1 else if g.blk < 16 then 32 else 16
  let groups := ((List.range 8).map (fun i => (List.range (8 / per)).map (fun j => (List.range per).map (fun k => bad i (per * j + k))))).flatten
  (each * (groups.filter (fun l => l.any id)).length, each * (groups.filter (fun l => l.all id)).length)

/-- Quantise a 128 × 128 grid of values into 64 chords and apply the poisoning of whole chords (03 R82). `pad` tells the elements
beyond the tensor (02 R38). -/
def writeOut (o : OutCfg) (vals : List (List XNum)) (badChord pad : Nat → Nat → Bool) :
    List (LChord × Chord) × Counts × Nat :=
  let at_ := fun r c => (vals.getD r []).getD c (zero false)
  let lines := (List.range 128).map (fun ln => (List.range 128).map (fun p =>
    let (r, c) := if o.g.cols then (p, ln) else (ln, p)
    ({ x := if badChord (r / 16) (c / 16) then zero false else at_ r c, pad := pad r c } : Src)))
  let res := run o.q o.g o.vout o.ratio lines
  let (psn, gone) := poisonedBlocks o.g (fun i j => if o.g.cols then badChord j i else badChord i j)
  let pick := fun i j => if o.g.cols then (res.chords.getD j []).getD i {} else (res.chords.getD i []).getD j {}
  ((List.range 64).map (fun n =>
    let i := n / 8
    let j := n % 8
    let lc := pick i j
    if badChord i j then
      (lc, Chord.poisoned o.q.fmt (if o.g.twoD then 2 else if o.g.cols then 1 else 0) (blkCode o.g.blk))
    else (lc, toChord o.q.fmt o.q.scl o.q.sym false o.g o.ver lc)),
   { res.counts with psnBlk := sat32 res.counts.psnBlk psn, zbBlk := res.counts.zbBlk - gone }, res.excess)

/-- How many elements of an output saturated: in its accumulator, its conversion or its format, each element once, those of chords
written poisoned apart (03 R82, R93). -/
def satCount (g : Geom) (chs : List (LChord × Chord)) (badChord : Nat → Nat → Bool) (sat : Nat → Nat → Bool) : Nat :=
  ((List.range 64).map (fun n =>
    let i := n / 8
    let j := n % 8
    if badChord i j then 0
    else ((List.range 256).filter (fun e =>
      let r := e / 16
      let c := e % 16
      sat (16 * i + r) (16 * j + c) || (chs.getD n ({}, {})).1.sat (if g.cols then c else r) (if g.cols then r else c))).length)).foldl
    (· + ·) 0

/-- Output of a fast-mode pass (03 R74, R75, R82; 04 R99, R100). In SAT mode an infinite accumulator is written as ±max of a format
that has infinities, and takes no part in its block's scale (03 R82; 04 R97). -/
def fastOut (o : OutCfg) (A B : Operand) (ps : List Int) (p : Pass) (pad : Nat → Nat → Bool) : Out :=
  let two := A.scl || B.scl
  let t := mul A.t B.t
  let lOf := fun (m : Nat) => ps.getD (m / 16) 0 - (if two then tLog t else 0) - 18
  let conv := p.accs.zipIdx.map (fun (row, m) => row.map (fun a => (a, accValue o.q.ieee (lOf m) two t a)))
  let bad := fun i j => ((conv.drop (16 * i)).take 16).any (fun row => ((row.drop (16 * j)).take 16).any (fun x => x.1.tag == 3))
  let val := fun (x : Acc × XNum × Bool) => if x.1.tag = 1 ∨ x.1.tag = 2 then .inf (x.1.tag == 2) else x.2.1
  let vals := conv.map (fun row => row.map val)
  let (chs, counts, _) := writeOut { o with q := { o.q with infMax := !o.q.ieee } } vals bad pad
  let early := fun r c =>
    let x := (conv.getD r []).getD c ({}, zero false, false)
    x.1.tag == 0 && (x.1.sat || x.2.2) && !pad r c
  let narrow := !(o.q.fmt == .bf16 || o.q.fmt == .fp16)
  let lineAccs := fun n ln => -- the 16 accumulators of line `ln` of chord `n`
    let i := n / 8; let j := n % 8
    if o.g.cols then (List.range 16).map (fun k => ((p.accs.getD (16 * i + k) []).getD (16 * j + ln) {}))
    else ((p.accs.getD (16 * i + ln) []).drop (16 * j)).take 16
  let uzLine := fun n ln =>
    if bad (n / 8) (n % 8) then false
    else if narrow then (((chs.getD n ({}, {})).1.uzLines).getD ln false)
    else (lineAccs n ln).all (fun a => a.v == 0) && (lineAccs n ln).any (·.nz)
  let uz := ((List.range 64).map (fun n => (List.range 16).map (fun ln => (n, uzLine n ln)))).flatten.filter (·.2)
  let ovfF := p.accs.zipIdx.any (fun (row, _) => row.any (fun a => a.tag == 0 && a.sat))
  let amaxV := (conv.map (fun row => (row.filter (fun x => x.1.tag == 0)).map (fun x => x.2.1))).flatten
  let top := (p.accs.zipIdx.filter (fun (row, _) => row.any (fun a => a.tag == 0 && a.sat))).map (fun x => ps.getD (x.2 / 16) 0)
  let amax :=
    if ovfF then toBf16 false (.fin false 1 ((top.foldl max (top.getD 0 0)) + 1))
    else match amaxOf amaxV with | some (m, e) => toBf16 false (.fin false m e) | none => 0
  { chords := chs.map (·.2), counts := counts, sat := satCount o.g chs bad early
    uzBlocks := uz.length, uzSlabs := (uz.map (fun x => x.1 / 8)).dedup
    psnOut := (List.range 64).any (fun n => bad (n / 8) (n % 8)) || chs.any (fun c => c.2.side.psn)
    inf := p.accs.any (fun row => row.any (fun a => a.tag == 1 || a.tag == 2))
    amax := amax, ovfFinal := ovfF }

/-- Output of a strict-mode pass: one rounding, NaN element by element (03 R83). -/
def strictOut (o : OutCfg) (p : Pass) (pad : Nat → Nat → Bool) : Out :=
  let vals := p.sums
  let (chs, counts, _) := writeOut o vals (fun _ _ => false) pad
  let amax := match amaxOf vals.flatten with | some (m, e) => toBf16 false (.fin false m e) | none => 0
  { chords := chs.map (·.2), counts := counts, sat := satCount o.g chs (fun _ _ => false) (fun _ _ => false)
    psnOut := chs.any (fun c => c.2.side.psn), inf := vals.any (fun r => r.any (fun x => match x with | .inf _ => true | _ => false))
    amax := amax }

/-- Slabs that hold a saturated or tagged difference are told by their P: raise P by 4 in the slabs named (03 R73). -/
def raiseSlabs (ps : List Int) (slabs : List Nat) (by_ : Int) : List Int :=
  ps.zipIdx.map (fun (p, s) => if slabs.contains s then p + by_ else p)

end Sys2Proof.Tile
end

