-- ==== Sys2Proof/Machine/ValveMath.lean ====
section
/-! DEFINITION. What one Valve lane computes: the arithmetic, comparison, conversion, shift and function instructions
of 06 R146 with the accuracy of R148 and the special cases of R149, and the lane's random source (02 R48). -/

namespace Sys2Proof.Lane

open Sys2Proof Sys2Proof.Num

/-- Lane types in the order of the TY codes (06 R144). -/
inductive Ty where
  | bf16 | fp16 | int16 | uint16
deriving DecidableEq, Repr

/-- The lane type of a TY code. -/
def Ty.ofCode (n : Nat) : Ty :=
  match n % 4 with
  | 0 => .bf16 | 1 => .fp16 | 2 => .int16 | _ => .uint16

/-- Is the type a float type? -/
def Ty.isFloat : Ty → Bool
  | .bf16 | .fp16 => true
  | _ => false

/-- The element format of a float type. -/
def Ty.fmt : Ty → Fmt
  | .fp16 => .fp16
  | _ => .bf16

/-- Exception flags of one lane, the bits of XF (06 R150); the run's sticky flags are made of them (R149). -/
structure Flags where
  inv : Bool := false
  dz : Bool := false
  ovf : Bool := false
  unf : Bool := false
  inx : Bool := false
deriving DecidableEq, Repr

/-- Union of flags. -/
def Flags.or (a b : Flags) : Flags :=
  { inv := a.inv || b.inv, dz := a.dz || b.dz, ovf := a.ovf || b.ovf, unf := a.unf || b.unf, inx := a.inx || b.inx }

/-- XF as a five-bit number (06 R150). -/
def Flags.code (f : Flags) : Nat := bit f.inv + 2 * bit f.dz + 4 * bit f.ovf + 8 * bit f.unf + 16 * bit f.inx

/-- The settings a run latched that lane arithmetic depends on (06 R160). -/
structure Env where
  strict : Bool := false
  ieee : Bool := false
deriving DecidableEq, Repr

/-- A lane result: the 16 bits written and the flags raised. -/
structure Res where
  bits : Nat := 0
  fl : Flags := {}
deriving DecidableEq, Repr

/-- Value of a lane's 16 bits as a float; a negative zero is held as such (06 R147). -/
def fval (ty : Ty) (bits : Nat) : XNum := decode ty.fmt bits

/-- Value of a lane's 16 bits as an integer. -/
def ival (ty : Ty) (bits : Nat) : Int := if ty = .int16 then toSigned 16 bits else ((bits % 65536 : Nat) : Int)

/-- Limits of an integer type. -/
def ilim (ty : Ty) : Int × Int := if ty = .int16 then (-32768, 32767) else (0, 65535)

/-- Round a float result into a float type with its flags (06 R147, R149, R150; 02 R50). -/
def fround (env : Env) (ty : Ty) (rnd : Rnd) (x : XNum) (r8 : Nat) : Res :=
  let r := Num.round ty.fmt rnd env.ieee false x r8
  { bits := r.code, fl := { ovf := r.ovf, unf := r.tiny && r.inexact, inx := r.inexact } }

/-- An infinity that a special case enters: the largest finite value in SAT mode (06 R149). -/
def infEntry (env : Env) (ty : Ty) (neg : Bool) : Nat :=
  let f := ty.fmt
  if env.ieee then Fmt.infCode f neg
  else (if neg then 2 ^ 15 else 0) + (Fmt.infCode f false - 1)

/-- The canonical NaN of a type (02 R52). -/
def nanBits (ty : Ty) : Nat := Fmt.nanCode ty.fmt

/-- A NaN result of an invalid operation (06 R149). -/
def invalid (ty : Ty) : Res := { bits := nanBits ty, fl := { inv := true } }

/-- Saturating integer result (06 R146, R149). -/
def isat (ty : Ty) (z : Int) : Res :=
  let (lo, hi) := ilim ty
  { bits := ofSigned 16 (clampInt lo hi z), fl := { ovf := z < lo || hi < z } }

/-- An exact float operation rounded once; a NaN that no NaN operand explains is invalid (06 R149). -/
def fop (env : Env) (ty : Ty) (rnd : Rnd) (anyNan : Bool) (x : XNum) (r8 : Nat) : Res :=
  if isNan x then (if anyNan then { bits := nanBits ty } else invalid ty) else fround env ty rnd x r8

/-- ADD (06 R146). -/
def add2 (env : Env) (ty : Ty) (rnd : Rnd) (a b r8 : Nat) : Res :=
  if ty.isFloat then
    let x := fval ty a; let y := fval ty b
    fop env ty rnd (isNan x || isNan y) (Num.add (rnd == .down) x y) r8
  else isat ty (ival ty a + ival ty b)

/-- SUB (06 R146). -/
def sub2 (env : Env) (ty : Ty) (rnd : Rnd) (a b r8 : Nat) : Res :=
  if ty.isFloat then
    let x := fval ty a; let y := fval ty b
    fop env ty rnd (isNan x || isNan y) (Num.add (rnd == .down) x (negate y)) r8
  else isat ty (ival ty a - ival ty b)

/-- MUL (06 R146). -/
def mul2 (env : Env) (ty : Ty) (rnd : Rnd) (a b r8 : Nat) : Res :=
  if ty.isFloat then
    let x := fval ty a; let y := fval ty b
    fop env ty rnd (isNan x || isNan y) (Num.mul x y) r8
  else isat ty (ival ty a * ival ty b)

/-- FMA of a float type: one rounding (06 R146). -/
def fma3 (env : Env) (ty : Ty) (rnd : Rnd) (a b c r8 : Nat) : Res :=
  let x := fval ty a; let y := fval ty b; let z := fval ty c
  fop env ty rnd (isNan x || isNan y || isNan z) (Num.add (rnd == .down) (Num.mul x y) z) r8

/-- MIN or MAX (06 R146, 02 R54). -/
def minmax (env : Env) (ty : Ty) (wantMax : Bool) (a b : Nat) : Res :=
  if ty.isFloat then
    let x := fval ty a; let y := fval ty b
    if isNan x && isNan y then { bits := nanBits ty }
    else if isNan x then { bits := if env.strict then nanBits ty else b }
    else if isNan y then { bits := if env.strict then nanBits ty else a }
    else
      let c := cmp x y
      let c := if c == 0 && env.strict && isZero x && isZero y then
          (if signOf x && !signOf y then -1 else if !signOf x && signOf y then 1 else 0) else c
      { bits := if (if wantMax then c ≥ 0 else c ≤ 0) then a else b }
  else
    let p := ival ty a; let q := ival ty b
    { bits := if (if wantMax then p ≥ q else p ≤ q) then a else b }

/-- The comparison relations of CMP in the order of IMM[4:2] (06 R146, 02 R53). -/
def relation (ty : Ty) (rel a b : Nat) : Bool :=
  let (un, c) : Bool × Int :=
    if ty.isFloat then
      let x := fval ty a; let y := fval ty b
      (isNan x || isNan y, cmp x y)
    else
      let p := ival ty a; let q := ival ty b
      (false, if p < q then -1 else if p > q then 1 else 0)
  match rel % 8 with
  | 0 => !un && c == 0
  | 1 => un || c != 0
  | 2 => !un && c < 0
  | 3 => !un && c ≤ 0
  | 4 => !un && c > 0
  | 5 => !un && c ≥ 0
  | 6 => un
  | _ => !un

/-! ### Functions: a value with at least 60 correct bits beyond the target's, then a code within the error bound -/

/-- Integer square root by bits: the largest `r < 2^n` with `r * r ≤ v`, given what is already placed in `r`. -/
def isqrtAux (n v r : Nat) : Nat :=
  match n with
  | 0 => r
  | n + 1 => let t := r + 2 ^ n; isqrtAux n v (if t * t ≤ v then t else r)

/-- Integer square root of a number. -/
def isqrt (v : Nat) : Nat := isqrtAux (Nat.log2 v / 2 + 1) v 0

/-- Fixed-point precision of the function evaluations: values are integers over `2^prec`. -/
def prec : Nat := 200

/-- `2^f` for the fraction `f/2^n` with `n` bits left, most significant first; `root` is the current `2^(2^-i)`. -/
def exp2Frac (n f root acc : Nat) : Nat :=
  match n with
  | 0 => acc
  | n + 1 => exp2Frac n f (isqrt (root * 2 ^ prec)) (if f / 2 ^ n % 2 = 1 then acc * root / 2 ^ prec else acc)

/-- `2^(z / 2^128)` for an integer `z`, as a magnitude `m * 2^e`. -/
def exp2Fix (z : Int) : Nat × Int :=
  let n := z / (2 ^ 128 : Int)
  let f := (z - n * 2 ^ 128).toNat
  (exp2Frac 128 f (isqrt (2 * 2 ^ prec * 2 ^ prec)) (2 ^ prec), n - prec)

/-- Bits of the binary logarithm of a fixed-point `m` in [1, 2), by repeated squaring. -/
def log2Bits (n m : Nat) (acc : Nat) : Nat :=
  match n with
  | 0 => acc
  | n + 1 =>
    let y := m * m / 2 ^ prec
    if y ≥ 2 ^ (prec + 1) then log2Bits n (y / 2) (2 * acc + 1) else log2Bits n y (2 * acc)

/-- Binary logarithm of a positive magnitude, in units of `2^-100`. -/
def log2Fix (m : Nat) (e : Int) : Int :=
  let k := Nat.log2 m
  let mm := if k ≤ prec then m * 2 ^ (prec - k) else m / 2 ^ (k - prec)
  ((k : Int) + e) * 2 ^ 100 + (log2Bits 100 mm 0 : Nat)

/-- `log2(e)` in units of `2^-200`. -/
def log2e : Nat := 0x171547652b82fe1777d0ffda0d23a7d11d6aef551bad2b4b116

/-- A finite value in units of `2^-128`, truncated toward minus infinity. -/
def toFix (x : XNum) : Int := floorAt (-128) x

/-- `e^x` for a finite `x`, as a magnitude: exponent `x · log2(e)` in units of `2^-128`. -/
def expE (x : XNum) : Nat × Int :=
  match x with
  | .fin n m e =>
    let y := floorAt (-128) (.fin n (m * log2e) (e - 200))
    exp2Fix y
  | _ => (1, 0)

/-- Quotient of magnitudes with 220 bits. -/
def quotMag (m : Nat) (e : Int) (d : Nat) (de : Int) : Nat × Int :=
  let up := 220 + Nat.log2 d
  (m * 2 ^ up / (max d 1), e - de - up)

/-- Sum of magnitudes. -/
def sumMag (m : Nat) (e : Int) (d : Nat) (de : Int) : Nat × Int :=
  let lo := min e de
  (m * 2 ^ (e - lo).toNat + d * 2 ^ (de - lo).toNat, lo)

/-- Difference of magnitudes, the first being the larger. -/
def diffMag (m : Nat) (e : Int) (d : Nat) (de : Int) : Nat × Int :=
  let lo := min e de
  (m * 2 ^ (e - lo).toNat - d * 2 ^ (de - lo).toNat, lo)

/-- `tanh |x|` of a nonzero magnitude. Below `2^-20` the first two terms of the series are exact to 80 bits; above 64 the
result lies within `2^-180` of 1. -/
def tanhMag (m : Nat) (e : Int) : Nat × Int :=
  if floorLog2 m e < -20 then
    -- x - x^3/3 = x (3 - x^2) / 3
    let (a, ae) := diffMag 3 0 (m * m) (2 * e)
    quotMag (m * a) (e + ae) 3 0
  else if floorLog2 m e ≥ 6 then (2 ^ 180 - 1, -180)
  else
    let (p, pe) := expE (.fin false m (e + 1))
    let (num, ne) := diffMag p pe 1 0
    let (den, de) := sumMag p pe 1 0
    quotMag num ne den de

/-- `1/(1 + e^-x)` of a finite value, as a magnitude. -/
def sigmMag (x : XNum) : Nat × Int :=
  match x with
  | .fin neg m e =>
    if floorLog2 (max m 1) e ≥ 9 then (if neg then (1, -2000) else (2 ^ 180 - 1, -180))
    else
      let (p, pe) := expE (.fin true m e)
      let (den, de) := sumMag p pe 1 0
      if neg then quotMag p pe den de else quotMag 1 0 den de
  | _ => (1, -1)

/-- What a function gives before rounding: a signed magnitude, and whether it is exact. -/
structure Approx where
  neg : Bool
  m : Nat
  e : Int
  exact : Bool
deriving DecidableEq, Repr

/-- The value of EXP2, LOG2, TANH or SIGM (function numbers 0 to 3) at a finite operand outside the special cases. -/
def funcVal (fn : Nat) (x : XNum) : Approx :=
  match x with
  | .fin n m e =>
    match fn with
    | 0 =>
      if floorLog2 (max m 1) e ≥ 12 then { neg := false, m := 1, e := if n then -4000 else 4000, exact := false }
      else
        let (p, pe) := exp2Fix (toFix x)
        { neg := false, m := p, e := pe, exact := toFix x % (2 ^ 128 : Int) == 0 && (0 ≤ e || m % 2 ^ (-e).toNat == 0) }
    | 1 =>
      let z := log2Fix m e
      { neg := z < 0, m := z.natAbs, e := -100, exact := m == 2 ^ Nat.log2 m }
    | 2 => if m = 0 then { neg := n, m := 0, e := 0, exact := true } else
      let (p, pe) := tanhMag m e
      { neg := n, m := p, e := pe, exact := false }
    | _ => let (p, pe) := sigmMag x
      { neg := false, m := p, e := pe, exact := m == 0 }
  | _ => { neg := false, m := 0, e := 0, exact := true }

/-- Codes of a float type whose value lies within `k` units in the last place of an approximation known to 60 bits and
more, the finite range apart: the error bound of 06 R148. A code that misses the bound by less than `2^-40` of a unit is
let in. -/
def candidatesFor (ty : Ty) (k : Nat) (a : Approx) : List Nat :=
  let f := ty.fmt
  let u := ulpExp f a.m a.e
  -- the magnitude code of the approximation rounded down; codes of magnitudes stand in the order of their values
  let c0 := packMag f false (shiftSplit a.m (a.e - u)).1 u
  let slack := 2 ^ 40
  -- values in units of 2^(u - 40)
  let v := (shiftSplit a.m (a.e - u + 40)).1
  let near := fun c => match decode f c with
    | .fin _ m e => let w := (shiftSplit m (e - u + 40)).1
                    let d := if w ≥ v then w - v else v - w
                    d ≤ k * slack + 1
    | _ => false
  let s := if a.neg then 2 ^ (Fmt.bits f - 1) else 0
  (((List.range (4 * k + 3)).map (· + (c0 - 2 * k - 1))).filter (fun c => decide (c < 2 ^ (Fmt.bits f - 1)) && near c)).map (s + ·)

/-- A function result within its error bound, the place in the list of admissible codes given by a free value
(06 R148). The overflow rule of R50 applies to a value beyond the finite range. -/
def approxRes (env : Env) (ty : Ty) (rnd : Rnd) (k : Nat) (a : Approx) (free r8 : Nat) : Res :=
  let f := ty.fmt
  let (mm, me) := Fmt.maxMag f
  if magLt mm me a.m a.e then
    let r := Num.roundFin f rnd env.ieee false a.neg a.m a.e r8
    if r.ovf then { bits := r.code, fl := { ovf := true, inx := true } }
    else { bits := r.code, fl := { inx := true } }
  else
    let cs := candidatesFor ty k a
    let c := cs.getD (free % max cs.length 1) 0
    let same := match decode f c with | .fin _ m e => magEq m e a.m a.e | _ => false
    let inx := !(a.exact && same)
    let tiny := match decode f c with | .fin _ m e => m == 0 || floorLog2 m e < 1 - Fmt.bias f | _ => false
    { bits := c, fl := { inx := inx, unf := inx && tiny } }

/-- Error bound in units in the last place of EXP2, LOG2, TANH and SIGM (06 R148). -/
def bound (env : Env) (ty : Ty) : Nat := if !env.strict && ty == .fp16 then 2 else 1

/-- EXP2 (06 R146, R149). -/
def exp2 (env : Env) (ty : Ty) (rnd : Rnd) (a free r8 : Nat) : Res :=
  match fval ty a with
  | .nan => { bits := nanBits ty }
  | .inf true => { bits := 0 }
  | .inf false => { bits := infEntry env ty false }
  | x => approxRes env ty rnd (bound env ty) (funcVal 0 x) free r8

/-- LOG2 (06 R146, R149). -/
def log2 (env : Env) (ty : Ty) (rnd : Rnd) (a free r8 : Nat) : Res :=
  match fval ty a with
  | .nan => { bits := nanBits ty }
  | .inf true => invalid ty
  | .inf false => { bits := infEntry env ty false }
  | .fin n m e =>
    if m = 0 then { bits := infEntry env ty true, fl := { dz := true } }
    else if n then invalid ty
    else approxRes env ty rnd (bound env ty) (funcVal 1 (.fin n m e)) free r8

/-- TANH (06 R146, R149). -/
def tanh (env : Env) (ty : Ty) (rnd : Rnd) (a free r8 : Nat) : Res :=
  match fval ty a with
  | .nan => { bits := nanBits ty }
  | .inf n => fround env ty .rne (.fin n 1 0) 0
  | x => approxRes env ty rnd (bound env ty) (funcVal 2 x) free r8

/-- SIGM (06 R146, R149). -/
def sigm (env : Env) (ty : Ty) (rnd : Rnd) (a free r8 : Nat) : Res :=
  match fval ty a with
  | .nan => { bits := nanBits ty }
  | .inf true => { bits := 0 }
  | .inf false => fround env ty .rne (.fin false 1 0) 0
  | x => approxRes env ty rnd (bound env ty) (funcVal 3 x) free r8

/-- RCP: correctly rounded in strict mode, within one unit in fast mode (06 R146, R148, R149). -/
def rcp (env : Env) (ty : Ty) (rnd : Rnd) (a free r8 : Nat) : Res :=
  match fval ty a with
  | .nan => { bits := nanBits ty }
  | .inf n => fround env ty .rne (zero n) 0
  | .fin n m e =>
    if m = 0 then { bits := infEntry env ty n, fl := { dz := true } }
    else
      let k := 300 + Nat.log2 m
      let q := 2 ^ k / m
      let sticky := if 2 ^ k % m = 0 then 0 else 1
      if env.strict then fround env ty rnd (.fin n (2 * q + sticky) (-e - k - 1)) r8
      else approxRes env ty rnd 1 { neg := n, m := 2 * q + sticky, e := -e - k - 1, exact := sticky == 0 } free r8

/-- RSQRT: correctly rounded in strict mode, within one unit in fast mode (06 R146, R148, R149). -/
def rsqrt (env : Env) (ty : Ty) (rnd : Rnd) (a free r8 : Nat) : Res :=
  match fval ty a with
  | .nan => { bits := nanBits ty }
  | .inf true => invalid ty
  | .inf false => { bits := 0 }
  | .fin n m e =>
    if m = 0 then { bits := infEntry env ty n, fl := { dz := true } }
    else if n then invalid ty
    else
      -- 1/sqrt(m 2^e) = sqrt(2^(2k) / m) 2^(-k) 2^(-e/2), with the exponent made even
      let (m, e) := if e % 2 = 0 then (m, e) else (2 * m, e - 1)
      let k := 300 + Nat.log2 m
      let w := 2 ^ (2 * k) / m
      let r := isqrt w
      let sticky := if r * r * m = 2 ^ (2 * k) then 0 else 1
      let v := 2 * r + sticky
      let ve := -(k : Int) - e / 2 - 1
      if env.strict then fround env ty rnd (.fin false v ve) r8
      else approxRes env ty rnd 1 { neg := false, m := v, e := ve, exact := sticky == 0 } free r8

/-- CVT to the type numbered `tgt` (06 R146, R149). -/
def cvt (env : Env) (ty : Ty) (tgt : Nat) (rnd : Rnd) (a r8 : Nat) : Res :=
  let t := Ty.ofCode tgt
  if ty.isFloat then
    let x := fval ty a
    if t.isFloat then
      match x with
      | .nan => { bits := nanBits t }
      | x => fround env t rnd x r8
    else
      let (lo, hi) := ilim t
      let beyond := fun (z : Int) => ({ bits := ofSigned 16 z, fl := (if env.strict then { inv := true } else { ovf := true }) } : Res)
      match x with
      | .nan => { bits := 0, fl := { inv := true } }
      | .inf n => beyond (if n then lo else hi)
      | .fin n m e =>
        let q := roundInt rnd n m e r8
        let z : Int := if n then -(q : Int) else q
        if z < lo then beyond lo else if hi < z then beyond hi
        else { bits := ofSigned 16 z, fl := { inx := !magEq q 0 m e } }
  else
    let z := ival ty a
    if t.isFloat then fround env t rnd (ofInt z 0) r8
    else
      let (lo, hi) := ilim t
      { bits := ofSigned 16 (clampInt lo hi z)
        fl := (if z < lo || hi < z then (if env.strict then { inv := true } else { ovf := true }) else {}) }

/-- What QNT gives for a lane: the code, whether PB is set, crushed and saturated elements (06 R152). -/
structure QRes where
  bits : Nat := 0
  pb : Bool := false
  crushed : Bool := false
  sat : Bool := false
  inx : Bool := false
  /-- tiny after rounding and inexact (06 R150) -/
  unf : Bool := false
deriving DecidableEq, Repr

/-- QNT of a float lane into a format 0x0 to 0x5 under an E8M0 code (06 R152). -/
def qnt (env : Env) (ty : Ty) (f : Fmt) (rnd : Rnd) (a code r8 : Nat) : QRes :=
  let x := fval ty a
  if !isFin x && !Fmt.hasNan f then { bits := 0, pb := true }
  else
    let r := Num.round f rnd env.ieee false (scale (127 - (code : Int)) x) r8
    let c := noNegZero f r.code
    { bits := c, crushed := isFin x && !isZero x && c == 0, sat := r.ovf, inx := r.inexact, unf := r.tiny && r.inexact }

/-- DQ: decode an element code under an E8M0 code and round it to the lane type (06 R152). -/
def dq (env : Env) (ty : Ty) (f : Fmt) (rnd : Rnd) (a code r8 : Nat) : Res :=
  if code = 0xFF then { bits := nanBits ty }
  else match decode f a with
    | .nan => { bits := nanBits ty }
    | .fin n m e => if m = 0 then { bits := 0 } else fround env ty rnd (.fin n m (e + code - 127)) r8
    | x => fround env ty rnd x r8

/-- SHL by the low four bits of b (06 R146). -/
def shl (a b : Nat) : Nat := a * 2 ^ (b % 16) % 65536

/-- SHR by the low four bits of b (06 R146). -/
def shr (a b : Nat) : Nat := a % 65536 / 2 ^ (b % 16)

/-- SAR by the low four bits of b (06 R146). -/
def sar (a b : Nat) : Nat := ofSigned 16 (toSigned 16 a / ((2 ^ (b % 16) : Nat) : Int))

/-! ### The lane's random source (02 R48) -/

/-- One shift of the LFSR: output bit 0, shift toward bit 0, XOR 0x80200003 when the output was 1. -/
def lfsrStep (r : Nat) : Nat × Nat := (r % 2, if r % 2 = 1 then (r / 2) ^^^ 0x80200003 else r / 2)

/-- `n` shifts, outputs assembled least significant bit first. -/
def lfsrBits (n : Nat) (r : Nat) : Nat × Nat :=
  match n with
  | 0 => (0, r)
  | n + 1 => let (b, r1) := lfsrStep r; let (v, r2) := lfsrBits n r1; (b + 2 * v, r2)

/-- next8(): eight shifts (02 R48). -/
def next8 (r : Nat) : Nat × Nat := lfsrBits 8 r

/-- The seed of a lane for a step: the first four bytes of SHAKE256 over job seed, step, channel, Reed and lane,
0 replaced by 1 (02 R48). -/
def laneSeed (job step ch reed lane : Nat) : Nat :=
  let s := ofLe (Hash.shake256 (leBytes 8 job ++ leBytes 8 step ++ [byteOf ch, byteOf reed] ++ leBytes 2 lane) 4)
  if s = 0 then 1 else s

end Sys2Proof.Lane
end

