-- ==== Sys2Proof/Machine/StateReed.lean ====
section
/-! DEFINITION. The state of one Reed: its SRAM, output buffer, tile in flight, counters, Valve and Drone (03 R62,
R72 to R93; 06 R139 to R159). -/

namespace Sys2Proof.Machine

open Sys2Proof

/-- Reed counters in the order of 03 R93. -/
structure ReedCnt where
  recompOvf : Nat := 0
  recompUz : Nat := 0
  recompLadder : Nat := 0
  ovfFinal : Nat := 0
  satOut : Nat := 0
  chkMismatch : Nat := 0
  parErr : Nat := 0
  inv : Nat := 0
  psnIn : Nat := 0
  wloss : Nat := 0
  obOvf : Nat := 0
  fmtFault : Nat := 0
deriving DecidableEq, Repr

/-- Valve counters (06 R155). -/
structure ValveCnt where
  vInv : Nat := 0
  vDz : Nat := 0
  vOvf : Nat := 0
  permOor : Nat := 0
  qpsn : Nat := 0
  vfault : Nat := 0
  droneSat : Nat := 0
deriving DecidableEq, Repr

/-- Conversion counters of MX import and export: folded outliers, shifted blocks, saturated elements (02 R58). -/
structure ConvCnt where
  folded : Nat := 0
  shifted : Nat := 0
  saturated : Nat := 0
deriving DecidableEq, Repr

/-- The phrase-bound settings a tile or a run latches when it starts (03 R90, 06 R160). -/
structure Latched where
  strict : Bool := false
  ieee : Bool := false
  retries : Nat := 2
  crush : Nat := 8
  obMode : Nat := 7
  /-- FP16 code of the promote ratio -/
  promote : Nat := 0x4800
  obThr : Nat := 0
deriving DecidableEq, Repr

/-- Why a pass runs (03 R73, R74, R80, R85, R86). -/
inductive PassKind where
  | first | overflow | underflow | ladder | recompute
deriving DecidableEq, Repr

/-- Where a tile stands: waiting for a version reload (R88) or for a chord reload (R86), computing a pass, or waiting
for a free output slot before its underflow pass (R74), finished and clean (R76), or ended by an error of class S or
above whose action is still to come. -/
inductive TilePhase where
  | versionReload | chordReload | running | slotWait | clean | failed
deriving DecidableEq, Repr

/-- A pass kept with the exponents it ran at and the output it gave. -/
structure Kept where
  ps : List Int := []
  pass : Tile.Pass := {}
  out : Tile.Out := {}
deriving DecidableEq, Repr

/-- A chord or a run of bytes whose recovery is under way, or has run, for an action (03 R86; 09 R238, R251): its space, address and
length, and whether a parity error was found in it. Space 3 is the SRAM of the Reed the action works for, space 4 its output buffer, where
the address is the score entry of the tile that a slot holds. -/
structure Redo where
  space : Nat := 3
  addr : Nat := 0
  len : Nat := 32
  parity : Bool := true
deriving DecidableEq, Repr

/-- The tile in flight on a Reed (03 R72 to R92). -/
structure TileRun where
  /-- index of its entry in the score -/
  entry : Nat := 0
  layer : Nat := 0
  mb : Nat := 0
  desc : TileDesc := {}
  token : Option Nat := none
  set : Latched := {}
  /-- the layer's effective Overblow mode override by the Tuner (05 R124) -/
  dynOverride : Bool := false
  /-- rungs of the operands when the tile started (03 R90; 04 R114, R117); a weight copy's rung is that of its version -/
  rungA : Nat := 0
  rungB : Nat := 0
  /-- tensor scales in force when the tile started, by tensor (03 R90; 04 R98) -/
  scales : List (Nat × XNum) := []
  /-- the Crook sign table in force when the tile started (03 R70) -/
  signs : List Byte := []
  /-- rungs to climb in the ladder pass (04 R114) -/
  climbA : Bool := false
  climbB : Bool := false
  /-- predicted exponent at tile start and exponent per slab (R72) -/
  p : Int := 0
  ps : List Int := []
  ovfRc : Nat := 0
  chkRc : Nat := 0
  /-- chords whose recovery is under way (R86; 09 R238), and those recovered for the tile already -/
  redo : List Redo := []
  redone : List Redo := []
  passes : Nat := 1
  uzDone : Bool := false
  uzKept : Bool := false
  ladder : Bool := false
  suspect : Bool := false
  parRecovered : Bool := false
  /-- third mismatch: every output chord is written poisoned (R85) -/
  poisonAll : Bool := false
  versionRetry : Nat := 0
  /-- sticky status of all passes -/
  inv : Bool := false
  psnIn : Bool := false
  fmtFault : Bool := false
  obOvf : Nat := 0
  /-- excess entries of each operand at its last selection (R80) -/
  obA : Nat := 0
  obB : Nat := 0
  crook : Bool := false
  kind : PassKind := .first
  phase : TilePhase := .running
  /-- a pass abandoned by a data fault waits for CHORD_RELOAD_DONE -/
  cur : Kept := {}
  /-- the first pass while the underflow pass runs (R74) -/
  firstPass : Option Kept := none
  /-- parity bits that do not match: of an accumulator, and of an entry of the output buffer that holds the tile (R84, R86) -/
  accParity : Bool := false
  outParity : Bool := false
  /-- a recompute for such an error is under way (R86) -/
  parityRetry : Bool := false
deriving DecidableEq, Repr

/-- A slot of the output buffer: a tile's released output on its way to the Valve (03 R62, R76), with the tile, which a parity error
in the slot recomputes (03 R86). -/
structure OutSlot where
  tile : TileRun := {}
  /-- an entry's parity bit does not match (03 R84) -/
  parity : Bool := false
  layer : Nat := 0
  prod : Nat := 0
  otensor : Nat := 0
  chords : List Chord := []
  fmt : Fmt := .bf16
deriving DecidableEq, Repr

/-- A tile status word with the identity of its tile: score entry, layer, product, and row and column origin (03 R92). -/
structure TileWord where
  entry : Nat := 0
  layer : Nat := 0
  prod : Nat := 0
  m0 : Nat := 0
  n0 : Nat := 0
  word : Nat := 0
deriving DecidableEq, Repr

/-- The latest word of a score entry's tile, changed. -/
def modWord (entry : Nat) (f : Nat → Nat) : List TileWord → List TileWord
  | [] => []
  | w :: ws => if w.entry = entry then { w with word := f w.word } :: ws else w :: modWord entry f ws

/-- One Drone accumulator group during a run (06 R158). -/
structure DroneGrp where
  sum : XNum := .fin false 0 0
  max : Option XNum := none
  arg : Nat := 0
  argNan : Bool := false
  count : Nat := 0
deriving DecidableEq, Repr

/-- A result a Drone emitted to the Chanters: accumulator, emission index, layer, product, and its elements (06 R159). -/
structure DroneRec where
  acc : Nat := 0
  emission : Nat := 0
  layer : Nat := 0
  prod : Nat := 0
  tuner : Bool := false
  metric : Nat := 0
  elems : List Nat := []
deriving DecidableEq, Repr

/-- A Drone accumulator of a run: its groups, element steps folded since the last emission, and emissions made
(06 R157). -/
structure DroneAcc where
  groups : List DroneGrp := []
  steps : Nat := 0
  emitted : Nat := 0
  /-- elements of each output chord's emission, oldest first -/
  out : List (List Nat) := []
deriving DecidableEq, Repr

/-- A chord of an output stream whose blocks are not yet complete (06 R153): chord number, type code of its lanes, the lanes, and
the lanes whose PB was set. -/
structure HeldChord where
  chord : Nat := 0
  ty : Nat := 0
  lanes : List Nat := []
  pb : List Bool := []
deriving DecidableEq, Repr

/-- The run of a Valve (06 R139 to R162). -/
structure Run where
  /-- tensor scales in force when the run started, by tensor (04 R98; 06 R160) -/
  scales : List (Nat × XNum) := []
  entry : Nat := 0
  layer : Nat := 0
  prod : Nat := 0
  desc : VrunDesc := {}
  token : Option Nat := none
  set : Latched := {}
  /-- program words, latched -/
  prog : List Nat := []
  /-- S0 to S31, latched -/
  scal : List Nat := []
  /-- V0 to V15 by lane -/
  v : List (List Nat) := List.replicate 16 (List.replicate 256 0)
  /-- P0 to P3 by lane -/
  pred : List (List Bool) := List.replicate 4 (List.replicate 256 false)
  pb : List Bool := List.replicate 256 false
  xf : List Nat := List.replicate 256 0
  step : Nat := 0
  pc : Nat := 0
  vInv : Bool := false
  vDz : Bool := false
  vOvf : Bool := false
  vUnf : Bool := false
  vInx : Bool := false
  permOor : Bool := false
  qpsn : Bool := false
  /-- the element step under way has raised PERM_OOR in these lanes -/
  oorLanes : List Nat := []
  drones : List DroneAcc := List.replicate 8 {}
  /-- lanes gathered by OUT for each stream in this element step, with their type code -/
  gather : List (Option (Nat × List Nat)) := [none, none]
  /-- chords of blocks not yet complete (R153) -/
  held : List (List HeldChord) := [[], []]
  /-- chords of each stream already written -/
  written : List (List Nat) := [[], []]
  /-- the released tile output that the run consumes -/
  src : Option OutSlot := none
  /-- an input chord failed its check: the run waits for its restart (R161) -/
  abandoned : Bool := false
  /-- the chords whose recovery is under way, and those recovered for the run already (R161) -/
  redo : List Redo := []
  redone : List Redo := []
  /-- an error of class S or above ended the run; its action is still to come -/
  failed : Bool := false
  /-- sums of squares for the Tuner, by slot of the layer's observations; they count when the run completes (05 R121) -/
  sums : List (Nat × XNum) := []
deriving DecidableEq, Repr

/-- A Valve: program slots, scalars, lane random sources, the run in progress and counters (06 R139). -/
structure Valve where
  /-- words of the four slots by slot · 64 + index; an unlisted word is zero (06 R143) -/
  words : SMap Nat := []
  /-- S0 to S31; an unlisted register is zero -/
  scal : SMap Nat := []
  /-- lane LFSRs; an unlisted lane holds the seed of the step in `seedStep` (02 R48) -/
  lfsr : SMap Nat := []
  /-- LFSRs of the lanes of the quantiser that writes the output streams, likewise (02 R48; 06 R153) -/
  qlfsr : SMap Nat := []
  /-- step whose seeds are in force -/
  seedStep : Option Nat := none
  run : Option Run := none
  /-- last run status word (06 R154) -/
  status : Nat := 0
  /-- Drone records of the last run sent to the Chanters (06 R159) -/
  records : List DroneRec := []
  cnt : ValveCnt := {}
deriving DecidableEq, Repr

/-- A Reed. -/
structure Reed where
  sram : Memory := []
  /-- addresses of chords with a parity error not yet found by a read (03 R86) -/
  badParity : List Nat := []
  /-- the tile in the array -/
  tile : Option TileRun := none
  /-- a finished tile that awaits its release while the array computes the next one into the other slot (03 R76) -/
  waiting : Option TileRun := none
  slots : List OutSlot := []
  /-- status words of the last four tiles released, latest first (03 R92) -/
  words : List TileWord := []
  /-- the 16-bit invalid list of the last strict tile (03 R83) -/
  invalidList : List Nat := []
  cnt : ReedCnt := {}
  qcnt : QGrid.Counts := {}
  valve : Valve := {}
deriving DecidableEq, Repr

/-- The status word of the last tile released; 0 before the first. -/
def Reed.status (x : Reed) : Nat := (x.words.headD {}).word

end Sys2Proof.Machine
end

