-- ==== Sys2Proof/Machine/StateChannel.lean ====
section
/-! DEFINITION. The state of a channel's Windway, Tuner, memory and version bookkeeping (05, 07, 08, 09). -/

namespace Sys2Proof.Machine

open Sys2Proof

/-- The phrase-bound (RWP) stops of a channel, one copy; a channel has a live and a shadow copy (07 R189). -/
structure Rwp where
  /-- 0x3n00: strict when set -/
  strict : Bool := false
  /-- 0x3n01: IEEE when set -/
  ieee : Bool := false
  /-- 0x3n02 -/
  margin : Nat := 1
  /-- 0x3n03 -/
  retries : Nat := 2
  /-- 0x3n04 -/
  crush : Nat := 8
  /-- 0x3n05 -/
  outMode : Nat := 7
  /-- 0x3n07, FP16 code of 8.0 -/
  promote : Nat := 0x4800
  /-- 0x3n08 -/
  obThr : Nat := 0
  /-- 0x5n03.01 to .08: routing entries by port · 256 + index, as 32-bit words; unlisted entries are 0 -/
  routes : SMap Nat := []
  /-- 0x5n04.01 to .08: admitted jobs by port · 4096 + job; unlisted jobs are not admitted -/
  isolate : SMap Bool := []
deriving DecidableEq, Repr

/-- A ready token: its bit, its cause tag and whether its producer is in flight (07 R168, R169). -/
structure Token where
  set : Bool := false
  tag : Option HoldCause := none
  flying : Bool := false
deriving DecidableEq, Repr

/-- An action in flight on a unit (07 R166): the unit, the entry, the token it sets and its late tag. -/
structure Flight where
  unit : Nat := 0
  entry : Nat := 0
  token : Option Nat := none
  tag : Option HoldCause := none
  /-- what a data mover read and could not correct: its recovery is under way, or has run (09 R238, R251) -/
  redo : List Redo := []
  redone : List Redo := []
  /-- an error of class S or above ended the action; what that error brings is still to come -/
  failed : Bool := false
deriving DecidableEq, Repr

/-- The Windway (07 R165 to R174, R187, R188). -/
structure Windway where
  phrase : Nat := 0
  /-- beat of the phrase that is pending -/
  beat : Nat := 0
  beats : Nat := 0
  held : Nat := 0
  causeBeats : List Nat := List.replicate 8 0
  causeEvents : List Nat := List.replicate 8 0
  /-- the hold in progress: the cause of its current held beat -/
  hold : Option HoldCause := none
  /-- 0x2n10.03 -/
  stopAt : Nat := 0xFFFF
  /-- 0x2n10.08, microseconds -/
  watchdog : Nat := 50000
  /-- the score has been started since it was loaded -/
  started : Bool := false
  /-- the STEP_START phrase of the step under way (07 R177, R191) -/
  stepPhrase : Nat := 0
  /-- a phrase boundary is passed before the pending beat is tested (07 R177, R191) -/
  boundaryDue : Bool := false
  /-- a channel that resumes from Last Breath may test beat 0 (19 R452) -/
  resumed : Bool := false
  /-- no step is repeated or started: the rollback that has been asked for is due (11 R313; 17 R407) -/
  rollbackDue : Bool := false
deriving DecidableEq, Repr

/-- Version state of the weights (08 R209). -/
structure Versions where
  cur : Nat := 0
  ref0 : Nat := 0
  ref1 : Nat := 0
  opened : Bool := false
  ckref0 : Nat := 0
  ckref1 : Nat := 0
  /-- 1 + the buffer of a micro-batch's stamp; an unlisted micro-batch is unstamped -/
  stamps : SMap Nat := []
deriving DecidableEq, Repr

/-- Mean and deviation of one metric (05 R122). -/
structure Stat where
  mu : Int := 0
  sig : Nat := 0
deriving DecidableEq, Repr

/-- History of one product's amax (04 R101). -/
structure Amax where
  ema : Int := 0
  last : Int := 0
  /-- at least one step has been folded -/
  any : Bool := false
deriving DecidableEq, Repr

/-- A layer's entry in the per-layer table (05 R135); the level is derived (R125). `base` rungs are 0 climbs. -/
structure Layer where
  dyn : Bool := false
  armed : Bool := false
  qshift : Nat := 0
  mextra : Nat := 0
  /-- Tuner climbs of X fwd, W_K, dY for dX, W_N, X for dW, dY for dW above their base rungs -/
  rungs : List Nat := [0, 0, 0, 0, 0, 0]
  /-- operands raised by each climb in force, latest first -/
  climbs : List (List Nat) := []
  quiet : Nat := 0
  warm : Nat := 0
  /-- ||Y||, ||dX||, ||dW||, rho -/
  stats : List Stat := [{}, {}, {}, {}]
  folded : List Bool := [false, false, false, false]
  /-- forward, input gradient, weight gradient -/
  amax : List Amax := [{}, {}, {}]
  /-- the layer's row of the predicted-exponent table, as last written (04 R102): none while nothing has been folded -/
  p : List (Option Int) := [none, none, none]
  clamps : Nat := 0
  jumps : Nat := 0
  lastAct : Nat := 0
  /-- steps since the last descent, while the hysteresis window runs (05 R134) -/
  sinceDescent : Option Nat := none
deriving DecidableEq, Repr

/-- What the channel has observed of one layer in the step (04 R101, 05 R121, R123). -/
structure Obs where
  /-- largest tile amax per product, BF16 code -/
  amax : List Nat := [0, 0, 0]
  /-- sums of squares for ||Y||, ||dX||, ||dW||, ||dW-update||, ||W|| -/
  sums : List XNum := [.fin false 0 0, .fin false 0 0, .fin false 0 0, .fin false 0 0, .fin false 0 0]
  tiles : List Nat := [0, 0, 0]
  ovfRetry : List Nat := [0, 0, 0]
  ovfFinal : List Nat := [0, 0, 0]
  ladder : List Nat := [0, 0, 0]
  /-- tiles with INV, and lanes with V_INV; by product, the update last -/
  inv : List Nat := [0, 0, 0, 0]
  /-- poison events; by product, the update last -/
  poison : List Nat := [0, 0, 0, 0]
deriving DecidableEq, Repr

/-- Tuner counters (05 R137). -/
structure TunerCnt where
  jumps : Nat := 0
  marginUp : Nat := 0
  dynOn : Nat := 0
  climbs : Nat := 0
  descents : Nat := 0
  clamps : Nat := 0
  voids : Nat := 0
  rollbackReq : Nat := 0
  actCapped : Nat := 0
  ladderCap : Nat := 0
  dynSkip : Nat := 0
deriving DecidableEq, Repr

/-- An entry of the Tuner's event log (05 R504). -/
structure TunerEv where
  beat : Nat := 0
  step : Nat := 0
  decl : Nat := 0
  layer : Nat := 0
  event : Nat := 0
  prod : Nat := 0
  opnd : Nat := 3
  from_ : Nat := 0
  to_ : Nat := 0
  trig : Nat := 0
  value : Nat := 0
  seq : Nat := 0
deriving DecidableEq, Repr

/-- The stops 0x3n10.01 to .05, which the Tuner samples once per step (05 R120). -/
structure TunerStops where
  /-- FP16 code of 6.0 -/
  tau : Nat := 0x4600
  /-- FP16 code of 0.02 -/
  rhoMax : Nat := 0x251F
  quietQ : Nat := 500
  ceiling : Nat := 5
  voidsTo : Nat := 3
deriving DecidableEq, Repr

/-- What the verdict point found of a layer (05 R121 to R123): BF16 codes and values of ||Y||, ||dX||, ||dW|| and rho, the
jumps, and the trigger bits. A metric of 0 has no value. -/
structure Judged where
  codes : List Nat := [0, 0, 0, 0]
  vals : List (Option Int) := [none, none, none, none]
  jumps : List Bool := [false, false, false, false]
  trig : Nat := 0
deriving DecidableEq, Repr

/-- The Tuner of a channel: its stops (05 R120), counters, log and step bookkeeping. -/
structure Tuner where
  stops : TunerStops := {}
  /-- the stops as sampled at the step's verdict point -/
  sampled : Option TunerStops := none
  mask : Nat := 0x6148
  /-- the mask as sampled at the latest verdict point -/
  maskNow : Nat := 0x6148
  layerSel : Nat := 0
  cnt : TunerCnt := {}
  /-- Reed counters by layer and product, 4·layer + product (05 R121) -/
  layerCnt : SMap ReedCnt := []
  /-- quantiser counters by layer and place, 16·layer + place: operands 2·product + side, outputs 6 + product, 9 other (04 R104) -/
  layerQ : SMap QGrid.Counts := []
  voidRun : Nat := 0
  /-- ring of 1,024 entries, oldest first -/
  log : List TunerEv := []
  writeIx : Nat := 0
  lost : Nat := 0
  lostStep : Nat := 0
  seq : Nat := 0
  /-- layers by index; an unlisted layer holds the reset entry -/
  layers : SMap Layer := []
  /-- the layers as tiles see them: the table at the first phrase boundary of the step (04 R102, R115; 05 R124) -/
  inForce : SMap Layer := []
  obs : SMap Obs := []
  /-- the layer table before this step's verdict point, for a repeat (05 R132) -/
  saved : Option (SMap Layer) := none
  /-- the record sent at the verdict point: step word byte 0 and the layers' (rho, rung, triggers) -/
  verdict : Option (Nat × List (Nat × Nat × Nat)) := none
  /-- the agreed record -/
  agreed : Option (Nat × List (Nat × Nat × Nat)) := none
  /-- what the verdict point found of each layer -/
  judged : SMap Judged := []
  /-- events of the actions decided in the step, logged when it ends (05 R132) -/
  notes : List TunerEv := []
  /-- a rollback request pending on the channel (05 R131, 17 R406) -/
  rollbackPending : Bool := false
  /-- rung the poison policy requests in this step (11 R305) -/
  policyRung : Nat := 0
  /-- step at which the previous rollback was requested (05 R129) -/
  lastRollback : Option Nat := none
deriving DecidableEq, Repr

/-- Class of a page: 0 A, 1 W, 2 C (09 R232). -/
structure PageEnt where
  cls : Nat := 0
  cold : Bool := false
  valid : Bool := false
deriving DecidableEq, Repr

/-- Placement of a page of space 0 (09 R234). -/
structure PageMap where
  frame : Nat := 0
  far : Bool := false
  lock : Bool := false
  valid : Bool := false
deriving DecidableEq, Repr

/-- Memory error counters in the order of 09 R259. -/
structure MemCnt where
  eccCorr : Nat := 0
  eccUncorr : Nat := 0
  achkFail : Nat := 0
  crcA : Nat := 0
  crcW : Nat := 0
  crcC : Nat := 0
  odCorr : Nat := 0
  odUncorr : Nat := 0
  scrubCorr : Nat := 0
  scrubUncorr : Nat := 0
  rmwPoison : Nat := 0
  addrFault : Nat := 0
  pickRefused : Nat := 0
  wcbEvict : Nat := 0
  wcbRmw : Nat := 0
  refreshColl : Nat := 0
  cxlPoison : Nat := 0
  cxlLink : Nat := 0
deriving DecidableEq, Repr

/-- A line of the write-combining buffer: the 256-byte line of the tier it holds, the class of its page, and the bytes
written by offset (09 R248). -/
structure WcbLine where
  addr : Nat := 0
  cls : Nat := 0
  bytes : SMap Byte := []
deriving DecidableEq, Repr

/-- Protection of a 64-byte codeword as the controller finds it (09 R236, R240, R244, R255). -/
structure Codeword where
  /-- written under the binding epoch in force -/
  written : Bool := false
  /-- symbols that are wrong, among the 64 of the data, ACHK and the three Reed-Solomon symbols (log 7) -/
  wrong : Nat := 0
  /-- ACHK as stored -/
  achk : Nat := 0
  /-- the stack's on-die ECC indicates an uncorrected error -/
  onDie : Bool := false
  /-- a CXL.mem response with it carries data poison -/
  poison : Bool := false
deriving DecidableEq, Repr

/-- The memory of a channel (09). Bytes of HBM and the far tier are held as the plaintext of the binding epoch in force,
by tier address: frame and offset in HBM, and 2^41 + frame and offset in the far tier; see log 7. -/
structure Mem where
  dram : Memory := []
  /-- protection of each 64-byte codeword by tier address / 64 -/
  cw : SMap Codeword := []
  /-- the binding epoch that ACHK and the tweak take in (09 R236, R243) -/
  epoch : Nat := 0
  chest : Memory := []
  /-- wind chest chord addresses with a parity error not yet found (09 R251) -/
  badChest : List Nat := []
  /-- 1 + index of the entry that last wrote each 2 KiB block of the wind chest (09 R251) -/
  chestWriter : SMap Nat := []
  class0 : SMap PageEnt := []
  class1 : SMap PageEnt := []
  pages : SMap PageMap := []
  checkHbm : Nat := 0
  checkFar : Nat := 0
  /-- write-combining buffer, least recently written first (09 R248, R249) -/
  wcb : List WcbLine := []
  /-- corrections per frame in the binding, by tier address / 2^21, and frames that have just reached 16 (09 R239) -/
  corrections : SMap Nat := []
  hits : List Nat := []
  /-- data whose read ended a step or asked for a rollback, by space · 2^60 + address, with the code of that error's class (09 R238;
  17 R416) -/
  failed : SMap Nat := []
  scrubRate : Nat := 16
  scrubW : Bool := false
  scrubPasses : Nat := 0
  /-- next codeword of the patrol scrub, counted through the pages of space 0 and then of space 1 (09 R241) -/
  scrubAt : Nat := 0
  /-- 0x4n05 -/
  spill : Nat := 1
  cnt : MemCnt := {}
  /-- bytes moved to or from the far tier since FAR_MIB was cleared (09 R259) -/
  farBytes : Nat := 0
  cxlPresent : Bool := false
  cxlUp : Bool := false
  cxlRate : Nat := 0
  cxlWidth : Nat := 0
  cxlTypeOk : Bool := false
  cxlDegraded : Bool := false
  cxlFatal : Bool := false
  /-- 0x4n04 -/
  cxlCap : Nat := 0
deriving DecidableEq, Repr

/-- A prog load, move, pick, MX conversion or message in a data mover or Bell DMA engine is a `Flight`; a data mover's
pending faults are told by the completion event. A job binding (21 R477). -/
structure Binding where
  job : Nat := 0
  bound : Bool := false
  span : Nat := 0
  seed : Nat := 0
deriving DecidableEq, Repr

end Sys2Proof.Machine
end

