-- ==== Sys2Proof/Machine/StateFaults.lean ====
section
/-! DEFINITION. The state of error handling, of the Études, and of one channel's power and thermal bins
(17, 18, 19, 22). -/

namespace Sys2Proof.Machine

open Sys2Proof

/-- A raw entry of the hardware error FIFO (17 R413): what the unit that found the error knows of it. -/
structure RawErr where
  cause : Cause := .chkMismatch
  cls : ErrClass := .D
  /-- UNIT and UIDX codes of the log entry -/
  unit : Nat := 0
  uidx : Nat := 0
  detail : Nat := 0
  /-- the cause whose recovery in the same unit failed (17 R416, rule 1) -/
  failureOf : Option Cause := none
  /-- a source rule fixes class and outcome, so ESC stays clear (17 R416, rule 1) -/
  fixedClass : Bool := false
  /-- outcome already known when the entry is drained: the unit's recovery has ended -/
  ended : Option Nat := none
deriving DecidableEq, Repr

/-- An error log entry (17 R413). -/
structure ErrEntry where
  beat : Nat := 0
  step : Nat := 0
  decl : Nat := 0
  job : Nat := 0
  chan : Nat := 0
  mp : Bool := false
  cls : ErrClass := .D
  esc : Bool := false
  attempt : Nat := 0
  unit : Nat := 0
  uidx : Nat := 0
  cause : Cause := .chkMismatch
  outcome : Nat := 0
  nest : Nat := 0
  seq : Nat := 0
  detail : Nat := 0
deriving DecidableEq, Repr

/-- A firmware error log: its ring, next SEQ, highest class since the last clear, LOST bit, and how many of its newest
entries have not been read (17 R413 to R415). -/
structure ErrLog where
  ring : List ErrEntry := []
  seq : Nat := 0
  top : Nat := 0
  lost : Bool := false
  unread : Nat := 0
deriving DecidableEq, Repr

/-- How an error in handling stands (17 R416). -/
inductive Handling where
  | active | queued | suspended
deriving DecidableEq, Repr

/-- An error in handling: its entry and how it stands. -/
structure InHand where
  entry : ErrEntry := {}
  status : Handling := .active
deriving DecidableEq, Repr

/-- Error handling of a channel (17). -/
structure Errors where
  /-- hardware error FIFO, at most 32 entries, and entries whose writing unit is stalled on it -/
  fifo : List RawErr := []
  stalled : List RawErr := []
  log : ErrLog := {}
  handling : List InHand := []
  /-- a class J error that waits for the host stops the channel at the end of the step (R406) -/
  waitStop : Bool := false
  /-- the channel is halted, the log has been drained, and the 100 ms of halt policy 1 run (R408) -/
  haltTimer : Bool := false
deriving DecidableEq, Repr

/-- Reed health (18 R437): STATE 0 healthy, 1 suspect, 2 retired, 3 under test; SPARE; RAISES; STRESS_OK; the age in
seconds since the last passed full run (R433); the column that the repair column replaces, and whether the mapping is in use: it is
from the first channel start after it was recorded (01 R16). -/
structure Health where
  state : Nat := 0
  spare : Bool := false
  raises : Nat := 0
  stressOk : Bool := false
  age : Nat := 0
  repair : Option Nat := none
  repairOn : Bool := false
deriving DecidableEq, Repr

/-- Phases of a full run (18 R431, R436, R437). -/
inductive EtudePhase where
  | isolate | operating | heat | stress | retry | binRetest
deriving DecidableEq, Repr

/-- A full run in progress (18 R431): the Reed, the phase under way, ECLK_n's bin, and whether it tests in place. -/
structure EtudeRun where
  reed : Nat := 0
  phase : EtudePhase := .isolate
  bin : Int := 0
  inPlace : Bool := true
  /-- STATE before the test -/
  was : Nat := 0
  heatShort : Bool := false
  /-- a retirement at operating conditions is replaced by retests at slower bins (R437) -/
  opFail : Bool := false
  /-- stress profile in force: voltage offset, bin offset, target, limit -/
  profile : List Int := [-30, 1, 95, 12]
deriving DecidableEq, Repr

/-- An entry of the Étude result log (18 R438). -/
structure EtudeResult where
  step : Nat := 0
  etude : Nat := 0xFFFF
  reed : Nat := 0xFF
  phase : Nat := 0
  result : Nat := 0
  bin : Int := 0
  trim : Int := 0
  tj : Nat := 0
deriving DecidableEq, Repr

/-- Étude scheduling of a channel (18 R432 to R438). -/
structure Etude where
  /-- Reeds that are due, in test order -/
  queue : List Nat := []
  /-- Reeds past the deferral deadline -/
  overdue : List Nat := []
  run : Option EtudeRun := none
  /-- rotation copy in progress: displaced Reed and spare -/
  copy : Option (Nat × Nat) := none
  /-- WINDOW: the Windway is paused for overdue Reeds (R435) -/
  window : Bool := false
  /-- the pause ends with the tests and not with the window length -/
  untilTests : Bool := false
  /-- the window length has ended and a test outlasts it -/
  late : Bool := false
  /-- Reeds to be replaced by a spare at the next phrase boundary: third mismatch (03 R85) -/
  replace : List Nat := []
  /-- a window waits for the end of the next CKPT phrase -/
  windowDue : Bool := false
  log : List EtudeResult := []
deriving DecidableEq, Repr

/-- Bins of a channel (01 R21; 19 R445, R446; 22 R497). -/
structure Bins where
  /-- 0x2n02 -/
  requested : Nat := 0
  /-- bin in force -/
  now : Nat := 0
  /-- change in progress -/
  change : Option Nat := none
  cap : Nat := 0
  thermal : Nat := 0
  /-- 100 us samples since the thermal bin last moved, and since the channel has been cool without a break -/
  sinceRise : Nat := 100
  coolFor : Nat := 0
  sinceFall : Nat := 1000
deriving DecidableEq, Repr

end Sys2Proof.Machine
end

