-- ==== Sys2Proof/Machine/StateLink.lean ====
section
/-! DEFINITION. The state of the Bell ports, their packets and source table, the collectives, and the path plan with its
discovery result (10, 11, 12). -/

namespace Sys2Proof.Machine

open Sys2Proof

/-- Port states in the order of their codes (10 R282). -/
inductive PortState where
  | disabled | idle | training | hello | up | dark | down
deriving DecidableEq, Repr

/-- Port counters in the order of 10 R286. -/
structure PortCnt where
  flitsTx : Nat := 0
  flitsRx : Nat := 0
  fecCorr : Nat := 0
  fecUncorr : Nat := 0
  crcFail : Nat := 0
  badType : Nat := 0
  nakTx : Nat := 0
  nakRx : Nat := 0
  replays : Nat := 0
  replayFlits : Nat := 0
  replayTimeout : Nat := 0
  replayFull : Nat := 0
  creditStall : Nat := 0
  lockLoss : Nat := 0
  down : Nat := 0
  isoDrop : Nat := 0
  pktFault : Nat := 0
  keyMiss : Nat := 0
  replayRej : Nat := 0
  authFail : Nat := 0
  routeMiss : Nat := 0
deriving DecidableEq, Repr

/-- A flit by its header fields and payload (10 R264). SEQ is the link's. -/
structure Flit where
  job : Nat := 0
  typ : Nat := 0
  vc : Nat := 0
  seq : Nat := 0
  pidx : Nat := 0
  last : Bool := false
  routed : Bool := false
  dpos : Nat := 0
  dch : Nat := 0
  /-- 240 bytes -/
  payload : List Byte := []
deriving DecidableEq, Repr

/-- A link-local flit that waits to be sent: its type and payload (10 R265). -/
structure LocalFlit where
  typ : Nat := 6
  payload : List Byte := []
deriving DecidableEq, Repr

/-- An entry of the key cache: the sender key of a (SRC, EPOCH) pair (10 R277). -/
structure KeyEnt where
  src : Nat := 0
  epoch : Nat := 0
  key : List Byte := []
deriving DecidableEq, Repr

/-- A posted RECV (10 R281). -/
structure Recv where
  entry : Nat := 0
  token : Option Nat := none
  tensor : Nat := 0
  first : Nat := 0
  count : Nat := 0
  mtag : Nat := 0
  peer : Nat := 0
  /-- byte ranges of the message written so far -/
  got : List (Nat × Nat) := []
deriving DecidableEq, Repr

/-- A SEND in flight: the sequence number of its last flit once that flit has been sent (10 R279, R280). -/
structure Sending where
  entry : Nat := 0
  token : Option Nat := none
  /-- flits of the message not yet sent first -/
  left : Nat := 0
  lastSeq : Option Nat := none
deriving DecidableEq, Repr

/-- A packet waiting to be sent: the score entry of the SEND it belongs to, and its flits not yet sent. -/
structure TxPkt where
  owner : Option Nat := none
  flits : List Flit := []
deriving DecidableEq, Repr

/-- One Bell port (10, 12). -/
structure Port where
  st : PortState := .idle
  /-- SEQ of the next new flit -/
  nextSeq : Nat := 0
  /-- SEQ expected next -/
  e : Nat := 0
  /-- last NAK sent: E and the time in nanoseconds -/
  lastNak : Option (Nat × Nat) := none
  /-- flits accepted and not yet acknowledged -/
  unacked : Nat := 0
  /-- sent and unacknowledged flits, oldest first, at most 512 -/
  replayBuf : List Flit := []
  /-- SEQ at which the replay in progress started, and the flits it still has to send -/
  replay : Option (Nat × List Flit) := none
  retry : Nat := 0
  /-- start point of the latest replay, until an acknowledgement passes it (10 R268) -/
  replayFrom : Option Nat := none
  /-- credits by VC: consumed by this transmitter, freed by the partner -/
  consumed : List Nat := [0, 0, 0, 0]
  freed : List Nat := [0, 0, 0, 0]
  /-- slots this receiver has freed, and freed since its last CREDIT -/
  rxFreed : List Nat := [0, 0, 0, 0]
  rxFreedSince : List Nat := [0, 0, 0, 0]
  /-- receive buffer by VC, oldest first -/
  rxBuf : List (List Flit) := [[], [], [], []]
  /-- link-local flits ready to be sent: ACK or NAK, CREDIT, HELLO -/
  ackReady : Option LocalFlit := none
  creditReady : Option LocalFlit := none
  helloReady : Option LocalFlit := none
  /-- packets ready to be sent by VC, oldest first; the first packet may be partly sent -/
  txq : List (List TxPkt) := [[], [], [], []]
  /-- VC2 or VC3 whose packet is under way, and the one to serve next -/
  bulkBusy : Option Nat := none
  bulkNext : Nat := 2
  /-- last flit put on the lanes -/
  sent : Option Flit := none
  sentLocal : Option LocalFlit := none
  /-- packet counter by VC for the binding and epoch (10 R275) -/
  pctr : List Nat := [0, 0, 0, 0]
  /-- key cache, least recently used first, at most 16 -/
  keys : List KeyEnt := []
  /-- a packet whose key is being derived: its VC, SRC and EPOCH -/
  keyWait : Option (Nat × Nat × Nat) := none
  recvs : List Recv := []
  sends : List Sending := []
  /-- COLL_OPEN in force per source, for REDUCE packets: source, CSEQ, pass, blocks still covered, stale (11 R299) -/
  opens : List (Nat × Nat × Nat × Nat × Bool) := []
  /-- a COLL_OPEN that waits for a free context -/
  ctxWait : Bool := false
  /-- HELLO bookkeeping: a valid HELLO has been received; one carrying SEEN has been received (12 R321) -/
  seenPartner : Bool := false
  seenSeen : Bool := false
  /-- DOWN since the plan was applied: retrains into DARK (10 R284) -/
  wasDown : Bool := false
  /-- the partner's last HELLO: position, channel, port, as in EXPECT, and the whole payload -/
  partner : Nat := 0
  lastHello : List Byte := []
  cnt : PortCnt := {}
deriving DecidableEq, Repr

/-- A port's entry in the path plan (12 R319). -/
structure PlanPort where
  partner : Nat := 0
  role : Nat := 0
deriving DecidableEq, Repr

/-- The path plan (12 R319). -/
structure Plan where
  job : Nat := 0
  fallback : Bool := false
  seq : Nat := 0
  nonce : List Byte := List.replicate 16 0#8
  ports : List PlanPort := List.replicate 8 {}
deriving DecidableEq, Repr

/-- The discovery result (12 R324). -/
structure Discovery where
  status : Nat := 0
  short : Bool := false
  extra : Bool := false
  mismatch : Bool := false
  fallback : Bool := false
  /-- substitutions in force, latest first: the port that a field names, and the port that serves in its place (12 R325) -/
  subst : List (Nat × Nat) := []
  /-- RESULT, REASON, partner seen, by port -/
  results : List (Nat × Nat × Nat) := List.replicate 8 (0, 0, 0)
  /-- the discovery window is still open -/
  windowOpen : Bool := false
deriving DecidableEq, Repr

/-- The path state of a channel (12). -/
structure Paths where
  enable : Nat := 0xFF
  /-- 0x5n01.02, milliseconds -/
  window : Nat := 5000
  plan : Option Plan := none
  disc : Discovery := {}
  /-- job key K_job (10 R274) -/
  kjob : Option (List Byte) := none
  /-- source table: SRC to EPOCH and last PCTR per VC, all ones when none (10 R278) -/
  srcTable : SMap (Nat × List Nat) := []
deriving DecidableEq, Repr

/-- An I8A block: elements in -127 to 127, code and OVF bit (02 R59). -/
structure I8A where
  elems : List Int := List.replicate 32 0
  code : Nat := 0
  ovf : Bool := false
deriving DecidableEq, Repr

/-- Collective counters in the order of 11 R315. -/
structure CollCnt where
  collDone : Nat := 0
  exchanges : Nat := 0
  ovfBlocks : Nat := 0
  repairPasses : Nat := 0
  repairBlocks : Nat := 0
  repairExhausted : Nat := 0
  poisonBlocks : Nat := 0
  scaleMismatch : Nat := 0
  digestMismatch : Nat := 0
  dualSamples : Nat := 0
  dualMismatch : Nat := 0
  located : Nat := 0
  timeouts : Nat := 0
  abortTx : Nat := 0
  abortRx : Nat := 0
  staleColl : Nat := 0
  ctxFull : Nat := 0
  paramMismatch : Nat := 0
deriving DecidableEq, Repr

/-- One reduction travelling round the ring or tree: this participant's position on the path, its contributions, the sums
of the reduce phase, the final blocks, and how often each position has been received (11 R296, R297). Positions count in
the pass's own list. -/
structure Flow where
  rank : Nat := 0
  p : Nat := 1
  tree : Bool := false
  /-- reduce phase only (11 R290) -/
  scatter : Bool := false
  /-- the largest of each field in place of the sum (11 R290) -/
  max : Bool := false
  /-- every participant's own items go to all of them, unadded (11 R290) -/
  gather : Bool := false
  own : List I8A := []
  sums : List I8A := []
  final : List (Option I8A) := []
  seen : List Nat := []
deriving DecidableEq, Repr

/-- The digest totals travelling on the secondary path (11 R307). -/
structure DigFlow where
  rank : Nat := 0
  p : Nat := 1
  tree : Bool := false
  con : Nat := 0
  res : Nat := 0
  seen : Nat := 0
  totals : Option (Nat × Nat) := none
deriving DecidableEq, Repr

/-- A collective in flight, or an adder context that a COLL_OPEN opened (11 R289 to R309). -/
structure Coll where
  /-- CSEQ with path bits 0 -/
  cseq : Nat := 0
  /-- port whose COLL_OPEN opened the context, or the port of the COLL's unit -/
  port : Nat := 0
  entry : Nat := 0
  token : Option Nat := none
  desc : CollDesc := {}
  /-- ports A to F after substitution -/
  ports : List (Option Nat) := []
  /-- launched locally; false while only a COLL_OPEN has opened the context (11 R299) -/
  launched : Bool := false
  /-- ports whose Bell adder holds a context for it (11 R299) -/
  openAt : List Nat := []
  /-- an error of class S has ended its reading or writing; what that error brings is still to come -/
  failed : Bool := false
  /-- the exchange in DATA packets under way: 0 local codes, 1 states of a pass's blocks, 2 next codes, 3 chords of an ALLGATHER, 4 the
  verdict record (11 R290, R301 to R303; 05 R131; log 34) -/
  xch : Option (Nat × Flow) := none
  /-- blocks whose last pass this participant completed (11 R296, R306) -/
  held : List Nat := []
  /-- the next step's codes, gathered (11 R302) -/
  nextCodes : List Nat := []
  /-- code of each block's last pass -/
  codes : List Nat := []
  /-- main pass or repair pass number -/
  pass : Nat := 0
  /-- block numbers of the current repair pass -/
  flagged : List Nat := []
  flow : Flow := {}
  dual : Option Flow := none
  /-- contribution of each block's last pass, for the digest -/
  contrib : List I8A := []
  /-- result of the main pass, for the dual comparison -/
  mainRes : List (Option I8A) := []
  result : List I8A := []
  /-- packets received before the pass they belong to has started here: pass, port, SRC, first position, blocks -/
  early : List (Nat × Nat × Nat × Nat × List I8A) := []
  /-- digests received before this participant's own was ready: SRC, DCON, DRES -/
  digEarly : List (Nat × Nat × Nat) := []
  dig : Option DigFlow := none
  mainDone : Bool := false
  /-- the last pass is complete -/
  passesDone : Bool := false
  sampled : Bool := false
  location : Bool := false
  dualOk : Bool := false
  /-- digest of each hop received in a location run and blocks received in it (11 R309) -/
  hops : SMap (Nat × Nat) := []
deriving DecidableEq, Repr

/-- Collective state of a channel (11). -/
structure Colls where
  floor : Nat := 5000
  /-- FP16 code of the timeout factor 2.0 -/
  factor : Nat := 0x4000
  interval : Nat := 64
  margin : Nat := 0
  raise : Nat := 4
  policy : Nat := 0
  repeats : Nat := 3
  cnt : CollCnt := {}
  active : List Coll := []
  /-- the reduction of the verdict record (05 R131) -/
  verdict : Option Coll := none
  /-- collectives delivered in the step, for the scale table update at its end: STAB and next codes (11 R302) -/
  done : List (Nat × List Nat) := []
  /-- collective index named by a DIGEST or DUAL abort, to be run as a location run (11 R309) -/
  locate : Option Nat := none
  /-- parameter mismatch or lost path: stop at the end of the step and wait for the host (11 R299, R314) -/
  stopAtEnd : Bool := false
deriving DecidableEq, Repr

end Sys2Proof.Machine
end

