-- ==== Sys2Proof/Machine/StateMeter.lean ====
section
/-! DEFINITION. The state of the sealed energy meter (16). Energies are held in microjoules, so that residues below
1 mJ are carried (R387). -/

namespace Sys2Proof.Machine

open Sys2Proof

/-- A job record (16 R391). -/
structure JobRecord where
  rseq : Nat := 0
  job : Nat := 0
  chan : Nat := 0
  /-- 0 open, 1 closed by unbinding, 2 by power loss, 3 by meter fault -/
  state : Nat := 0
  hasOpen : Bool := false
  hasClose : Bool := false
  unsealed : Bool := false
  sealEvent : Bool := false
  pupOpen : Nat := 0
  tOpen : Nat := 0
  pupClose : Nat := 0
  tClose : Nat := 0
  declOpen : Nat := 0
  declClose : Nat := 0
  meas : Nat := 0
  alloc : Int := 0
  einOpen : Nat := 0
  einClose : Nat := 0
deriving DecidableEq, Repr

/-- A meter event (16 R395). -/
structure MeterEvent where
  eseq : Nat := 0
  pup : Nat := 0
  t : Nat := 0
  code : Nat := 0
  hasDecl : Bool := false
  decl : Nat := 0
  value : Nat := 0
deriving DecidableEq, Repr

/-- The registers a snapshot keeps (16 R400). -/
structure MeterRegs where
  ein : Nat := 0
  meas : List Nat := [0, 0, 0, 0]
  alloc : List Int := [0, 0, 0, 0]
  shared : Int := 0
deriving DecidableEq, Repr

/-- The signed hold-up snapshot: registers, open records, seconds since power-up and legal total (16 R400). -/
structure MeterSnap where
  regs : MeterRegs := {}
  opens : List JobRecord := []
  t : Nat := 0
deriving DecidableEq, Repr

/-- A read-out request being served (16 R397): the session, its request, the nonce and the filter. -/
structure Readout where
  session : Nat := 0
  txid : Nat := 0
  op : Nat := 2
  nonce : List Byte := []
  filter : Nat := 0xFFFF
deriving DecidableEq, Repr

/-- The meter (16). -/
structure Meter where
  /-- the meter has power and has made its power-up -/
  powered : Bool := false
  regs : MeterRegs := {}
  /-- records in RSEQ order, at most 8,192 -/
  records : List JobRecord := []
  nextRseq : Nat := 0
  lost : Nat := 0
  /-- ring of 2,048 events and the section of the first 64 seal events -/
  ring : List MeterEvent := []
  seals : List MeterEvent := []
  nextEseq : Nat := 0
  pup : Nat := 0
  /-- 100 ms intervals of TCLK since power-up -/
  intervals : Nat := 0
  /-- copy of the declared time -/
  decl : Nat := 0
  /-- 0 unsealed, 1 sealed, 2 broken -/
  sealSt : Nat := 0
  loopOpen : Bool := false
  /-- readings of the loop without a break: high, high or marginal, low (ms) -/
  highMs : Nat := 0
  nonLowMs : Nat := 0
  lowMs : Nat := 0
  /-- readings since power-up, up to 10, and whether all were low -/
  firstMs : Nat := 10
  firstLow : Bool := true
  /-- pulses waiting, output low -/
  pulsesDue : Nat := 0
  pulseLow : Bool := false
  snap : Option MeterSnap := none
  /-- read-outs to be built, first come first -/
  readouts : List Readout := []
  /-- TCLK runs within its limits -/
  clockOk : Bool := true
deriving DecidableEq, Repr

end Sys2Proof.Machine
end

