-- ==== Sys2Proof/Machine/StateServer.lean ====
section
/-! DEFINITION. The state of the host port, the channel services, the stop-protocol server and the security engine
(13, 14, 15). -/

namespace Sys2Proof.Machine

open Sys2Proof

/-- Session roles in the order of their codes 1 to 3 (14 R353, R354). -/
inductive Role where
  | operator | tenant | observer
deriving DecidableEq, Repr

/-- A subscription of a session (14 R363): stop, mode, minimum interval, and in mode 1 the value last sent. -/
structure Subscription where
  index : Nat := 0
  sub : Nat := 0
  mode : Nat := 1
  interval : Nat := 0
  last : List Byte := []
deriving DecidableEq, Repr

/-- A staged WRITE_BLOCK (14 R361): stop, total length and the bytes staged so far. -/
structure Staged where
  index : Nat := 0
  sub : Nat := 0
  total : Nat := 0
  data : List Byte := []
deriving DecidableEq, Repr

/-- A READ_BLOCK snapshot (14 R362). -/
structure Snapshot where
  index : Nat := 0
  sub : Nat := 0
  data : List Byte := []
deriving DecidableEq, Repr

/-- A response or notification as its header fields, the sequence number it was sent with, and its plaintext payload (14 R356,
R357). -/
structure Reply where
  session : Nat := 0
  seq : Nat := 0
  txid : Nat := 0
  op : Nat := 0
  index : Nat := 0
  sub : Nat := 0
  abort : Nat := 0
  more : Bool := false
  payload : List Byte := []
deriving DecidableEq, Repr

/-- An open session (14 R353 to R363). -/
structure Session where
  handle : Nat := 0
  role : Role := .observer
  keyEntry : Nat := 0
  job : Nat := 0
  cap : Nat := 8192
  /-- session keys: client to device, device to client (R358) -/
  keyIn : List Byte := []
  keyOut : List Byte := []
  /-- last sequence number accepted, and next to send (R357) -/
  seqIn : Option Nat := none
  seqOut : Nat := 0
  idle : Nat := 0
  notifyCtr : Nat := 0
  subs : List Subscription := []
  /-- responses of the 32 most recent TXIDs, oldest first (R360) -/
  cache : List Reply := []
  staged : Option Staged := none
  snap : Option Snapshot := none
  /-- last attestation report and last meter read-out built for the session (15 R381, 16 R397) -/
  report : Option (List Byte) := none
  readout : Option (List Byte) := none
deriving DecidableEq, Repr

/-- A half-open handshake (14 R358). -/
structure Opening where
  handle : Nat := 0
  role : Role := .observer
  keyEntry : Nat := 0
  job : Nat := 0
  cap : Nat := 8192
  secret : List Byte := []
  transcript : List Byte := []
  pub : List Byte := []
deriving DecidableEq, Repr

/-- An entry of the client key list (14 R354): key digest, role byte, job. -/
structure ClientKey where
  digest : List Byte := []
  role : Nat := 0
  job : Nat := 0
deriving DecidableEq, Repr

/-- The host port (13 R331 to R334, R502). -/
structure HostPort where
  up : Bool := false
  lanes : Nat := 0
  weights : Nat := 0x40404040
  pools : List Nat := [1024, 1024, 1024, 1024]
  /-- 17 counters in the order of R502 -/
  cnt : List Nat := List.replicate 17 0
  /-- bytes held in the receive buffers of the Mouthpiece and the four channels, at most 4 MiB each (R334) -/
  fill : List Nat := [0, 0, 0, 0, 0]
  /-- frames discarded partly transferred when a side of the endpoint's crossing was reset (01 R25; log 75) -/
  cuts : List Nat := [0, 0, 0, 0, 0]
  /-- PFC pause in force -/
  pausing : Bool := false
deriving DecidableEq, Repr

/-- A storage target as written (13 R335): its 320 bytes, and what is known of the connection. -/
structure Target where
  raw : List Byte := List.replicate 272 0#8 ++ leBytes 2 4420 ++ List.replicate 46 0#8
  connected : Bool := false
  errors : Nat := 0
  /-- the checkpoint last completed on it: its manifest and its objects as written (13 R341, R347) -/
  written : Option (List Byte × List (List Byte)) := none
deriving DecidableEq, Repr

/-- A checkpoint being written (13 R338 to R342): version, step, targets still writing, failures. -/
structure CkptRun where
  version : Nat := 0
  step : Nat := 0
  mode : Nat := 1
  targets : List Nat := []
  failed : List Nat := []
  /-- the objects of types 1 to 8 as captured at the start (13 R339) -/
  content : List (List Byte) := []
deriving DecidableEq, Repr

/-- A restart in progress (13 R343). -/
structure RestartRun where
  /-- the checkpoint has been loaded; the start waits for a score (log 48) -/
  ready : Bool := false
  /-- the loaded checkpoint's objects, which go to their tensors once a score names them: type and content -/
  objects : List (Nat × List Byte) := []
deriving DecidableEq, Repr

/-- The services of a channel (13 R335 to R343). -/
structure Services where
  targets : List Target := List.replicate 4 {}
  shardPlan : List Byte := List.replicate 48 0#8
  ckptPlan : List Byte := List.replicate 16 0#8
  /-- steps whose shard is resident, and steps being fetched -/
  resident : List Nat := []
  fetching : List Nat := []
  lastShard : Nat := 0
  ckpt : Option CkptRun := none
  /-- a checkpoint waits for the previous one (R348) -/
  ckptWaiting : Bool := false
  /-- a commit qualified since the last checkpoint start -/
  ckptDue : Bool := false
  restart : Option RestartRun := none
  /-- queue pairs open from the channel's pool (R333) -/
  qps : Nat := 0
  /-- last accepted bounce record per direction and session key (R345, R346) -/
  bounceKeys : Option (List Byte × List Byte) := none
  bounceSeq : Option Nat := none
  bounceRefused : Nat := 0
  /-- plaintext last written to each bounce buffer -/
  bounce : SMap (List Byte) := []
deriving DecidableEq, Repr

/-- An entry of the measured log (15 R377). -/
structure MeasEntry where
  typ : Nat := 0
  seq : Nat := 0
  aux : Nat := 0
  length : Nat := 0
  digest : List Byte := []
deriving DecidableEq, Repr

/-- What a channel has measured (15 R377 to R380). -/
structure Measured where
  log : List MeasEntry := []
  chain : List Byte := List.replicate 64 0#8
  seq : Nat := 0
  nScore : Nat := 0
  nWeight : Nat := 0
  dropped : Bool := false
  refused : Bool := false
  /-- weight load window: 0 idle, 1 open, 2 measuring; address and length -/
  winState : Nat := 0
  winAddr : Nat := 0
  winLen : Nat := 0
deriving DecidableEq, Repr

/-- A firmware slot of a component (15 R370 to R372): the image it holds, checked when staged. -/
structure Slot where
  present : Bool := true
  /-- the image is the part's as shipped -/
  factory : Bool := true
  svn : Nat := 0
  digest : List Byte := []
  /-- entries of an Étude pack (18 R425) -/
  count : Nat := 0
  /-- digest of the operator key whose block the image carries -/
  cosigner : Option (List Byte) := none
deriving DecidableEq, Repr

/-- A component's firmware store (15 R372, R373). -/
structure Component where
  slotA : Slot := {}
  slotB : Slot := {}
  /-- slot B is active -/
  activeB : Bool := false
  /-- a pending image waits in the inactive slot -/
  pending : Bool := false
  /-- activation has been asked for and waits for its event -/
  armed : Bool := false
  /-- channels that already run the pending Chanter image (R373) -/
  taken : List Bool := [false, false, false, false]
  lastResult : Nat := 0
deriving DecidableEq, Repr

/-- An attestation report being built (15 R381): the session it is for, and its request. -/
structure ReportRun where
  session : Nat := 0
  txid : Nat := 0
  op : Nat := 2
  body : List Byte := []
deriving DecidableEq, Repr

/-- Fuses of the security engine (15 R366, R374, R375). -/
structure Fuses where
  prod : Bool := true
  debugClosed : Bool := true
  minSvn : Nat := 0
  opSlot : Option (List Byte) := none
  /-- physical copies of the operator slot already used -/
  opSpent : Nat := 0
deriving DecidableEq, Repr

end Sys2Proof.Machine
end

