-- ==== Sys2Proof/Machine/StateDevice.lean ====
section
/-! DEFINITION. The state of one channel as a whole, and of the parts the channels share: pins, power, the MRAM save
store and the Mouthpiece (07 R188; 13 to 15; 19 R449 to R456; 20 R458 to R465; 21). -/

namespace Sys2Proof.Machine

open Sys2Proof

/-- Channel states in the order of their codes 0 to 6 (07 R188). -/
inductive ChState where
  | init | ready | loaded | run | stopping | halted | holdup
deriving DecidableEq, Repr

/-- An entry of the checkpoint status (17 R422). STATE: 1 writing, 2 provisional, 3 clean, 4 discarded, 5 failed. -/
structure Ckpt where
  step : Nat := 0
  wver : Nat := 0
  state : Nat := 0
  mode : Nat := 0
  depth : Nat := 0
  targets : Nat := 0
  cleanAt : Nat := 0
  decl : Nat := 0
deriving DecidableEq, Repr

/-- A channel save record (19 R450). -/
structure SaveRecord where
  hseq : Nat := 0
  wasRunning : Bool := false
  /-- declared time when the record was written, 0 when none is set (01 R28) -/
  decl : Nat := 0
  /-- the ACLK bin in force before a change under way (01 R21) -/
  bin : Nat := 0
  step : Nat := 0
  attempt : Nat := 0
  /-- the version state, and the snapshot of the step (08 R209, R226) -/
  ver : Versions := {}
  verSnap : Option Versions := none
  voidRun : Nat := 0
  shadow : Rwp := {}
  beats : Nat := 0
  pctr : List (List Nat) := []
  plan : Option Plan := none
  tun : Tuner := {}
  fifo : List RawErr := []
  log : List ErrEntry := []
  meas : Measured := {}
  binding : Binding := {}
  svc : Services := {}
  class0 : SMap PageEnt := []
  class1 : SMap PageEnt := []
  spill : Nat := 1
  coll : Colls := {}
  score : Option Score := none
  /-- bytes of the score image -/
  image : List Byte := []
deriving DecidableEq, Repr

/-- The persistent part of one channel in the save store (19 R449): trims, auto-restart, checkpoint status (newest
first), Reed health, bin floor, binding epoch, and the channel's save record. -/
structure ChanStore where
  trims : List Int := List.replicate 68 0
  autoRestart : Bool := false
  ckpts : List Ckpt := []
  health : List Health := List.replicate 68 {}
  binFloor : Nat := 0
  epoch : Nat := 0
  record : Option SaveRecord := none
deriving DecidableEq, Repr

/-- The last hold-up record (19 R453). -/
structure Holdup where
  hseq : Nat := 0
  trig : Nat := 0
  outcome : Nat := 0
  saved : Nat := 0
  state : Nat := 0
  vT0 : Nat := 0
  vMin : Nat := 0
  tSave : Nat := 0
  tHold : Nat := 0
  decl : Nat := 0
deriving DecidableEq, Repr

/-- The Mouthpiece's save record (19 R449). -/
structure MpRecord where
  /-- PCLK cycles since the last reset, and declared time, when the record was written (01 R28) -/
  pclk : Nat := 0
  decl : Nat := 0
  log : List ErrEntry := []
  tops : List Nat := [0, 0, 0, 0, 0]
  sessions : List Session := []
  host : HostPort := {}
  vin : List Nat := []
deriving DecidableEq, Repr

/-- The MRAM save store (19 R449). -/
structure Mram where
  /-- 0x7004, mV -/
  sagThreshold : Nat := 62000
  /-- 0x7005, uF -/
  capacitance : Nat := 2200
  /-- 0x6004 -/
  haltPolicy : Nat := 1
  /-- 0x6030.01 -/
  largeJob : Nat := 1024
  /-- 0x1060.04 -/
  pfc : Nat := 8
  /-- 0x8005.01 -/
  conf : Bool := false
  /-- 0x1060.03, 5 entries of 48 bytes; the MAC fields are Config's -/
  endpoints : List Byte := List.replicate 240 0#8
  /-- 0x1050.02, entries 1 to 15 -/
  clientKeys : List ClientKey := List.replicate 15 {}
  /-- 0x6010.02 -/
  supplement : List Byte := []
  chan : Vector ChanStore 4 := Vector.replicate 4 {}
  /-- attestation report counter -/
  counter : Nat := 0
  holdup : Holdup := {}
  /-- Mouthpiece firmware, Chanter firmware, Étude pack -/
  comps : List Component := [{}, {}, {}]
  mpRecord : Option MpRecord := none
deriving DecidableEq, Repr

/-- Phase of the Fingering pins (20 R458). -/
inductive PinPhase where
  | strap | run | hold
deriving DecidableEq, Repr

/-- Pins and the first second (20; 12 R317, R318; 22). -/
structure Pins where
  pwrGood : Bool := true
  /-- RESET_N has been low for 10 us and has not been released -/
  resetHeld : Bool := false
  /-- RESET_N waits for save-complete (20 R470) -/
  resetDeferred : Bool := false
  refclkL : Bool := true
  refclkC : Bool := true
  psagLow : Bool := false
  thermLow : Bool := false
  phase : PinPhase := .strap
  /-- at HOLD, the acknowledges released (20 R460) -/
  acked : List Bool := [false, false, false, false]
  seenF : Bool := false
  initDrops : Nat := 0
  /-- INIT token bucket in units of 1/1,000,000 token, and the microsecond of its last refill (20 R465) -/
  bucket : Nat := 256000000
  bucketAt : Nat := 0
  straps : Nat := 0
  unstable : Bool := false
deriving DecidableEq, Repr

/-- Last Breath in progress: the state 0x1030 before t0, and whether all records are written (19 R448). -/
structure LastBreath where
  before : Nat := 0
  saved : Bool := false
deriving DecidableEq, Repr

/-- Power (19 R440 to R456). -/
structure Power where
  on : Bool := true
  /-- the thermal trip holds the input stage off until V_IN has fallen below 48 V (22 R498) -/
  tripped : Bool := false
  /-- V_IN in mV and input power in mW as last read -/
  vin : Nat := 72000
  input : Nat := 220000
  /-- 0x7002, W -/
  swCap : Nat := 1800
  boardLevel : Nat := 0
  ov : Bool := false
  ovHold : Bool := false
  ovEvents : Nat := 0
  lowv : Bool := false
  capUnmet : Bool := false
  /-- 10 ms comparisons without a break with P below C - 120 W -/
  lowFor : Nat := 0
  standby : Bool := false
  returning : Bool := false
  lb : Option LastBreath := none
deriving DecidableEq, Repr

/-- The Mouthpiece (13, 14, 15, 17, 18). -/
structure Mouthpiece where
  running : Bool := false
  /-- the ROM has found an image of the Mouthpiece that passes (15 R372) -/
  bootable : Bool := true
  /-- PCLK cycles at which it last restarted within 600 s, latest first (17 R411) -/
  restarts : List Nat := []
  /-- 0x1040 -/
  declTime : Nat := 0
  sessions : List Session := []
  opens : List Opening := []
  nextHandle : Nat := 1
  /-- 0x1050.04, seconds -/
  idleTimeout : Nat := 300
  /-- datagrams sent, latest last -/
  sent : List Reply := []
  host : HostPort := {}
  /-- 0x6002 -/
  detDepth : Nat := 8
  /-- 0x6003.05 -/
  declClean : List Nat := [0, 0, 0, 0]
  /-- 0x6011 seconds, 0x6012 minutes, 0x6014 steps, 0x6015 ms, 0x6020 -/
  testInterval : Nat := 86400
  deferral : Nat := 240
  winInterval : Nat := 0
  winLength : Nat := 4000
  suspectSteps : Nat := 3
  /-- 0x6013 -/
  stress : List Int := [-30, 1, 95, 12]
  log : ErrLog := {}
  /-- 0x8005.03: the reply to the last encapsulation key (13 R345) -/
  encapReply : List Byte := List.replicate 2851 0#8
  /-- reports being built, first to be signed first (15 R381) -/
  reports : List ReportRun := []
  bootFallback : Bool := false
  /-- body digests measured at boot: Mouthpiece, Chanter, Étude pack (15 R372) -/
  bootDigests : List (List Byte) := List.replicate 3 (List.replicate 64 0#8)
  meterLink : Bool := true
  /-- the meter's registers at the last poll (16 R385) -/
  mirror : Meter := {}
deriving DecidableEq, Repr

/-- One channel. -/
structure Channel where
  st : ChState := .init
  /-- state before Last Breath (19 R452) -/
  before : ChState := .init
  /-- LOAD of 0x2n00 -/
  load : Nat := 0
  resume : Bool := false
  bind : Binding := {}
  bins : Bins := {}
  active : Nat := 64
  spares : Nat := 4
  /-- physical Reed of each logical slot, 0xFF none -/
  slotMap : List Nat := List.replicate 68 0xFF
  live : Rwp := {}
  shadow : Rwp := {}
  /-- an RWP stop has been written since the last phrase boundary (07 R189) -/
  shadowed : Bool := false
  /-- Crook sign tables in force, by layer (03 R70) -/
  signs : SMap (List Byte) := []
  score : Option Score := none
  /-- address and length of the image being checked -/
  loading : Option (Nat × Nat) := none
  ww : Windway := {}
  tokens : SMap Token := []
  scalarTok : Bool := false
  shardTok : Bool := false
  flights : List Flight := []
  /-- scalar writes waiting for a boundary, in the order sent: a physical Reed or all of them, register, value (06 R142) -/
  scalarQ : List (Option ReedId × Nat × Nat) := []
  /-- crossings that are full with their source stalled, and whether a refresh collision causes it (01 R24; 07 R170) -/
  stalls : List (Nat × Bool) := []
  step : Nat := 0
  attempt : Nat := 0
  /-- the step that ended last, and the attempt at which it ended (11 R316) -/
  lastEnd : Option (Nat × Nat) := none
  ver : Versions := {}
  verSnap : Option Versions := none
  /-- rungs at which each version buffer was written: W_K and W_N rung by layer, per buffer (04 R115) -/
  verRungs : List (SMap (Nat × Nat)) := [[], []]
  tun : Tuner := {}
  reeds : Vector Reed 68 := Vector.replicate 68 {}
  conv : ConvCnt := {}
  /-- format faults and quantiser events of the data movers and Bell DMA engines, which belong to no Reed (02 R44; 04 R104) -/
  otherFaults : Nat := 0
  otherQuant : QGrid.Counts := {}
  mem : Mem := {}
  ports : Vector Port 8 := Vector.replicate 8 {}
  paths : Paths := {}
  coll : Colls := {}
  svc : Services := {}
  meas : Measured := {}
  err : Errors := {}
  etude : Etude := {}
  cxlPerst : Bool := true
deriving DecidableEq, Repr

end Sys2Proof.Machine
end

