-- ==== Sys2Proof/Machine/State.lean ====
section
/-! DEFINITION. The machine's state, the reasons it stops, and the state right after reset. -/

namespace Sys2Proof.Machine

open Sys2Proof

/-- The device, its waiting commands, and the model's own counter of free values. -/
structure State where
  pins : Pins := {}
  power : Power := {}
  /-- 0x1030 -/
  dev : Nat := 0
  mp : Mouthpiece := {}
  mram : Mram := {}
  fuses : Fuses := {}
  meter : Meter := {}
  ch : Vector Channel 4 := Vector.replicate 4 {}
  /-- commands that wait, first in first out (log 1) -/
  pending : List Instr := []
  /-- how many free values have been drawn (log 5); the model's own -/
  freeCtr : Nat := 0
deriving DecidableEq, Repr

/-- Why a run stops for good. -/
inductive Fault where
  /-- V_IN above its absolute maximum: the device may be damaged and the spec gives no behaviour (19 R440, 22 R486).
  Raised by OV_EVENT. Safe: the model stops where the hardware may go on. -/
  | absoluteMaximum
deriving DecidableEq, Repr

/-- Why a command is refused by the model. -/
inductive Refusal where
  /-- The command has no meaning in the model yet. Raised by the dispatch only. Safe. -/
  | notModelled (mnemonic : String)
  /-- A stop of the range 0xF000 to 0xFFFF on an engineering part, which the spec does not describe (21 R483).
  Raised by STOP_WRITE, READ, READ_BLOCK, WRITE_BLOCK and the subscriptions. Safe. -/
  | engineeringStop
deriving DecidableEq, Repr

/-- The machine at the instant PWR_GOOD is asserted for the first time (log 2): every stop at its default, the save
store as shipped (log 13), every counter zero, and no command waiting. -/
def State.reset : State := {}

end Sys2Proof.Machine
end

