-- ==== Sys2Proof/Machine/Ops.lean ====
section
/-! DEFINITION. The named operations over the state: reading and changing a channel, a Reed, a port or a session; ready
tokens; the error FIFO; free values. -/

namespace Sys2Proof.Machine

open Sys2Proof

/-! ### Places of the state -/

/-- Channel `c`. -/
def State.chan (s : State) (c : ChanId) : Channel := s.ch.get c

/-- The state with channel `c` replaced. -/
def State.setChan (s : State) (c : ChanId) (k : Channel) : State := { s with ch := s.ch.set c k }

/-- The state with channel `c` changed. -/
def State.modChan (s : State) (c : ChanId) (f : Channel → Channel) : State := s.setChan c (f (s.chan c))

/-- The part of the save store that belongs to channel `c`. -/
def State.store (s : State) (c : ChanId) : ChanStore := s.mram.chan.get c

/-- The state with channel `c`'s part of the save store changed. -/
def State.modStore (s : State) (c : ChanId) (f : ChanStore → ChanStore) : State :=
  { s with mram := { s.mram with chan := s.mram.chan.set c (f (s.store c)) } }

/-- The state with the Mouthpiece changed. -/
def State.modMp (s : State) (f : Mouthpiece → Mouthpiece) : State := { s with mp := f s.mp }

/-- The state with the meter changed. -/
def State.modMeter (s : State) (f : Meter → Meter) : State := { s with meter := f s.meter }

/-- The four channels in order. -/
def chans : List ChanId := [0, 1, 2, 3]

/-- A physical Reed. -/
def Channel.reed (k : Channel) (r : ReedId) : Reed := k.reeds.get r

/-- The channel with a Reed changed. -/
def Channel.modReed (k : Channel) (r : ReedId) (f : Reed → Reed) : Channel := { k with reeds := k.reeds.set r (f (k.reed r)) }

/-- The channel with a Valve changed. -/
def Channel.modValve (k : Channel) (r : ReedId) (f : Valve → Valve) : Channel :=
  k.modReed r (fun x => { x with valve := f x.valve })

/-- A Bell port. -/
def Channel.port (k : Channel) (p : PortId) : Port := k.ports.get p

/-- The channel with a port changed. -/
def Channel.modPort (k : Channel) (p : PortId) (f : Port → Port) : Channel := { k with ports := k.ports.set p (f (k.port p)) }

/-- The eight ports. -/
def portIds : List PortId := [0, 1, 2, 3, 4, 5, 6, 7]

/-- A number as a Reed, when it names one. -/
def reedId? (n : Nat) : Option ReedId := if h : n < 68 then some ⟨n, h⟩ else none

/-- A number as a port, when it names one. -/
def portId? (n : Nat) : Option PortId := if h : n < 8 then some ⟨n, h⟩ else none

/-- A number as a channel, when it names one. -/
def chanId? (n : Nat) : Option ChanId := if h : n < 4 then some ⟨n, h⟩ else none

/-- The physical Reed bound to a logical slot (07 R179). -/
def Channel.slotReed (k : Channel) (slot : Nat) : Option ReedId := reedId? (k.slotMap.getD slot 0xFF)

/-- The logical slot a physical Reed holds. -/
def Channel.reedSlot (k : Channel) (r : ReedId) : Option Nat := k.slotMap.idxOf? r.val

/-- A channel is running in RUN, STOPPING and HOLDUP, whether or not it holds (07 R189). -/
def Channel.running (k : Channel) : Bool := k.st == .run || k.st == .stopping || k.st == .holdup

/-- Any channel is running. -/
def State.anyRunning (s : State) : Bool := chans.any (fun c => (s.chan c).running)

/-- The device draws power, is out of reset, and is not in Last Breath: units do work. -/
def State.awake (s : State) : Bool := s.pins.pwrGood && !s.pins.resetHeld && s.pins.refclkL && s.power.lb.isNone

/-- A component of the firmware store: 0 Mouthpiece firmware, 1 Chanter firmware, 2 Étude pack (15 R370). -/
def State.comp (s : State) (i : Nat) : Component := s.mram.comps.getD i {}

/-- The state with a component changed. -/
def State.modComp (s : State) (i : Nat) (f : Component → Component) : State :=
  { s with mram := { s.mram with comps := modAt s.mram.comps i f } }

/-- The slot that is active, and the other. -/
def Component.active (x : Component) : Slot := if x.activeB then x.slotB else x.slotA
/-- The slot that is not active. -/
def Component.inactive (x : Component) : Slot := if x.activeB then x.slotA else x.slotB

/-- The pending slot becomes active once it has been asked for (15 R373). -/
def Component.switch (x : Component) : Component :=
  if x.pending && x.armed then
    { x with activeB := !x.activeB, pending := false, armed := false, taken := [false, false, false, false] }
  else x

/-! ### Free values (log 5) -/

/-- Draw a free value below `n`: nothing says which. -/
def State.draw (s : State) (n : Nat) : Nat × State :=
  (if n = 0 then 0 else Config.freeNat s.freeCtr % n, { s with freeCtr := s.freeCtr + 1 })

/-- The k-th free value from the counter on, below `n`. -/
def State.freeAt (s : State) (k n : Nat) : Nat := if n = 0 then 0 else Config.freeNat (s.freeCtr + k) % n

/-- Count free values as drawn. -/
def State.drew (s : State) (k : Nat) : State := { s with freeCtr := s.freeCtr + k }

/-! ### Ready tokens (07 R168 to R170) -/

/-- A token. -/
def Channel.token (k : Channel) (t : Nat) : Token := SMap.get {} k.tokens t

/-- The channel with a token changed. -/
def Channel.modToken (k : Channel) (t : Nat) (f : Token → Token) : Channel :=
  { k with tokens := SMap.set {} k.tokens t (f (k.token t)) }

/-- Launch: the token and its tag are cleared and its producer is in flight (07 R168). -/
def Channel.launchToken (k : Channel) (t : Option Nat) : Channel :=
  match t with
  | none => k
  | some t => k.modToken t (fun _ => { flying := true })

/-- Completion: the token is set (07 R168). -/
def Channel.setToken (k : Channel) (t : Option Nat) : Channel :=
  match t with
  | none => k
  | some t => k.modToken t (fun x => { x with set := true, flying := false })

/-- Late completion: the producer writes a cause tag (07 R168); a lower code is not overwritten by a higher one. -/
def Channel.tagToken (k : Channel) (t : Option Nat) (h : HoldCause) : Channel :=
  match t with
  | none => k
  | some t => k.modToken t (fun x => { x with tag := some h })

/-- The action in flight on a unit. -/
def Channel.flight (k : Channel) (unit : Nat) : Option Flight := k.flights.find? (fun (f : Flight) => f.unit == unit)

/-- An action is launched on a unit with the token it produces. -/
def Channel.fly (k : Channel) (unit entry : Nat) (t : Option Nat) : Channel :=
  { k with flights := k.flights ++ [{ unit := unit, entry := entry, token := t }] }

/-- The action on a unit tags its token, for the beats it may hold (07 R168, R170). -/
def Channel.tagFlight (k : Channel) (unit : Nat) (h : HoldCause) : Channel :=
  match k.flight unit with
  | none => k
  | some f =>
    ({ k with flights := k.flights.map (fun (g : Flight) => if g.unit == unit then { g with tag := some h } else g) }).tagToken f.token h

/-- The action on a unit completes: its token is set and the unit is free (07 R168). -/
def Channel.land (k : Channel) (unit : Nat) : Channel :=
  match k.flight unit with
  | none => k
  | some f => ({ k with flights := k.flights.filter (fun (g : Flight) => g.unit != unit) }).setToken f.token

/-- The action of a score entry completes on a unit that may hold several: a Bell DMA engine or the Chanters. -/
def Channel.landEntry (k : Channel) (entry : Nat) : Channel :=
  match k.flights.find? (fun (f : Flight) => f.entry == entry) with
  | none => k
  | some f => ({ k with flights := k.flights.filter (fun (g : Flight) => g.entry != entry) }).setToken f.token

/-- The action of a score entry tags its token; a token tagged ERROR_RETRY is never changed back (03 R89; 07 R168). -/
def Channel.tagEntry (k : Channel) (entry : Nat) (h : HoldCause) : Channel :=
  match k.flights.find? (fun (f : Flight) => f.entry == entry) with
  | none => k
  | some f =>
    if f.tag = some .errorRetry then k
    else ({ k with flights := k.flights.map (fun (g : Flight) => if g.entry == entry then { g with tag := some h } else g) }).tagToken
      f.token h

/-- A score entry. -/
def Channel.entry (k : Channel) (i : Nat) : Entry :=
  match k.score with
  | none => {}
  | some sc => sc.entries.getD i {}

/-- The descriptor pool of the loaded score. -/
def Channel.pool (k : Channel) : List Byte :=
  match k.score with
  | none => []
  | some sc => sc.pool

/-- A tensor descriptor of the loaded score. -/
def Channel.tensor (k : Channel) (t : Nat) : TensorDesc := Score.tensorAt k.pool t

/-! ### The hardware error FIFO (17 R413) -/

/-- A unit writes an entry; when the FIFO of 32 entries is full the unit stalls with it and nothing is lost. -/
def Errors.push (e : Errors) (x : RawErr) : Errors :=
  if e.fifo.length < 32 then { e with fifo := e.fifo ++ [x] } else { e with stalled := e.stalled ++ [x] }

/-- A DETAIL whose form the cause table leaves open: drawn free when the entry is logged (17 R413; log 5). -/
def anyDetail : Nat := 2 ^ 32

/-- A unit of the channel writes an error. -/
def Channel.raise (k : Channel) (x : RawErr) : Channel := { k with err := k.err.push x }

/-- A code of a class (17 R403). -/
def ErrClass.code : ErrClass → Nat
  | .C => 1 | .D => 2 | .S => 3 | .J => 4 | .H => 5 | .F => 6

/-- The class one above (17 R416, rule 1). -/
def ErrClass.up : ErrClass → ErrClass
  | .C => .D | .D => .S | .S => .J | .J => .H | .H => .H | .F => .F

/-- A code of a hold cause (07 R171). -/
def HoldCause.code : HoldCause → Nat
  | .errorRetry => 0 | .versionWait => 1 | .lateLink => 2 | .tileRecomp => 3 | .farTier => 4 | .hbmRefresh => 5
  | .scalar => 6 | .other => 7

/-- A code of a channel state (07 R188). -/
def ChState.code : ChState → Nat
  | .init => 0 | .ready => 1 | .loaded => 2 | .run => 3 | .stopping => 4 | .halted => 5 | .holdup => 6

/-- An entry is appended to a log; a full ring loses its oldest entry, and LOST is set when that one was unread
(17 R413, R414). -/
def ErrLog.append (l : ErrLog) (x : ErrEntry) : ErrLog :=
  let top := max l.top (ErrClass.code x.cls)
  if l.ring.length < 256 then { l with ring := l.ring ++ [x], unread := min 256 (l.unread + 1), top := top }
  else { l with ring := l.ring.drop 1 ++ [x], lost := l.lost || decide (256 ≤ l.unread), unread := min 256 (l.unread + 1)
                top := top }

/-- The handling of an entry ends: OUTCOME is rewritten in place, or the entry is appended again when a clear has emptied
the log meanwhile (17 R414, R415). -/
def ErrLog.finish (l : ErrLog) (x : ErrEntry) (outcome : Nat) : ErrLog :=
  if l.ring.any (fun (y : ErrEntry) => y.seq == x.seq && y.outcome == 0) then
    { l with ring := l.ring.map (fun (y : ErrEntry) => if y.seq == x.seq && y.outcome == 0 then { y with outcome := outcome } else y) }
  else l.append { x with outcome := outcome }

/-- The handling of every error that satisfies `hit` ends with an outcome (17 R414). -/
def Errors.endAll (e : Errors) (hit : ErrEntry → Bool) (outcome : Nat) : Errors :=
  let done := e.handling.filter (fun (h : InHand) => hit h.entry)
  { e with log := done.foldl (fun l (h : InHand) => l.finish h.entry outcome) e.log
           handling := e.handling.filter (fun (h : InHand) => !hit h.entry) }

/-- A unit's recovery of a class D error ends: entries of that cause and unit not yet drained are logged with the outcome,
and those in handling end with it (17 R414). -/
def Errors.endRecovery (e : Errors) (unit uidx : Nat) (causes : List Cause) (outcome : Nat) : Errors :=
  let raw := fun (x : RawErr) =>
    if causes.contains x.cause && x.unit == unit && x.uidx == uidx && x.ended.isNone then { x with ended := some outcome } else x
  ({ e with fifo := e.fifo.map raw, stalled := e.stalled.map raw }).endAll
    (fun x => causes.contains x.cause && x.unit == unit && x.uidx == uidx) outcome

end Sys2Proof.Machine
end

