-- ==== Sys2Proof/Machine/MemOps.lean ====
section
/-! DEFINITION. The memory of a channel: translation, the write-combining buffer, codeword protection, reads of chords and
bytes with the errors they find, and class map placement (09). -/

namespace Sys2Proof.Machine

open Sys2Proof

/-- Bytes of a page and of a frame, 2 MiB (09 R231). -/
def pageBytes : Nat := 2097152

/-- First tier address of the far tier. -/
def farBase : Nat := 2199023255552

/-- HBM frames before the 64 firmware frames (09 R233). -/
def hbmFrames : Nat := 73664

/-- Logical pages of space 0 (09 R231). -/
def logicalPages : Nat := 262144

/-- Bytes of the wind chest and of a Reed SRAM. -/
def chestBytes : Nat := 33554432
/-- Bytes of a Reed SRAM. -/
def sramBytes : Nat := 1048576

/-- Where an address of space 0 or 1 lies: tier address, page class, lock. -/
structure Place where
  key : Nat
  cls : Nat
  lock : Bool
deriving DecidableEq, Repr

/-- Translation of one address (09 R231, R234); none is an ADDR_FAULT. -/
def Mem.place (m : Mem) (space addr : Nat) : Option Place :=
  let page := addr / pageBytes
  if space = 0 then
    let e := SMap.get {} m.class0 page
    let p := SMap.get {} m.pages page
    if page < logicalPages && e.valid && p.valid then
      some { key := (if p.far then farBase else 0) + p.frame * pageBytes + addr % pageBytes, cls := e.cls, lock := p.lock }
    else none
  else if space = 1 then
    let e := SMap.get {} m.class1 page
    if addr < m.cxlCap && e.valid then some { key := farBase + addr, cls := e.cls, lock := false } else none
  else none

/-- Cut a range into pieces that stay inside a 256-byte line (`fuel` bounds the pieces). -/
def linePieces (addr n : Nat) : Nat → List (Nat × Nat)
  | 0 => []
  | fuel + 1 =>
    if n = 0 then []
    else
      let k := min n (256 - addr % 256)
      (addr, k) :: linePieces (addr + k) (n - k) fuel

/-- The pieces of a range. -/
def pieces (addr n : Nat) : List (Nat × Nat) := linePieces addr n (n / 256 + 2)

/-- Does a whole range translate (and, for a write, avoid LOCK pages)? (09 R234) -/
def Mem.mapped (m : Mem) (write : Bool) (space addr n : Nat) : Bool :=
  (pieces addr n).all (fun p => match m.place space p.1 with
    | some q => !(write && q.lock)
    | none => false)

/-- The line of the write-combining buffer for a tier address. -/
def Mem.line (m : Mem) (key : Nat) : Option WcbLine := m.wcb.find? (fun (l : WcbLine) => l.addr == key / 256 * 256)

/-- ACHK of a codeword: the exclusive or of the eight bytes of its physical address / 64, tier and frame included, and of the four
bytes of the binding epoch (09 R236). -/
def achkOf (cwi epoch : Nat) : Nat :=
  (leBytes 8 cwi ++ leBytes 4 epoch).foldl (fun a b => a ^^^ b.toNat) 0

/-- The protection state of a codeword. -/
def Mem.codeword (m : Mem) (cwi : Nat) : Codeword := SMap.get {} m.cw cwi

/-- The protection state of a codeword replaced. -/
def Mem.setCodeword (m : Mem) (cwi : Nat) (w : Codeword) : Mem := { m with cw := SMap.set {} m.cw cwi w }

/-- A codeword as it stands once it has been written whole. -/
def Mem.goodWord (m : Mem) (cwi : Nat) : Codeword := { written := true, achk := achkOf cwi m.epoch }

/-- Does the stored ACHK match the one expected for the address read (09 R236)? -/
def Mem.achkOk (m : Mem) (cwi : Nat) : Bool := (m.codeword cwi).written && (m.codeword cwi).achk == achkOf cwi m.epoch

/-- Bytes move between the channel and the far tier (09 R259; log 60). -/
def Mem.moved (m : Mem) (key n : Nat) : Mem := if farBase ≤ key then { m with farBytes := m.farBytes + n } else m

/-- A codeword has been corrected: counted towards its frame's 16 (09 R239). -/
def Mem.corrected (m : Mem) (cwi : Nat) : Mem :=
  let n := SMap.get 0 m.corrections (cwi / 32768) + 1
  { m with corrections := SMap.set 0 m.corrections (cwi / 32768) n, hits := if n = 16 then m.hits ++ [cwi / 32768] else m.hits }

/-- Is a write to a codeword pending in the write-combining buffer (09 R239, R260)? -/
def Mem.writePending (m : Mem) (cwi : Nat) : Bool :=
  match m.line (64 * cwi) with
  | some l => l.bytes.any (fun (b : Nat × Byte) => b.1 / 64 == cwi % 4)
  | none => false

/-- The on-die and CXL indications of a read are counted (09 R240, R255, R259). -/
def Mem.indications (m : Mem) (w : Codeword) : Mem :=
  { m with cnt := { m.cnt with odUncorr := sat32 m.cnt.odUncorr (bit w.onDie), cxlPoison := sat32 m.cnt.cxlPoison (bit w.poison) } }

/-- Can the symbol ECC and ACHK not make good a codeword of a W or C page (09 R236, R255)? -/
def Mem.uncorrectable (m : Mem) (cwi : Nat) : Bool :=
  !m.achkOk cwi || decide (2 ≤ (m.codeword cwi).wrong) || (m.codeword cwi).poison

/-- A corrected codeword is written back unless a write to it is pending (09 R239). -/
def Mem.writeBack (m : Mem) (cwi : Nat) : Mem :=
  if m.writePending cwi then m else (m.setCodeword cwi (m.goodWord cwi)).moved (64 * cwi) 64

/-- Read one codeword's protection state on the way to a read (09 R236, R239, R240, R255): whether the class cannot correct it. In a
class A page disturbed bits show as a chord CRC mismatch. -/
def Mem.checkCodeword (m : Mem) (cls cwi : Nat) : Bool × Mem :=
  let w := m.codeword cwi
  let m := m.indications w
  if cls = 0 then (decide (0 < w.wrong) || w.onDie || w.poison, m)
  else if m.uncorrectable cwi then
    (true, { m with cnt := { m.cnt with eccUncorr := sat32 m.cnt.eccUncorr 1
                                        achkFail := sat32 m.cnt.achkFail (bit (!m.achkOk cwi && decide (w.wrong < 2))) } })
  else if w.wrong = 1 then
    (false, ({ m with cnt := { m.cnt with eccCorr := sat32 m.cnt.eccCorr 1 } }.corrected cwi).writeBack cwi)
  else (false, m)

/-- Sectors of a codeword that a line covers only in part (09 R249). -/
def partSectors (bs : SMap Byte) (i : Nat) : Nat :=
  ([0, 1].filter (fun j =>
    let n := (bs.filter (fun b => b.1 / 32 == 2 * i + j)).length
    n != 0 && n != 32)).length

/-- Write one codeword of a line out to memory: whole when every byte is masked, else read, correct, merge, write; an
uncorrectable read leaves ACHK inverted (09 R249). Class A is written in whole sectors, a partly covered one read and merged. -/
def Mem.writeCodeword (m : Mem) (l : WcbLine) (i : Nat) : Mem :=
  let bs := l.bytes.filter (fun b => 64 * i ≤ b.1 && b.1 < 64 * i + 64)
  if bs.isEmpty then m
  else
    let cwi := l.addr / 64 + i
    let put := fun (m : Mem) => { m with dram := bs.foldl (fun (d : Memory) (b : Nat × Byte) => d.wr (l.addr + b.1) b.2) m.dram }
    let w := m.codeword cwi
    if bs.length = 64 then ((put m).setCodeword cwi (m.goodWord cwi)).moved l.addr 64
    else if l.cls = 0 then
      let n := partSectors bs i
      let m := if n = 0 then m else m.indications w
      let spoilt := 0 < n ∧ (w.onDie ∨ w.poison)
      let m := (put m).setCodeword cwi (if spoilt then { w with wrong := max 1 w.wrong, onDie := false, poison := false }
        else if w.written then w else m.goodWord cwi)
      ({ m with cnt := { m.cnt with wcbRmw := sat32 m.cnt.wcbRmw n } }).moved l.addr (32 * ([0, 1].filter (fun j =>
        bs.any (fun b => b.1 / 32 == 2 * i + j))).length + 32 * n)
    else
      let (bad, m) := m.checkCodeword l.cls cwi
      let good := m.goodWord cwi
      let m := (put m).setCodeword cwi (if bad then { good with achk := 255 - good.achk } else good)
      ({ m with cnt := { m.cnt with wcbRmw := sat32 m.cnt.wcbRmw 1, rmwPoison := sat32 m.cnt.rmwPoison (bit bad) } }).moved l.addr 128

/-- Write a line out (09 R249). -/
def Mem.writeLine (m : Mem) (l : WcbLine) : Mem := [0, 1, 2, 3].foldl (fun m i => m.writeCodeword l i) m

/-- Write out every line that holds data (09 R249: at a phrase boundary). -/
def Mem.flush (m : Mem) : Mem := { m.wcb.foldl Mem.writeLine m with wcb := [] }

/-- A write of bytes that stay inside one line enters the buffer (09 R248, R249). -/
def Mem.wcbWrite (m : Mem) (q : Place) (bs : List Byte) : Mem :=
  let base := q.key / 256 * 256
  let old := (m.line q.key).getD { addr := base, cls := q.cls }
  let fresh := (m.line q.key).isNone
  let put := ((bs.zipIdx).foldl (fun (b : SMap Byte) x => SMap.put b (q.key % 256 + x.2) x.1) old.bytes)
  let rest := m.wcb.filter (fun (l : WcbLine) => l.addr != base)
  let l : WcbLine := { old with cls := q.cls, bytes := put }
  let m := { m with wcb := rest }
  let m := match fresh && decide (256 ≤ rest.length), rest with
    | true, v :: more => { (m.writeLine v) with wcb := more, cnt := { (m.writeLine v).cnt with wcbEvict := sat32 m.cnt.wcbEvict 1 } }
    | _, _ => m
  if put.length = 256 then m.writeLine l else { m with wcb := m.wcb ++ [l] }

/-- Write bytes in space 0 or 1 whose range has been found mapped. -/
def Mem.store (m : Mem) (space addr : Nat) (bs : List Byte) : Mem :=
  (pieces addr bs.length).foldl (fun (m : Mem) p =>
    match m.place space p.1 with
    | some q => m.wcbWrite q ((bs.drop (p.1 - addr)).take p.2)
    | none => m) m

/-- What a read finds of the protection of its bytes. -/
structure Found where
  bytes : List Byte := []
  /-- an uncorrectable codeword, or in class A disturbed bits -/
  bad : Bool := false
  cls : Nat := 0
deriving DecidableEq, Repr

/-- Read a piece that stays inside one line: every write accepted before it is seen (09 R250). -/
def Mem.readPiece (m : Mem) (q : Place) (n : Nat) (acc : Found) : Found × Mem :=
  let line := m.line q.key
  let o := q.key % 256
  let inLine := fun (i : Nat) => match line with
    | some l => (l.bytes.find? (fun (b : Nat × Byte) => b.1 == o + i)).map Prod.snd
    | none => none
  let bs := (List.range n).map (fun i => (inLine i).getD (m.dram.rd (q.key + i)))
  let cws := ((List.range n).filter (fun i => (inLine i).isNone)).map (fun i => (q.key + i) / 64) |>.eraseDups
  cws.foldl (fun (s : Found × Mem) c =>
      let r := s.2.checkCodeword q.cls c
      ({ s.1 with bad := s.1.bad || r.1 }, r.2.moved (64 * c) (if q.cls = 0 ∧ n ≤ 32 then 32 else 64)))
    ({ acc with bytes := acc.bytes ++ bs, cls := max acc.cls q.cls }, m)

/-- Read bytes of space 0 or 1 whose range has been found mapped. -/
def Mem.load (m : Mem) (space addr n : Nat) : Found × Mem :=
  (pieces addr n).foldl (fun (s : Found × Mem) p =>
    match s.2.place space p.1 with
    | some q => s.2.readPiece q p.2 s.1
    | none => s) ({}, m)

/-! ### Reads and writes by the units of a channel -/

/-- What a read meets: nothing, an address fault, an error the page class cannot correct, or a parity error. -/
inductive ReadErr where
  | none | addr | uncorr | parity
deriving DecidableEq, Repr

/-- A finished read. -/
structure ReadRes where
  bytes : List Byte := []
  err : ReadErr := .none
  cls : Nat := 0
deriving DecidableEq, Repr

/-- An address fault is counted and raised, class S (09 R234, R259). -/
def Channel.addrFault (k : Channel) (unit uidx addr : Nat) : Channel :=
  { k with mem := { k.mem with cnt := { k.mem.cnt with addrFault := sat32 k.mem.cnt.addrFault 1 } } }.raise
    { cause := .addrFault, cls := .S, unit := unit, uidx := uidx, detail := addr / pageBytes }

/-- Frames that have reached 16 corrections are logged, once in a binding, as class C (09 R239), by the memory (UNIT 5). -/
def Channel.frameErrors (k : Channel) : Channel :=
  k.mem.hits.foldl (fun (k : Channel) f => k.raise { cause := .eccFrame, cls := .C, unit := 5, detail := f, ended := some 1 })
    { k with mem := { k.mem with hits := [] } }

/-- Bytes of a Reed's SRAM or of the wind chest are inside it. -/
def inside (space addr n : Nat) : Bool := addr + n ≤ (if space = 2 then chestBytes else sramBytes)

/-- Is there a parity error in a range? -/
def badIn (l : List Nat) (addr n : Nat) : Bool := l.any (fun a => addr < a + 32 && a < addr + n)

/-- Read bytes in any space for a unit (09 R231, R234, R250, R251; 03 R86); space 3 is the SRAM of Reed `r`. -/
def Channel.readBytes (k : Channel) (unit uidx : Nat) (r : ReedId) (space addr n : Nat) : ReadRes × Channel :=
  if space = 2 ∨ space = 3 then
    if inside space addr n then
      let bs := if space = 2 then k.mem.chest.read addr n else (k.reed r).sram.read addr n
      let bad := if space = 2 then badIn k.mem.badChest addr n else badIn (k.reed r).badParity addr n
      ({ bytes := bs, err := if bad then .parity else .none }, k)
    else ({ bytes := List.replicate n 0#8, err := .addr }, k.addrFault unit uidx addr)
  else if k.mem.mapped false space addr n then
    let (f, m) := k.mem.load space addr n
    ({ bytes := f.bytes, err := if f.bad then .uncorr else .none, cls := f.cls }, { k with mem := m }.frameErrors)
  else ({ bytes := List.replicate n 0#8, err := .addr }, k.addrFault unit uidx addr)

/-- Write bytes in any space for a score action, entry `e` (09 R234, R248, R251); a faulted write is discarded. -/
def Channel.writeBytes (k : Channel) (unit uidx : Nat) (r : ReedId) (e space addr : Nat) (bs : List Byte) : Channel :=
  let n := bs.length
  if n = 0 then k
  else if space = 2 then
    if inside 2 addr n then
      let blocks := (List.range ((addr + n - 1) / 2048 - addr / 2048 + 1)).map (fun i => addr / 2048 + i)
      { k with mem := { k.mem with
          chest := k.mem.chest.write addr bs
          badChest := k.mem.badChest.filter (fun a => !(addr ≤ a && a + 32 ≤ addr + n))
          chestWriter := blocks.foldl (fun (w : SMap Nat) b => SMap.put w b (e + 1)) k.mem.chestWriter } }
    else k.addrFault unit uidx addr
  else if space = 3 then
    if inside 3 addr n then
      k.modReed r (fun x => { x with
        sram := x.sram.write addr bs
        badParity := x.badParity.filter (fun a => !(addr ≤ a && a + 32 ≤ addr + n)) })
    else k.addrFault unit uidx addr
  else if k.mem.mapped true space addr n then { k with mem := k.mem.store space addr bs }.frameErrors
  else k.addrFault unit uidx addr

/-- A chord CRC mismatch is counted by page class (09 R259). -/
def Channel.countCrc (k : Channel) (cls : Nat) : Channel :=
  let c := k.mem.cnt
  let c := match cls with
    | 1 => { c with crcW := sat32 c.crcW 1 }
    | 2 => { c with crcC := sat32 c.crcC 1 }
    | _ => { c with crcA := sat32 c.crcA 1 }
  { k with mem := { k.mem with cnt := c } }

/-- Error class of a read that its class cannot correct, by page class and content role (09 R238). `known` is false for an
access outside every tensor descriptor of the score. -/
def uncorrClass (known : Bool) (cls role : Nat) : ErrClass :=
  if !known then .H
  else if cls = 0 then .D
  else if cls = 2 then .H
  else if role = 3 then .D
  else if role = 1 ∨ role = 2 ∨ role = 6 then .J
  else .S

/-- A chord read. -/
structure ChordIn where
  bytes : List Byte := []
  /-- read as fully poisoned: an address fault (09 R234) -/
  poisoned : Bool := false
  /-- an error of class D: what has to be recovered before the chord can be read -/
  redo : Option Redo := none
  /-- an error of class S or above ends the action -/
  lost : Bool := false
deriving DecidableEq, Repr

/-- The codewords of a range are good again after a recovery rewrote them. -/
def Mem.heal (m : Mem) (space addr n : Nat) : Mem :=
  (pieces addr n).foldl (fun (m : Mem) p => match m.place space p.1 with
    | some q => ((List.range p.2).map (fun i => (q.key + i) / 64)).eraseDups.foldl (fun (m : Mem) c => m.setCodeword c (m.goodWord c)) m
    | none => m) m

/-- Parity errors of a range are gone after the chord has been reloaded or recomputed. -/
def Channel.healParity (k : Channel) (r : ReedId) (space addr n : Nat) : Channel :=
  if space = 2 then { k with mem := { k.mem with badChest := k.mem.badChest.filter (fun a => !(addr < a + 32 && a < addr + n)) } }
  else k.modReed r (fun x => { x with badParity := x.badParity.filter (fun a => !(addr < a + 32 && a < addr + n)) })

/-- The class one above the one whose recovery the same data failed in before: 09 R238, 17 R416. -/
def Mem.escalated (m : Mem) (key : Nat) (cls : ErrClass) : ErrClass :=
  match SMap.get 0 m.failed key with
  | 3 => if cls = .S then .J else cls
  | 4 => if cls = .S ∨ cls = .J then .H else cls
  | _ => cls

/-- A read finds an error that its class cannot correct (03 R86; 09 R238, R251). Class D has a recovery: the action learns what has to
be recovered, unless that recovery has run for it already; then the error is class S. Class S and J are remembered for the data until
the step ends (log 61), and the same data failing again rise one class. A parity error of Reed SRAM or of the output buffer is counted
(03 R93). -/
def Channel.readError (k : Channel) (unit uidx : Nat) (r : ReedId) (done : List Redo) (x : Redo) (cause : Cause) (cls : ErrClass) (detail : Nat) :
    Option Redo × Channel :=
  let e : RawErr := { cause := cause, cls := .D, unit := unit, uidx := uidx, detail := detail }
  let k := if cause = .parity ∧ 3 ≤ x.space then
      k.modReed r (fun y => { y with cnt := { y.cnt with parErr := sat32 y.cnt.parErr 1 } }) else k
  if cls = .D && !done.any (fun y => y.space == x.space && y.addr == x.addr) then (some { x with parity := cause == .parity }, k.raise e)
  else
    let key := x.space * 2 ^ 60 + x.addr
    let up := k.mem.escalated key (if cls = .D then .S else cls)
    (none, { k with mem := { k.mem with failed := SMap.set 0 k.mem.failed key (ErrClass.code up) } }.raise
      { e with cls := up, failureOf := if up = cls then none else some cause })

/-- Read chord `i` of a tensor for a unit, check its CRC, and act on an error as 09 R238, R251 and 03 R86 set out. `done` holds what has
been recovered for the action. A disturbed chord of a class A page shows as a CRC mismatch (09 R235, R240). -/
def Channel.readChord (k : Channel) (unit uidx : Nat) (r : ReedId) (t : TensorDesc) (i : Nat) (done : List Redo) : ChordIn × Channel :=
  let n := Score.chordSize t
  let a := Score.chordAddr t i
  let x : Redo := { space := t.space, addr := a, len := n }
  let (res, k) := k.readBytes unit uidx r t.space a n
  let crcBad := (Chord.ofBytes (Score.fmtOf t.layout) res.bytes) == .crcBad
  if res.err = .addr then ({ poisoned := true }, k)
  else if res.err = .none ∧ !crcBad then ({ bytes := res.bytes }, k)
  else
    let near := decide (t.space = 2 ∨ t.space = 3)
    let parity := res.err == .parity
    let cls : ErrClass := if near then .D else uncorrClass true res.cls t.role
    let k := if !parity && (crcBad || res.cls == 0) then k.countCrc res.cls else k
    let (redo, k) := k.readError unit uidx r done x (if parity then .parity else .memUncorr) cls
      (if parity then anyDetail else a / pageBytes)
    ({ bytes := res.bytes, redo := redo, lost := redo.isNone }, k)

/-- Bytes of a fully poisoned chord of a tensor's format (09 R234). -/
def poisonBytes (t : TensorDesc) : List Byte :=
  let f := Score.fmtOf t.layout
  Chord.toBytes f (Chord.poisoned f (Score.geomDir t.geom) (Score.geomBlk t.geom))

/-- Does a tensor's range touch the far tier? (09 R254) -/
def Channel.farRange (k : Channel) (space addr n : Nat) : Bool :=
  n != 0 && (space == 1 || (space == 0 && (List.range (n / pageBytes + 2)).any (fun i =>
    (SMap.get {} k.mem.pages (addr / pageBytes + i)).far && addr / pageBytes + i ≤ (addr + n - 1) / pageBytes)))

/-! ### Class maps and placement (09 R232, R233, R256) -/

/-- A class map entry from its nibble (09 R232). -/
def pageEntOf (v : Nat) : PageEnt := { cls := v % 4, cold := bitOf v 2, valid := bitOf v 3 }

/-- The nibble of a class map entry. -/
def pageEntNibble (e : PageEnt) : Nat := e.cls + 4 * bit e.cold + 8 * bit e.valid

/-- A class map from its bytes, low nibble first. -/
def classMapOf (bs : List Byte) (pages : Nat) : SMap PageEnt :=
  ((bs.zipIdx).map (fun b => [(2 * b.2, b.1.toNat % 16), (2 * b.2 + 1, b.1.toNat / 16)])).flatten
    |>.filterMap (fun x => if x.2 = 0 ∨ pages ≤ x.1 then none else some (x.1, pageEntOf x.2))

/-- The bytes of a class map of `n` bytes. -/
def classMapBytes (m : SMap PageEnt) (n : Nat) : List Byte :=
  (List.range n).map (fun i =>
    byteOf (pageEntNibble (SMap.get {} m (2 * i)) + 16 * pageEntNibble (SMap.get {} m (2 * i + 1))))

/-- Kept: CLASS and VALID unchanged (09 R233). -/
def keptPage (old new : SMap PageEnt) (p : Nat) : Bool :=
  (SMap.get {} old p).valid == (SMap.get {} new p).valid && (SMap.get {} old p).cls == (SMap.get {} new p).cls

/-- Spill order of the pages being placed under a policy (09 R256); higher page numbers first within a group. -/
def spillOrder (policy : Nat) (m : SMap PageEnt) (pages : List Nat) : List Nat :=
  let grp := fun (cls : Nat) (cold : Bool) =>
    (pages.filter (fun p => (SMap.get {} m p).cls == cls && (SMap.get {} m p).cold == cold)).reverse
  match policy with
  | 1 => grp 0 true ++ grp 0 false ++ grp 1 true ++ grp 1 false
  | 2 => grp 1 true ++ grp 1 false ++ grp 0 true ++ grp 0 false
  | _ => []

/-- Check frames for `n` protected pages (09 R233). -/
def checkFrames (n : Nat) : Nat := (n + 15) / 16

/-- Is a page protected by check bytes: class W or C? -/
def protectedPage (e : PageEnt) : Bool := e.valid && (e.cls == 1 || e.cls == 2)

/-- The least number of pages to spill, taken in spill order, so that pages and HBM check frames fit in `frames`
(09 R256): tries 0, 1, 2, …; `protHbm` counts protected pages that stay in HBM before any spill. -/
def spillCount (m : SMap PageEnt) (frames kept : Nat) (protHbm : Nat) (place : Nat) : List Nat → Nat → Option Nat
  | order, k =>
    if kept + (place - k) + checkFrames protHbm ≤ frames then some k
    else match order with
      | [] => none
      | p :: rest => spillCount m frames kept (if protectedPage (SMap.get {} m p) then protHbm - 1 else protHbm) place rest (k + 1)

/-- The first `n` free frames of an ascending or descending range, given the taken ones (ascending list). -/
def freeFrames (limit : Nat) (taken : List Nat) (n : Nat) : List Nat :=
  go 0 taken.mergeSort n (limit + 1)
where
  /-- walk upward past the taken frames -/
  go (f : Nat) (taken : List Nat) (n : Nat) : Nat → List Nat
    | 0 => []
    | fuel + 1 =>
      if n = 0 ∨ limit ≤ f then []
      else match taken with
        | t :: ts => if t < f then go f ts n fuel else if t = f then go (f + 1) ts n fuel else f :: go (f + 1) (t :: ts) (n - 1) fuel
        | [] => f :: go (f + 1) [] (n - 1) fuel

/-- Placement of a class map write (09 R233, R256): the page map and check frame counts, or none when it cannot be
placed. `space1` is the class map of space 1 after the write. -/
def Mem.placeMap (m : Mem) (new0 new1 : SMap PageEnt) : Option (SMap PageMap × Nat × Nat) :=
  let farLimit := m.cxlCap / pageBytes
  let keptP := m.pages.filter (fun e => e.2.valid && keptPage m.class0 new0 e.1)
  let placeP := (new0.filter (fun e => e.2.valid && !(keptP.any (fun q => q.1 == e.1)))).map Prod.fst
  let keptHbm := keptP.filter (fun e => !e.2.far)
  let keptFar := keptP.filter (fun e => e.2.far)
  let far1 := (new1.filter (fun e => e.2.valid)).map Prod.fst
  let prot := fun (ps : List Nat) => (ps.filter (fun p => protectedPage (SMap.get {} new0 p))).length
  let order := spillOrder m.spill new0 placeP
  match spillCount new0 hbmFrames keptHbm.length (prot (keptHbm.map Prod.fst) + prot placeP) placeP.length order 0 with
  | none => none
  | some k =>
    let spilled := order.take k
    let inHbm := placeP.filter (fun p => !spilled.contains p)
    let hbmF := freeFrames hbmFrames (keptHbm.map (fun e => e.2.frame)) inHbm.length
    let takenFar := far1 ++ keptFar.map (fun e => e.2.frame)
    let farFree := (List.range farLimit).reverse.filter (fun f => !takenFar.contains f)
    let checkFar := checkFrames ((far1.filter (fun p => protectedPage (SMap.get {} new1 p))).length
      + prot (keptFar.map Prod.fst) + prot spilled)
    if farFree.length < spilled.length + checkFar ∨ hbmF.length < inHbm.length then none
    else
      let p1 := (inHbm.zip hbmF).foldl (fun (a : SMap PageMap) x => SMap.put a x.1 { frame := x.2, valid := true }) keptP
      let p2 := (spilled.zip farFree).foldl (fun (a : SMap PageMap) x => SMap.put a x.1 { frame := x.2, far := true, valid := true }) p1
      some (p2, checkFrames (prot (keptHbm.map Prod.fst) + prot inHbm), checkFar)

/-- The frames of pages no longer kept lose their contents: a placed page's contents are undefined (09 R233, R244). -/
def Mem.forgetFrame (m : Mem) (key : Nat) : Mem :=
  { m with dram := m.dram.zeroRange key pageBytes, cw := SMap.clear m.cw (key / 64) (key / 64 + pageBytes / 64)
           wcb := m.wcb.filter (fun (l : WcbLine) => !(key ≤ l.addr && l.addr < key + pageBytes)) }

/-- Tier address of a page map entry's frame. -/
def frameKey (p : PageMap) : Nat := (if p.far then farBase else 0) + p.frame * pageBytes

/-- Free HBM frames (09 R258): none of placed page, check frame or firmware data. -/
def Mem.freeHbm (m : Mem) : Nat := hbmFrames - (m.pages.filter (fun e => e.2.valid && !e.2.far)).length - m.checkHbm

/-- The memory under a new binding epoch: what was written under the old one cannot be read any more (09 R243, R244; log 7). -/
def Mem.newEpoch (m : Mem) (epoch : Nat) : Mem := { m with dram := [], cw := [], wcb := [], hits := [], failed := [], epoch := epoch }

/-- Maps, placement and check frames at their reset (09 R258, 21 R484). -/
def Mem.clearMaps (m : Mem) : Mem :=
  { m with class0 := [], class1 := [], pages := [], checkHbm := 0, checkFar := 0 }

/-- Is a range wholly in valid space-0 pages of a class? -/
def Mem.inClass (m : Mem) (cls addr n : Nat) : Bool :=
  n != 0 && (List.range ((addr + n - 1) / pageBytes - addr / pageBytes + 1)).all (fun i =>
    let p := addr / pageBytes + i
    p < logicalPages && (SMap.get {} m.class0 p).valid && (SMap.get {} m.class0 p).cls == cls
      && (SMap.get {} m.pages p).valid)

/-- A disturbance of a codeword (09 R236, R240, R255). -/
def Codeword.upset (w : Codeword) (kind : Nat) : Codeword :=
  match kind with
  | 2 => { w with wrong := w.wrong + 1 }
  | 3 => { w with wrong := w.wrong + 2 }
  | 5 => { w with onDie := true }
  | _ => { w with poison := true }

/-- A parity error of the output buffer: in the slot with a number, else in the finished tile that awaits its release, else in the tile
of the array (03 R84, R86). -/
def Reed.upsetSlot (x : Reed) (n : Nat) : Reed :=
  if n < x.slots.length then { x with slots := modAt x.slots n (fun (o : OutSlot) => { o with parity := true }) }
  else match x.waiting with
    | some t => { x with waiting := some { t with outParity := true } }
    | none => { x with tile := x.tile.map (fun t => { t with outParity := true }) }

/-- Disturbed bits as the surroundings show them: they take effect on the next read. -/
def Channel.upset (k : Channel) (u : Upset) : Channel :=
  let onReed := fun (f : Reed → Reed) => match reedId? u.reed with | some r => k.modReed r f | none => k
  match u.kind with
  | 0 => onReed (fun x => { x with badParity := x.badParity ++ [u.addr] })
  | 1 => { k with mem := { k.mem with badChest := k.mem.badChest ++ [u.addr] } }
  | 4 => { k with mem := { k.mem with cnt := { k.mem.cnt with odCorr := sat32 k.mem.cnt.odCorr 1 } } }
  | 7 => onReed (fun x => { x with tile := x.tile.map (fun t => { t with accParity := true }) })
  | 8 => onReed (fun x => x.upsetSlot u.addr)
  | n => { k with mem := k.mem.setCodeword (u.addr / 64) ((k.mem.codeword (u.addr / 64)).upset n) }

/-- Bits disturbed one after the other. -/
def Channel.disturbed (k : Channel) (us : List Upset) : Channel := us.foldl Channel.upset k

/-- Bits of a channel disturbed one after the other. -/
def State.disturbed (s : State) (c : ChanId) (us : List Upset) : State :=
  us.foldl (fun (s : State) u => s.modChan c (fun k => k.upset u)) s

end Sys2Proof.Machine
end

