-- ==== Sys2Proof/Machine/LinkOps.lean ====
section
/-! DEFINITION. The Bell port: flits, link retry, credits, the transmitter's choice, packets and their encryption, HELLO
and the match against the path plan, and a port going DOWN (10, 12). -/

namespace Sys2Proof.Machine

open Sys2Proof

/-- Who a channel is on the links: position ID, channel, binding epoch, key domain (10 R273, 12 R321). -/
structure Self where
  pos : Nat
  chan : Nat
  epoch : Nat
  keydom : Nat
deriving DecidableEq, Repr

/-- SRC of a packet encrypted at a port (10 R273). -/
def Self.src (w : Self) (p : Nat) : Nat := w.pos + 4096 * w.chan + 16384 * p

/-- The identity of channel `c`. -/
def State.self (s : State) (c : ChanId) : Self :=
  { pos := s.pins.straps % 4096, chan := c.val, epoch := (s.store c).epoch
    keydom := if s.fuses.prod then Config.keyDomain else 0 }

/-! ### Flits (10 R264, R265) -/

/-- Header of a flit as a number. -/
def Flit.header (f : Flit) : Nat :=
  f.job % 4096 + f.typ % 8 * 2 ^ 12 + f.vc % 4 * 2 ^ 15 + f.seq % 2 ^ 24 * 2 ^ 17 + f.pidx % 16 * 2 ^ 41
    + bit f.last * 2 ^ 45 + bit f.routed * 2 ^ 46 + f.dpos % 4096 * 2 ^ 48 + f.dch % 4 * 2 ^ 60

/-- The 256 bytes of a flit. -/
def Flit.bytes (f : Flit) : List Byte :=
  let b := leBytes 8 f.header ++ fitTo 240 f.payload
  b ++ leBytes 8 (Hash.crc64xz b)

/-- The fields of 256 bytes. -/
def Flit.ofBytes (b : List Byte) : Flit :=
  let h := fieldLe b 0 8
  { job := h % 4096, typ := bitsOf h 14 12, vc := bitsOf h 16 15, seq := bitsOf h 40 17, pidx := bitsOf h 44 41
    last := bitOf h 45, routed := bitOf h 46, dpos := bitsOf h 59 48, dch := bitsOf h 61 60, payload := slice b 8 240 }

/-- The CRC of a received flit is good (10 R264). -/
def flitGood (b : List Byte) : Bool := b.length == 256 && Hash.crc64xz (b.take 248) == fieldLe b 248 8

/-- The VC fixed for a type; none for TYPE 7 (10 R265). -/
def vcOfType : Nat → Option Nat
  | 0 => some 3 | 1 => some 2 | 2 => some 1 | 3 => some 0 | 4 => some 0 | 5 => some 0 | 6 => some 0 | _ => none

/-- Slots of each VC in a receive buffer (10 R270). -/
def vcSize : Nat → Nat
  | 0 => 16 | 1 => 16 | 2 => 96 | _ => 128

/-- A list of counts by VC with one changed. -/
def modVc (l : List Nat) (v : Nat) (f : Nat → Nat) : List Nat := modAt l v f

/-- Wrapped distance from `a` to `b` modulo 2^24. -/
def seqDist (a b : Nat) : Nat := (b + 2 ^ 24 - a % 2 ^ 24) % 2 ^ 24

/-- `a` precedes `b` modulo 2^24. -/
def seqBefore (a b : Nat) : Bool := seqDist a b != 0 && decide (seqDist a b < 2 ^ 23)

/-- An ACK or NAK payload (10 R267). -/
def ackPayload (e : Nat) (nak : Bool) : List Byte := leBytes 3 e ++ [byteOf (bit nak)] ++ List.replicate 236 0#8

/-- A CREDIT payload (10 R271). -/
def creditPayload (freed : List Nat) : List Byte :=
  ((List.range 4).map (fun v => leBytes 4 (wrap32 (freed.getD v 0)))).flatten ++ List.replicate 224 0#8

/-- Credits available on a VC (10 R271). -/
def Port.credits (p : Port) (v : Nat) : Nat :=
  (vcSize v + p.freed.getD v 0 + 2 ^ 32 - p.consumed.getD v 0 % 2 ^ 32) % 2 ^ 32

/-- A flit slot is freed in the receive buffer (10 R270, R271): a CREDIT is ready once eight are. -/
def Port.free (p : Port) (v n : Nat) : Port :=
  let since := modVc p.rxFreedSince v (· + n)
  let p := { p with rxFreed := modVc p.rxFreed v (fun x => wrap32 (x + n)), rxFreedSince := since }
  if since.any (8 ≤ ·) then
    { p with creditReady := some { typ := 5, payload := creditPayload p.rxFreed }, rxFreedSince := [0, 0, 0, 0] }
  else p

/-- Entry into UP: both ends start with the sizes as credits and all counts zero (10 R270). -/
def Port.enterUp (p : Port) : Port :=
  { p with st := .up, consumed := [0, 0, 0, 0], freed := [0, 0, 0, 0], rxFreed := [0, 0, 0, 0], rxFreedSince := [0, 0, 0, 0] }

/-- Buffers and link state discarded when a port leaves service (10 R283). -/
def Port.discard (p : Port) : Port :=
  { p with
    nextSeq := 0, e := 0, lastNak := none, unacked := 0, replayBuf := [], replay := none, retry := 0, replayFrom := none
    consumed := [0, 0, 0, 0], freed := [0, 0, 0, 0], rxFreed := [0, 0, 0, 0], rxFreedSince := [0, 0, 0, 0]
    rxBuf := [[], [], [], []], ackReady := none, creditReady := none, helloReady := none, txq := [[], [], [], []]
    bulkBusy := none, keyWait := none, recvs := [], sends := [], opens := [], ctxWait := false
    seenPartner := false, seenSeen := false, lastHello := [] }

/-- A replay starts at an expected SEQ: every unacknowledged flit from there on is resent in order (10 R268). A ninth is
told by the caller. -/
def Port.startReplay (p : Port) (e : Nat) : Port :=
  let fl := p.replayBuf.filter (fun (f : Flit) => !seqBefore f.seq e)
  { p with replay := some (e, fl), retry := p.retry + 1, replayFrom := some e
           cnt := { p.cnt with replays := sat32 p.cnt.replays 1 } }

/-- Every flit before `e` is acknowledged (10 R267); the retry count returns to 0 past the replay's start (10 R268). -/
def Port.acknowledge (p : Port) (e : Nat) : Port :=
  let left := p.replayBuf.filter (fun (f : Flit) => !seqBefore f.seq e)
  let passed := match p.replayFrom with | some b => seqBefore b e | none => false
  { p with replayBuf := left
           replay := p.replay.map (fun r => (r.1, r.2.filter (fun (f : Flit) => !seqBefore f.seq e)))
           retry := if passed then 0 else p.retry, replayFrom := if passed then none else p.replayFrom }

/-! ### The transmitter (10 R269 to R272) -/

/-- The packets that wait after one that was forwarded, or local, has gone: the first of the other kind is next (12 R328). -/
def alternate (routed : Bool) (l : List TxPkt) : List TxPkt :=
  match l.findIdx? (fun (r : TxPkt) => (r.flits.head?.map Flit.routed).getD false != routed) with
  | some i => (l[i]?).toList ++ l.eraseIdx i
  | none => l

/-- Put a flit of the first packet of a VC on the lanes. -/
def Port.sendFrom (p : Port) (v : Nat) : Port :=
  match p.txq.getD v [] with
  | [] => p
  | q :: rest =>
    match q.flits with
    | [] => { p with txq := p.txq.set v rest }
    | f :: more =>
      let f := { f with seq := p.nextSeq }
      let endOf := q.owner.isSome && more.isEmpty && !rest.any (fun (r : TxPkt) => r.owner == q.owner)
      { p with
        nextSeq := (p.nextSeq + 1) % 2 ^ 24, replayBuf := p.replayBuf ++ [f], sent := some f, sentLocal := none
        consumed := modVc p.consumed v (fun x => wrap32 (x + 1))
        txq := p.txq.set v (if more.isEmpty then alternate f.routed rest else { q with flits := more } :: rest)
        bulkBusy := if v < 2 then p.bulkBusy else if more.isEmpty then none else some v
        bulkNext := if v < 2 then p.bulkNext else 5 - v
        sends := if endOf then p.sends.map (fun (s : Sending) => if some s.entry == q.owner then { s with left := 0, lastSeq := some f.seq } else s) else p.sends
        cnt := { p.cnt with flitsTx := sat64 p.cnt.flitsTx 1 } }

/-- The VC of a bulk flit to send next: a started packet goes on, else VC2 and VC3 alternate among those that have a credit
(10 R272). -/
def Port.bulkVc (p : Port) : Option Nat :=
  let has := fun v => !(p.txq.getD v []).isEmpty
  let ready := fun v => has v && decide (0 < p.credits v)
  match p.bulkBusy with
  | some v => some v
  | none => if ready p.bulkNext then some p.bulkNext else if ready (5 - p.bulkNext) then some (5 - p.bulkNext)
    else if has p.bulkNext then some p.bulkNext else if has (5 - p.bulkNext) then some (5 - p.bulkNext) else none

/-- One flit slot: the first of the rows of 10 R272 that is ready; a slot lost to a full replay buffer or to a missing
credit is counted (10 R269, R271). Sequenced flits are sent only in UP. -/
def Port.slot (p : Port) : Port :=
  let putLocal := fun (q : Port) (l : LocalFlit) =>
    { q with sentLocal := some l, sent := none, cnt := { q.cnt with flitsTx := sat64 q.cnt.flitsTx 1 } }
  let trained := p.st == .hello || p.st == .up || p.st == .dark
  if !trained then p
  else match p.ackReady, p.creditReady, p.helloReady with
    | some a, _, _ => putLocal { p with ackReady := none, cnt := { p.cnt with nakTx := sat32 p.cnt.nakTx (byteAt a.payload 3 % 2) } } a
    | none, some k, _ => putLocal { p with creditReady := none } k
    | none, none, some h => putLocal { p with helloReady := none } h
    | none, none, none =>
      if p.st != .up then { p with sent := none, sentLocal := none }
      else match p.replay with
        | some (b, f :: more) =>
          { p with replay := if more.isEmpty then none else some (b, more), sent := some f, sentLocal := none
                   cnt := { p.cnt with flitsTx := sat64 p.cnt.flitsTx 1, replayFlits := sat32 p.cnt.replayFlits 1 } }
        | _ =>
          let waiting := [0, 1, 2, 3].filter (fun v => !(p.txq.getD v []).isEmpty)
          let cand := ([0, 1].filter (fun v => waiting.contains v)) ++ p.bulkVc.toList
          if waiting.isEmpty then { p with replay := none, sent := none, sentLocal := none }
          else if 512 ≤ p.replayBuf.length then
            { p with replay := none, sent := none, sentLocal := none, cnt := { p.cnt with replayFull := sat32 p.cnt.replayFull 1 } }
          else match cand.find? (fun v => 0 < p.credits v) with
            | some v => { p with replay := none }.sendFrom v
            | none => { p with replay := none, sent := none, sentLocal := none, cnt := { p.cnt with creditStall := sat32 p.cnt.creditStall 1 } }

/-! ### Packets and encryption (10 R273 to R278) -/

/-- The job key (10 R274). -/
def jobKey (job : Nat) (nonce : List Byte) : List Byte :=
  Hash.shake256 (fitTo 32 Config.keyDomainKey ++ [0x45#8, 0x56#8, 0x54#8, 0x34#8, 0x2D#8, 0x42#8, 0x45#8, 0x4C#8, 0x4C#8]
    ++ leBytes 2 job ++ fitTo 16 nonce) 32

/-- A sender key (10 R274). -/
def senderKey (kjob : List Byte) (src epoch : Nat) : List Byte := Hash.shake256 (kjob ++ leBytes 4 src ++ leBytes 4 epoch) 32

/-- The IV of a packet (10 R274). -/
def packetIv (vc pctr : Nat) : List Byte := [byteOf vc, 0#8, 0#8, 0#8] ++ leBytes 8 pctr

/-- The AAD of a packet: flit headers with SEQ and ROUTED as 0, then tail bytes [223:208] (10 R274). -/
def packetAad (fs : List Flit) : List Byte :=
  (fs.map (fun (f : Flit) => leBytes 8 { f with seq := 0, routed := false }.header)).flatten
    ++ slice ((fs.getLast?.map Flit.payload).getD []) 208 16

/-- The bytes of a packet that are encrypted. -/
def packetBody (fs : List Flit) : List Byte :=
  ((fs.dropLast).map (fun (f : Flit) => fitTo 240 f.payload)).flatten ++ slice ((fs.getLast?.map Flit.payload).getD []) 0 208

/-- The flits of a packet with other body bytes and tail. -/
def packetWith (fs : List Flit) (body tail : List Byte) : List Flit :=
  (fs.zipIdx).map (fun x =>
    if x.2 + 1 < fs.length then { x.1 with payload := slice body (240 * x.2) 240 }
    else { x.1 with payload := slice body (240 * x.2) 208 ++ fitTo 32 tail })

/-- Build and encrypt a packet from payload pieces (10 R273, R274): each piece is 240 bytes, the last 208. -/
def buildPacket (w : Self) (kjob : List Byte) (port typ vc job dpos dch pctr : Nat) (pieces_ : List (List Byte)) : List Flit :=
  let n := pieces_.length
  let tail := leBytes 8 pctr ++ leBytes 4 (w.src port) ++ leBytes 4 w.epoch
  let raw := (pieces_.zipIdx).map (fun x => ({
    job := job, typ := typ, vc := vc, pidx := x.2, last := x.2 + 1 == n, dpos := dpos, dch := dch
    payload := if x.2 + 1 == n then fitTo 208 x.1 ++ tail ++ List.replicate 16 0#8 else fitTo 240 x.1 } : Flit))
  let sealed_ := Hash.gcmSeal (senderKey kjob (w.src port) w.epoch) (packetIv vc pctr) (packetAad raw) (packetBody raw)
  packetWith raw sealed_.1 (tail ++ sealed_.2)

/-- Queue a packet at a port: it takes the next PCTR of its VC (10 R275). Nothing is sent without the job key. -/
def Channel.sendPacket (k : Channel) (w : Self) (p : PortId) (owner : Option Nat) (typ vc dpos dch : Nat)
    (pieces_ : List (List Byte)) : Channel :=
  match k.paths.kjob with
  | none => k
  | some key =>
    let q := k.port p
    let pctr := q.pctr.getD vc 0
    let fl := buildPacket w key p.val typ vc k.bind.job dpos dch pctr pieces_
    k.modPort p (fun q => { q with
      pctr := modVc q.pctr vc (fun x => wrap64 (x + 1))
      txq := modAt q.txq vc (· ++ [{ owner := owner, flits := fl }]) })

/-- The flits of a packet up to its first LAST. -/
def upToLast : List Flit → List Flit
  | [] => []
  | f :: fs => if f.last then [f] else f :: upToLast fs

/-- The packet at the head of a VC's receive buffer and whether it is complete (10 R277, check 2): its flits reach to the first LAST, to
the next PIDX 0, or to a sixteenth flit; none while its end has not been seen. -/
def headPacket (l : List Flit) : Option (List Flit × Bool) :=
  match l with
  | [] => none
  | f :: more =>
    let fs := upToLast ((f :: more.takeWhile (fun (g : Flit) => g.pidx != 0)).take 16)
    let ended := fs.any Flit.last
    let same := (fs.zipIdx).all (fun x =>
      x.1.pidx == x.2 && x.1.typ == f.typ && x.1.job == f.job && x.1.dpos == f.dpos && x.1.dch == f.dch)
    if ended || decide (fs.length < l.length) || decide (16 ≤ fs.length) then some (fs, ended && same) else none

/-- SRC, EPOCH and PCTR of a packet's tail. -/
def tailOf (fs : List Flit) : Nat × Nat × Nat :=
  let t := slice ((fs.getLast?.map Flit.payload).getD []) 208 32
  (fieldLe t 8 4, fieldLe t 12 4, fieldLe t 0 8)

/-- PCTR field of the source table that means none accepted. -/
def noPctr : Nat := 0xFFFFFFFFFFFFFFFF

/-- The source entry of a SRC (10 R278). -/
def Channel.source (k : Channel) (src : Nat) : Nat × List Nat :=
  SMap.get (0, [noPctr, noPctr, noPctr, noPctr]) k.paths.srcTable src

/-- Does a packet pass the order check? (10 R277 check 4, R278) -/
def Channel.inOrder (k : Channel) (src epoch vc pctr : Nat) : Bool :=
  let e := k.source src
  if epoch < e.1 then false
  else if e.1 < epoch then true
  else e.2.getD vc noPctr == noPctr || decide (e.2.getD vc noPctr < pctr)

/-- The source entry after a packet has authenticated (10 R278). -/
def Channel.accepted (k : Channel) (src epoch vc pctr : Nat) : Channel :=
  let e := k.source src
  let l := if e.1 < epoch then [noPctr, noPctr, noPctr, noPctr] else e.2
  let t := SMap.set (0, [noPctr, noPctr, noPctr, noPctr]) k.paths.srcTable src (epoch, l.set vc pctr)
  { k with paths := { k.paths with srcTable := t } }

/-- The key of (SRC, EPOCH) in a port's cache, now the most recently used (10 R277 check 3). -/
def Port.useKey (p : Port) (src epoch : Nat) : Option (List Byte × Port) :=
  match p.keys.find? (fun (e : KeyEnt) => e.src == src && e.epoch == epoch) with
  | none => none
  | some e => some (e.key, { p with keys := p.keys.filter (fun (x : KeyEnt) => !(x.src == src && x.epoch == epoch)) ++ [e] })

/-- A derived key enters the cache of 16, the least recently used leaving (10 R277). -/
def Port.addKey (p : Port) (e : KeyEnt) : Port :=
  { p with keys := (if p.keys.length < 16 then p.keys else p.keys.drop 1) ++ [e] }

/-- Decrypt a packet: its plaintext body, none when the tag fails (10 R277 check 5). -/
def openPacket (key : List Byte) (fs : List Flit) : Option (List Byte) :=
  let t := slice ((fs.getLast?.map Flit.payload).getD []) 208 32
  let vc := (fs.head?.map Flit.vc).getD 0
  Hash.gcmOpen key (packetIv vc (fieldLe t 0 8)) (packetAad fs) (packetBody fs) (slice t 16 16)

/-! ### HELLO and discovery (12 R321 to R325) -/

/-- Role codes of a plan entry. -/
def roleUnused : Nat := 0
/-- DATA. -/
def roleData : Nat := 1
/-- SPARE. -/
def roleSpare : Nat := 2
/-- FORWARD. -/
def roleForward : Nat := 3

/-- A port's entry in the plan held; UNUSED without a plan. -/
def Channel.planPort (k : Channel) (p : PortId) : PlanPort :=
  match k.paths.plan with
  | none => {}
  | some pl => pl.ports.getD p.val {}

/-- First 8 bytes of SHAKE256 over a nonce (12 R321). -/
def nonceHash (n : List Byte) : Nat := ofLe (Hash.shake256 (fitTo 16 n) 8)

/-- The HELLO payload a port sends (12 R321). -/
def Channel.helloPayload (k : Channel) (w : Self) (p : PortId) : List Byte :=
  let pl := k.paths.plan.getD {}
  let e := k.planPort p
  leBytes 4 0x4F4C4548 ++ [1#8, byteOf (bit (k.port p).seenPartner)] ++ leBytes 2 (w.pos + 4096 * w.chan)
    ++ [byteOf (p.val + 8 * e.role), 0#8] ++ leBytes 2 pl.job ++ leBytes 4 pl.seq ++ leBytes 8 (nonceHash pl.nonce)
    ++ leBytes 4 w.keydom ++ leBytes 4 w.epoch ++ leBytes 4 e.partner ++ List.replicate 204 0#8

/-- The reason a HELLO does not match the plan; 0 when it matches (12 R322). -/
def Channel.mismatch (k : Channel) (w : Self) (p : PortId) (h : List Byte) : Nat :=
  let pl := k.paths.plan.getD {}
  let e := k.planPort p
  let src := fieldLe h 6 2 % 16384
  let port := byteAt h 8 % 8
  let seen := src + 16384 * port
  let me := w.pos + 4096 * w.chan
  if src = me then 8
  else if seen ≠ e.partner then 1
  else if fieldLe h 32 4 % 2 ^ 17 ≠ me + 16384 * p.val then 2
  else if bitsOf (byteAt h 8) 4 3 ≠ e.role then 7
  else if fieldLe h 24 4 ≠ w.keydom then 6
  else if e.role = roleData ∨ e.role = roleSpare then
    if fieldLe h 10 2 ≠ pl.job then 3
    else if fieldLe h 12 4 ≠ pl.seq then 4
    else if fieldLe h 16 8 ≠ nonceHash pl.nonce then 5
    else 0
  else 0

/-- A discovery result entry is written. -/
def Channel.setResult (k : Channel) (p : PortId) (result reason partner : Nat) : Channel :=
  let rs := k.paths.disc.results.set p.val (result, reason, partner)
  { k with paths := { k.paths with disc := { k.paths.disc with results := rs } } }

/-- RESULT of a port. -/
def Channel.result (k : Channel) (p : PortId) : Nat := (k.paths.disc.results.getD p.val (0, 0, 0)).1

/-- A port field of a descriptor after the plan's substitutions (11 R289, 12 R325). -/
def Channel.resolve (k : Channel) (p : Nat) : Nat := ((k.paths.disc.subst.find? (fun x => x.1 == p)).map Prod.snd).getD p

/-- A port is replaced by another (12 R325). -/
def Channel.replaced (k : Channel) (p : PortId) : Bool := k.paths.disc.subst.any (fun x => x.1 == p.val)

/-- A port serves in another's place (12 R325). -/
def Channel.serves (k : Channel) (p : PortId) : Bool := k.paths.disc.subst.any (fun x => x.2 == p.val)

/-- The port that a DATA port's fields resolve to has matched or is a spare in use (12 R323, R325). -/
def Channel.dataMatched (k : Channel) (p : PortId) : Bool :=
  let r := k.result ((portId? (k.resolve p.val)).getD p)
  r == 1 || r == 6

/-- Every DATA and SPARE port has matched (12 R323). -/
def Channel.allMatched (k : Channel) : Bool :=
  portIds.all (fun p =>
    let r := (k.planPort p).role
    if r = roleData then k.dataMatched p else if r = roleSpare then k.result p == 5 || k.result p == 6 else true)

/-- Some DATA port is not matched (12 R323). -/
def Channel.planShort (k : Channel) : Bool := portIds.any (fun p => (k.planPort p).role == roleData && !k.dataMatched p)

/-- Discovery ends: absent ports are named, and the plan is complete or short (12 R323, R324). -/
def Channel.endDiscovery (k : Channel) : Channel :=
  let k := portIds.foldl (fun (k : Channel) p =>
    if (k.planPort p).role ≠ roleUnused ∧ k.result p = 0 then k.setResult p 2 0 0 else k) k
  let d := k.paths.disc
  let short := k.planShort
  { k with paths := { k.paths with disc := { d with
      status := 2, windowOpen := false, short := short
      fallback := short && (k.paths.plan.map Plan.fallback).getD false } } }

/-- After a port's result changes: discovery completes early, or an ended one is judged again (12 R323). -/
def Channel.settleDiscovery (k : Channel) : Channel :=
  if k.paths.disc.status = 1 then (if k.allMatched then k.endDiscovery else k)
  else if k.paths.disc.status = 2 then
    let short := k.planShort
    { k with paths := { k.paths with disc := { k.paths.disc with
        short := short, fallback := short && (k.paths.plan.map Plan.fallback).getD false } } }
  else k

/-- Ports leave electrical idle: the channel is READY and holds a path plan (10 R282; 12 R321). -/
def Channel.trains (k : Channel) : Bool := k.paths.plan.isSome && k.st != .init && k.st != .halted && k.st != .holdup

/-- Discovery starts on every port: results cleared, enabled ports that are idle begin training (12 R320, R321, R323). -/
def Channel.startDiscovery (k : Channel) : Channel :=
  let k := { k with paths := { k.paths with disc := { status := 1, windowOpen := true } } }
  portIds.foldl (fun (k : Channel) p => k.modPort p (fun q =>
    match q.st with
    | .disabled | .training | .down => q
    | .idle => if k.trains then { q with st := .training } else q
    | _ => { q.discard with st := .hello, pctr := q.pctr, keys := q.keys })) k

/-- Ports of a READY channel with a plan leave IDLE; a port whose enable bit is clear is DISABLED (10 R282, 12 R321). -/
def Channel.wakePorts (k : Channel) : Channel :=
  portIds.foldl (fun (k : Channel) p => k.modPort p (fun q =>
    if !bitOf k.paths.enable p.val then { q.discard with st := .disabled }
    else if q.st == .disabled then { q with st := .idle }
    else q)) k |> fun k =>
  if k.trains then
    portIds.foldl (fun (k : Channel) p => k.modPort p (fun q => if q.st == .idle then { q with st := .training } else q)) k
  else k

/-! ### Substitution and failure (12 R325, 10 R283) -/

/-- Same partner device and channel. -/
def samePartner (a b : Nat) : Bool := a % 16384 == b % 16384

/-- The spare that covers a failed DATA port: DARK, RESULT 5, same partner (12 R325). It may be that port itself, trained again. -/
def Channel.spareFor (k : Channel) (p : PortId) : Option PortId :=
  portIds.find? (fun q => (k.port q).st == .dark && k.result q == 5
    && samePartner (k.planPort q).partner (k.planPort p).partner)

/-- Substitution before the repeat: each DATA port whose carrier has failed takes its spare, lower ports first, or goes back to its own
lanes when they are the spare; false when a failure finds neither spare nor permitted fallback (12 R325, R330; 11 R314). -/
def Channel.substitute (k : Channel) : Channel × Bool :=
  portIds.foldl (fun (a : Channel × Bool) p =>
    let k := a.1
    if (k.planPort p).role = roleData ∧ k.result ((portId? (k.resolve p.val)).getD p) = 7 then
      match k.spareFor p with
      | some q =>
        let k := (k.modPort q Port.enterUp).setResult q (if q = p then 1 else 6) 0 (k.paths.disc.results.getD q.val (0, 0, 0)).2.2
        let others := k.paths.disc.subst.filter (fun x => x.1 != p.val)
        let subst := if q = p then others else (p.val, q.val) :: others
        ({ k with paths := { k.paths with disc := { k.paths.disc with subst := subst } } }, a.2)
      | none =>
        if (k.paths.plan.map Plan.fallback).getD false then
          ({ k with paths := { k.paths with disc := { k.paths.disc with fallback := true } } }, a.2)
        else (k, false)
    else a) (k, true)

/-- Does the port carry an action in flight: a SEND, a RECV, a collective or an exchange? -/
def Channel.portBusy (k : Channel) (p : PortId) : Bool :=
  !(k.port p).recvs.isEmpty || !(k.port p).sends.isEmpty
    || (k.coll.active ++ k.coll.verdict.toList).any (fun (c : Coll) =>
      c.launched && decide (1 < c.desc.p) && ((c.desc.ports.filterMap id).map k.resolve).contains p.val)

/-- A port goes DOWN: its buffers are discarded, DOWN is counted, its result reads down, and actions in flight on it fail
as class S (10 R283; 11 R314; log 17). -/
def Channel.portDown (k : Channel) (p : PortId) : Channel :=
  let q := k.port p
  if q.st != .up && q.st != .dark then k
  else
    let fails := (q.st == .up && ((k.planPort p).role == roleData || k.result p == 6)) || k.portBusy p
    let k := k.modPort p (fun q => { q.discard with
      st := .down, wasDown := true, cnt := { q.cnt with down := sat32 q.cnt.down 1 } })
    let k := if (k.planPort p).role = roleUnused then k else k.setResult p 7 0 q.partner
    if fails then k.raise { cause := .portDown, cls := .S, unit := 3, uidx := p.val } else k

/-- A routing table entry that names an egress port for a destination (12 R326). -/
def Channel.route (k : Channel) (p : PortId) (dest : Nat) : Option PortId :=
  ((List.range 256).map (fun i => SMap.get 0 k.live.routes (p.val * 256 + i))).findSome? (fun e =>
    if bitOf e 15 && e % 4096 == dest then portId? (bitsOf e 14 12) else none)

/-- Does a port's isolation table admit a job? (12 R327) -/
def Channel.admits (k : Channel) (p : PortId) (job : Nat) : Bool := SMap.get false k.live.isolate (p.val * 4096 + job)

end Sys2Proof.Machine
end

