-- ==== Sys2Proof/Machine/Notices.lean ====
section
/-! DEFINITION. What a session may see (14 R353), the bytes of log entries, and the NOTIFY datagrams the device sends for
new entries (14 R363; 05 R138). -/

namespace Sys2Proof.Machine

open Sys2Proof

/-- May a session see channel `k`: a tenant only while the channel is bound to its job (14 R353). -/
def Session.seesChannel (x : Session) (k : Channel) : Bool :=
  match x.role with
  | .tenant => k.bind.bound && k.bind.job == x.job
  | _ => true

/-- The 40 bytes of an error log entry (17 R413). -/
def ErrEntry.bytes (e : ErrEntry) : List Byte :=
  leBytes 8 e.beat ++ leBytes 8 e.step ++ leBytes 8 e.decl
    ++ leBytes 2 (e.job % 4096 + 4096 * e.chan + 16384 * bit e.mp)
    ++ [byteOf (ErrClass.code e.cls + 8 * bit e.esc + 16 * (e.attempt % 16)), byteOf e.unit] ++ leBytes 2 e.uidx
    ++ [byteOf (causeCode e.cause), byteOf e.outcome] ++ leBytes 2 (min e.nest 0xFFFF) ++ leBytes 2 e.seq ++ leBytes 4 e.detail
where
  /-- cause codes (17 R412) -/
  causeCode : Cause → Nat
    | .chkMismatch => 0x01 | .chkSuspect => 0x02 | .chkFail => 0x03 | .parity => 0x04 | .valveRestart => 0x05
    | .valveFault => 0x06 | .versionReload => 0x07 | .versionFault => 0x08 | .holdTimeout => 0x09 | .addrFault => 0x0A
    | .pickRefused => 0x0B | .memUncorr => 0x0C | .eccFrame => 0x0D | .cxlLink => 0x0E | .hbmTrain => 0x0F
    | .epochExhausted => 0x10 | .scoreRefused => 0x11 | .fmtUnsupported => 0x12 | .authFail => 0x13 | .portDown => 0x14
    | .sendRefused => 0x15 | .recvOverrun => 0x16 | .collTimeout => 0x17 | .digestMismatch => 0x18 | .dualMismatch => 0x19
    | .located => 0x1A | .adderFault => 0x1B | .paramMismatch => 0x1C | .repeatLimit => 0x1D | .commitSplit => 0x1E
    | .collPathLost => 0x1F | .rollbackReq => 0x20 | .rollbackRepeat => 0x21 | .shardFail => 0x22 | .ckptTarget => 0x23
    | .ckptFail => 0x24 | .restartFailed => 0x25 | .confRefused => 0x26 | .measRefused => 0x27 | .etudeFail => 0x28
    | .etudeMarginal => 0x29 | .mpRestart => 0x2A | .bootImage => 0x2B | .keystore => 0x2C | .mpRepeat => 0x2D

/-- The 40 bytes of a Tuner event log entry (05 R136). -/
def TunerEv.bytes (e : TunerEv) : List Byte :=
  leBytes 8 e.beat ++ leBytes 8 e.step ++ leBytes 8 e.decl ++ leBytes 2 e.layer
    ++ [byteOf e.event, byteOf (e.prod + 4 * e.opnd), byteOf e.from_, byteOf e.to_] ++ leBytes 2 e.trig ++ leBytes 2 e.value
    ++ leBytes 2 e.seq ++ leBytes 4 0

/-- The 32 bytes of a meter event (16 R395). -/
def MeterEvent.bytes (e : MeterEvent) : List Byte :=
  leBytes 4 e.eseq ++ leBytes 4 e.pup ++ leBytes 4 e.t ++ [byteOf e.code, byteOf (bit e.hasDecl)] ++ leBytes 2 0
    ++ leBytes 8 e.decl ++ leBytes 8 e.value

/-- Datagrams can be sent: the firmware runs, the host link is up, and the device is not in Last Breath. -/
def State.canSend (s : State) : Bool := s.mp.running && s.mp.host.up && s.power.lb.isNone

/-- A host-port counter rises; they saturate (13 R502). -/
def HostPort.count (h : HostPort) (i n : Nat) : HostPort := { h with cnt := modAt h.cnt i (fun v => sat64 v n) }

/-- The state with an open session changed. -/
def State.modSession (s : State) (h : Nat) (f : Session → Session) : State :=
  { s with mp := { s.mp with sessions := s.mp.sessions.map (fun (x : Session) => if x.handle = h then f x else x) } }

/-- An open session. -/
def State.session? (s : State) (h : Nat) : Option Session := s.mp.sessions.find? (fun (x : Session) => x.handle == h)

/-- A datagram is put on the wire when one can be: within a session it takes the next sequence number of its direction
(14 R357), and it is a frame sent (13 R502). -/
def State.send (s : State) (r : Reply) : State :=
  if !s.canSend then s
  else
    let n := match s.session? r.session with | some x => x.seqOut | none => 0
    (s.modSession r.session (fun x => { x with seqOut := x.seqOut + 1 })).modMp (fun m =>
      { m with sent := m.sent ++ [{ r with seq := n }], host := m.host.count 0 1 })

/-- A response is sent and kept with the session's most recent 32 (14 R360). -/
def State.respond (s : State) (r : Reply) : State :=
  (s.modSession r.session (fun x => { x with cache := (if x.cache.length < 32 then x.cache else x.cache.drop 1) ++ [r] })).send r

/-- One session's part in a notification: its counter rises by 1, and the datagram is sent unless it cannot be sent or the
session may no longer see it (14 R363). -/
def State.notifyOne (s : State) (h : Nat) (sees : Session → Bool) (index sub : Nat) (payload : Session → List Byte) : State :=
  match s.session? h with
  | none => s
  | some x =>
    let s := s.modSession h (fun y => { y with notifyCtr := wrap32 (y.notifyCtr + 1) })
    if sees x then s.send { session := h, txid := x.notifyCtr, op := 5, index := index, sub := sub, payload := payload x } else s

/-- A new entry of a log is notified to every session subscribed to it in mode 2 (14 R363). -/
def State.notify (s : State) (index sub : Nat) (sees : Session → Bool) (payload : Session → List Byte) : State :=
  let hit := fun (x : Session) => x.subs.any (fun (u : Subscription) => u.index == index && u.sub == sub && u.mode == 2)
  (s.mp.sessions.filter hit).foldl (fun (s : State) (x : Session) => s.notifyOne x.handle sees index sub payload) s

/-- Notify an entry of channel `c`'s error log; a tenant of another job sees its entries as zeros (14 R353). -/
def State.notifyErr (s : State) (c : ChanId) (e : ErrEntry) : State :=
  s.notify 0x6000 (c.val + 1) (fun _ => true)
    (fun (x : Session) => if x.seesChannel (s.chan c) then e.bytes else List.replicate 40 0#8)

/-- Notify an entry of the Mouthpiece's error log. -/
def State.notifyMpErr (s : State) (e : ErrEntry) : State := s.notify 0x6000 5 (fun _ => true) (fun _ => e.bytes)

/-- Notify a Tuner event when its code is enabled in the notification mask (05 R138). -/
def State.notifyTuner (s : State) (c : ChanId) (e : TunerEv) : State :=
  if bitOf (s.chan c).tun.maskNow e.event then
    s.notify (0x3020 + 256 * c.val) 2 (fun (x : Session) => x.seesChannel (s.chan c)) (fun _ => e.bytes)
  else s

/-! ### The Tuner's event log (05 R136, R504) -/

/-- Append an entry to the event ring of 1,024; an overwritten entry is counted as lost. -/
def Tuner.append (t : Tuner) (e : TunerEv) : Tuner :=
  let full := decide (1024 ≤ t.log.length)
  { t with log := (if full then t.log.drop 1 else t.log) ++ [{ e with seq := t.seq }]
           seq := (t.seq + 1) % 65536, writeIx := (t.writeIx + 1) % 1024
           lost := if full then min (t.lost + 1) (2 ^ 22 - 1) else t.lost
           lostStep := if full then t.lostStep + 1 else t.lostStep }

/-- Log a Tuner event of channel `c`: beat, step and declared time are filled in, and subscribers are told. -/
def State.tunerEvent (s : State) (c : ChanId) (e : TunerEv) : State :=
  let k := s.chan c
  let e := { e with beat := k.ww.beats, step := k.step, decl := s.mp.declTime, seq := k.tun.seq }
  (s.modChan c (fun k => { k with tun := k.tun.append e })).notifyTuner c e

end Sys2Proof.Machine
end

