-- ==== Sys2Proof/Machine/Faults.lean ====
section
/-! DEFINITION. Errors: how an entry is completed and logged, the nesting rules, what each class does, STEP_ABORT, a
channel halt and a device fault (17; 11 R311 to R314; 07 R191; 08 R215). -/

namespace Sys2Proof.Machine

open Sys2Proof

/-- Class J causes whose channel waits for the host (17 R406). -/
def waitsForHost : Cause → Bool
  | .paramMismatch | .rollbackRepeat | .collPathLost | .restartFailed => true
  | _ => false

/-- Causes marked *outside* (17 R404, R412). -/
def isOutside : Cause → Bool
  | .ckptTarget | .confRefused | .measRefused => true
  | _ => false

/-- The cause a STEP_ABORT carries (11 R311, 17 R405). -/
def abortCause : Cause → Nat
  | .collTimeout => 0 | .digestMismatch => 1 | .dualMismatch => 2 | .portDown => 3 | .holdTimeout => 4 | _ => 5

/-! ### The device state 0x1030 (20 R463; 17 R409; 19 R442, R448) -/

/-- 0x1030 after a change, by the entry condition of each state (log 21). -/
def State.settle (s : State) : State :=
  if s.dev = 5 then s
  else if s.power.lb.isSome then { s with dev := 3 }
  else if chans.any (fun c => (s.chan c).st == .run || (s.chan c).st == .stopping) then { s with dev := 2 }
  else if s.power.standby || s.power.returning then { s with dev := 4 }
  else if s.mp.running && chans.all (fun c => (s.chan c).st != .init) then { s with dev := 1 }
  else s

/-! ### The firmware log (17 R413 to R415) -/

/-- An entry as the Chanters complete it. -/
def State.errEntry (s : State) (c : ChanId) (x : RawErr) (outcome nest : Nat) : ErrEntry :=
  let k := s.chan c
  { beat := k.ww.beats, step := if k.bind.bound then k.step else 0xFFFFFFFFFFFFFFFF, decl := s.mp.declTime
    job := k.bind.job, chan := c.val, cls := x.cls, esc := x.failureOf.isSome && !x.fixedClass, attempt := k.attempt % 16
    unit := x.unit, uidx := x.uidx, cause := x.cause, outcome := outcome, nest := nest, seq := k.err.log.seq
    detail := x.detail % 2 ^ 32 }

/-- Append an entry to a channel's log and tell subscribers. -/
def State.appendErr (s : State) (c : ChanId) (e : ErrEntry) : State :=
  (s.modChan c (fun k =>
    let l := k.err.log.append e
    { k with err := { k.err with log := { l with seq := (k.err.log.seq + 1) % 65536 } } })).notifyErr c e

/-- The handling of some errors of a channel ends with an outcome; each rewrite is notified (17 R414). -/
def State.finishErrs (s : State) (c : ChanId) (hit : ErrEntry → Bool) (outcome : Nat) : State :=
  let done := ((s.chan c).err.handling.filter (fun (h : InHand) => hit h.entry)).map InHand.entry
  let s := s.modChan c (fun k => { k with err := k.err.endAll hit outcome })
  done.foldl (fun (s : State) e => s.notifyErr c { e with outcome := outcome }) s

/-- Errors of the channel that wait to be drained end early: those of class S as merged into the action under way, those of
class D as superseded (17 R416 rule 5, R417). -/
def Errors.settleWaiting (e : Errors) : Errors :=
  let f := fun (x : RawErr) =>
    match x.cls, x.ended with
    | .D, none => { x with ended := some 3 }
    | .S, none => { x with ended := some 4 }
    | _, _ => x
  { e with fifo := e.fifo.map f, stalled := e.stalled.map f }

/-! ### Step-level failures and checkpoints (17 R420, R421) -/

/-- Checkpoints that are writing or provisional are discarded. -/
def ChanStore.discardCkpts (t : ChanStore) : ChanStore :=
  { t with ckpts := t.ckpts.map (fun (x : Ckpt) => if x.state = 1 ∨ x.state = 2 then { x with state := 4 } else x) }

/-- The checkpoint being written is given up, and its count in CKREF removed at once (13 R340). -/
def Channel.dropCkpt (k : Channel) : Channel :=
  match k.svc.ckpt with
  | none => k
  | some r =>
    let v := k.ver
    let v := if r.version % 2 = 0 then { v with ckref0 := v.ckref0 - 1 } else { v with ckref1 := v.ckref1 - 1 }
    { k with ver := v, svc := { k.svc with ckpt := none } }

/-- A step-level failure of channel `c`. -/
def State.stepFailure (s : State) (c : ChanId) : State :=
  (s.modStore c ChanStore.discardCkpts).modChan c Channel.dropCkpt

/-! ### Ending a step (07 R191; 03 R91; 06 R162; 08 R215; 05 R132; 11 R312) -/

/-- A Reed without its tiles, its output slots and its run (03 R91; 06 R162; 18 R431). -/
def Reed.quiet (r : Reed) : Reed := { r with tile := none, waiting := none, slots := [], valve := { r.valve with run := none } }

/-- Every action in flight is abandoned: passes with both output slots, runs, transfers, messages not yet begun on the
link, and every token (07 R191). A scalar write that waits takes effect at the next boundary (06 R142). -/
def Channel.abandon (k : Channel) : Channel :=
  let quiet := fun (p : Port) =>
    { p with recvs := [], sends := [], opens := p.opens.map (fun o => (o.1, o.2.1, o.2.2.1, o.2.2.2.1, true))
             txq := (p.txq.zipIdx).map (fun q => if q.2 = 0 then q.1 else
               (q.1.filter (fun (t : TxPkt) => (t.flits.head?.map Flit.pidx).getD 0 != 0)).map (fun (t : TxPkt) => { t with owner := none })) }
  { k with
    reeds := k.reeds.map Reed.quiet
    ports := k.ports.map quiet, flights := [], tokens := [], scalarTok := false
    coll := { k.coll with active := [], done := [], verdict := none } }

/-- The channel's own part of a step abort: version state from the snapshot, but for CKREF; the Tuner's triggers and
actions of the step undone; the attempt raised; execution at the step's STEP_START phrase. -/
def Channel.endStep (k : Channel) (locate : Option Nat) : Channel :=
  let k := k.abandon
  { k with
    st := if k.st == .stopping then .run else k.st
    attempt := k.attempt + 1
    ver := (match k.verSnap with
      | some v => { v with ckref0 := k.ver.ckref0, ckref1 := k.ver.ckref1 }
      | none => k.ver)
    tun := { k.tun with layers := k.tun.saved.getD k.tun.layers, saved := none, obs := [], verdict := none, agreed := none
                        judged := [], notes := [], sampled := none, policyRung := 0 }
    coll := { k.coll with locate := locate }
    ww := { k.ww with phrase := k.ww.stepPhrase, beat := 0, hold := none, boundaryDue := true } }

/-- A CTRL payload (11 R311). -/
def ctrlPayload (code cause step attempt cseq count origin : Nat) (params : List Byte) : List Byte :=
  [byteOf code, byteOf cause, 0#8, 0#8] ++ leBytes 8 step ++ [byteOf attempt, 0#8, 0#8, 0#8] ++ leBytes 4 cseq
    ++ leBytes 4 count ++ leBytes 2 origin ++ fitTo 6 params ++ List.replicate 176 0#8

/-- CSEQ that names no collective. -/
def noCseq : Nat := 0xFFFFFFFF

/-- Send a CTRL packet on every UP port but one (11 R312). -/
def Channel.sendCtrl (k : Channel) (w : Self) (but : Option PortId) (payload : List Byte) : Channel :=
  portIds.foldl (fun (k : Channel) p =>
    if (k.port p).st == .up && some p != but then
      let e := (k.planPort p).partner
      k.sendPacket w p none 3 0 (e % 4096) (e / 4096 % 4) [payload]
    else k) k

/-! ### Halt and fault (17 R408, R409) -/

/-- A channel halts: no further beat, actions abandoned, ports DOWN, queue pairs closed, STATE HALTED. -/
def Channel.halt (k : Channel) : Channel :=
  if k.st == .halted then k
  else
    let k := k.abandon
    let k := portIds.foldl (fun (k : Channel) p =>
      match (k.port p).st with
      | .disabled => k
      | _ => k.modPort p (fun q => { q.discard with
          st := .down, wasDown := true
          cnt := if q.st == .down then q.cnt else { q.cnt with down := sat32 q.cnt.down 1 } })) k
    let k := k.dropCkpt
    { k with st := .halted, ww := { k.ww with hold := none, rollbackDue := false }
             svc := { k.svc with qps := 0, targets := k.svc.targets.map (fun (t : Target) => { t with connected := false }), restart := none, ckptWaiting := false, ckptDue := false }
             err := { k.err with
               haltTimer := k.err.fifo.isEmpty && k.err.stalled.isEmpty, waitStop := false
               fifo := k.err.fifo.map (fun (x : RawErr) => if x.ended.isNone then { x with ended := some 3 } else x)
               stalled := k.err.stalled.map (fun (x : RawErr) => if x.ended.isNone then { x with ended := some 3 } else x) } }

/-- A class H error's action on channel `c`: the halt, which supersedes everything but the error itself (17 R417). -/
def State.haltChannel (s : State) (c : ChanId) (keep : ErrEntry → Bool) : State :=
  let s := s.modChan c Channel.halt
  let s := s.modStore c (fun t => { t with ckpts := t.ckpts.map (fun (x : Ckpt) => if x.state = 1 then { x with state := 5 } else x) })
  (s.finishErrs c (fun e => !keep e) 3).settle

/-- Class F: the device is in FAULT and every channel halts with no reset to follow (17 R409). -/
def State.deviceFault (s : State) : State :=
  let s := { s with dev := 5 }
  chans.foldl (fun (s : State) c =>
    (s.haltChannel c (fun _ => false)).modChan c (fun k => { k with err := { k.err with haltTimer := false } })) s

/-! ### Logging with the action of the class -/

/-- Class J: a rollback request stays pending, or the channel stops at the end of the step and waits (17 R406). -/
def Channel.jobAction (k : Channel) (cause : Cause) : Channel :=
  if waitsForHost cause then
    if k.running then
      let ix := match k.score with | some sc => sc.waitPhrase k.ww.stopAt k.ww.phrase | none => k.ww.phrase
      { k with err := { k.err with waitStop := true }, ww := { k.ww with stopAt := ix } }
    else k
  else { k with tun := { k.tun with rollbackPending := true } }

/-- Log an entry and, when it is not to stay in handling, leave it at that; an entry of class J that is in handling is
kept (17 R413, R416). Gives the entry back. -/
def State.logEntry (s : State) (c : ChanId) (x : RawErr) (outcome : Nat) : ErrEntry × State :=
  let (ix, s) := if x.unit = 5 then s.draw 3 else (x.uidx, s)
  let (dt, s) := if x.detail = anyDetail then s.draw (2 ^ 32) else (x.detail, s)
  let x := { x with uidx := ix, detail := dt }
  let s := match x.failureOf with
    | some f => s.finishErrs c (fun e => e.cause == f && e.unit == x.unit && e.uidx == x.uidx) 2
    | none => s
  let e := s.errEntry c x outcome (s.chan c).err.handling.length
  let s := s.appendErr c e
  if outcome = 0 then
    let same := (s.chan c).err.handling.any (fun (h : InHand) => h.entry.unit == e.unit && h.entry.uidx == e.uidx
      && ErrClass.code e.cls ≤ ErrClass.code h.entry.cls)
    let higher := (s.chan c).err.handling.all (fun (h : InHand) => ErrClass.code h.entry.cls < ErrClass.code e.cls)
    let low := ErrClass.code e.cls ≤ 2
    let status : Handling := if higher || (low && !same) then .active else .queued
    (e, s.modChan c (fun k => { k with err := { k.err with
      handling := (k.err.handling.map (fun (h : InHand) => if higher then { h with status := .suspended } else h))
        ++ [{ entry := e, status := status }] } }))
  else (e, s)

/-- Class J, without the STEP_ABORT that follows when the verdict point has passed: the caller decides that. -/
def State.logJob (s : State) (c : ChanId) (x : RawErr) : State :=
  let (_, s) := s.logEntry c x (if (s.chan c).running || !waitsForHost x.cause then 0 else 4)
  (s.modChan c (fun k => k.jobAction x.cause)).stepFailure c

/-- A rollback is requested (05 R128, R129): it becomes due, or, before the job has passed the step of the previous request,
the channel reports ROLLBACK_REPEAT instead and waits for the host. -/
def State.requestRollback (s : State) (c : ChanId) : State × Bool :=
  let k := s.chan c
  let again := match k.tun.lastRollback with | some t => decide (k.step ≤ t) | none => false
  if again then
    let s := s.tunerEvent c { layer := 0xFFFF, event := 0xD, prod := 3 }
    (s.logJob c { cause := .rollbackRepeat, cls := .J, unit := 8, fixedClass := true }, false)
  else
    (s.modChan c (fun k => { k with tun := { k.tun with lastRollback := some k.step }, ww := { k.ww with rollbackDue := true } }), true)

/-- The channel executes a step, be it one that a resume begins again and whose beat 0 has not issued yet (07 R188; 19 R452). -/
def Channel.inStep (k : Channel) : Bool := k.st == .run || k.st == .stopping || (k.st == .loaded && k.resume && k.ww.resumed)

/-- A step abort is served: the step ends and is repeated, or, at the limit of repeats, a rollback is asked for
(11 R312, R313; 17 R405, R417). A location run that a lost port ends is repeated (11 R316). `arrived` is the port a received STEP_ABORT came in on, with its payload. -/
def State.stepAbort (s : State) (c : ChanId) (cause cseq : Nat) (arrived : Option (PortId × List Byte)) : State :=
  let k := s.chan c
  if !k.inStep then s
  else
    let w := s.self c
    let payload := match arrived with
      | some a => a.2
      | none => ctrlPayload 1 cause k.step (k.attempt % 256) cseq 0 (w.pos + 4096 * w.chan) []
    let locate := if (cause = 1 ∨ cause = 2) ∧ cseq ≠ noCseq then some (cseq % 4096) else if cause = 3 then k.coll.locate else none
    let s := s.modChan c (fun k =>
      let k := k.endStep locate
      let k := k.sendCtrl w (arrived.map Prod.fst) payload
      { k with coll := { k.coll with cnt := { k.coll.cnt with abortTx := sat32 k.coll.cnt.abortTx 1 } }
               err := k.err.settleWaiting })
    let s := s.finishErrs c (fun e => ErrClass.code e.cls == 2) 3
    let s := s.finishErrs c (fun e => ErrClass.code e.cls == 3) 4
    let s := s.stepFailure c
    let (k1, ok) := (s.chan c).substitute
    let s := s.setChan c k1
    let s := if ok then s else s.logJob c { cause := .collPathLost, cls := .J, unit := 8 }
    if (s.chan c).coll.repeats ≤ (s.chan c).attempt then
      let s := s.logJob c { cause := .repeatLimit, cls := .J, unit := 8, fixedClass := true }
      let (s, rolls) := s.requestRollback c
      if rolls then s
      else (s.modChan c (fun k => { k with st := .loaded, resume := false, ww := { k.ww with boundaryDue := false, stopAt := 0xFFFF }
                                           err := { k.err with waitStop := false } })).settle
    else s

/-- Cause of the STEP_ABORT of an error: a digest mismatch of the same collective that waits in the FIFO goes before its dual
mismatch, as the lower code (11 R316). -/
def Channel.abortCode (k : Channel) (x : RawErr) : Nat :=
  if x.cause == .dualMismatch
      && (k.err.fifo ++ k.err.stalled).any (fun (y : RawErr) => y.cause == .digestMismatch && y.detail == x.detail) then
    abortCause .digestMismatch
  else abortCause x.cause

/-- Log a completed raw entry and start its recovery (17 R403 to R416). CSEQ names the collective of a STEP_ABORT. -/
def State.logError (s : State) (c : ChanId) (x : RawErr) (cseq : Nat) : State :=
  let k := s.chan c
  match x.ended with
  | some o => (s.logEntry c x o).2
  | none =>
    if k.st == .holdup || s.power.lb.isSome then (s.logEntry c x 5).2
    else
      match x.cls with
      | .C => (s.logEntry c x 1).2
      | .D => (s.logEntry c x 0).2
      | .S =>
        if !k.inStep || isOutside x.cause then (s.logEntry c x 4).2
        else
          let (_, s) := s.logEntry c x 0
          s.stepAbort c (k.abortCode x) cseq none
      | .J =>
        let after := k.tun.verdict.isSome && k.running && !waitsForHost x.cause
        let s := s.logJob c x
        if after then s.stepAbort c 5 noCseq none else s
      | .H =>
        let (e, s) := s.logEntry c x 0
        s.haltChannel c (fun y => y.seq == e.seq)
      | .F => ((s.logEntry c x 4).2).deviceFault

/-- A channel's own firmware reports an error (17 UNIT 8 or 9): logged at once. -/
def State.firmwareError (s : State) (c : ChanId) (cause : Cause) (cls : ErrClass) (unit uidx detail : Nat) : State :=
  s.logError c { cause := cause, cls := cls, unit := unit, uidx := uidx, detail := detail } noCseq

/-- An entry of the Mouthpiece log (17 R411, R413); BEAT is PCLK cycles. -/
def State.logMp (s : State) (cause : Cause) (cls : ErrClass) (unit pclk outcome : Nat) : State :=
  let e : ErrEntry := { beat := pclk, step := 0xFFFFFFFFFFFFFFFF, decl := s.mp.declTime, mp := true, cls := cls, unit := unit
                        cause := cause, outcome := outcome, seq := s.mp.log.seq }
  (s.modMp (fun m => { m with log := { m.log.append e with seq := (m.log.seq + 1) % 65536 } })).notifyMpErr e

/-- The rollback has been carried out and the channel is back in RUN: class J ends, class S is superseded (17 R407, R417). -/
def State.rollbackDone (s : State) (c : ChanId) : State :=
  (s.finishErrs c (fun e => ErrClass.code e.cls ≤ 3) 3).finishErrs c (fun e => ErrClass.code e.cls == 4) 4

end Sys2Proof.Machine
end

