-- ==== Sys2Proof/Machine/Versions.lean ====
section
/-! DEFINITION. Weight versions: which buffer and tag an entry's read or write of a versioned tensor resolves to, stamps
and the step's version requests (08 R206 to R210). -/

namespace Sys2Proof.Machine

open Sys2Proof

/-- VER tag of a version (08 R206). -/
def verTag (v : Nat) : Nat := v % 255 + 1

/-- Buffer of a micro-batch's stamp; none when it is unstamped (08 R207). -/
def Versions.stamp (v : Versions) (mb : Nat) : Option Nat :=
  match SMap.get 0 v.stamps mb with
  | 0 => none
  | n + 1 => some n

/-- The version a stamp's buffer holds: CUR or CUR − 1 (08 R214). -/
def Versions.inBuffer (v : Versions) (b : Nat) : Nat := if v.cur % 2 = b then v.cur else v.cur - 1

/-- Descriptor index and expected tag of a read of tensor `t` by an entry (08 R207); none for a read of a versioned tensor
by an unstamped micro-batch (R208). `copy` is a weight-copy tile, which reads the master of CUR + 1. -/
def Channel.readTensor (k : Channel) (mb t : Nat) (copy : Bool) : Option (Nat × Option Nat) :=
  if !(k.tensor t).versioned then some (t, none)
  else if mb = 0xFF then
    let v := if copy then k.ver.cur + 1 else k.ver.cur
    some (t + v % 2, some (verTag v))
  else match k.ver.stamp mb with
    | some b => some (t + b, some (verTag (k.ver.inBuffer b)))
    | none => none

/-- Descriptor index and tag of a write of tensor `t` (08 R207). -/
def Channel.writeTensor (k : Channel) (t : Nat) : Nat × Nat :=
  if (k.tensor t).versioned then (t + (k.ver.cur + 1) % 2, verTag (k.ver.cur + 1)) else (t, 0)

/-- STAMP (08 R208); none when the micro-batch is stamped already. -/
def Versions.stampMb (v : Versions) (mb : Nat) : Option Versions :=
  match v.stamp mb with
  | some _ => none
  | none =>
    let b := v.cur % 2
    some { v with stamps := SMap.set 0 v.stamps mb (b + 1)
                  ref0 := if b = 0 then v.ref0 + 1 else v.ref0, ref1 := if b = 1 then v.ref1 + 1 else v.ref1 }

/-- RELEASE (08 R208); none when the micro-batch is unstamped. -/
def Versions.release (v : Versions) (mb : Nat) : Option Versions :=
  match v.stamp mb with
  | none => none
  | some b => some { v with stamps := SMap.set 0 v.stamps mb 0
                            ref0 := if b = 0 then v.ref0 - 1 else v.ref0, ref1 := if b = 1 then v.ref1 - 1 else v.ref1 }

/-- The buffer of CUR + 1 has no reader left (08 R208, 13 R340). -/
def Versions.canOpen (v : Versions) : Bool :=
  if (v.cur + 1) % 2 = 0 then v.ref0 == 0 && v.ckref0 == 0 else v.ref1 == 0 && v.ckref1 == 0

/-- The version state of 80 bytes (08 R209). -/
def Versions.bytes (v : Versions) : List Byte :=
  let bits := fun (f : Nat → Nat) => (List.range 32).map (fun i =>
    byteOf ((List.range 8).foldl (fun a j => a + 2 ^ j * f (8 * i + j)) 0))
  leBytes 4 v.cur ++ leBytes 2 v.ref0 ++ leBytes 2 v.ref1 ++ [byteOf (bit v.opened)] ++ leBytes 2 v.ckref0
    ++ leBytes 2 v.ckref1 ++ [0#8, 0#8, 0#8] ++ bits (fun mb => bit (v.stamp mb).isSome)
    ++ bits (fun mb => (v.stamp mb).getD 0)

end Sys2Proof.Machine
end

