-- ==== Sys2Proof/Machine/TileLoad.lean ====
section
/-! DEFINITION. What a tile loads before its pass: the rung and predicted exponent in force, stored narrow operands with
their outlier tables, operands quantised from a wide source, and the strip of a weight copy (03 R65, R71, R88; 04 R98,
R102, R105 to R115; 08 R192 to R194, R201, R216, R217). -/

namespace Sys2Proof.Machine

open Sys2Proof Sys2Proof.Num

/-! ### The format ladder and the predicted exponent (04 R102, R112 to R115) -/

/-- Rung of a base format (04 R112). -/
def baseRung : Fmt → Nat
  | .e2m1 | .int4 => 0
  | .e3m2 => 1
  | .e4m3 | .e5m2 | .int8 => 2
  | .fp16 | .bf16 => 3

/-- One climb from a rung; INT4 skips rung 1 (04 R112). -/
def climbOnce (base : Fmt) (r : Nat) : Nat := if base = .int4 ∧ r = 0 then 2 else min 3 (r + 1)

/-- The rung after `n` climbs from the base rung. -/
def rungAfter (base : Fmt) : Nat → Nat
  | 0 => baseRung base
  | n + 1 => climbOnce base (rungAfter base n)

/-- The element format of a base format at a rung (04 R112). -/
def rungFmt (base : Fmt) (r : Nat) : Fmt :=
  if r ≤ baseRung base then base
  else match r with
    | 1 => .e3m2
    | 2 => if base = .int4 then .int8 else .e4m3
    | _ => .bf16

/-- The entry of a layer that tiles see (04 R102, R115). -/
def Channel.layer (k : Channel) (l : Nat) : Layer := SMap.get {} k.tun.inForce l

/-- A layer of the loaded score. -/
def Channel.layerInfo (k : Channel) (l : Nat) : LayerInfo :=
  match k.score with
  | none => {}
  | some sc => sc.layers.getD l {}

/-- Predicted exponent from the history of a product; none while nothing has been folded (04 R102). -/
def Layer.predict (l : Layer) (margin prod : Nat) : Option Int :=
  let a := l.amax.getD prod {}
  if a.any then some (clampInt (-120) 120 (max a.ema a.last / 256 + (margin : Int) + (l.mextra : Int))) else none

/-- The layer with its row of the predicted-exponent table written anew (04 R102). -/
def Layer.writeTable (l : Layer) (margin : Nat) : Layer := { l with p := [l.predict margin 0, l.predict margin 1, l.predict margin 2] }

/-- The score entry that produces a tensor: layer, product and initial exponent; a tile whose output record names it, else
a Valve run with an output stream into it (log 36). -/
def Score.producerOf (sc : Score) (t : Nat) : Option (Nat × Nat × Option Int) :=
  let same := fun (u : Nat) => u == t || (u + 1 == t && (Score.tensorAt sc.pool u).versioned)
  let tile := sc.entries.find? (fun (e : Entry) => e.action == 1 && same (Score.tileAt sc.pool e.desc).otensor)
  let run := sc.entries.find? (fun (e : Entry) => e.action == 2 &&
    (Score.vrunAt sc.pool e.desc).outs.any (fun o => match o with | some x => same x.tensor | none => false))
  match tile, run with
  | some e, _ => let d := Score.tileAt sc.pool e.desc; some (d.layer, d.prod, some d.pInit)
  | none, some e => some (e.layer, (Score.vrunAt sc.pool e.desc).prod, none)
  | none, none => none

/-- Derived tensor scale `2^(P_t - 10)`, clamped to an FP16 power (04 R98). -/
def derivedScale (p : Int) : XNum := .fin false 1 (clampInt (-24) 15 (p - 10))

/-- The tensor scale in force for tensor `t`: 1 without two-level scaling, the descriptor's, or the derived one (02 R35, 04 R98).
DESIGN CHOICE: a derived scale whose product has no folded history and no initial exponent is the descriptor's T (log 59). -/
def Channel.tensorScale (k : Channel) (t : Nat) : XNum :=
  let d := k.tensor t
  if !bitOf d.layout 4 then .fin false 1 0
  else if !d.derived then decode .fp16 d.t
  else match k.score.bind (fun sc => Score.producerOf sc t) with
    | some (l, p, init) => (match (k.layer l).p.getD p none, init with
      | some z, _ => derivedScale z
      | none, some z => derivedScale z
      | none, none => decode .fp16 d.t)
    | none => decode .fp16 d.t

/-- The tensor scales in force for a list of tensors and for the second buffers of versioned ones, as a tile or a run latches them
(03 R90; 06 R160). -/
def Channel.latchScales (k : Channel) (ts : List Nat) : List (Nat × XNum) :=
  ((ts.map (fun t => if (k.tensor t).versioned then [t, t + 1] else [t])).flatten).map (fun t => (t, k.tensorScale t))

/-- A latched tensor scale. -/
def scaleIn (l : List (Nat × XNum)) (t : Nat) : XNum :=
  match l.find? (fun x => x.1 == t) with
  | some x => x.2
  | none => .fin false 1 0

/-- Layout byte with another format; climbing to rung 2 or 3 ends two-level scaling (04 R112). -/
def layoutAs (layout : Nat) (f : Fmt) : Nat :=
  let keep := f = Score.fmtOf layout ∨ f = .e3m2
  Fmt.id f + (if keep then layout / 16 % 2 * 16 else 0) + (if f = .int4 then layout / 32 % 2 * 32 else 0)

/-- A tensor descriptor read at another format. -/
def tensorAsFmt (t : TensorDesc) (f : Fmt) : TensorDesc := { t with layout := layoutAs t.layout f }

/-- The rung at which an operand of a tile enters, before a ladder pass (04 R113, R115). -/
def Channel.operandRung (k : Channel) (d : TileDesc) (o : OpndDesc) (isB : Bool) (ix : Nat) : Nat :=
  let base := Score.fmtOf (k.tensor o.tensor).layout
  let r :=
    if isB && decide (d.prod < 2) && (k.tensor o.tensor).versioned then
      let p := SMap.get (0, 0) (k.verRungs.getD (ix - o.tensor) []) d.layer
      rungAfter base (if d.prod = 0 then p.1 else p.2)
    else rungAfter base ((k.layer d.layer).rungs.getD (2 * d.prod + bit isB) 0)
  max (baseRung base) (min r o.ceil)

/-! ### Elements of chords as the array sees them -/

/-- An element of a chord that decodes as poisoned. -/
def poisonElem : Tile.Elem := { psn := true, code := 0xFF, main := .nan }

/-- Zero of positive sign for either zero. -/
def plusZero (x : XNum) : XNum := match x with | .fin _ 0 _ => zero false | x => x

/-- The sixteen elements of line `l` along the reduction; `lr` tells that lines are rows of the stored chord (08 R192,
R193; 02 R45; 03 R78). -/
def lineElems (f : Fmt) (t : XNum) (lr : Bool) (c : Chord) (l : Nat) : List Tile.Elem :=
  let outs := Chord.outliers c.side
  (List.range 16).map (fun p =>
    let i := if lr then 16 * l + p else 16 * p + l
    let code := Chord.codeOf c.side i
    if c.side.zb then { raw := zero false, code := 0x7F, main := zero false }
    else if Chord.isPoison c.side.scl code then { poisonElem with code := code }
    else match outs.find? (fun (o : Nat × Nat) => o.1 == i) with
      | some (_, v) => { raw := zero false, code := code, main := zero false, out := some (plusZero (decode .bf16 v)) }
      | none =>
        let raw := plusZero (decode f (c.codes.getD i 0))
        { raw := raw, code := code
          main := match raw with | .fin _ _ _ => plusZero (mul raw (Chord.scaleVal c.side.scl t code)) | x => x })

/-- Does a chord suit the array: block scales constant along the reduction (03 R65)? -/
def dirSuits (lr : Bool) (dir : Nat) : Bool := dir == 2 || dir == (if lr then 0 else 1)

/-- An operand as loaded for a pass. -/
structure Loaded where
  op : Tile.Operand := { fmt := .bf16 }
  rung : Nat := 3
  /-- excess outlier entries (04 R110) -/
  obOvf : Nat := 0
  counts : QGrid.Counts := {}
  /-- dynamic selection asked of a stored operand (04 R106) -/
  dynSkip : Nat := 0
  /-- a VER tag other than the expected one (03 R88) -/
  verBad : Bool := false
  /-- an error of class S or above ends the tile -/
  lost : Bool := false
  /-- what has to be recovered before the operand can be loaded (03 R86; 09 R238) -/
  redo : List Redo := []
  /-- the Crook was active (03 R92) -/
  crook : Bool := false
deriving DecidableEq, Repr

/-! ### Stored narrow operands -/

/-- Read the chords of an operand's share in Reed SRAM, in their stored order (log 32): CRC first, a range outside the
SRAM as poison with one ADDR_FAULT. The flag tells that an error of class S or above ended the action. -/
def Channel.shareChords (k : Channel) (r : ReedId) (t : TensorDesc) (n : Nat) (done : List Redo) :
    List ChordRead × Bool × List Redo × Channel :=
  let f := Score.fmtOf t.layout
  if !inside 3 t.addr (n * Score.chordSize t) then
    (List.replicate n .fault, false, [], k.addrFault 0 r.val t.addr)
  else
    (List.range n).foldl (fun (a : List ChordRead × Bool × List Redo × Channel) i =>
      if a.2.1 then (a.1 ++ [.fault], a.2)
      else
        let (x, k) := a.2.2.2.readChord 0 r.val r t i done
        (a.1 ++ [if x.poisoned || x.lost then .fault else Chord.ofBytes f x.bytes], x.lost, a.2.2.1 ++ x.redo.toList, k))
      ([], false, [], k)

/-- Lay outlier channels over the lines: `pos` gives each entry's position in the lines (03 R77, 04 R111). -/
def overlay (pos : List (Option Nat)) (vals : List (List Nat)) (lines : List (List Tile.Elem)) : List (List Tile.Elem) :=
  lines.zipIdx.map (fun (line, l) => line.zipIdx.map (fun (e, x) =>
    match pos.idxOf? (some x) with
    | some j => if e.psn then e else
        { e with raw := zero false, main := zero false, out := some (plusZero (decode .bf16 ((vals.getD j []).getD l 0))) }
    | none => e))

/-- Outlier table sections of a stored operand, one per slice of 4,096 reduction indices that it touches, in order from
OTAB (04 R111): the lines, table faults, wrong VER tags, whether an error has ended the tile, and what has to be recovered. A section
that is a format fault leaves the operand without channel outliers; one that fails its CRC or its parity is handled as a chord of Reed
SRAM (03 R86; 09 R238). -/
def Channel.tableOutliers (k : Channel) (r : ReedId) (o : OpndDesc) (kLen : Nat) (want : Option Nat) (done : List Redo)
    (lines : List (List Tile.Elem)) : List (List Tile.Elem) × Nat × Bool × Bool × List Redo × Channel :=
  match o.otab with
  | none => (lines, 0, false, false, [], k)
  | some at_ =>
    let s0 := o.k0 / 4096
    let n := (o.k0 + kLen - 1) / 4096 - s0 + 1
    let (ls, tf, vb, lost, redo, k) := (List.range n).foldl (fun (a : List (List Tile.Elem) × Nat × Bool × Bool × List Redo × Channel) i =>
      let x : Redo := { space := 3, addr := at_ + Chord.outTableSize * i, len := Chord.outTableSize }
      let (res, k) := a.2.2.2.2.2.readBytes 0 r.val r 3 x.addr x.len
      let bad := fun (k : Channel) (cause : Cause) (detail : Nat) =>
        let (y, k) := k.readError 0 r.val r done x cause .D detail
        (a.1, a.2.1, a.2.2.1, a.2.2.2.1 || y.isNone, a.2.2.2.2.1 ++ y.toList, k)
      match res.err, Chord.readSection res.bytes with
      | .addr, _ => (a.1, a.2.1 + 1, a.2.2.1, a.2.2.2.1, a.2.2.2.2.1, k)
      | .parity, _ => bad k .parity anyDetail
      | _, (some sec, _) =>
        let pos := sec.chans.map (fun ch =>
          if 4096 * (s0 + i) + ch < o.k0 then none else some (4096 * (s0 + i) + ch - o.k0))
        let bad := match want with | some v => sec.ver != v | none => false
        (overlay pos sec.vals a.1, a.2.1, a.2.2.1 || bad, a.2.2.2.1, a.2.2.2.2.1, k)
      | _, (none, true) => (a.1, a.2.1 + 1, a.2.2.1, a.2.2.2.1, a.2.2.2.2.1, k)
      | _, (none, false) => bad (k.countCrc 0) .memUncorr (at_ / pageBytes))
      (lines, 0, false, false, [], k)
    (if tf = 0 then ls else lines, tf, vb, lost, redo, k)

/-- Effective Overblow mode of an operand (04 R105). -/
def effMode (set : Latched) (override : Bool) (o : OpndDesc) : Nat := (o.obm ||| (if override then 3 else 0)) &&& set.obMode

/-- Load an operand that is stored as narrow chords in the Reed's SRAM (03 R65, R71, R88; 04 R106, R111). -/
def Channel.loadStored (k : Channel) (r : ReedId) (t : TileRun) (o : OpndDesc) (isB : Bool)
    (want : Option Nat) : Loaded × Channel :=
  let d := t.desc
  let done := t.redone
  let ts := scaleIn t.scales o.tensor
  let rung := if isB then t.rungB else t.rungA
  let eff := effMode t.set t.dynOverride o
  let base := k.tensor o.tensor
  let f := rungFmt (Score.fmtOf base.layout) rung
  let t := { tensorAsFmt base f with space := 3, addr := o.sram }
  let kc := d.k / 16
  let n := 8 * kc
  let lr := if isB then d.prod == 1 else d.prod != 2
  let (chs, lost, redo, k) := k.shareChords r t n done
  if lost || !redo.isEmpty then ({ redo := redo, rung := rung, lost := lost }, k)
  else
    let ts := if bitOf t.layout 4 then ts else .fin false 1 0
    let check := fun (c : ChordRead) => match c with
      | .good c => if dirSuits lr c.side.dir && (c.side.rot == (d.rotn != 0)) then some c else none
      | _ => none
    let ok := chs.map check
    let at_ := fun (i j : Nat) => (ok.getD (if lr then i * kc + j else j * 8 + i) none)
    let lines := (List.range 128).map (fun ln =>
      ((List.range kc).map (fun j => match at_ (ln / 16) j with
        | some c => lineElems f ts lr c (ln % 16)
        | none => List.replicate 16 poisonElem)).flatten)
    let verBad := match want with
      | some v => o.verChk && chs.any (fun c => match c with | .good c => c.side.ver != v | _ => false)
      | none => false
    let (lines, tf, vb, tl, redo, k) := if rung < 3 then k.tableOutliers r o d.k (if o.verChk then want else none) done lines
      else (lines, 0, false, false, [], k)
    let blk8 := ok.any (fun c => match c with | some c => c.side.blk == 0 | none => false)
    ({ op := { fmt := f, scl := bitOf t.layout 4, t := ts, blk8 := blk8, lines := lines
               faults := (ok.filter (·.isNone)).length + tf, rot := d.rotn != 0 }
       rung := rung, verBad := verBad || vb, lost := tl, redo := redo
       dynSkip := if rung < 3 ∧ eff / 2 ≠ 0 then 1 else 0 }, k)

/-! ### Operands quantised from a wide source -/

/-- The decoded elements of a window of a tensor, by row and column from an origin: values, whether each is padding, faulty
chords seen, chords with ROT set, wrong VER tags. -/
structure Window where
  vals : List (List XNum) := []
  pads : List (List Bool) := []
  faults : Nat := 0
  verBad : Bool := false
  lost : Bool := false
  redo : List Redo := []
deriving DecidableEq, Repr

/-- Read a window of a tensor in any space, `nr` rows by `nc` columns at `(r0, c0)`. Chords outside the tensor's padded grid are
padding. -/
def Channel.window (k : Channel) (unit uidx : Nat) (r : ReedId) (done : List Redo) (ts : XNum) (ix : Nat) (want : Option Nat)
    (r0 c0 nr nc : Nat) : Window × Channel :=
  let t := k.tensor ix
  let f := Score.fmtOf t.layout
  let gc := Score.gridCols t
  let gr := Score.gridRows t
  let rows := (List.range ((r0 + nr - 1) / 16 - r0 / 16 + 1)).map (· + r0 / 16)
  let cols := (List.range ((c0 + nc - 1) / 16 - c0 / 16 + 1)).map (· + c0 / 16)
  let need := (rows.map (fun a => cols.map (fun b => (a, b)))).flatten
  let (got, k) := need.foldl (fun (a : List (Option (List XNum)) × Window × Channel) p =>
      if a.2.1.lost then (a.1 ++ [none], a.2)
      else if decide (p.1 < gr ∧ p.2 < gc) then
        let (x, k) := a.2.2.readChord unit uidx r t (p.1 * gc + p.2) done
        if x.lost || x.redo.isSome then (a.1 ++ [none], { a.2.1 with lost := a.2.1.lost || x.lost, redo := a.2.1.redo ++ x.redo.toList }, k)
        else
          let c := if x.poisoned then ChordRead.fault else Chord.ofBytes f x.bytes
          let rotBad := match c with | .good c => c.side.rot | _ => false
          let vb := match c, want with | .good c, some v => c.side.ver != v | _, _ => false
          let bad := rotBad || (match c with | .good _ => false | _ => true)
          (a.1 ++ [some (Chord.readElements f ts (if bad then .fault else c))],
           { a.2.1 with faults := a.2.1.faults + bit bad, verBad := a.2.1.verBad || vb }, k)
      else (a.1 ++ [none], a.2)) (([] : List (Option (List XNum))), ({} : Window), k) |> fun x => ((x.1, x.2.1), x.2.2)
  let nC := cols.length
  let at_ := fun (i j : Nat) =>
    let a := r0 + i
    let b := c0 + j
    match got.1.getD ((a / 16 - r0 / 16) * nC + (b / 16 - c0 / 16)) none with
    | some es => plusZero (es.getD (16 * (a % 16) + b % 16) (zero false))
    | none => zero false
  ({ got.2 with
      vals := (List.range nr).map (fun i => (List.range nc).map (fun j => at_ i j))
      pads := (List.range nr).map (fun i => (List.range nc).map (fun j => decide (t.rows ≤ r0 + i ∨ t.cols ≤ c0 + j))) }, k)

/-- Rows become columns. -/
def transpose {α : Type} (n : Nat) (d : α) (m : List (List α)) : List (List α) :=
  (List.range n).map (fun j => m.map (fun row => row.getD j d))

/-- Quantisation options of a unit that writes a tensor at a format, with the tensor scale it latched. In strict mode data with E8M0
block scales are rounded with RNE and saturated (02 R55); every other conversion keeps its rounding and overflow mode (02 R46, R50). -/
def quantCfg (set : Latched) (ts : XNum) (layout : Nat) (f : Fmt) (rnd : Rnd) : Quant.Cfg :=
  let l := layoutAs layout f
  let mx := set.strict && !bitOf l 4 && !(f == .fp16 || f == .bf16)
  { fmt := f, rnd := if mx then .rne else rnd, ieee := set.ieee && !mx, strict := set.strict
    sym := bitOf l 5, scl := bitOf l 4, t := if bitOf l 4 then ts else .fin false 1 0, crush := set.crush }

/-- Geometry of a region from geometry bits (02 R37). -/
def geomOf (geom : Nat) : QGrid.Geom :=
  { blk := QGrid.blkSize (Score.geomBlk geom), twoD := Score.geomDir geom == 2, cols := Score.geomDir geom == 1 }

/-- Outlier channels over a tile's share, slice by slice of the whole reduction (04 R107, R108). -/
def shareChannels (q : Quant.Cfg) (g : QGrid.Geom) (ratio : XNum) (static : List Nat) (dynamic : Bool)
    (lines : List (List XNum)) (k0 n : Nat) : List Nat × Nat × Nat :=
  ((List.range ((k0 + n - 1) / 4096 - k0 / 4096 + 1)).map (fun i =>
    let s := k0 / 4096 + i
    let lo := max k0 (4096 * s) - k0
    let hi := min (k0 + n) (4096 * (s + 1)) - k0
    QGrid.sliceChannels q g 16 ratio static dynamic lines lo (hi - lo))).foldl
      (fun acc r => (acc.1 ++ r.1, acc.2.1 + r.2.1, acc.2.2 + r.2.2)) ([], 0, 0)

/-- What quantising a strip of 128 lines gives: chords in stored order, the outlier channels with their BF16 codes by line,
counters, and excess entries. -/
structure Strip where
  chords : List Chord := []
  chans : List (Nat × List Nat) := []
  counts : QGrid.Counts := {}
  excess : Nat := 0
deriving DecidableEq, Repr

/-- Quantise a strip of lines for the array or for a weight copy (04 R105 to R110, R118). `eff` is the effective Overblow
mode, `lr` tells that lines are rows of the stored chords. -/
def quantStrip (q : Quant.Cfg) (g : QGrid.Geom) (lr : Bool) (eff : Nat) (ratio : XNum) (static : List Nat) (k0 ver : Nat)
    (rot : Bool) (lines : List (List XNum)) (pads : List (List Bool)) : Strip :=
  let g : QGrid.Geom := { g with cols := !lr && !g.twoD }
  let n := (lines.getD 0 []).length
  let wideFmt := q.fmt == .bf16 || q.fmt == .fp16
  let (chs, ex, prom) := if wideFmt || eff % 4 = 0 then (([] : List Nat), 0, 0)
    else shareChannels q g ratio (if bitOf eff 0 then static else []) (bitOf eff 1) lines k0 n
  let src := (lines.zip pads).map (fun (l, p) => (l.zip p).zipIdx.map (fun (x, i) =>
    ({ x := x.1, pad := x.2, out := chs.contains i } : Quant.Src)))
  let res := QGrid.run q g (bitOf eff 2 && !wideFmt) ratio src
  let kc := (n + 15) / 16
  let at_ := fun (i j : Nat) => QGrid.toChord q.fmt q.scl q.sym rot g ver ((res.chords.getD i []).getD j {})
  let grid := if lr then (List.range 8).map (fun i => (List.range kc).map (fun j => at_ i j))
    else (List.range kc).map (fun j => (List.range 8).map (fun i => at_ i j))
  let cnt := { res.counts with promote := sat32 res.counts.promote prom }
  { chords := grid.flatten, chans := chs.map (fun c => (c, lines.map (fun l => (Quant.outlierCode (l.getD c (zero false))).1)))
    counts := cnt, excess := ex + res.excess }

/-- Static outlier indices of a layer for one product and operand, relative to a reduction origin (07 R183). -/
def staticChannels (li : LayerInfo) (prod opnd k0 n : Nat) : List Nat :=
  (li.outliers.filter (fun x => x.2.1 == prod && (x.2.2 == opnd || x.2.2 == 2) && decide (k0 ≤ x.1 ∧ x.1 < k0 + n))).map
    (fun x => x.1 - k0)

/-- Lines through the Crook when the tile calls for it (03 R69): the rotated lines, which of their elements are still padding, and how
many overflowed BF16. -/
def throughCrook (t : TileRun) (k0 : Nat) (vals : List (List XNum)) (pads : List (List Bool)) :
    List (List XNum) × List (List Bool) × Nat :=
  if t.desc.rotn = 0 then (vals, pads, 0)
  else
    let ys := vals.map (QGrid.rotLine t.set.ieee t.desc.rotn t.signs k0)
    (ys.map (·.1), pads.map (fun p => p.map (fun _ => p.all id)), (ys.map (·.2)).foldl (· + ·) 0)

/-- Load an operand from its wide source through the Crook and the operand quantiser, and write it to its SRAM address
(03 R71; 04 R105 to R112; 08 R201). -/
def Channel.loadWide (k : Channel) (r : ReedId) (t : TileRun) (o : OpndDesc) (isB : Bool) (wide : Nat × Option Nat) (rung : Nat) :
    Loaded × Channel :=
  let d := t.desc
  let base := k.tensor o.tensor
  let f := rungFmt (Score.fmtOf base.layout) rung
  let lr := if isB then d.prod == 1 else d.prod != 2
  let org := if isB then d.n0 else d.m0
  let wts := scaleIn t.scales wide.1
  let (w, k) := if lr then k.window 0 r.val r t.redone wts wide.1 wide.2 org o.k0 128 d.k
    else k.window 0 r.val r t.redone wts wide.1 wide.2 o.k0 org d.k 128
  if w.lost || !w.redo.isEmpty then ({ redo := w.redo, lost := w.lost, rung := rung }, k)
  else
    let vals := if lr then w.vals else transpose 128 (zero false) w.vals
    let pads := if lr then w.pads else transpose 128 true w.pads
    let (lines, pads, over_) := throughCrook t o.k0 vals pads
    let kc := d.k / 16
    let q := quantCfg t.set (scaleIn t.scales o.tensor) base.layout f .rne
    if !dirSuits lr (Score.geomDir base.geom) then
      ({ op := { fmt := f, lines := List.replicate 128 (List.replicate d.k poisonElem), faults := 8 * kc + w.faults
                 rot := d.rotn != 0 }, rung := rung, verBad := w.verBad
         crook := d.rotn != 0 }, k)
    else
      let eff := effMode t.set t.dynOverride o
      let s := quantStrip q (geomOf base.geom) lr (if rung < 3 then eff else 0) (decode .fp16 t.set.promote)
        (staticChannels (k.layerInfo d.layer) d.prod (bit isB) o.k0 d.k) o.k0 0 (d.rotn != 0) lines pads
      let at_ := fun (i j : Nat) => s.chords.getD (if lr then i * kc + j else j * 8 + i) {}
      let els := (List.range 128).map (fun ln =>
        ((List.range kc).map (fun j => lineElems f q.t lr (at_ (ln / 16) j) (ln % 16))).flatten)
      let els := overlay (s.chans.map (fun c => some c.1)) (s.chans.map (·.2)) els
      let k := k.writeBytes 0 r.val r t.entry 3 o.sram ((s.chords.map (Chord.toBytes f)).flatten)
      ({ op := { fmt := f, scl := q.scl, t := q.t, blk8 := (geomOf base.geom).blk == 8 && !(geomOf base.geom).twoD
                 lines := els, faults := w.faults, rot := d.rotn != 0 }
         rung := rung, obOvf := s.excess, counts := { s.counts with satElem := sat32 s.counts.satElem over_ }
         verBad := w.verBad
         crook := d.rotn != 0 }, k)

/-- Load one operand at the rung it had when the tile started, or one rung up in a ladder pass; none when its micro-batch is
unstamped (04 R114, R117; 08 R208). -/
def Channel.loadOperand (k : Channel) (r : ReedId) (t : TileRun) (o : OpndDesc) (isB climb : Bool) : Option (Loaded × Channel) :=
  match k.readTensor t.mb o.tensor false with
  | none => none
  | some (_, want) =>
    match o.wide with
    | none => some (k.loadStored r t o isB want)
    | some w =>
      match k.readTensor t.mb w false with
      | none => none
      | some (wix, wwant) =>
        let base := Score.fmtOf (k.tensor o.tensor).layout
        let rung := if isB then t.rungB else t.rungA
        some (k.loadWide r t o isB (wix, if o.verChk then wwant else none) (if climb then climbOnce base rung else rung))

end Sys2Proof.Machine
end

