-- ==== Sys2Proof/Machine/Reed.lean ====
section
/-! DEFINITION. A tile on a Reed: its cue, its passes, recomputes, weight copies and its release (03 R72 to R93; 04 R100, R114, R117;
08 R213, R216, R217). -/

namespace Sys2Proof.Machine

open Sys2Proof Sys2Proof.Num

/-! ### Small pieces -/

/-- The channel with the tile of a Reed changed. -/
def Channel.modTile (k : Channel) (r : ReedId) (f : TileRun → TileRun) : Channel :=
  k.modReed r (fun x => { x with tile := x.tile.map f })

/-- The settings a tile or a run latches (03 R90, 06 R160). -/
def Rwp.latch (w : Rwp) : Latched :=
  { strict := w.strict, ieee := w.ieee, retries := w.retries, crush := w.crush, obMode := w.outMode, promote := w.promote
    obThr := w.obThr }

/-- The tile of a Reed tags its token (03 R89). -/
def Channel.tagTile (k : Channel) (r : ReedId) (h : HoldCause) : Channel :=
  match (k.reed r).tile with
  | some t => k.tagEntry t.entry h
  | none => k

/-- A Reed is marked suspect and its Étude request goes to the head of the queue (03 R85; 18 R433). -/
def State.suspectReed (s : State) (c : ChanId) (r : ReedId) : State :=
  let s := s.modStore c (fun t => { t with health := modAt t.health r.val (fun (h : Health) => { h with state := 1 }) })
  s.modChan c (fun k => { k with
    etude := { k.etude with queue := r.val :: k.etude.queue.filter (fun (x : Nat) => x != r.val) } })

/-- How the output of a tile is quantised (03 R75; 07 R180): towards the Valve it leaves in BF16. -/
def Channel.outCfg (k : Channel) (t : TileRun) : Tile.OutCfg :=
  let d := t.desc
  let fmt := if d.odest = 0 then Fmt.bf16 else Score.fmtOf d.olayout
  let layout := if d.odest = 0 then 7 else d.olayout
  let geom := if d.odest = 0 then 16 else d.ogeom
  let g := if d.odest = 0 then ({} : QGrid.Geom) else geomOf geom
  { q := quantCfg t.set (scaleIn t.scales d.otensor) layout fmt .rne, g := g
    vout := d.odest != 0 && Score.geomVout geom, ratio := decode .fp16 t.set.promote
    ver := (k.writeTensor d.otensor).2 }

/-- Saturating 32-bit sums of the Reed counters. -/
def ReedCnt.add (a b : ReedCnt) : ReedCnt :=
  { recompOvf := sat32 a.recompOvf b.recompOvf, recompUz := sat32 a.recompUz b.recompUz
    recompLadder := sat32 a.recompLadder b.recompLadder, ovfFinal := sat32 a.ovfFinal b.ovfFinal
    satOut := sat32 a.satOut b.satOut, chkMismatch := sat32 a.chkMismatch b.chkMismatch, parErr := sat32 a.parErr b.parErr
    inv := sat32 a.inv b.inv, psnIn := sat32 a.psnIn b.psnIn, wloss := sat32 a.wloss b.wloss, obOvf := sat32 a.obOvf b.obOvf
    fmtFault := sat32 a.fmtFault b.fmtFault }

/-- The channel with counts added to a Reed. -/
def Channel.countReed (k : Channel) (r : ReedId) (c : ReedCnt) : Channel :=
  k.modReed r (fun x => { x with cnt := x.cnt.add c })

/-- Counts to a layer and product, which the Tuner reads (05 R121). -/
def Channel.countAt (k : Channel) (layer prod : Nat) (c : ReedCnt) : Channel :=
  { k with tun := { k.tun with
      layerCnt := SMap.set {} k.tun.layerCnt (4 * layer + prod) ((SMap.get {} k.tun.layerCnt (4 * layer + prod)).add c) } }

/-- Counts of a tile to its layer and product. -/
def Channel.countLayer (k : Channel) (t : TileRun) (c : ReedCnt) : Channel := k.countAt t.layer t.desc.prod c

/-- Counts of a tile: to its Reed, and to its layer and product (03 R93; 05 R121). -/
def Channel.countTile (k : Channel) (r : ReedId) (t : TileRun) (c : ReedCnt) : Channel := (k.countReed r c).countLayer t c

/-- Observations of a layer changed (05 R121, R123). -/
def Channel.observe (k : Channel) (layer : Nat) (f : Obs → Obs) : Channel :=
  let o := f (SMap.get {} k.tun.obs layer)
  { k with tun := { k.tun with obs := SMap.set {} k.tun.obs layer o } }

/-- Quantiser events added to a layer's, by place (04 R104): operands 2·product + side, outputs 6 + product, 9 other. -/
def Channel.quantAt (k : Channel) (layer place : Nat) (c : QGrid.Counts) : Channel :=
  { k with tun := { k.tun with
      layerQ := SMap.set {} k.tun.layerQ (16 * layer + place) ((SMap.get {} k.tun.layerQ (16 * layer + place)).add c) } }

/-- A faulty chord that no Reed reads, met by an entry of a layer: counted, and reported to the Tuner as a poison event of the update
(02 R44; log 65). -/
def Channel.formatFault (k : Channel) (layer : Nat) : Channel :=
  ({ k with otherFaults := sat32 k.otherFaults 1 }.countAt layer 3 { fmtFault := 1 }).observe layer
    (fun o => { o with poison := modAt o.poison 3 (· + 1) })

/-- Quantiser events of a Reed: to its counters, and to the layer's by place (04 R104). -/
def Channel.countQuant (k : Channel) (r : ReedId) (layer place : Nat) (c : QGrid.Counts) : Channel :=
  (k.modReed r (fun x => { x with qcnt := x.qcnt.add c })).quantAt layer place c

/-- An error of class S ends the tile; the Reed waits for the action the error brings. -/
def Channel.failTile (k : Channel) (r : ReedId) (e : RawErr) : Channel :=
  (k.raise { e with unit := 0, uidx := r.val }).modTile r (fun t => { t with phase := .failed })

/-! ### Passes -/

/-- A load has found what it cannot read: the pass is abandoned and waits for the recovery (03 R86; 09 R238). -/
def Channel.redoStop (k : Channel) (r : ReedId) (t : TileRun) (l : List Redo) : Channel :=
  ((k.countLayer t { parErr := (l.filter (fun x => x.parity && x.space == 3)).length }).tagTile r .errorRetry).modTile r
    (fun t => { t with phase := .chordReload, redo := l.eraseDups })

/-- A wrong VER tag: the first is reloaded by the Chanters, a second one or one met by the update pass is class S
(03 R88, 08 R213). -/
def Channel.versionStop (k : Channel) (r : ReedId) (t : TileRun) : Channel :=
  if t.mb = 0xFF then k.failTile r { cause := .versionFault, cls := .S, detail := anyDetail }
  else if t.versionRetry ≠ 0 then
    k.failTile r { cause := .versionFault, cls := .S, detail := anyDetail, failureOf := some .versionReload }
  else
    ((k.raise { cause := .versionReload, cls := .D, unit := 0, uidx := r.val, detail := anyDetail }).tagTile r .versionWait).modTile r
      (fun t => { t with phase := .versionReload })

/-- Does an element of a tile's output lie beyond its output tensor (02 R38)? -/
def Channel.padsOf (k : Channel) (d : TileDesc) (r c : Nat) : Bool :=
  let o := k.tensor d.otensor
  decide (o.rows ≤ d.m0 + r ∨ o.cols ≤ d.n0 + c)

/-- The pass proper, once both operands are loaded (03 R66 to R83): its sums and, when it is not to be abandoned, its
output. -/
def Channel.runPass (k : Channel) (t : TileRun) (a b : Tile.Operand) : Kept :=
  let o := k.outCfg t
  let c := QGrid.crookCorr t.desc.rotn
  if t.set.strict then
    let p := Tile.strictPass a b c
    { ps := t.ps, pass := p, out := Tile.strictOut o p (k.padsOf t.desc) }
  else
    let stop := decide (t.ovfRc < t.set.retries) || t.kind == .underflow
    let p := Tile.fastPass a b t.desc.k c t.ps stop
    { ps := t.ps, pass := p, out := if stop && p.ovf.isSome then {} else Tile.fastOut o a b t.ps p (k.padsOf t.desc) }

/-- Book a pass that has run: sticky flags, and the counts of a load made by a first or a ladder pass (03 R80, R93;
04 R104, R106, R114).
DESIGN CHOICE: 04 R104 does not say in which passes of a tile an operand's quantiser events count: here in its first and its ladder
pass, the only ones that select its outliers afresh; the events of an output count when its pass is released (log 59). -/
def Channel.bookPass (k : Channel) (r : ReedId) (t : TileRun) (kept : Kept) (la lb : Loaded) (fresh : Bool) : Channel :=
  let ob := if fresh then la.obOvf + lb.obOvf else 0
  let faults := la.op.faults + lb.op.faults
  let k := k.modTile r (fun t => { t with
    cur := kept, phase := .running, inv := t.inv || kept.pass.inv != 0, psnIn := t.psnIn || kept.pass.psnIn
    fmtFault := t.fmtFault || faults != 0, obOvf := t.obOvf + ob, obA := la.obOvf, obB := lb.obOvf
    crook := t.crook || la.crook || lb.crook })
  let k := k.countTile r t { inv := kept.pass.inv, wloss := kept.pass.wloss, obOvf := ob, fmtFault := if fresh then faults else 0 }
  if fresh then
    let k := (k.countQuant r t.layer (2 * t.desc.prod) la.counts).countQuant r t.layer (2 * t.desc.prod + 1) lb.counts
    { k with tun := { k.tun with cnt := { k.tun.cnt with dynSkip := sat32 k.tun.cnt.dynSkip (la.dynSkip + lb.dynSkip) } } }
  else k

/-- The copy of a weight-copy tile: the strip of the new master, rotated and quantised (08 R216, R217). -/
def Channel.copyPass (k : Channel) (r : ReedId) (t : TileRun) : Channel :=
  let d := t.desc
  match k.readTensor t.mb d.a.tensor true with
  | none => k.failTile r { cause := .versionFault, cls := .S, detail := anyDetail }
  | some (ix, want) =>
    let m := k.tensor ix
    let lr := Score.geomDir d.ogeom != 1
    let len := ((if lr then m.cols else m.rows) + 15) / 16 * 16
    let mts := scaleIn t.scales ix
    let (w, k) := if lr then k.window 0 r.val r t.redone mts ix want d.m0 0 128 len
      else k.window 0 r.val r t.redone mts ix want 0 d.n0 len 128
    if w.lost then k.modTile r (fun t => { t with phase := .failed })
    else if !w.redo.isEmpty then k.redoStop r t w.redo
    else if d.a.verChk && w.verBad then k.versionStop r t
    else
      let vals := if lr then w.vals else transpose 128 (zero false) w.vals
      let pads := if lr then w.pads else transpose 128 true w.pads
      let li := k.layerInfo d.layer
      let (lines, pads, over_) := throughCrook t 0 vals pads
      let rung := t.rungA
      let f := rungFmt (Score.fmtOf d.olayout) rung
      let q := quantCfg t.set (scaleIn t.scales d.otensor) d.olayout f .rne
      let eff := effMode t.set t.dynOverride d.a
      let s := quantStrip q (geomOf d.ogeom) lr (if rung < 3 then eff else 0) (decode .fp16 t.set.promote)
        (staticChannels li (if lr then 1 else 0) 1 0 len) 0 (verTag (k.ver.cur + 1)) (d.rotn != 0) lines pads
      let fault := w.faults != 0
      let sections := (List.range ((len + 4095) / 4096)).map (fun i =>
        let own := s.chans.filter (fun (c : Nat × List Nat) => decide (4096 * i ≤ c.1 ∧ c.1 < 4096 * (i + 1)))
        Chord.sectionBytes { chans := own.map (fun c => c.1 % 4096), ver := verTag (k.ver.cur + 1), vals := own.map (·.2) })
      let k := match d.a.otab with
        | some at_ => if rung < 3 then k.writeBytes 0 r.val r t.entry 3 at_ sections.flatten else k
        | none => k
      let k := k.modTile r (fun t => { t with
        cur := { out := { chords := s.chords } }, phase := .clean, obOvf := s.excess, fmtFault := fault
        crook := d.rotn != 0 })
      let k := k.countTile r t { obOvf := s.excess, fmtFault := w.faults }
      k.countQuant r t.layer 9 { s.counts with satElem := sat32 s.counts.satElem over_ }

/-- Start a pass: load the operands, then compute, wait for a reload, or end (03 R72, R86, R88; 08 R208). -/
def Channel.tilePass (k : Channel) (r : ReedId) : Channel :=
  match (k.reed r).tile with
  | none => k
  | some t =>
    let k := k.modReed r (fun x => { x with tile := x.tile.map (fun t => { t with phase := .running, redo := [] }) })
    if t.desc.prod = 3 then k.copyPass r t
    else
      let bad := k.failTile r { cause := .versionFault, cls := .S, detail := anyDetail }
      match k.loadOperand r t t.desc.a false t.climbA with
      | none => bad
      | some (la, k) =>
        match k.loadOperand r t t.desc.b true t.climbB with
        | none => bad
        | some (lb, k) =>
          if la.lost || lb.lost then k.modTile r (fun t => { t with phase := .failed })
          else if !(la.redo ++ lb.redo).isEmpty then k.redoStop r t (la.redo ++ lb.redo)
          else if la.verBad || lb.verBad then k.versionStop r t
          else k.bookPass r t (k.runPass t la.op lb.op) la lb (t.kind == .first || t.kind == .ladder)

/-- Rung of the copy that a weight-copy tile writes: the one recorded with version CUR + 1 (04 R115; 08 R217). -/
def Channel.copyRung (k : Channel) (d : TileDesc) : Nat :=
  let x := SMap.get (0, 0) (k.verRungs.getD ((k.ver.cur + 1) % 2) []) d.layer
  rungAfter (Score.fmtOf d.olayout) (if Score.geomDir d.ogeom != 1 then x.2 else x.1)

/-- A tile as it starts: it latches its settings, its rungs, its predicted exponent, its tensor scales and its sign table (03 R70, R72,
R90; 04 R98, R102, R117). -/
def Channel.newTile (k : Channel) (i : Nat) : TileRun :=
  let e := k.entry i
  let d := Score.tileAt k.pool e.desc
  let ly := k.layer d.layer
  let p := (ly.p.getD d.prod none).getD d.pInit
  let ix := fun (o : OpndDesc) => match k.readTensor e.mb o.tensor false with | some x => x.1 | none => o.tensor
  let wides := fun (o : OpndDesc) => match o.wide with | some w => [w] | none => []
  { entry := i, layer := d.layer, mb := e.mb, desc := d, token := e.sets, set := k.live.latch, dynOverride := ly.dyn
    p := p, ps := List.replicate 8 p
    rungA := if d.prod = 3 then k.copyRung d else k.operandRung d d.a false (ix d.a)
    rungB := if d.prod = 3 then 0 else k.operandRung d d.b true (ix d.b)
    scales := k.latchScales ([d.a.tensor, d.b.tensor, d.otensor] ++ wides d.a ++ wides d.b)
    signs := SMap.get [] k.signs d.layer }

/-- Does a tile start with an operand above its base rung (04 R116)? -/
def Channel.climbed (k : Channel) (t : TileRun) : Bool :=
  let base := fun (o : OpndDesc) => baseRung (Score.fmtOf (k.tensor o.tensor).layout)
  t.desc.prod != 3 && (decide (base t.desc.a < t.rungA) || decide (base t.desc.b < t.rungB))

/-- A TILE cue: a finished tile keeps its slot of the output buffer, and the new one's first pass starts; the beats that a climbed
operand makes the channel hold count as tile recompute (03 R76; 04 R116). -/
def Channel.cueTile (k : Channel) (r : ReedId) (i : Nat) : Channel :=
  let t := k.newTile i
  let k := k.modReed r (fun x => { x with
    tile := some t
    waiting := match x.waiting, x.tile with | none, some u => if u.phase = .clean then some u else none | w, _ => w })
  (if k.climbed t then k.tagTile r .tileRecomp else k).tilePass r

/-! ### Events -/

/-- An extra pass starts under a hold cause (03 R89). -/
def Channel.extraPass (k : Channel) (r : ReedId) (h : HoldCause) (f : TileRun → TileRun) : Channel :=
  ((k.modTile r (fun t => { f t with passes := t.passes + 1 })).tagTile r h).tilePass r

/-- The tile in flight when it stands in a phase. -/
def Channel.tileIn (k : Channel) (r : ReedId) (ph : TilePhase) : Option TileRun :=
  match (k.reed r).tile with
  | some t => if t.phase = ph then some t else none
  | none => none

/-- Is the pass to be abandoned for an overflow, with retries left? (03 R73) Gives the overflowing slabs. -/
def TileRun.retrySlabs (t : TileRun) : Option (List Nat) :=
  if t.set.strict ∨ t.kind = .underflow ∨ t.set.retries ≤ t.ovfRc ∨ t.desc.prod = 3 then none
  else t.cur.pass.ovf.map Prod.snd

/-- OVERFLOW_RETRY (03 R73). -/
def execOverflowRetry (c : ChanId) (r : ReedId) (s : State) : Host.Outcome State Fault Refusal :=
  .next (s.modChan c (fun k => match k.tileIn r .running with
    | none => k
    | some t => match t.retrySlabs with
      | none => k
      | some slabs => (k.countTile r t { recompOvf := 1 }).extraPass r .tileRecomp (fun t => { t with
          ps := Tile.raiseSlabs t.ps slabs 4, ovfRc := t.ovfRc + 1, kind := .overflow })))

/-- A recompute for a checksum mismatch; one recompute also serves an overflow found in the same group (03 R87). -/
def Channel.checksumPass (k : Channel) (r : ReedId) (t : TileRun) (both : Bool) : Channel :=
  match both, t.retrySlabs with
  | true, some slabs => (k.countTile r t { recompOvf := 1 }).extraPass r .errorRetry (fun t => { t with
      ps := Tile.raiseSlabs t.ps slabs 4, ovfRc := t.ovfRc + 1, chkRc := t.chkRc + 1, kind := .recompute })
  | _, _ => k.extraPass r .errorRetry (fun t => { t with
      chkRc := t.chkRc + 1, kind := if t.kind = .underflow then .underflow else .recompute })

/-- CHECKSUM_MISMATCH (03 R79, R84, R85, R87). Whether an overflow of the same pass lies in the same group is a free
value. -/
def execChecksumMismatch (c : ChanId) (r : ReedId) (s : State) : Host.Outcome State Fault Refusal :=
  match (s.chan c).tileIn r .running with
  | none => .next s
  | some t =>
    let (b, s) := s.draw 2
    let s := s.modChan c (fun k => k.countTile r t { chkMismatch := 1 })
    if t.chkRc = 0 then
      .next (s.modChan c (fun k =>
        (k.raise { cause := .chkMismatch, cls := .D, unit := 0, uidx := r.val, detail := anyDetail }).checksumPass r t (b == 1)))
    else if t.chkRc = 1 then
      .next ((s.suspectReed c r).modChan c (fun k =>
        ((k.raise { cause := .chkSuspect, cls := .D, unit := 0, uidx := r.val, detail := anyDetail }).modTile r
          (fun t => { t with suspect := true })).checksumPass r t (b == 1)))
    else
      .next (s.modChan c (fun k =>
        let k := { k with err := k.err.endRecovery 0 r.val [.chkMismatch] 2 }
        let k := k.raise { cause := .chkFail, cls := .S, unit := 0, uidx := r.val, detail := anyDetail
                           failureOf := some .chkSuspect, fixedClass := true }
        let k := { k with etude := { k.etude with replace := k.etude.replace ++ [r.val] } }
        k.modTile r (fun t => { t with poisonAll := true, phase := .clean })))

/-- Which operands climb in a ladder pass: those over the threshold with a wide source and room below the ceiling; and the
operands that a ceiling refuses, 0 left and 1 right (03 R80; 04 R113, R114). -/
def TileRun.ladderOf (t : TileRun) (base : OpndDesc → Fmt) : Bool × Bool × List Nat :=
  let want := fun (n rung : Nat) (o : OpndDesc) => decide (t.set.obThr < n) && o.wide.isSome && decide (rung < 3)
  let room := fun (rung : Nat) (o : OpndDesc) => decide (climbOnce (base o) rung ≤ o.ceil)
  let wa := want t.obA t.rungA t.desc.a
  let wb := want t.obB t.rungB t.desc.b
  (wa && room t.rungA t.desc.a, wb && room t.rungB t.desc.b,
   (if wa && !room t.rungA t.desc.a then [0] else []) ++ (if wb && !room t.rungB t.desc.b then [1] else []))

/-- Climbs that the ladder decision after a pass refuses: rung and side of each operand (04 R113; 05 R126). -/
def Channel.refusedClimbs (k : Channel) (r : ReedId) : List (TileRun × Nat) :=
  match k.tileIn r .running with
  | some t =>
    if t.retrySlabs.isSome || t.accParity || t.kind == .underflow || t.set.strict || t.ladder then []
    else (t.ladderOf (fun o => Score.fmtOf (k.tensor o.tensor).layout)).2.2.map (fun n => (t, n))
  | none => []

/-- A parity error in an accumulator or in the tile's slot of the output buffer: the tile is recomputed at the same scale, class D; a
second one during that recompute, or one that would need a ninth pass, is class S (03 R84, R86, R87). -/
def Channel.parityPass (k : Channel) (r : ReedId) (t : TileRun) : Channel :=
  let k := k.countTile r t { parErr := 1 }
  let fail := (k.raise { cause := .parity, cls := .S, unit := 0, uidx := r.val, detail := anyDetail
                         failureOf := some .parity }).modTile r (fun t => { t with phase := .failed })
  if t.parityRetry ∨ 8 ≤ t.passes then fail
  else (k.raise { cause := .parity, cls := .D, unit := 0, uidx := r.val, detail := anyDetail }).extraPass r .errorRetry
    (fun t => { t with accParity := false, outParity := false, parityRetry := true, parRecovered := true
                       kind := if t.kind = .underflow then .underflow else .recompute })

/-- The channel's part of the end of a pass. -/
def Channel.passEnd (k : Channel) (r : ReedId) : Channel :=
  match k.tileIn r .running with
  | none => k
  | some t =>
    let rest := { t with parityRetry := false }
    if t.retrySlabs.isSome then k
    else if t.accParity then k.parityPass r t
    else if t.kind = .underflow then
      match t.cur.pass.ovf, t.firstPass with
      | some _, some first => k.modTile r (fun _ => { rest with cur := first, ps := first.ps, phase := .clean, firstPass := none })
      | _, _ => k.modTile r (fun _ => { rest with uzKept := true, phase := .clean, firstPass := none })
    else
      let (ca, cb, refused) := t.ladderOf (fun o => Score.fmtOf (k.tensor o.tensor).layout)
      let can := !t.set.strict && !t.ladder
      let k := if can then { k with tun := { k.tun with cnt := { k.tun.cnt with ladderCap := sat32 k.tun.cnt.ladderCap refused.length } } }
        else k
      if can && (ca || cb) then
        (k.countTile r t { recompLadder := 1 }).extraPass r .tileRecomp (fun _ => { rest with
          ladder := true, climbA := ca, climbB := cb, kind := .ladder })
      else if !t.set.strict && !t.ladder && decide (512 < t.cur.out.uzBlocks) && t.ovfRc == 0 && !t.uzDone then
        k.modTile r (fun _ => { rest with phase := .slotWait })
      else k.modTile r (fun _ => { rest with phase := .clean })

/-- TILE_PASS_END (03 R64, R74, R80, R86; 04 R113, R117; 05 R126): a pass that has run to its end is followed by a recompute for a
parity error of an accumulator, by a ladder pass, waits for a slot for its underflow pass, or leaves the tile clean. A climb that a
ceiling refuses is counted and logged as LADDER_CAP. -/
def execTilePassEnd (c : ChanId) (r : ReedId) (s : State) : Host.Outcome State Fault Refusal :=
  let refused := (s.chan c).refusedClimbs r
  .next (refused.foldl (fun (s : State) (x : TileRun × Nat) =>
    let rung := if x.2 = 0 then x.1.rungA else x.1.rungB
    s.tunerEvent c { layer := x.1.layer, event := 0xB, prod := x.1.desc.prod, opnd := x.2, from_ := rung, to_ := rung })
    (s.modChan c (fun k => k.passEnd r)))

/-- UNDERFLOW_PASS (03 R74): the pass starts once the other output slot is free. -/
def execUnderflowPass (c : ChanId) (r : ReedId) (s : State) : Host.Outcome State Fault Refusal :=
  .next (s.modChan c (fun k => match k.tileIn r .slotWait with
    | none => k
    | some t =>
      if !(k.reed r).slots.isEmpty || (k.reed r).waiting.isSome then k
      else (k.countTile r t { recompUz := 1 }).extraPass r .tileRecomp (fun u => { u with
        firstPass := some t.cur, ps := Tile.raiseSlabs t.ps t.cur.out.uzSlabs (-4), uzDone := true, kind := .underflow })))

/-- The tile status word (03 R92). -/
def TileRun.statusWord (t : TileRun) (psnOut : Bool) : Nat :=
  let o := t.cur.out
  let copy := t.desc.prod == 3
  1 + 2 * bit t.inv + 4 * bit (o.inf && !copy) + 8 * bit o.ovfFinal + 16 * min t.ovfRc 3 + 64 * bit t.uzDone + 128 * bit t.uzKept
    + 256 * min t.chkRc 2 + 2 ^ 10 * bit t.suspect + 2 ^ 11 * bit t.ladder + 2 ^ 12 * bit t.parRecovered + 2 ^ 13 * bit t.psnIn
    + 2 ^ 14 * bit (psnOut && !copy) + 2 ^ 15 * bit t.fmtFault + 2 ^ 17 * bit (t.set.strict && !copy) + 2 ^ 18 * bit t.crook
    + 2 ^ 20 * min t.obOvf 63
    + 2 ^ 26 * (t.ps.filter (fun p => p != t.p)).length

/-- What a released tile adds to its layer's observations (04 R100, R101; 05 R121, R123): trigger 3 counts the tiles that made an
overflow retry. A weight copy reports only the faults it met (02 R44). -/
def Obs.addTile (o : Obs) (prod amax : Nat) (t : TileRun) (psnOut : Bool) : Obs :=
  let up := fun (l : List Nat) (n : Nat) => modAt l prod (fun x => x + n)
  { o with amax := modAt o.amax prod (fun x => max x amax), tiles := up o.tiles 1, ovfRetry := up o.ovfRetry (bit (t.ovfRc != 0))
           ovfFinal := up o.ovfFinal (bit t.cur.out.ovfFinal), ladder := up o.ladder (bit t.ladder)
           inv := up o.inv (bit t.inv), poison := up o.poison (bit psnOut + bit t.fmtFault) }

/-- The output chords as they are released (03 R76, R82, R85). -/
def TileRun.released (t : TileRun) (o : Tile.OutCfg) : List Chord :=
  if t.poisonAll then
    List.replicate (if t.desc.prod = 3 then t.cur.out.chords.length else 64)
      (Chord.poisoned o.q.fmt (if o.g.twoD then 2 else if o.g.cols then 1 else 0) (QGrid.blkCode o.g.blk))
  else t.cur.out.chords

/-- The finished tile of a Reed that is released next: the one that waits, else the one in the array (03 R76). -/
def Channel.finished (k : Channel) (r : ReedId) : Option TileRun :=
  match (k.reed r).waiting with
  | some t => if t.phase = .clean then some t else k.tileIn r .clean
  | none => k.tileIn r .clean

/-- The Reed without the tile that has been released; a tile that was set aside for it goes on in the array. -/
def Reed.drop (x : Reed) : Reed :=
  match x.waiting with
  | some t => if t.phase = .clean then { x with waiting := none } else { x with tile := some t, waiting := none }
  | none => { x with tile := none }

/-- Release of a finished tile (03 R76, R92, R93; 04 R100; 08 R217). -/
def Channel.releaseTile (k : Channel) (r : ReedId) (t : TileRun) : Channel :=
  let o := k.outCfg t
  let fmt := if t.desc.prod = 3 then rungFmt (Score.fmtOf t.desc.olayout) t.rungA else o.q.fmt
  let chords := t.released { o with q := { o.q with fmt := fmt } }
  let psnOut := t.poisonAll || t.cur.out.psnOut
  let word := t.statusWord psnOut
  let k := if t.desc.odest = 0 then
      k.modReed r (fun x => { x with slots := x.slots ++ [{ tile := t, layer := t.layer, prod := t.desc.prod, otensor := t.desc.otensor
                                                            chords := chords, fmt := fmt }] })
    else k.writeBytes 0 r.val r t.entry (if t.desc.odest = 1 then 3 else 2) t.desc.oaddr
      ((chords.map (Chord.toBytes fmt)).flatten)
  let k := k.modReed r (fun x => { x.drop with
    words := ({ entry := t.entry, layer := t.layer, prod := t.desc.prod, m0 := t.desc.m0, n0 := t.desc.n0, word := word } :: x.words).take 4
    invalidList := if t.set.strict then (t.cur.pass.invalid.take 8).map (fun (m, n, cause) => m + 128 * n + 16384 * cause)
      else x.invalidList })
  let k := if t.desc.prod = 3 then k else k.countQuant r t.layer (6 + t.desc.prod) t.cur.out.counts
  let k := k.countTile r t { ovfFinal := bit t.cur.out.ovfFinal, satOut := t.cur.out.sat, psnIn := bit t.psnIn }
  let old := SMap.get {} k.tun.obs t.layer
  let obs := if t.desc.prod = 3 then { old with poison := modAt old.poison 3 (· + bit t.fmtFault) }
    else old.addTile t.desc.prod t.cur.out.amax t psnOut
  let k := { k with tun := { k.tun with obs := SMap.set {} k.tun.obs t.layer obs } }
  let k := if t.poisonAll then k else { k with err := k.err.endRecovery 0 r.val [.chkMismatch, .chkSuspect, .parity, .memUncorr] 1 }
  k.landEntry t.entry

/-- TILE_RELEASE (03 R76): a finished tile whose slot of the output buffer has a parity error is recomputed instead (03 R86); the tile
in the array then waits for it. -/
def execTileRelease (c : ChanId) (r : ReedId) (s : State) : Host.Outcome State Fault Refusal :=
  .next (s.modChan c (fun k => match k.finished r with
    | none => k
    | some t =>
      if t.outParity then
        (k.modReed r (fun x => match x.waiting with
          | some w => if w.phase = .clean then { x with tile := some t, waiting := x.tile } else x
          | none => x)).parityPass r t
      else k.releaseTile r t))

end Sys2Proof.Machine
end

