-- ==== Sys2Proof/Machine/Recover.lean ====
section
/-! DEFINITION. The recovery of chords that a read could not use: a backed copy is reloaded, a producing tile is cued again, and the
chord reloads and version reloads that a tile waits for (03 R86 to R88; 08 R203, R213; 09 R238, R251). -/

namespace Sys2Proof.Machine

open Sys2Proof Sys2Proof.Num

/-! ### Sources of a recovery -/

/-- A tensor's descriptor with the format its chords have: a weight copy is held at the rung recorded with its version
buffer (04 R115; 02 R39). -/
def Channel.storedTensor (k : Channel) (even ix : Nat) : TensorDesc :=
  let t := k.tensor ix
  let tile := match k.score with
    | some sc => sc.entries.find? (fun (e : Entry) => e.action == 1 &&
        ((Score.tileAt sc.pool e.desc).prod == 3 && (Score.tileAt sc.pool e.desc).otensor == even))
    | none => none
  match t.versioned, tile with
  | true, some e =>
    let d := Score.tileAt k.pool e.desc
    let p := SMap.get (0, 0) (k.verRungs.getD (ix - even) []) d.layer
    let base := Score.fmtOf t.layout
    tensorAsFmt t (rungFmt base (rungAfter base (if Score.geomDir d.ogeom = 1 then p.1 else p.2)))
  | _, _ => t

/-- The bytes that the MOVE of score entry `i` put at an address, read anew from its source; none when it did not write them or the
source cannot be read (03 R86; 09 R251). -/
def Channel.moveBytes (k : Channel) (i : Nat) (x : Redo) : Option (List Byte) :=
  let e := k.entry i
  let d := Score.moveAt k.pool e.desc
  let into := fun (ix : Nat) =>
    let t := k.storedTensor d.dstt ix
    let a := Score.chordAddr t d.dfirst
    if t.space = x.space ∧ a ≤ x.addr ∧ x.addr + x.len ≤ a + d.count * Score.chordSize t then some (x.addr - a) else none
  match (into d.dstt).or (if (k.tensor d.dstt).versioned then into (d.dstt + 1) else none), k.readTensor e.mb d.srct false with
  | some off, some (six, _) =>
    let src := k.storedTensor d.srct six
    let (res, _) := k.readBytes 2 0 ((k.slotReed d.sslot).getD 0) src.space (Score.chordAddr src d.sfirst + off) x.len
    if res.err = .none then some res.bytes else none
  | _, _ => none

/-- The MOVE that fills a backed region of a Reed's SRAM at an address, when the score has one. -/
def Channel.backingMove (k : Channel) (r : ReedId) (x : Redo) : Option Nat :=
  match k.score with
  | none => none
  | some sc => (List.range sc.entries.length).find? (fun i =>
      let e := k.entry i
      e.action == 4 && (k.slotReed (Score.moveAt k.pool e.desc).dslot == some r) && (k.moveBytes i x).isSome)

/-- A tile computed anew to its end, apart from the running one: every retry, ladder and underflow pass as its first run made them;
none when it cannot be loaded any more. -/
def Channel.alone (r : ReedId) : Nat → Channel → Option (TileRun × Channel)
  | 0, _ => none
  | n + 1, k =>
    match (k.reed r).tile with
    | none => none
    | some t =>
      match t.phase with
      | .clean => some (t, k)
      | .slotWait => Channel.alone r n (k.extraPass r .tileRecomp (fun u => { u with
          firstPass := some t.cur, ps := Tile.raiseSlabs t.ps t.cur.out.uzSlabs (-4), uzDone := true, kind := .underflow }))
      | .running => (match t.retrySlabs with
        | some slabs => Channel.alone r n (k.extraPass r .tileRecomp (fun t => { t with
            ps := Tile.raiseSlabs t.ps slabs 4, ovfRc := t.ovfRc + 1, kind := .overflow }))
        | none => Channel.alone r n (k.passEnd r))
      | _ => none

/-- What stands at a place once a Chanter has cued the tile of score entry `i` again, apart from the running work: its output, the
operands it quantises into its SRAM and the outlier tables it writes; none when its inputs are no longer resident (03 R86). -/
def Channel.recueBytes (k : Channel) (i : Nat) (x : Redo) : Option (List Byte) :=
  match k.slotReed (k.entry i).unit with
  | none => none
  | some r =>
    let k := (k.modReed r (fun x => { x with tile := none, waiting := none, slots := [] })).cueTile r i
    match Channel.alone r 16 k with
    | none => none
    | some (t, k) =>
      let o := k.outCfg t
      let fmt := if t.desc.prod = 3 then rungFmt (Score.fmtOf t.desc.olayout) t.rungA else o.q.fmt
      let out := ((t.released { o with q := { o.q with fmt := fmt } }).map (Chord.toBytes fmt)).flatten
      let k := if t.desc.odest = 0 then k else k.writeBytes 0 r.val r i (if t.desc.odest = 1 then 3 else 2) t.desc.oaddr out
      some (if x.space = 2 then k.mem.chest.read x.addr x.len else (k.reed r).sram.read x.addr x.len)

/-- The bytes that a score entry wrote to a place of Reed SRAM or of the wind chest, produced again: by the MOVE or the tile itself; any
other producer gives them as it wrote them (log 15). -/
def Channel.reproduce (k : Channel) (r : ReedId) (i : Nat) (x : Redo) : Option (List Byte) :=
  match (k.entry i).action with
  | 1 => k.recueBytes i x
  | 4 => k.moveBytes i x
  | _ => some (if x.space = 2 then k.mem.chest.read x.addr x.len else (k.reed r).sram.read x.addr x.len)

/-- The slot of the output buffer that holds the tile of a score entry, with its tile recomputed at the same scale: its final pass runs
once more, apart from the running work; none when its operands cannot be loaded any more, or for a ninth pass (03 R86, R87). -/
def Channel.recomputeSlot (k : Channel) (r : ReedId) (entry : Nat) : Option Channel :=
  match (k.reed r).slots.find? (fun (o : OutSlot) => o.tile.entry == entry) with
  | none => none
  | some o =>
    let again : TileRun := { o.tile with kind := if o.tile.uzKept then .underflow else .recompute, phase := .running, outParity := false
                                         passes := o.tile.passes + 1, parRecovered := true }
    if 8 ≤ o.tile.passes then none
    else match ((k.modReed r (fun x => { x with tile := some again })).tilePass r).tileIn r .running with
      | none => none
      | some t =>
        let done := { again with cur := t.cur, phase := .clean }
        some (k.modReed r (fun x => { x with
          slots := x.slots.map (fun (s : OutSlot) => if s.tile.entry == entry then
            { s with tile := done, parity := false, chords := done.released (k.outCfg done) } else s)
          words := modWord entry (fun w => withBit w 12) x.words }))

/-! ### Recovery -/

/-- Recover what an action could not read; none when that fails. A backed region of Reed SRAM is reloaded and an unbacked one produced
again by the tile that the score names, the tile of an output slot is recomputed (03 R86); a wind chest chord comes from the entry that last wrote its block (09 R251); chords
of memory come back as they were written (08 R203; 09 R238; log 15). -/
def Channel.recover (k : Channel) (r : ReedId) (x : Redo) : Option Channel :=
  let put := fun (k : Channel) (i : Nat) (bs : List Byte) => (k.writeBytes 0 r.val r i x.space x.addr bs).healParity r x.space x.addr x.len
  if x.space = 3 then
    match k.score.bind (fun sc => (k.reedSlot r).bind (fun slot => Score.regionOf sc slot x.addr)) with
    | none => none
    | some g =>
      if g.backed then
        match k.backingMove r x with
        | some i => (k.moveBytes i x).map (put k i)
        | none => some (k.healParity r 3 x.addr x.len)
      else g.producer.bind (fun i => (k.reproduce r i x).map (put k i))
  else if x.space = 2 then
    match SMap.get 0 k.mem.chestWriter (x.addr / 2048) with
    | 0 => none
    | n + 1 => (k.reproduce r n x).map (put k n)
  else if x.space = 4 then k.recomputeSlot r x.addr
  else some { k with mem := k.mem.heal x.space x.addr x.len }

/-- The causes under which an error that a recovery serves is logged. -/
def redoCauses : List Cause := [.parity, .memUncorr]

/-- A recovery has failed: the error is class S (03 R86; 09 R238; 17 R416). -/
def Redo.failure (x : Redo) (unit uidx : Nat) : RawErr :=
  let cause : Cause := if x.parity then .parity else .memUncorr
  { cause := cause, cls := .S, unit := unit, uidx := uidx, detail := anyDetail, failureOf := some cause }

/-- Recover several; the first that fails ends it. -/
def Channel.recoverAll (k : Channel) (r : ReedId) (unit uidx : Nat) : List Redo → Except RawErr Channel
  | [] => .ok k
  | x :: xs => match k.recover r x with
    | some k => k.recoverAll r unit uidx xs
    | none => .error (x.failure unit uidx)

/-- Read a chord of a tensor for a unit whose action goes on in the same command: what cannot be read is recovered and read again
(09 R238). The flag tells that a recovery ran. -/
def Channel.readNow (k : Channel) (unit uidx : Nat) (r : ReedId) (t : TensorDesc) (i : Nat) : ChordIn × Bool × Channel :=
  let (x, k) := k.readChord unit uidx r t i []
  match x.redo with
  | none => (x, false, k)
  | some y =>
    match k.recover r y with
    | none => ({ x with redo := none, lost := true }, true, k.raise (y.failure unit uidx))
    | some k =>
      let (x, k) := k.readChord unit uidx r t i [y]
      (x, true, if x.lost then k else { k with err := k.err.endRecovery unit uidx redoCauses 1 })

/-- An entry of the update pass that is no tile reads a chord of a versioned tensor whose tag is not that of its version: class S, and the
step aborts (08 R207, R213). -/
def wrongTag (e : Entry) (want : Option Nat) (c : ChordRead) : Bool :=
  match e.mb == 0xFF, want, c with
  | true, some v, .good c => c.side.ver != v
  | _, _, _ => false

/-- Read bytes that no chord holds for a unit whose action goes on in the same command; what they are is told by the tensor that covers
them (09 R238). None when an error of class S or above ends it. -/
def Channel.readPlace (k : Channel) (unit uidx : Nat) (r : ReedId) (space addr n : Nat) : Option (List Byte) × Channel :=
  let (res, k) := k.readBytes unit uidx r space addr n
  if res.err = .none ∨ res.err = .addr then (some res.bytes, k)
  else
    let x : Redo := { space := space, addr := addr, len := n }
    let t := k.score.bind (fun sc => Score.tensorHolding sc space addr)
    let parity := res.err == .parity
    let (y, k) := k.readError unit uidx r [] x (if parity then .parity else .memUncorr)
      (if parity then .D else uncorrClass t.isSome res.cls ((t.getD {}).role)) (if parity then anyDetail else addr / pageBytes)
    match y with
    | none => (none, k)
    | some y => match k.recover r y with
      | none => (none, k.raise (y.failure unit uidx))
      | some k =>
        let (res, k) := k.readBytes unit uidx r space addr n
        (some res.bytes, { k with err := k.err.endRecovery unit uidx redoCauses 1 })

/-- CHORD_RELOAD_DONE (03 R86, R87; 09 R238): the chords are back and the abandoned pass is recomputed at the P in force; a recovery that
fails, or that would need a ninth pass, is class S. Bits disturbed meanwhile are met by what follows, so that a second parity error in the
same chord is class S. -/
def execChordReloadDone (c : ChanId) (r : ReedId) (upsets : List Upset) (s : State) : Host.Outcome State Fault Refusal :=
  .next (s.modChan c (fun k => match k.tileIn r .chordReload with
    | none => k.disturbed upsets
    | some t =>
      match k.recoverAll r 0 r.val t.redo with
      | .error e => (k.disturbed upsets).failTile r e
      | .ok k' =>
        if 8 ≤ t.passes then (k.disturbed upsets).failTile r ((t.redo.headD {}).failure 0 r.val)
        else (k'.disturbed upsets).extraPass r .errorRetry (fun t => { t with
          redone := t.redone ++ t.redo, parRecovered := t.parRecovered || t.redo.any Redo.parity })))

/-! ### Version reloads (08 R213) -/

/-- Reload the chords of a stored operand from the buffer its version resolves to (08 R213). -/
def Channel.reloadOperand (k : Channel) (r : ReedId) (t : TileRun) (o : OpndDesc) (isB : Bool) : Channel :=
  match k.readTensor t.mb o.tensor false, o.wide with
  | some (ix, some _), none =>
    let d := t.desc
    let src := tensorAsFmt (k.tensor ix) (rungFmt (Score.fmtOf (k.tensor o.tensor).layout) (if isB then t.rungB else t.rungA))
    let kc := d.k / 16
    let lr := if isB then d.prod == 1 else d.prod != 2
    let org := (if isB then d.n0 else d.m0) / 16
    let sz := Score.chordSize src
    (List.range (8 * kc)).foldl (fun (k : Channel) n =>
      let (i, j) := if lr then (n / kc, n % kc) else (n % 8, n / 8)
      let row := if lr then org + i else o.k0 / 16 + j
      let col := if lr then o.k0 / 16 + j else org + i
      let (x, _, k) := k.readNow 0 r.val r src (row * Score.gridCols src + col)
      if x.lost then k
      else k.writeBytes 0 r.val r t.entry 3 (o.sram + sz * n) (if x.poisoned then poisonBytes src else x.bytes)) k
  | _, _ => k

/-- VERSION_RELOAD_DONE (08 R213; 03 R88). -/
def execVersionReloadDone (c : ChanId) (r : ReedId) (s : State) : Host.Outcome State Fault Refusal :=
  .next (s.modChan c (fun k => match k.tileIn r .versionReload with
    | none => k
    | some t =>
      let k := (k.reloadOperand r t t.desc.a false).reloadOperand r t t.desc.b true
      let k := (k.modTile r (fun t => { t with versionRetry := 1 })).tilePass r
      if (k.tileIn r .failed).isSome then k else { k with err := k.err.endRecovery 0 r.val [.versionReload] 1 }))

end Sys2Proof.Machine
end

