-- ==== Sys2Proof/Machine/Operands.lean ====
section
/-! DEFINITION. The operand forms of a Valve instruction: the fields of its word, the faults a program may have, the lanes
that execute it and the values they read (06 R139, R141, R144, R145, R147). -/

namespace Sys2Proof.Machine

open Sys2Proof Sys2Proof.Num

/-- OP (06 R144). -/
def wOp (w : Nat) : Nat := bitsOf w 5 0
/-- VD (06 R144). -/
def wVd (w : Nat) : Nat := bitsOf w 9 6
/-- VA (06 R144). -/
def wVa (w : Nat) : Nat := bitsOf w 13 10
/-- SB (06 R144). -/
def wSb (w : Nat) : Nat := bitsOf w 19 14
/-- VC (06 R144). -/
def wVc (w : Nat) : Nat := bitsOf w 23 20
/-- TY (06 R144). -/
def wTy (w : Nat) : Nat := bitsOf w 25 24
/-- PK (06 R144). -/
def wPk (w : Nat) : Nat := bitsOf w 27 26
/-- PM (06 R144). -/
def wPm (w : Nat) : Nat := bitsOf w 29 28
/-- RND (06 R144). -/
def wRnd (w : Nat) : Nat := bitsOf w 32 30
/-- IMM (06 R144). -/
def wImm (w : Nat) : Nat := bitsOf w 48 33

/-- The rounding mode of an RND code (06 R144). -/
def rndOf : Nat → Rnd
  | 1 => .rtz | 2 => .sr | 3 => .up | 4 => .down | 5 => .away | _ => .rne

/-- Does a word hold a reserved code or nonzero reserved bits, or a directed rounding mode in fast mode? (06 R145) -/
def wordFault (strict : Bool) (w : Nat) : Bool :=
  decide (0x1E < wOp w) || decide (0x30 ≤ wSb w) || wPm w == 3 || decide (6 ≤ wRnd w) || bitsOf w 63 49 != 0
    || (!strict && decide (3 ≤ wRnd w))

/-- Does a program have a fault? (06 R145) -/
def programFault (strict : Bool) (n vl : Nat) (words : List Nat) : Bool :=
  n == 0 || decide (64 < n) || vl == 0 || decide (256 < vl) || words.any (wordFault strict)

/-- A lane of vector register `v`. -/
def Run.lane (x : Run) (v l : Nat) : Nat := (x.v.getD v []).getD l 0

/-- Predicate `p` of a lane. -/
def Run.predAt (x : Run) (p l : Nat) : Bool := (x.pred.getD p []).getD l false

/-- Does a lane execute an instruction: active and permitted by the predicate? (06 R141, R144) -/
def Run.executes (x : Run) (w l : Nat) : Bool :=
  decide (l < x.desc.vl) &&
    match wPm w with
    | 0 => true
    | 1 => x.predAt (wPk w) l
    | 2 => !x.predAt (wPk w) l
    | _ => false

/-- Second source of a lane: a vector register or a scalar (06 R144). -/
def Run.second (x : Run) (w l : Nat) : Nat := if wSb w < 16 then x.lane (wSb w) l else x.scal.getD (wSb w - 16) 0

/-- What a lane reads for an instruction: its number, a, b and c, eight random bits and a free value. -/
structure LaneIn where
  lane : Nat := 0
  a : Nat := 0
  b : Nat := 0
  c : Nat := 0
  r8 : Nat := 0
  free : Nat := 0
deriving DecidableEq, Repr

/-- What a lane does: the bits it writes to VD, the flags it raises, the predicate it writes, and the events of QNT and the
permutes. -/
structure LaneOut where
  bits : Option Nat := none
  fl : Lane.Flags := {}
  pred : Option Bool := none
  pb : Bool := false
  crushed : Bool := false
  sat : Bool := false
  oor : Bool := false
  fault : Bool := false
deriving DecidableEq, Repr

/-- A lane's result as 16 bits with flags. -/
def LaneOut.ofRes (r : Lane.Res) : LaneOut := { bits := some r.bits, fl := r.fl }

/-- A result that the instruction table leaves open for this lane type or immediate: 16 free bits (log 5). -/
def LaneOut.open_ (i : LaneIn) : LaneOut := { bits := some (i.free % 65536) }

/-- The random source of a lane, before any draw the seed of the step in force (02 R48); 1 before any step has seeded it. -/
def Valve.source (v : Valve) (job : Nat) (c : ChanId) (r : ReedId) (l : Nat) : Nat :=
  match SMap.get 0 v.lfsr l, v.seedStep with
  | 0, some st => Lane.laneSeed job st c.val r.val l
  | 0, none => 1
  | x, _ => x

/-- The random source of a lane of the quantiser that writes a Valve's output streams, likewise (02 R48; log 62). -/
def Valve.quantSource (v : Valve) (job : Nat) (c : ChanId) (r : ReedId) (l : Nat) : Nat :=
  match SMap.get 0 v.qlfsr l, v.seedStep with
  | 0, some st => Lane.laneSeed job st c.val r.val (Config.quantiserLane l % 65536)
  | 0, none => 1
  | x, _ => x

end Sys2Proof.Machine
end

