-- ==== Sys2Proof/Machine/Flags.lean ====
section
/-! DEFINITION. The flags of a Valve run: the exception register of a lane, the sticky flags, the run status word and the
event counts (06 R149, R150, R154, R155). -/

namespace Sys2Proof.Machine

open Sys2Proof

/-- The sticky flags of a run after a lane has raised some; V_UNF and V_INX only in strict mode (06 R150). -/
def Run.raiseFlags (x : Run) (f : Lane.Flags) : Run :=
  { x with vInv := x.vInv || f.inv, vDz := x.vDz || f.dz, vOvf := x.vOvf || f.ovf
           vUnf := x.vUnf || (x.set.strict && f.unf), vInx := x.vInx || (x.set.strict && f.inx) }

/-- The exception register of a lane after an instruction ORs its flags in (06 R150). -/
def xfOr (xf : Nat) (f : Lane.Flags) : Nat := xf ||| Lane.Flags.code f

/-- The run status word (06 R154): instruction index and lane of a fault, if there was one. -/
def Run.statusWord (x : Run) (fault : Option (Nat × Nat)) : Nat :=
  bit x.vInv + 2 * bit x.vDz + 4 * bit x.vOvf + 8 * bit x.vUnf + 16 * bit x.vInx + 32 * bit x.permOor + 64 * bit x.qpsn
    + (match fault with | some (pc, lane) => 128 + 256 * (pc % 64) + 2 ^ 14 * (lane % 256) | none => 0)

/-- Saturating sums of the Valve counters (06 R155). -/
def ValveCnt.add (a b : ValveCnt) : ValveCnt :=
  { vInv := sat32 a.vInv b.vInv, vDz := sat32 a.vDz b.vDz, vOvf := sat32 a.vOvf b.vOvf
    permOor := sat32 a.permOor b.permOor, qpsn := sat32 a.qpsn b.qpsn, vfault := sat32 a.vfault b.vfault
    droneSat := sat32 a.droneSat b.droneSat }

/-- The events of an element step, once per lane that raised them (06 R155). -/
def Run.stepCounts (x : Run) : ValveCnt :=
  let n := fun (i : Nat) => (x.xf.filter (fun f => bitOf f i)).length
  { vInv := n 0, vDz := n 1, vOvf := n 2, permOor := x.oorLanes.length, qpsn := 0 }

/-- The product to which a run's events and records belong: that of the tile output it consumed, else byte 28 of its
descriptor (06 R155). -/
def Run.product (x : Run) : Nat := match x.src with | some o => o.prod | none => x.desc.prod

end Sys2Proof.Machine
end

