-- ==== Sys2Proof/Machine/Drone.lean ====
section
/-! DEFINITION. The Drone: how taps are folded into accumulator groups and what an emission gives (06 R157, R158). -/

namespace Sys2Proof.Machine

open Sys2Proof Sys2Proof.Num

/-- Round to the extended format: a 48-bit significand, RNE (06 R158). -/
def ext48 (x : XNum) : XNum :=
  match x with
  | .fin n m e =>
    if m < 2 ^ 48 then x
    else
      let u := (Nat.log2 m : Int) - 47
      .fin n (roundInt .rne n m (-u) 0) (e + u)
  | x => x

/-- One level of the adding tree. -/
def treeLevel : List XNum → List XNum
  | a :: b :: rest => ext48 (add false a b) :: treeLevel rest
  | l => l

/-- Sum by a fixed binary tree in lane order (06 R158); `n` levels. -/
def treeSum : Nat → List XNum → XNum
  | 0, l => l.headD (zero false)
  | n + 1, l => treeSum n (treeLevel l)

/-- Lanes in a group (06 R157). -/
def groupLanes (code : Nat) : Nat := match code with | 0 => 1 | 1 => 16 | _ => 256

/-- Fold the taps of one group: `taps` holds a value for each lane that executed, by lane; `s` is the element step within
the span (06 R158). Ties of ARGMAX go to the lower index, of two DRN instructions into one accumulator too. -/
def DroneGrp.fold (g : DroneGrp) (strict : Bool) (opr s first : Nat) (taps : List (Option XNum)) : DroneGrp :=
  let vals := taps.map (fun t => t.getD (zero false))
  match opr with
  | 1 => { g with sum := ext48 (add false g.sum (treeSum 8 vals)) }
  | 2 => { g with sum := ext48 (add false g.sum (treeSum 8 (vals.map (fun x => mul x x)))) }
  | 3 => taps.foldl (fun (g : DroneGrp) t => match t with
      | none => g
      | some .nan => if strict then { g with max := some .nan } else g
      | some x => match g.max with
        | some .nan => g
        | some m => if cmp m (abs x) < 0 then { g with max := some (abs x) } else g
        | none => { g with max := some (abs x) }) g
  | 4 => (taps.zipIdx).foldl (fun (g : DroneGrp) t => match t.1 with
      | none => g
      | some .nan => if strict && !g.argNan then { g with argNan := true, arg := 256 * s + first + t.2 + 1 } else g
      | some x =>
        let here := 256 * s + first + t.2 + 1
        let better := match g.max with
          | some m => decide (cmp m (abs x) < 0) || (cmp m (abs x) == 0 && decide (here < g.arg))
          | none => true
        if !g.argNan && better then { g with max := some (abs x), arg := here } else g) g
  | _ => { g with count := sat32 g.count (taps.filter Option.isSome).length }

/-- A DRN taps lane values into an accumulator (06 R157). -/
def DroneAcc.tap (a : DroneAcc) (strict : Bool) (d : DroneDesc) (taps : List (Option XNum)) : DroneAcc :=
  let n := groupLanes d.group
  let groups := if a.groups.isEmpty then List.replicate (256 / n) ({} : DroneGrp) else a.groups
  { a with groups := groups.zipIdx.map (fun (g, i) => g.fold strict d.opr a.steps (n * i) ((taps.drop (n * i)).take n)) }

/-- The elements one group emits, the value for the Tuner, and whether it saturated; `free` fills what the spec leaves open:
a number as an INT16 pair, and the largest of no taps. -/
def DroneGrp.emit (g : DroneGrp) (ieee : Bool) (d : DroneDesc) (free : Nat) : List Nat × XNum × Bool :=
  let halves := fun (n : Nat) => [n % 65536, n / 65536 % 65536]
  match d.opr with
  | 4 => (halves (if g.arg = 0 then free else g.arg - 1), zero false, false)
  | 5 => (halves g.count, ofInt g.count 0, false)
  | o =>
    let x := if o = 3 then g.max else some g.sum
    if d.outf = 2 then (halves free, zero false, false)
    else
      let f := if d.outf = 1 then Fmt.fp16 else Fmt.bf16
      match x with
      | none => ([writeCode f (free % 65536)], decode f (writeCode f (free % 65536)), false)
      | some x =>
        let r := Num.round f .rne ieee false x 0
        let c := noNegZero f r.code
        ([c], decode f c, r.ovf)

/-- An emission: all elements in group order, the values, and how many results saturated (06 R157, R158). -/
def DroneAcc.emit (a : DroneAcc) (ieee : Bool) (d : DroneDesc) (free : Nat → Nat) : List Nat × List XNum × Nat :=
  let n := groupLanes d.group
  let groups := if a.groups.isEmpty then List.replicate (256 / n) ({} : DroneGrp) else a.groups
  let rs := groups.zipIdx.map (fun (g, i) => g.emit ieee d (free i))
  ((rs.map (·.1)).flatten, rs.map (·.2.1), (rs.filter (·.2.2)).length)

/-- Is an emission due at the end of an element step? (06 R157) `last` is the run's last step. -/
def DroneAcc.due (a : DroneAcc) (d : DroneDesc) (last : Bool) : Bool :=
  d.opr != 0 && (last || (d.span != 0 && decide (d.span ≤ a.steps)))

end Sys2Proof.Machine
end

