-- ==== Sys2Proof/Machine/ValveRun.lean ====
section
/-! DEFINITION. A Valve run: its cue, the way an instruction acts on the lanes, its streams, the end of an element step,
faults, restart and completion (06 R139 to R162). -/

namespace Sys2Proof.Machine

open Sys2Proof Sys2Proof.Num

/-! ### Small pieces -/

/-- The channel with the run of a Valve changed. -/
def Channel.modRun (k : Channel) (r : ReedId) (f : Run → Run) : Channel :=
  k.modValve r (fun v => { v with run := v.run.map f })

/-- The channel with counts added to a Valve. -/
def Channel.countValve (k : Channel) (r : ReedId) (n : ValveCnt) : Channel :=
  k.modValve r (fun v => { v with cnt := v.cnt.add n })

/-- The events of an element step are counted, and the invalid ones reported to the Tuner (06 R155). -/
def Channel.stepEvents (k : Channel) (r : ReedId) (x : Run) : Channel :=
  let n := x.stepCounts
  let k := k.countValve r n
  if n.vInv = 0 then k else k.observe x.layer (fun o => { o with inv := modAt o.inv x.product (· + n.vInv) })

/-- Settings of lane arithmetic that a run latched. -/
def Run.env (x : Run) : Lane.Env := { strict := x.set.strict, ieee := x.set.ieee }

/-- Write a chord of an output stream for the run of a Valve (06 R153; 07 R181). -/
def Channel.putChord (k : Channel) (r : ReedId) (entry tIx n : Nat) (c : Chord) : Channel :=
  let (ix, ver) := k.writeTensor tIx
  let t := k.tensor ix
  let c := { c with side := { c.side with ver := ver } }
  k.writeBytes 1 r.val r entry t.space (Score.chordAddr t n) (Chord.toBytes (Score.fmtOf t.layout) c)

/-! ### The cue and its faults (06 R140, R145, R156, R160) -/

/-- Elements a group emits: two halves for a number or an INT16 pair, else one (06 R157). -/
def droneWidth (d : DroneDesc) : Nat := if 4 ≤ d.opr ∨ d.outf = 2 then 2 else 1

/-- The Drone chords that a run writes in the end, as the OUTF of each, by accumulator and emission (06 R157). -/
def Run.droneFmts (x : Run) : List Nat :=
  (x.desc.drones.map (fun d =>
    let n := if d.opr = 0 ∨ d.dest = 1 then 0 else if d.span = 0 then 1 else (x.desc.e + d.span - 1) / d.span
    List.replicate (n * ((256 / groupLanes d.group * droneWidth d + 255) / 256)) d.outf)).flatten

/-- The format of a Drone output chord (06 R157). -/
def droneFmt (outf : Nat) : Fmt := if outf = 1 then .fp16 else .bf16

/-- The output stream that takes a run's Drone chords: O1 where the run has it, else O0. DEDUCED: 06 R157 names an output stream and no
address; the model writes the chords one after the other from the place that the stream's chord after the run's last would have. A
run without an output stream has no place for them, and none is written (log 38). -/
def Run.droneStream (x : Run) : Option StreamDesc := (x.desc.outs.getD 1 none).or (x.desc.outs.getD 0 none)

/-- Write Drone chord `p` of a run. -/
def Channel.putDrone (k : Channel) (r : ReedId) (x : Run) (p : Nat) (f : Fmt) (c : Chord) : Channel :=
  match x.droneStream with
  | none => k
  | some st =>
    let t := k.tensor (k.writeTensor st.tensor).1
    k.writeBytes 1 r.val r x.entry t.space (Score.chordAddr t (st.first + x.desc.e) + Chord.size f * p) (Chord.toBytes f c)

/-- VALVE_FAULT (06 R155, R156): the run ends, every chord of its streams and of its Drone that is not yet written is written poisoned,
the events of the element step under way count, and the error is class S. -/
def Channel.valveFault (k : Channel) (r : ReedId) (pc lane : Nat) : Channel :=
  match (k.reed r).valve.run with
  | none => k
  | some x =>
    let poison := fun (k : Channel) (j : Nat) => match x.desc.outs.getD j none with
      | none => k
      | some st =>
        let t := k.tensor st.tensor
        let bad := Chord.poisoned (Score.fmtOf t.layout) (Score.geomDir t.geom) (Score.geomBlk t.geom)
        ((List.range x.desc.e).map (· + st.first)).foldl (fun (k : Channel) n =>
          if (x.written.getD j []).contains n then k else k.putChord r x.entry st.tensor n bad) k
    let k := poison (poison k 0) 1
    let k := (x.droneFmts.zipIdx).foldl (fun (k : Channel) p =>
      k.putDrone r x p.2 (droneFmt p.1) (Chord.poisoned (droneFmt p.1) 0 1)) k
    let k := k.stepEvents r x
    let k := k.modValve r (fun v => { v with run := none, status := x.statusWord (some (pc, lane)) })
    (k.countValve r { vfault := 1 }).raise
      { cause := .valveFault, cls := .S, unit := 1, uidx := r.val, detail := anyDetail }

/-- The tensors of a run's streams. -/
def runTensors (d : VrunDesc) : List Nat :=
  (d.ins ++ d.outs).filterMap (fun st => st.map (fun st => st.tensor))

/-- A VRUN cue: the run latches settings, program, scalars and tensor scales, and its program is checked (06 R142, R145, R160). -/
def Channel.cueRun (k : Channel) (r : ReedId) (i : Nat) : Channel :=
  let e := k.entry i
  let d := Score.vrunAt k.pool e.desc
  let v := (k.reed r).valve
  let words := (List.range (min d.n 64)).map (fun j => SMap.get 0 v.words (64 * d.pslot + j))
  let src := (k.reed r).slots.find? (fun (o : OutSlot) => d.ins.any (fun st => match st with
    | some st => st.tensor == o.otensor
    | none => false))
  let x : Run := { entry := i, layer := e.layer, prod := d.prod, desc := d, token := e.sets, set := k.live.latch, prog := words
                   scal := (List.range 32).map (fun j => SMap.get 0 v.scal j), src := src
                   scales := k.latchScales (runTensors d) }
  let k := k.modValve r (fun v => { v with run := some x, records := [] })
  if programFault k.live.strict d.n d.vl words then k.valveFault r 0x3F 0 else k

/-! ### Lanes -/

/-- Run an instruction on the lanes that execute it. `draw` tells that each of them draws eight random bits (02 R47). -/
def Channel.laneOp (k : Channel) (c : ChanId) (r : ReedId) (free : Nat → Nat) (x : Run) (w : Nat) (draw : Bool)
    (f : LaneIn → LaneOut) : Channel :=
  let v := (k.reed r).valve
  let per : List (Option (LaneOut × Nat)) := (List.range 256).map (fun l =>
    if x.executes w l then
      let (r8, nx) := if draw then Lane.next8 (v.source k.bind.seed c r l) else (0, 0)
      some (f { lane := l, a := x.lane (wVa w) l, b := x.second w l, c := x.lane (wVc w) l, r8 := r8, free := free l }, nx)
    else none)
  let outs := per.map (fun p => p.map Prod.fst)
  match (outs.zipIdx).find? (fun p => p.1.any LaneOut.fault) with
  | some p => k.valveFault r x.pc p.2
  | none =>
    let flags := outs.foldl (fun (a : Lane.Flags) o => match o with | some o => a.or o.fl | none => a) {}
    let row := ((x.v.getD (wVd w) []).zip outs).map (fun (old, o) => (o.bind LaneOut.bits).getD old)
    let prow := ((x.pred.getD (wImm w % 4) []).zip outs).map (fun (old, o) => (o.bind LaneOut.pred).getD old)
    let oor := ((outs.zipIdx).filter (fun p => p.1.any LaneOut.oor)).map Prod.snd
    let x' := { x.raiseFlags flags with
      v := setAt x.v (wVd w) row, pred := setAt x.pred (wImm w % 4) prow
      pb := (x.pb.zip outs).map (fun (b, o) => b || o.any LaneOut.pb)
      xf := (x.xf.zip outs).map (fun (b, o) => match o with | some o => xfOr b o.fl | none => b)
      permOor := x.permOor || !oor.isEmpty, oorLanes := (x.oorLanes ++ oor).eraseDups }
    let k := k.modValve r (fun v => { v with
      run := some x'
      lfsr := if draw then ((per.zipIdx).foldl (fun (m : SMap Nat) p => match p.1 with
        | some q => SMap.put m p.2 q.2
        | none => m) v.lfsr) else v.lfsr })
    let crushed := (outs.filter (fun o => o.any LaneOut.crushed)).length
    let sat := (outs.filter (fun o => o.any LaneOut.sat)).length
    if crushed = 0 ∧ sat = 0 then k else k.countQuant r x.layer 9 { crushElem := crushed, satElem := sat }

/-! ### Streams (06 R153; 02 R45, R49) -/

/-- A decoded element as a lane of a type receives it: rounded to the type, an infinity or NaN keeping its class (02 R51). -/
def toLane (env : Lane.Env) (ty : Lane.Ty) (rnd : Rnd) (x : XNum) (r8 : Nat) : Lane.Res :=
  if ty.isFloat then
    match x with
    | .nan => { bits := Lane.nanBits ty }
    | x => Lane.fround env ty rnd x r8
  else
    let (lo, hi) := Lane.ilim ty
    match x with
    | .nan => { bits := 0, fl := { inv := true } }
    | .inf n => { bits := ofSigned 16 (if n then lo else hi), fl := { ovf := true } }
    | .fin n m e =>
      let q := roundInt rnd n m e r8
      Lane.isat ty (if n then -(q : Int) else q)

/-- An input chord failed its check: the run is abandoned and its data are recovered before it restarts, or an error of class S or above
ends it (06 R161). -/
def Channel.abandonRun (k : Channel) (r : ReedId) (x : Run) (redo : Option Redo) : Channel :=
  match redo with
  | none => k.modRun r (fun x => { x with failed := true })
  | some y =>
    let k := k.raise { cause := .valveRestart, cls := .D, unit := 1, uidx := r.val, detail := anyDetail }
    (k.tagEntry x.entry .errorRetry).modRun r (fun x => { x with abandoned := true, redo := [y] })

/-- The chord an input stream delivers in an element step: from the output buffer when the run consumes that tile's output,
one chord after the other; else from memory (log 33). The flag tells that the run goes on. -/
def Channel.streamChord (k : Channel) (r : ReedId) (x : Run) (st : StreamDesc) : ChordRead × Fmt × XNum × Bool × Channel :=
  let stop := fun (k : Channel) => (ChordRead.fault, Fmt.bf16, zero false, false, k)
  let wrongVersion := fun (k : Channel) =>
    stop ((k.raise { cause := .versionFault, cls := .S, unit := 1, uidx := r.val, detail := anyDetail }).abandonRun r x none)
  match x.src.bind (fun o => if o.otensor = st.tensor then some o else none) with
  | some o =>
    if (k.reed r).slots.any (fun (y : OutSlot) => y.tile.entry == o.tile.entry && y.parity) then
      let (redo, k) := k.readError 1 r.val r x.redone { space := 4, addr := o.tile.entry, len := 0 } .parity .D anyDetail
      stop ((k.countLayer o.tile { parErr := 1 }).abandonRun r x redo)
    else (.good (o.chords.getD (x.step % 64) {}), o.fmt, .fin false 1 0, true, k)
  | none =>
    match k.readTensor (k.entry x.entry).mb st.tensor false with
    | none => wrongVersion k
    | some (ix, want) =>
      let t := k.tensor ix
      let f := Score.fmtOf t.layout
      let (ci, k) := k.readChord 1 r.val r t (st.first + x.step) x.redone
      if ci.lost || ci.redo.isSome then
        let parity := t.space == 3 && (match ci.redo with | some y => y.parity | none => false)
        stop ((if parity then k.countAt x.layer x.product { parErr := 1 } else k).abandonRun r x ci.redo)
      else
        let cr := if ci.poisoned then ChordRead.fault else Chord.ofBytes f ci.bytes
        let tagBad := match cr, want with | .good ch, some v => ch.side.ver != v | _, _ => false
        if tagBad then wrongVersion k
        else
          let bad := match cr with | .good _ => false | _ => true
          let k := if bad then ((k.countReed r { fmtFault := 1 }).countAt x.layer x.product { fmtFault := 1 }).observe x.layer
            (fun o => { o with poison := modAt o.poison x.product (· + 1) }) else k
          (cr, f, scaleIn x.scales ix, true, k)

/-- IN (06 R146, R153). -/
def Channel.valveIn (k : Channel) (c : ChanId) (r : ReedId) (free : Nat → Nat) (x : Run) (w : Nat) : Channel :=
  match x.desc.ins.getD (wImm w % 4) none with
  | none => k.laneOp c r free x w false LaneOut.open_
  | some st =>
    let (cr, f, ts, go, k) := k.streamChord r x st
    if !go then k
    else if st.mode = 0 then
      let codes := match cr with | .good ch => ch.codes | _ => List.replicate 256 0
      k.laneOp c r free x w false (fun i => { bits := some (codes.getD i.lane 0) })
    else
      let es := Chord.readElements f ts cr
      let ty := Lane.Ty.ofCode st.ty
      let rnd := rndOf st.rnd
      k.laneOp c r free x w (rnd == .sr) (fun i => LaneOut.ofRes (toLane x.env ty rnd (plusZero (es.getD i.lane (zero false))) i.r8))

/-- OUT gathers lanes for a stream; the stream writer takes them at the end of the element step (06 R146, R153). -/
def Channel.valveOut (k : Channel) (r : ReedId) (x : Run) (w : Nat) : Channel :=
  let j := wImm w % 2
  let old := match x.gather.getD j none with | some g => g.2 | none => List.replicate 256 0
  let lanes := (old.zipIdx).map (fun (o, l) => if x.executes w l then x.lane (wVa w) l else o)
  k.modRun r (fun x => { x with gather := setAt x.gather j (some (wTy w, lanes)) })

/-- Line of lane `l` of a chord whose blocks run along its rows or its columns (02 R37). -/
def laneLine (dir l : Nat) : Nat := if dir = 1 then l % 16 else l / 16

/-- Is line `n` of a raw block group (or its whole 2-D block) poisoned by a lane whose PB is set? (06 R153) -/
def linePoisoned (dir : Nat) (pb : List Bool) (n : Nat) : Bool :=
  (pb.zipIdx).any (fun (b, l) => b && (dir == 2 || laneLine dir l == n))

/-- The element codes of a raw chord: the low bits of each lane, as a tensor holds them; lanes at VL and above and elements beyond the
tensor are padding (06 R141, R153; 02 R38, R49, R52). -/
def rawCodes (t : TensorDesc) (vl : Nat) (h : HeldChord) : List Nat :=
  let f := Score.fmtOf t.layout
  let gc := Score.gridCols t
  (h.lanes.zipIdx).map (fun (v, l) =>
    if vl ≤ l ∨ t.rows ≤ h.chord / gc * 16 + l / 16 ∨ t.cols ≤ h.chord % gc * 16 + l % 16 then 0
    else writeCode f (v % 2 ^ Fmt.bits f))

/-- The chords of one block group of a raw output stream (06 R153). A block with a lane whose PB is set is poisoned in every chord it
reaches, and a zero block has code 0x00; in a sixteen-bit format every other code is 0x7F (02 R36, R41, R45). The manual gives no other
scale code of such a stream: it is a free value among those that are no poison and no format fault, one for the whole block (02 R34,
R35, R42; log 5). -/
def rawGroup (t : TensorDesc) (vl : Nat) (group : List HeldChord) (free : Nat → Nat) : List Chord :=
  let f := Score.fmtOf t.layout
  let dir := Score.geomDir t.geom
  let blk := Score.geomBlk t.geom
  let scl := bitOf t.layout 4
  let wide := f == .bf16 || f == .fp16
  let bad := (List.range 16).map (fun n => group.any (fun h => linePoisoned dir h.pb n))
  let codes := group.map (fun h => ((rawCodes t vl h).zipIdx).map (fun (v, l) => if bad.getD (laneLine dir l) false then 0 else v))
  let zeroAt := fun (p : Nat → Bool) => codes.all (fun cs => cs.zipIdx.all (fun (v, l) => v == 0 || !p l))
  let line := fun (n l : Nat) => dir == 2 || laneLine dir l == n
  let half := fun (l : Nat) => decide (8 ≤ (if dir = 1 then l / 16 else l % 16))
  let scale := fun n => if bad.getD n false then 0xFF else if wide then 0x7F
    else if zeroAt (fun l => line n l && (blk != 0 || !half l)) then 0 else if scl then 1 + free n % 0x7E else free n % 0xFF
  let delta := fun n =>
    let lo := max (scale n) 8 - 8
    let hi := min (scale n + 7) 0xFE
    if bad.getD n false then 0
    else ofSigned 4 (((if zeroAt (fun l => line n l && half l) then lo else lo + free (16 + n) % (hi - lo + 1) : Nat) : Int) - (scale n : Int))
  let dbytes := (List.range 8).map (fun n => if blk = 0 ∧ dir ≠ 2 then delta (2 * n) + 16 * delta (2 * n + 1) else 0)
  let psn := bad.any id
  codes.map (fun cs =>
    { codes := cs
      side := { scales := (if dir = 2 then scale 0 :: List.replicate 15 0 else (List.range 16).map scale)
                zb := !psn && zeroAt (fun _ => true), psn := psn, dir := dir, blk := blk, fmt := Fmt.id f
                scl := scl, sym := bitOf t.layout 5, outl := dbytes.take 6, ocnt := dbytes.getD 6 0, b31 := dbytes.getD 7 0 } })

/-- The chord of exception registers that XMAP writes (06 R141, R150); in fast mode XF is not kept and the codes are free.
DESIGN CHOICE: ZB tells that the chord itself is all zero, though its blocks of 32 reach into a neighbour (log 63). -/
def xfChord (strict : Bool) (vl : Nat) (xf : List Nat) (free : Nat → Nat) : Chord :=
  let codes := (xf.zipIdx).map (fun (v, l) => if vl ≤ l then 0 else if strict then v % 32 else free l % 256)
  { codes := codes
    side := { scales := List.replicate 16 0x7F, zb := codes.all (· == 0), dir := 0, blk := 2, fmt := Fmt.id .int8 } }

/-- The chords that share their blocks with chord `n` of a stream, in order along the block direction, as far as
the tensor and the run reach (06 R153; 02 R37). -/
def blockMates (t : TensorDesc) (first e n : Nat) : List Nat :=
  let gc := Score.gridCols t
  let gr := Score.gridRows t
  let p := QGrid.blkSize (Score.geomBlk t.geom) / 16
  let row := n / gc
  let col := n % gc
  let inRun := fun m => decide (first ≤ m ∧ m < first + e)
  if p ≤ 1 ∨ Score.geomDir t.geom = 2 then [n]
  else if Score.geomDir t.geom = 1 then
    (((List.range p).map (· + row / p * p)).filter (fun x => decide (x < gr))).map (fun x => x * gc + col) |>.filter inRun
  else (((List.range p).map (· + col / p * p)).filter (fun x => decide (x < gc))).map (fun x => row * gc + x) |>.filter inRun

/-- Eight random bits from each lane of the stream quantiser, for the elements that draw (02 R47, R48). -/
def Channel.quantDraw (k : Channel) (c : ChanId) (r : ReedId) (draws : Nat → Bool) : List Nat × Channel :=
  let v := (k.reed r).valve
  let per := (List.range 256).map (fun l => if draws l then some (Lane.next8 (v.quantSource k.bind.seed c r l)) else none)
  (per.map (fun p => match p with | some q => q.1 | none => 0),
   k.modValve r (fun v => { v with
     qlfsr := (per.zipIdx).foldl (fun (m : SMap Nat) p => match p.1 with
       | some q => SMap.put m p.2 q.2
       | none => m) v.qlfsr }))

/-- Quantise the chords of one block group and write them (06 R153; 04 R118). Under stochastic rounding each element that is no padding
draws from its lane of the quantiser, chord by chord (02 R47, R48; log 62). -/
def Channel.quantGroup (k : Channel) (c : ChanId) (r : ReedId) (free : Nat → Nat) (x : Run) (st : StreamDesc)
    (group : List HeldChord) : Channel :=
  let t := k.tensor st.tensor
  let f := Score.fmtOf t.layout
  let gc := Score.gridCols t
  let cols := Score.geomDir t.geom == 1
  let rnd := rndOf st.rnd
  let q := quantCfg x.set (scaleIn x.scales st.tensor) t.layout f rnd
  let pad := fun (h : HeldChord) (l : Nat) =>
    decide (x.desc.vl ≤ l ∨ t.rows ≤ h.chord / gc * 16 + l / 16 ∨ t.cols ≤ h.chord % gc * 16 + l % 16)
  let (rs, k) := group.foldl (fun (a : List (List Nat) × Channel) h =>
    if rnd = .sr then let (r8, k) := a.2.quantDraw c r (fun l => !pad h l); (a.1 ++ [r8], k)
    else (a.1 ++ [[]], a.2)) ([], k)
  let src := fun (h : HeldChord) (ln p i : Nat) =>
    let l := if cols then 16 * p + ln else 16 * ln + p
    let ty := Lane.Ty.ofCode h.ty
    let val := if ty.isFloat then Lane.fval ty (h.lanes.getD l 0) else Lane.fval .bf16 (free (256 * i + l) % 65536)
    ({ x := val, r8 := (rs.getD i []).getD l 0, pad := pad h l } : Quant.Src)
  let lines := (List.range 16).map (fun ln =>
    ((group.zipIdx).map (fun (h, i) => (List.range 16).map (fun p => src h ln p i))).flatten)
  let (chs, cnt, _) := QGrid.strip q (geomOf t.geom) (st.vout && bitOf x.set.obMode 2) (decode .fp16 x.set.promote) lines
  let k := (group.zip chs).foldl (fun (k : Channel) p =>
    k.putChord r x.entry st.tensor p.1.chord (QGrid.toChord f q.scl q.sym false (geomOf t.geom) 0 p.2)) k
  k.countQuant r x.layer 9 cnt

/-- Write the chords of one block group of a raw stream (06 R153). -/
def Channel.writeRaw (k : Channel) (r : ReedId) (free : Nat → Nat) (x : Run) (st : StreamDesc) (group : List HeldChord) : Channel :=
  (group.zip (rawGroup (k.tensor st.tensor) x.desc.vl group free)).foldl (fun (k : Channel) p =>
    k.putChord r x.entry st.tensor p.1.chord p.2) k

/-- Free values that one block group may use. -/
def groupFree : Nat := 2048

/-- A stream writes every block group that is now complete, or, when the run ends, all (06 R153). -/
def Channel.streamFlush (k : Channel) (c : ChanId) (r : ReedId) (free : Nat → Nat) (x : Run) (j : Nat) (st : StreamDesc) (force : Bool) :
    Channel × Run :=
  let t := k.tensor st.tensor
  let held := x.held.getD j []
  let mates := fun n => blockMates t st.first x.desc.e n
  let ready := held.filter (fun h => force || (mates h.chord).all (fun m => held.any (fun g => g.chord == m)))
  let keys := (ready.map (fun h => mates h.chord)).eraseDups
  let k := (keys.zipIdx).foldl (fun (k : Channel) p =>
    let group := p.1.filterMap (fun m => ready.find? (fun h => h.chord == m))
    let free := fun (i : Nat) => free (groupFree * p.2 + i)
    if st.mode = 0 then k.writeRaw r free x st group else k.quantGroup c r free x st group) k
  let done := ready.map (fun h => h.chord)
  (k, { x with held := setAt x.held j (held.filter (fun h => !done.contains h.chord))
               written := setAt x.written j (x.written.getD j [] ++ done) })

/-- The stream writer of stream `j` at the end of an element step. -/
def Channel.streamOut (k : Channel) (c : ChanId) (r : ReedId) (free : Nat → Nat) (x : Run) (j : Nat) : Channel × Run :=
  match x.desc.outs.getD j none with
  | none => (k, x)
  | some st =>
    let n := st.first + x.step
    if st.xmap then (k.putChord r x.entry st.tensor n (xfChord x.set.strict x.desc.vl x.xf free),
      { x with written := setAt x.written j (x.written.getD j [] ++ [n]) })
    else match x.gather.getD j none with
      | none => (k, x)
      | some (ty, lanes) =>
        let h : HeldChord := { chord := n, ty := ty, lanes := lanes, pb := x.pb }
        k.streamFlush c r free { x with held := setAt x.held j (x.held.getD j [] ++ [h]) } j st false

/-- Blocks poisoned by PB: each lane whose PB is set counts once in an element step that wrote a raw stream (06 R155). -/
def Channel.poisonEvents (k : Channel) (r : ReedId) (x : Run) : Channel × Run :=
  let raw := fun (j : Nat) => match x.desc.outs.getD j none with
    | some st => st.mode == 0 && !st.xmap && (x.gather.getD j none).isSome
    | none => false
  let bad := (x.pb.filter id).length
  if (raw 0 || raw 1) && bad != 0 then
    ((k.countValve r { qpsn := bad }).observe x.layer (fun o => { o with poison := modAt o.poison x.product (· + bad) }),
     { x with qpsn := true })
  else (k, x)

/-! ### The Drone in a run (06 R157 to R159) -/

/-- DRN: the executing lanes tap a into an accumulator. -/
def Channel.valveDrn (k : Channel) (r : ReedId) (x : Run) (w : Nat) : Channel :=
  let j := wImm w % 8
  let d := x.desc.drones.getD j {}
  if d.opr = 0 then k
  else
    let ty := Lane.Ty.ofCode (wTy w)
    let val := fun (l : Nat) => let b := x.lane (wVa w) l; if ty.isFloat then Lane.fval ty b else ofInt (Lane.ival ty b) 0
    let taps := (List.range 256).map (fun l => if x.executes w l then some (val l) else none)
    k.modRun r (fun x => { x with drones := modAt x.drones j (fun a => a.tap x.set.strict d taps) })

/-- Which of the five sums of squares of a layer a Tuner record feeds: metric 3 covers two, the update's before the
weights' (log 37). -/
def metricSlot (drones : List DroneDesc) (j : Nat) : Nat :=
  let d := drones.getD j {}
  if d.metric < 3 then d.metric
  else if ((drones.take j).any (fun (y : DroneDesc) => y.tuner && y.metric == 3 && y.opr == 2)) then 4 else 3

/-- Accumulator `j` at the end of an element step: it emits when due. -/
def Channel.droneStep (k : Channel) (r : ReedId) (free : Nat → Nat) (x : Run) (last : Bool) (j : Nat) : Channel × Run :=
  let d := x.desc.drones.getD j {}
  let a := x.drones.getD j {}
  let a := { a with steps := a.steps + 1 }
  if !a.due d last then (k, { x with drones := setAt x.drones j a })
  else
    let (els, vals, sat) := a.emit x.set.ieee d (fun i => free (300 * j + i))
    let rec_ : DroneRec := { acc := j, emission := a.emitted, layer := x.layer, prod := x.product, tuner := d.tuner
                             metric := d.metric, elems := els }
    let k := if sat = 0 then k else k.countValve r { droneSat := sat }
    let k := if d.dest = 0 then k else k.modValve r (fun v => { v with records := v.records ++ [rec_] })
    let new := if d.dest ≠ 0 ∧ d.tuner ∧ d.opr = 2 then vals.map (fun v => (metricSlot x.desc.drones j, v)) else []
    let a' : DroneAcc := { emitted := a.emitted + 1, out := if d.dest = 1 then a.out else a.out ++ [els] }
    (k, { x with drones := setAt x.drones j a', sums := x.sums ++ new })

/-! ### Advancing -/

/-- The end of an element step (06 R140, R141, R150, R155). -/
def Channel.endElementStep (k : Channel) (c : ChanId) (r : ReedId) (free : Nat → Nat) (x : Run) : Channel :=
  let (k, x) := k.poisonEvents r x
  let (k, x) := k.streamOut c r free x 0
  let (k, x) := k.streamOut c r (fun i => free (i + groupFree)) x 1
  let last := decide (x.desc.e ≤ x.step + 1)
  let (k, x) := (List.range 8).foldl (fun (s : Channel × Run) j =>
    s.1.droneStep r (fun i => free (i + 2 * groupFree)) s.2 last j) (k, x)
  (k.stepEvents r x).modRun r (fun _ => { x with
    step := x.step + 1, pc := 0, pb := List.replicate 256 false, xf := List.replicate 256 0, oorLanes := [], gather := [none, none] })

/-- After an instruction: the next one, or the end of the element step. -/
def Channel.advance (k : Channel) (c : ChanId) (r : ReedId) (free : Nat → Nat) : Channel :=
  match (k.reed r).valve.run with
  | none => k
  | some x =>
    if x.abandoned || x.failed then k
    else if x.pc + 1 < x.desc.n then k.modRun r (fun x => { x with pc := x.pc + 1 })
    else k.endElementStep c r free x

/-- Free values that one Valve command may use. -/
def valveFree : Nat := 8192

/-- A Valve instruction command: the instruction at the run's index is executed when it is the one the command names
(06 R140). -/
def State.valveOp (s : State) (c : ChanId) (r : ReedId) (op : Nat)
    (body : (Nat → Nat) → Run → Nat → Channel → Channel) : State :=
  let k := s.chan c
  match (k.reed r).valve.run with
  | none => s
  | some x =>
    let w := x.prog.getD x.pc 0
    if x.abandoned || x.failed || decide (x.desc.e ≤ x.step) || wOp w != op then s
    else
      let free := fun (i : Nat) => Config.freeNat (s.freeCtr + i)
      (s.setChan c ((body free x w k).advance c r (fun i => free (i + 256)))).drew valveFree

/-- A lane-wise instruction. -/
def State.laneCmd (s : State) (c : ChanId) (r : ReedId) (op : Nat) (draw : Nat → Bool) (f : Run → Nat → LaneIn → LaneOut) :
    State :=
  s.valveOp c r op (fun free x w k => k.laneOp c r free x w (draw w) (f x w))

/-! ### Restart and completion (06 R161, R140, R154, R159) -/

/-- The run starts again from its first element step with reset registers and empty Drone partials. -/
def Run.restart (x : Run) : Run :=
  { entry := x.entry, layer := x.layer, prod := x.prod, desc := x.desc, token := x.token, set := x.set, prog := x.prog
    scal := x.scal, src := x.src, scales := x.scales, redone := x.redone ++ x.redo }

/-- The channel once what an abandoned run could not read has been recovered: the run restarts; when the recovery fails, the error is
class S and the run ends (06 R161; 03 R86). -/
def Channel.restartRun (k : Channel) (r : ReedId) (x : Run) : Channel :=
  match k.recoverAll r 1 r.val x.redo with
  | .error e => (k.raise e).modRun r (fun x => { x with abandoned := false, failed := true })
  | .ok k =>
    let src := x.src.bind (fun o => ((k.reed r).slots.find? (fun (y : OutSlot) => y.tile.entry == o.tile.entry)).or (some o))
    let k := k.modValve r (fun v => { v with run := some { x.restart with src := src }, records := [] })
    { k with err := k.err.endRecovery 1 r.val [.valveRestart, .parity, .memUncorr] 1 }

/-- VALVE_RESTART. -/
def execValveRestart (c : ChanId) (r : ReedId) (s : State) : Host.Outcome State Fault Refusal :=
  .next (s.modChan c (fun k => match (k.reed r).valve.run with
    | none => k
    | some x => if x.abandoned then k.restartRun r x else k))

/-- The Drone output chords of a run, one emission after the other by accumulator, each cut into chords (06 R157; log 38).
DESIGN CHOICE: their side record has DIR rows and BLK 16, which 06 R157 does not give (log 63). -/
def Channel.droneChords (k : Channel) (r : ReedId) (x : Run) : Channel :=
  let ems := ((x.drones.zip x.desc.drones).map (fun (a, d) => a.out.map (fun els => (d.outf, els)))).flatten
  let parts := (ems.map (fun em => (chunks 256 (em.2.length + 1) em.2).map (fun els => (em.1, els)))).flatten
  (parts.zipIdx).foldl (fun (k : Channel) p =>
    let codes := p.1.2 ++ List.replicate (256 - p.1.2.length) 0
    k.putDrone r x p.2 (droneFmt p.1.1)
      { codes := codes
        side := { scales := List.replicate 16 0x7F, zb := codes.all (· == 0), dir := 0, blk := 1, fmt := Fmt.id (droneFmt p.1.1) } }) k

/-- The run has executed its last element step. -/
def Run.done (x : Run) : Bool := !x.abandoned && !x.failed && decide (x.desc.e ≤ x.step)

/-- What the output streams of a run still hold is written. -/
def Channel.flushRun (k : Channel) (c : ChanId) (r : ReedId) (free : Nat → Nat) (x : Run) : Channel × Run :=
  let flush := fun (s : Channel × Run) (j n : Nat) => match x.desc.outs.getD j none with
    | some st => if st.xmap then s else s.1.streamFlush c r (fun i => free (groupFree * n + i)) s.2 j st true
    | none => s
  flush (flush (k, x) 0 0) 1 (x.held.getD 0 []).length

/-- VRUN_COMPLETE: what the streams still hold is written, Drone results are sent, the status word is passed on and its PERM_OOR mirrored
into that of the tile consumed, the output slot the run consumed is free, and the token is set. -/
def Channel.completeRun (k : Channel) (c : ChanId) (r : ReedId) (free : Nat → Nat) (x : Run) : Channel :=
  let (k, x) := k.flushRun c r free x
  let k := k.droneChords r x
  let k := x.sums.foldl (fun (k : Channel) p => k.observe x.layer (fun o => { o with sums := modAt o.sums p.1 (fun s => add false s p.2) })) k
  let own := fun (n : Nat) => match x.src with | some o => n == o.tile.entry | none => false
  let k := k.modReed r (fun y => { y with
    slots := y.slots.eraseP (fun o => own o.tile.entry)
    words := (match x.src, x.permOor with
      | some o, true => modWord o.tile.entry (fun w => withBit w 16) y.words
      | _, _ => y.words)
    valve := { y.valve with run := none, status := x.statusWord none } })
  k.landEntry x.entry

/-- VRUN_COMPLETE (06 R140, R154, R159). -/
def execVrunComplete (c : ChanId) (r : ReedId) (s : State) : Host.Outcome State Fault Refusal :=
  let free := fun (i : Nat) => Config.freeNat (s.freeCtr + i)
  match ((s.chan c).reed r).valve.run with
  | none => .next s
  | some x =>
    if x.done then .next ((s.modChan c (fun k => k.completeRun c r free x)).drew
      (groupFree * ((x.held.getD 0 []).length + (x.held.getD 1 []).length)))
    else .next s

end Sys2Proof.Machine
end

