-- ==== Sys2Proof/Machine/Valve.lean ====
section
/-! DEFINITION. The Valve's instructions (06 R146 to R153), one meaning each over the lane arithmetic of ValveMath. Where a
lane type or immediate lies outside what the instruction table gives an instruction, the result is a free value (log 39). -/

namespace Sys2Proof.Machine

open Sys2Proof Sys2Proof.Num

/-- The lane type of an instruction. -/
def laneTy (w : Nat) : Lane.Ty := Lane.Ty.ofCode (wTy w)

/-- The rounding mode of an instruction. -/
def laneRnd (w : Nat) : Rnd := rndOf (wRnd w)

/-- Does a float instruction draw random bits? (06 R147) -/
def drawsFloat (w : Nat) : Bool := laneRnd w == .sr && (laneTy w).isFloat

/-- Does CVT draw random bits: it rounds unless both types are integers. -/
def drawsCvt (w : Nat) : Bool := laneRnd w == .sr && ((laneTy w).isFloat || (Lane.Ty.ofCode (wImm w)).isFloat)

/-- An instruction for float types only. -/
def floatOnly (w : Nat) (i : LaneIn) (f : Lane.Res) : LaneOut := if (laneTy w).isFloat then LaneOut.ofRes f else LaneOut.open_ i

/-- A raw result. -/
def rawOut (n : Nat) : LaneOut := { bits := some n }

/-- A permute result: lane `ix` of a as it stood before the instruction; at or above VL it is +0 with PERM_OOR in fast mode
and a fault in strict mode (06 R151). -/
def permLane (a : Nat → Nat) (strict : Bool) (vl ix : Nat) : LaneOut :=
  if ix < vl then rawOut (a ix)
  else if strict then { fault := true }
  else { bits := some 0, oor := true }

/-- NOP (06 R146). -/
def execNop (c : ChanId) (r : ReedId) (s : State) : Host.Outcome State Fault Refusal :=
  .next (s.laneCmd c r 0x00 (fun _ => false) (fun _ _ _ => {}))

/-- ADD (06 R146, R149). -/
def execAdd (c : ChanId) (r : ReedId) (s : State) : Host.Outcome State Fault Refusal :=
  .next (s.laneCmd c r 0x01 (fun w => drawsFloat w) (fun x w i => LaneOut.ofRes (Lane.add2 x.env (laneTy w) (laneRnd w) i.a i.b i.r8)))

/-- SUB (06 R146, R149). -/
def execSub (c : ChanId) (r : ReedId) (s : State) : Host.Outcome State Fault Refusal :=
  .next (s.laneCmd c r 0x02 (fun w => drawsFloat w) (fun x w i => LaneOut.ofRes (Lane.sub2 x.env (laneTy w) (laneRnd w) i.a i.b i.r8)))

/-- MUL (06 R146, R149). -/
def execMul (c : ChanId) (r : ReedId) (s : State) : Host.Outcome State Fault Refusal :=
  .next (s.laneCmd c r 0x03 (fun w => drawsFloat w) (fun x w i => LaneOut.ofRes (Lane.mul2 x.env (laneTy w) (laneRnd w) i.a i.b i.r8)))

/-- FMA: one rounding (06 R146, R149). -/
def execFma (c : ChanId) (r : ReedId) (s : State) : Host.Outcome State Fault Refusal :=
  .next (s.laneCmd c r 0x04 (fun w => drawsFloat w) (fun x w i => floatOnly w i (Lane.fma3 x.env (laneTy w) (laneRnd w) i.a i.b i.c i.r8)))

/-- MIN (06 R146; 02 R54). -/
def execMin (c : ChanId) (r : ReedId) (s : State) : Host.Outcome State Fault Refusal :=
  .next (s.laneCmd c r 0x05 (fun _ => false) (fun x w i => LaneOut.ofRes (Lane.minmax x.env (laneTy w) false i.a i.b)))

/-- MAX (06 R146; 02 R54). -/
def execMax (c : ChanId) (r : ReedId) (s : State) : Host.Outcome State Fault Refusal :=
  .next (s.laneCmd c r 0x06 (fun _ => false) (fun x w i => LaneOut.ofRes (Lane.minmax x.env (laneTy w) true i.a i.b)))

/-- CMP writes predicate IMM[1:0] (06 R146; 02 R53). -/
def execCmp (c : ChanId) (r : ReedId) (s : State) : Host.Outcome State Fault Refusal :=
  .next (s.laneCmd c r 0x07 (fun _ => false) (fun _ w i => { pred := some (Lane.relation (laneTy w) (bitsOf (wImm w) 4 2) i.a i.b) }))

/-- SEL (06 R146). -/
def execSel (c : ChanId) (r : ReedId) (s : State) : Host.Outcome State Fault Refusal :=
  .next (s.laneCmd c r 0x08 (fun _ => false) (fun x w i => rawOut (if x.predAt (wImm w % 4) i.lane then i.a else i.c)))

/-- EXP2 (06 R146, R148, R149). -/
def execExp2 (c : ChanId) (r : ReedId) (s : State) : Host.Outcome State Fault Refusal :=
  .next (s.laneCmd c r 0x09 (fun w => drawsFloat w) (fun x w i => floatOnly w i (Lane.exp2 x.env (laneTy w) (laneRnd w) i.a i.free i.r8)))

/-- LOG2 (06 R146, R148, R149). -/
def execLog2 (c : ChanId) (r : ReedId) (s : State) : Host.Outcome State Fault Refusal :=
  .next (s.laneCmd c r 0x0A (fun w => drawsFloat w) (fun x w i => floatOnly w i (Lane.log2 x.env (laneTy w) (laneRnd w) i.a i.free i.r8)))

/-- RCP (06 R146, R148, R149). -/
def execRcp (c : ChanId) (r : ReedId) (s : State) : Host.Outcome State Fault Refusal :=
  .next (s.laneCmd c r 0x0B (fun w => drawsFloat w) (fun x w i => floatOnly w i (Lane.rcp x.env (laneTy w) (laneRnd w) i.a i.free i.r8)))

/-- RSQRT (06 R146, R148, R149). -/
def execRsqrt (c : ChanId) (r : ReedId) (s : State) : Host.Outcome State Fault Refusal :=
  .next (s.laneCmd c r 0x0C (fun w => drawsFloat w) (fun x w i => floatOnly w i (Lane.rsqrt x.env (laneTy w) (laneRnd w) i.a i.free i.r8)))

/-- TANH (06 R146, R148, R149). -/
def execTanh (c : ChanId) (r : ReedId) (s : State) : Host.Outcome State Fault Refusal :=
  .next (s.laneCmd c r 0x0D (fun w => drawsFloat w) (fun x w i => floatOnly w i (Lane.tanh x.env (laneTy w) (laneRnd w) i.a i.free i.r8)))

/-- SIGM (06 R146, R148, R149). -/
def execSigm (c : ChanId) (r : ReedId) (s : State) : Host.Outcome State Fault Refusal :=
  .next (s.laneCmd c r 0x0E (fun w => drawsFloat w) (fun x w i => floatOnly w i (Lane.sigm x.env (laneTy w) (laneRnd w) i.a i.free i.r8)))

/-- CVT (06 R146, R149). -/
def execCvt (c : ChanId) (r : ReedId) (s : State) : Host.Outcome State Fault Refusal :=
  .next (s.laneCmd c r 0x0F drawsCvt (fun x w i => LaneOut.ofRes (Lane.cvt x.env (laneTy w) (wImm w % 4) (laneRnd w) i.a i.r8)))

/-- PERM (06 R146, R151). -/
def execPerm (c : ChanId) (r : ReedId) (s : State) : Host.Outcome State Fault Refusal :=
  .next (s.laneCmd c r 0x12 (fun _ => false) (fun x w i => permLane (x.lane (wVa w)) x.set.strict x.desc.vl i.b))

/-- PERMX (06 R146, R151): IMM[15:8] must be 0. -/
def execPermx (c : ChanId) (r : ReedId) (s : State) : Host.Outcome State Fault Refusal :=
  .next (s.laneCmd c r 0x13 (fun _ => false) (fun x w i => if 256 ≤ wImm w then LaneOut.open_ i else permLane (x.lane (wVa w)) x.set.strict x.desc.vl (i.lane ^^^ wImm w)))

/-- SHL of INT16 and UINT16 (06 R146). -/
def execShl (c : ChanId) (r : ReedId) (s : State) : Host.Outcome State Fault Refusal :=
  .next (s.laneCmd c r 0x14 (fun _ => false) (fun _ w i => if (laneTy w).isFloat then LaneOut.open_ i else rawOut (Lane.shl i.a i.b)))

/-- SHR of UINT16 (06 R146). -/
def execShr (c : ChanId) (r : ReedId) (s : State) : Host.Outcome State Fault Refusal :=
  .next (s.laneCmd c r 0x15 (fun _ => false) (fun _ w i => if laneTy w = .uint16 then rawOut (Lane.shr i.a i.b) else LaneOut.open_ i))

/-- SAR of INT16 (06 R146). -/
def execSar (c : ChanId) (r : ReedId) (s : State) : Host.Outcome State Fault Refusal :=
  .next (s.laneCmd c r 0x16 (fun _ => false) (fun _ w i => if laneTy w = .int16 then rawOut (Lane.sar i.a i.b) else LaneOut.open_ i))

/-- AND (06 R146). -/
def execAnd (c : ChanId) (r : ReedId) (s : State) : Host.Outcome State Fault Refusal :=
  .next (s.laneCmd c r 0x17 (fun _ => false) (fun _ _ i => rawOut (i.a &&& i.b)))

/-- OR (06 R146). -/
def execOr (c : ChanId) (r : ReedId) (s : State) : Host.Outcome State Fault Refusal :=
  .next (s.laneCmd c r 0x18 (fun _ => false) (fun _ _ i => rawOut (i.a ||| i.b)))

/-- XOR (06 R146). -/
def execXor (c : ChanId) (r : ReedId) (s : State) : Host.Outcome State Fault Refusal :=
  .next (s.laneCmd c r 0x19 (fun _ => false) (fun _ _ i => rawOut (i.a ^^^ i.b)))

/-- MOV copies b unchanged (06 R147). -/
def execMov (c : ChanId) (r : ReedId) (s : State) : Host.Outcome State Fault Refusal :=
  .next (s.laneCmd c r 0x1A (fun _ => false) (fun _ _ i => rawOut i.b))

/-- MOVI writes the immediate unchanged (06 R147). -/
def execMovi (c : ChanId) (r : ReedId) (s : State) : Host.Outcome State Fault Refusal :=
  .next (s.laneCmd c r 0x1E (fun _ => false) (fun _ w _ => rawOut (wImm w)))

/-- QNT (06 R152): the quantiser's element part under a supplied code. -/
def execQnt (c : ChanId) (r : ReedId) (s : State) : Host.Outcome State Fault Refusal :=
  .next (s.laneCmd c r 0x10 drawsFloat (fun x w i =>
    match Fmt.ofId? (wImm w % 16) with
    | some f =>
      if 5 < wImm w % 16 ∨ !(laneTy w).isFloat then LaneOut.open_ i
      else
        let q := Lane.qnt x.env (laneTy w) f (laneRnd w) i.a (i.b % 256) i.r8
        { bits := some q.bits, fl := { ovf := q.sat, unf := q.unf, inx := q.inx }, pb := q.pb, crushed := q.crushed, sat := q.sat }
    | none => LaneOut.open_ i))

/-- DQ (06 R152): decode under a supplied code and round to the lane type. -/
def execDq (c : ChanId) (r : ReedId) (s : State) : Host.Outcome State Fault Refusal :=
  .next (s.laneCmd c r 0x11 drawsFloat (fun x w i =>
    match Fmt.ofId? (wImm w % 16) with
    | some f => floatOnly w i (Lane.dq x.env (laneTy w) f (laneRnd w) i.a (i.b % 256) i.r8)
    | none => LaneOut.open_ i))

/-- IN (06 R146, R153). -/
def execIn (c : ChanId) (r : ReedId) (s : State) : Host.Outcome State Fault Refusal :=
  .next (s.valveOp c r 0x1B (fun free x w k => k.valveIn c r free x w))

/-- OUT (06 R146, R153). -/
def execOut (c : ChanId) (r : ReedId) (s : State) : Host.Outcome State Fault Refusal :=
  .next (s.valveOp c r 0x1C (fun _ x w k => k.valveOut r x w))

/-- DRN (06 R146, R157). -/
def execDrn (c : ChanId) (r : ReedId) (s : State) : Host.Outcome State Fault Refusal :=
  .next (s.valveOp c r 0x1D (fun _ x w k => k.valveDrn r x w))

/-- SCALAR_WRITE (06 R142): the write, to one Reed or to all, waits for the next beat boundary, in the order sent. -/
def execScalarWrite (c : ChanId) (r : Option ReedId) (reg : Fin 32) (value : BitVec 16) (s : State) :
    Host.Outcome State Fault Refusal :=
  .next (s.modChan c (fun k => { k with scalarQ := k.scalarQ ++ [(r, reg.val, value.toNat)] }))

end Sys2Proof.Machine
end

