-- ==== Sys2Proof/Machine/Movers.lean ====
section
/-! DEFINITION. What a data mover's action does when it completes: a program load, a move of chords, a gather, and an import
or export of OCP MX data (02 R56 to R58; 06 R143; 07 R184; 09 R234, R246, R247). -/

namespace Sys2Proof.Machine

open Sys2Proof Sys2Proof.Num

/-- Unit code of a data mover (07 R178). -/
def moverUnit (m : Nat) : Nat := 0x200 + m

/-- The entry a mover is working on when its action has a given code. -/
def Channel.moverEntry (k : Channel) (m action : Nat) : Option (Nat × Entry) :=
  match k.flight (moverUnit m) with
  | some f => if (k.entry f.entry).action = action then some (f.entry, k.entry f.entry) else none
  | none => none

/-- How a mover's work ends: done, an error of class S or above, or with what has to be recovered before it is tried again. -/
inductive MoverEnd where
  | done | lost | again (x : Redo)
deriving DecidableEq, Repr

/-- How a read that an error met goes on. -/
def MoverEnd.ofRedo : Option Redo → MoverEnd
  | some x => .again x
  | none => .lost

/-- The flight of a unit changed. -/
def Channel.modFlight (k : Channel) (unit : Nat) (f : Flight → Flight) : Channel :=
  { k with flights := k.flights.map (fun (g : Flight) => if g.unit == unit then f g else g) }

/-- A mover takes up its action, or takes it up again once what it could not read has been recovered (07 R166, R171; 09 R238, R251):
done, it sets the token; otherwise it is tagged ERROR_RETRY and waits for the recovery, or an error of class S or above ends it. -/
def Channel.moverStep (k : Channel) (m action : Nat) (reed : Entry → ReedId)
    (work : List Redo → Nat → Entry → Channel → MoverEnd × Channel) : Channel :=
  match k.flight (moverUnit m), k.moverEntry m action with
  | some f, some (i, e) =>
    if f.failed then k
    else match k.recoverAll (reed e) 2 m f.redo with
      | .error err => (k.raise err).modFlight (moverUnit m) (fun f => { f with failed := true, redo := [] })
      | .ok k =>
        let done := f.redone ++ f.redo
        match work done i e k with
        | (.done, k) => { k with err := if done.isEmpty then k.err else k.err.endRecovery 2 m redoCauses 1 }.landEntry i
        | (.again x, k) => (k.tagEntry i .errorRetry).modFlight (moverUnit m) (fun f => { f with redo := [x], redone := done })
        | (.lost, k) => k.modFlight (moverUnit m) (fun f => { f with failed := true, redo := [], redone := done })
  | _, _ => k

/-- Read bytes for a mover without a tensor descriptor of its own; what they are is told by the descriptor that covers them (09 R238). -/
def Channel.readRaw (k : Channel) (m : Nat) (r : ReedId) (done : List Redo) (space addr n : Nat) :
    Except MoverEnd (List Byte) × Channel :=
  let (res, k) := k.readBytes 2 m r space addr n
  let x : Redo := { space := space, addr := addr, len := n }
  match res.err with
  | .none | .addr => (.ok res.bytes, k)
  | .parity =>
    let (y, k) := k.readError 2 m r done x .parity .D anyDetail
    (.error (MoverEnd.ofRedo y), k)
  | .uncorr =>
    let t := k.score.bind (fun sc => Score.tensorHolding sc space addr)
    let (y, k) := k.readError 2 m r done x .memUncorr (uncorrClass t.isSome res.cls ((t.getD {}).role)) (addr / pageBytes)
    (.error (MoverEnd.ofRedo y), k)

/-- VERSION_FAULT of a mover. -/
def Channel.moverVersion (k : Channel) (m : Nat) : MoverEnd × Channel :=
  (.lost, k.raise { cause := .versionFault, cls := .S, unit := 2, uidx := m, detail := anyDetail })

/-- The Reed a descriptor's slot field names (07 R181). -/
def Channel.slotOr0 (k : Channel) (slot : Nat) : ReedId := (k.slotReed slot).getD 0

/-! ### PLOAD (06 R143) -/

/-- Does the Valve that a PLOAD loads run the slot to be loaded? (06 R143) -/
def Channel.ploadWaits (k : Channel) (m : Nat) : Bool :=
  match k.moverEntry m 3 with
  | some (_, e) =>
    let d := Score.ploadAt k.pool e.desc
    (match (k.reed (k.slotOr0 d.slot)).valve.run with | some x => x.desc.pslot == d.pslot | none => false)
  | none => false

/-- The program words of a PLOAD are read and written. -/
def Channel.pload (k : Channel) (m : Nat) (done : List Redo) (e : Entry) : MoverEnd × Channel :=
  let d := Score.ploadAt k.pool e.desc
  let r := k.slotOr0 d.slot
  match k.readRaw m r done d.space d.addr (8 * d.count) with
  | (.error x, k) => (x, k)
  | (.ok bs, k) =>
    let words := (List.range d.count).map (fun j => fieldLe bs (8 * j) 8)
    (.done, k.modValve r (fun v => { v with
      words := (words.zipIdx).foldl (fun (m : SMap Nat) w => SMap.set 0 m (64 * d.pslot + w.2) w.1) v.words }))

/-- PLOAD_COMPLETE: the words are written and the token set; a load of the running slot waits for the run to end. -/
def execPloadComplete (c : ChanId) (mover : Fin 32) (s : State) : Host.Outcome State Fault Refusal :=
  .next (s.modChan c (fun k =>
    if k.ploadWaits mover.val then k
    else k.moverStep mover.val 3 (fun e => k.slotOr0 (Score.ploadAt k.pool e.desc).slot) (fun done _ e k => k.pload mover.val done e)))

/-! ### MOVE (07 R184) -/

/-- COUNT whole chords are copied unchanged, in order. -/
def Channel.moveChords (k : Channel) (m : Nat) (done : List Redo) (i : Nat) (e : Entry) : MoverEnd × Channel :=
  let d := Score.moveAt k.pool e.desc
  match k.readTensor e.mb d.srct false with
  | none => k.moverVersion m
  | some (six, want) =>
    let src := k.storedTensor d.srct six
    let dst := k.storedTensor d.dstt (k.writeTensor d.dstt).1
    (List.range d.count).foldl (fun (a : MoverEnd × Channel) j =>
      if a.1 != .done then a
      else
        let (x, k) := a.2.readChord 2 m (k.slotOr0 d.sslot) src (d.sfirst + j) done
        if x.lost || x.redo.isSome then (MoverEnd.ofRedo x.redo, k)
        else if wrongTag e want (Chord.ofBytes (Score.fmtOf src.layout) x.bytes) then k.moverVersion m
        else (.done, k.writeBytes 2 m (k.slotOr0 d.dslot) i dst.space (Score.chordAddr dst (d.dfirst + j))
          (if x.poisoned then poisonBytes src else x.bytes))) (.done, k)

/-- MOVE_COMPLETE. -/
def execMoveComplete (c : ChanId) (mover : Fin 32) (s : State) : Host.Outcome State Fault Refusal :=
  .next (s.modChan c (fun k => k.moverStep mover.val 4 (fun e => k.slotOr0 (Score.moveAt k.pool e.desc).sslot)
    (fun done i e k => k.moveChords mover.val done i e)))

/-! ### PICK (09 R246, R247) -/

/-- One entry of a gather: what lands, 32 zero bytes for a faulted or a refused read (09 R234, R247). -/
def Channel.pickOne (k : Channel) (m : Nat) (done : List Redo) (d : PickDesc) (v : Nat) : Except MoverEnd (List Byte) × Channel :=
  let sect := v % 32
  let addr := bitsOf v 59 5 * 32
  let space := v / 2 ^ 60
  let n := if d.chord then 32 * sect else 32
  let okSect := if d.chord then sect == 5 || sect == 7 || sect == 9 || sect == 17 else sect == 0
  let zeros : Except MoverEnd (List Byte) := .ok (List.replicate 32 0#8)
  let fault := (zeros, k.addrFault 2 m addr)
  if !okSect || decide (1 < space) then fault
  else match k.mem.place space addr with
    | none => fault
    | some q =>
      if !d.chord && q.cls == 0 then
        let k := { k with mem := { k.mem with cnt := { k.mem.cnt with pickRefused := sat32 k.mem.cnt.pickRefused 1 } } }
        (zeros, k.raise { cause := .pickRefused, cls := .S, unit := 2, uidx := m, detail := addr / pageBytes })
      else
        let (res, k) := k.readBytes 2 m 0 space addr n
        let crcBad := d.chord && Hash.crc32c (patch res.bytes (n - 12) [0#8, 0#8, 0#8, 0#8]) != fieldLe res.bytes (n - 12) 4
        if res.err = .addr then (zeros, k)
        else if res.err = .none ∧ !crcBad then (.ok res.bytes, k)
        else
          let k := if d.chord && (crcBad || res.cls == 0) then k.countCrc res.cls else k
          let t := k.score.bind (fun sc => Score.tensorHolding sc space addr)
          let (y, k) := k.readError 2 m 0 done { space := space, addr := addr, len := n } .memUncorr
            (uncorrClass t.isSome res.cls ((t.getD {}).role)) (addr / pageBytes)
          (.error (MoverEnd.ofRedo y), k)

/-- The entries of a gather land: entry i at DEST + 32·i, or + 544·i in chord mode. -/
def Channel.pick (k : Channel) (m : Nat) (done : List Redo) (i : Nat) (e : Entry) : MoverEnd × Channel :=
  let d := Score.pickAt k.pool e.desc
  let r := k.slotOr0 d.slot
  match k.readRaw m r done d.listSpace d.list (8 * d.count) with
  | (.error x, k) => (x, k)
  | (.ok list, k) =>
    (List.range d.count).foldl (fun (a : MoverEnd × Channel) j =>
      if a.1 != .done then a
      else match a.2.pickOne m done d (fieldLe list (8 * j) 8) with
        | (.error x, k) => (x, k)
        | (.ok bs, k) => (.done, k.writeBytes 2 m r i d.destSpace (d.dest + (if d.chord then 544 else 32) * j) bs)) (.done, k)

/-- PICK_COMPLETE. -/
def execPickComplete (c : ChanId) (mover : Fin 32) (s : State) : Host.Outcome State Fault Refusal :=
  .next (s.modChan c (fun k => k.moverStep mover.val 5 (fun _ => 0) (fun done i e k => k.pick mover.val done i e)))

/-! ### MXIO (02 R56 to R58; 07 R184) -/

/-- MX block and position in it of element (r, c) of a padded tensor. -/
def mxPlace (t : TensorDesc) (col : Bool) (r c : Nat) : Nat × Nat :=
  if col then ((r / 32) * (16 * Score.gridCols t) + c, r % 32) else (r * ((16 * Score.gridCols t) / 32) + c / 32, c % 32)

/-- Element code of an MX buffer element: sub-byte elements are packed least significant bits first. -/
def mxElem (f : Fmt) (buf : List Byte) (blk i : Nat) : Nat :=
  let b := Fmt.bits f
  let bit0 := 32 * b * blk + b * i
  fieldLe buf (bit0 / 8) 2 / 2 ^ (bit0 % 8) % 2 ^ b

/-- A signed integer halved `n` times with RNE. -/
def shiftRne (z : Int) (n : Nat) : Int :=
  let q := (roundInt .rne (decide (z < 0)) z.natAbs (-(n : Int)) 0 : Nat)
  if z < 0 then -(q : Int) else q

/-- An imported element under its MX code: device element code; the device writes no NaN but the canonical one (02 R52, R57; log 66). -/
def mxIn (f : Fmt) (mx code : Nat) : Nat :=
  if mx = 0xFF then 0
  else if f = .int8 ∧ mx < 6 then ofSigned 8 (shiftRne (toSigned 8 code) (6 - mx))
  else writeCode f code

/-- Device scale code of an MX code (02 R56, R57). DEDUCED: the code of an all-zero block is kept as any other, Identical by 02 R56,
though a quantiser would give the block 0x00 by 02 R41 (log 66). -/
def mxScaleIn (f : Fmt) (mx : Nat) : Nat := if f = .int8 ∧ mx ≠ 0xFF then mx - 6 else mx

/-- A block of an import on a line: its MX code, its live elements before conversion, and after it. -/
def importBlock (t : TensorDesc) (f : Fmt) (col : Bool) (el sc : List Byte) (r c : Nat) : Nat × List Nat × List Nat :=
  let b := (mxPlace t col r c).1
  let mx := byteAt sc b
  let live := fun (i : Nat) => if col then decide (r / 32 * 32 + i < t.rows ∧ c < t.cols) else decide (r < t.rows ∧ c / 32 * 32 + i < t.cols)
  let raw := (List.range 32).map (fun i => if live i then writeCode f (mxElem f el b i) else 0)
  (mx, raw, raw.map (mxIn f mx))

/-- What a quantiser would count of an imported block (02 R57; 04 R103, R104). -/
def importCounts (crush : Nat) (x : Nat × List Nat × List Nat) : QGrid.Counts :=
  let crushed := ((x.2.1.zip x.2.2).filter (fun p => p.1 != 0 && p.2 == 0)).length
  if x.1 = 0xFF then { psnBlk := 1 }
  else { zbBlk := bit (x.2.1.all (· == 0)), uzBlk := bit (x.2.1.any (· != 0) && x.2.2.all (· == 0))
         crushBlk := bit (decide (Quant.thrOf crush 32 ≤ crushed)), crushElem := crushed }

/-- One chord of an import at chord row `cr` and column `cc`: its side flags are those of any quantisation (02 R57). -/
def importChord (t : TensorDesc) (f : Fmt) (col : Bool) (crush : Nat) (el sc : List Byte) (cr cc ver : Nat) : Chord :=
  let code := fun (r c : Nat) =>
    let (b, i) := mxPlace t col r c
    if r < t.rows ∧ c < t.cols then mxIn f (byteAt sc b) (mxElem f el b i) else 0
  let codes := (List.range 256).map (fun i => code (16 * cr + i / 16) (16 * cc + i % 16))
  let bs := (List.range 16).map (fun n => importBlock t f col el sc (16 * cr + (if col then 0 else n)) (16 * cc + (if col then n else 0)))
  let ns := bs.map (importCounts crush)
  { codes := codes
    side := { scales := bs.map (fun x => mxScaleIn f x.1), zb := ns.all (fun n => n.zbBlk == 1), uz := ns.any (fun n => n.uzBlk == 1)
              psn := ns.any (fun n => n.psnBlk == 1), crush := ns.any (fun n => n.crushBlk == 1), dir := bit col, blk := 2
              ver := ver, fmt := Fmt.id f } }

/-- The events of every block of an import, each counted once (04 R104). -/
def importEvents (t : TensorDesc) (f : Fmt) (col : Bool) (crush : Nat) (el sc : List Byte) : QGrid.Counts :=
  let rows := 16 * Score.gridRows t
  let cols := 16 * Score.gridCols t
  let at_ := if col then ((List.range (rows / 32)).map (fun i => (List.range cols).map (fun c => (32 * i, c)))).flatten
    else ((List.range rows).map (fun r => (List.range (cols / 32)).map (fun j => (r, 32 * j)))).flatten
  at_.foldl (fun (n : QGrid.Counts) p => n.add (importCounts crush (importBlock t f col el sc p.1 p.2))) {}

/-- An import: every chord of the tensor is written (02 R57). -/
def Channel.mxImport (k : Channel) (m : Nat) (done : List Redo) (i : Nat) (e : Entry) (d : MxioDesc) : MoverEnd × Channel :=
  let (ix, ver) := k.writeTensor d.tensor
  let t := k.tensor ix
  let f := Score.fmtOf t.layout
  match k.readRaw m 0 done d.elemSpace d.elem (4 * Fmt.bits f * d.blocks) with
  | (.error x, k) => (x, k)
  | (.ok el, k) => match k.readRaw m 0 done d.scaleSpace d.scale d.blocks with
    | (.error x, k) => (x, k)
    | (.ok sc, k) =>
      let gc := Score.gridCols t
      let k := (List.range (gc * Score.gridRows t)).foldl (fun (k : Channel) n =>
        let ch := importChord t f d.colAxis k.live.crush el sc (n / gc) (n % gc) ver
        k.writeBytes 2 m 0 i t.space (Score.chordAddr t n) (Chord.toBytes f ch)) k
      let shifted := if f = .int8 then (sc.filter (fun b => decide (b.toNat < 6))).length else 0
      let n := importEvents t f d.colAxis k.live.crush el sc
      (.done, { k with conv := { k.conv with shifted := sat32 k.conv.shifted shifted }
                       otherQuant := k.otherQuant.add n }.quantAt e.layer 9 n)

/-- One exported block: MX code, element codes, folded outliers, whether it was shifted, saturated elements (02 R58). Its
elements are given by (chord, element index). -/
def exportBlock (f : Fmt) (els : List (Option Chord × Nat)) : Nat × List Nat × Nat × Bool × Nat :=
  let sides : List (Option (Bool × Nat × Nat × Option (Nat × Nat))) := els.map (fun (p : Option Chord × Nat) => match p.1 with
    | some c => some (c.side.zb, Chord.codeOf c.side p.2, c.codes.getD p.2 0,
        (Chord.outliers c.side).find? (fun (o : Nat × Nat) => o.1 == p.2))
    | none => none)
  let bad := sides.any (fun x => match x with | some (zb, code, _, _) => !zb && code == 0xFF | none => true)
  if bad then (0xFF, List.replicate 32 0, 0, false, 0)
  else
    let live := sides.map (fun x => x.getD (true, 0, 0, none))
    let codes := live.map (fun x => if x.1 then 0 else x.2.1)
    let scale := codes.headD 0
    let zeros := live.all (fun x => x.1 || (x.2.1 == 0 && x.2.2.1 == 0 && x.2.2.2.isNone))
    if zeros then (0, List.replicate 32 0, 0, false, 0)
    else
      let fold := live.map (fun x =>
        if x.1 then (0, 0, 0)
        else match x.2.2.2 with
          | none => (writeCode f x.2.2.1, 0, 0)
          | some (_, v) =>
            let r := Num.round f .rne false false (Num.scale (127 - (x.2.1 : Int)) (decode .bf16 v)) 0
            (noNegZero f r.code, 1, bit r.ovf))
      let es := fold.map (·.1)
      let folded := (fold.map (·.2.1)).foldl (· + ·) 0
      let sat := (fold.map (·.2.2)).foldl (· + ·) 0
      if f = .int8 then
        if 0xF8 < scale then
          (0xFE, es.map (fun z => ofSigned 8 (shiftRne (toSigned 8 z) (scale - 0xF8))), folded, true, sat)
        else (scale + 6, es, folded, false, sat)
      else (scale, es, folded, false, sat)

/-- Pack element codes least significant bits first. -/
def packMx (f : Fmt) (es : List Nat) : List Byte := Chord.packData f es

/-- The chords of an exported tensor, in order: a faulty or unreadable one is none (02 R44). -/
def Channel.exportChords (k : Channel) (m : Nat) (done : List Redo) (e : Entry) (want : Option Nat) (t : TensorDesc) (n : Nat) :
    MoverEnd × List (Option Chord) × Channel :=
  (List.range n).foldl (fun (a : MoverEnd × List (Option Chord) × Channel) j =>
    if a.1 != .done then a
    else
      let (x, k) := a.2.2.readChord 2 m 0 t j done
      let c := Chord.ofBytes (Score.fmtOf t.layout) x.bytes
      if x.lost || x.redo.isSome then (MoverEnd.ofRedo x.redo, a.2.1, k)
      else if x.poisoned then (.done, a.2.1 ++ [none], k)
      else if wrongTag e want c then let (x, k) := k.moverVersion m; (x, a.2.1, k)
      else match c with
        | .good c => (.done, a.2.1 ++ [some c], k)
        | _ => (.done, a.2.1 ++ [none], k.formatFault e.layer)) (.done, [], k)

/-- An export: every chord is read and checked before anything is written (02 R58). DEDUCED: a chord whose DIR is not the axis that the
command names is refused as one that 02 R58 does not accept, since its blocks are not those of the MX buffer (log 66). -/
def Channel.mxExport (k : Channel) (m : Nat) (done : List Redo) (i : Nat) (e : Entry) (d : MxioDesc) : MoverEnd × Channel :=
  match k.readTensor e.mb d.tensor false with
  | none => k.moverVersion m
  | some (ix, want) =>
    let t := k.tensor ix
    let f := Score.fmtOf t.layout
    let gc := Score.gridCols t
    match k.exportChords m done e want t (gc * Score.gridRows t) with
    | (.done, chs, k) =>
      let refuse := chs.any (fun c => match c with
        | some c => c.side.dir != bit d.colAxis || c.side.blk != 2 || c.side.scl
        | none => false)
      if refuse then (.done, k.raise { cause := .fmtUnsupported, cls := .S, unit := 2, uidx := m })
      else
        let at_ := fun (r c : Nat) =>
          if decide (r < t.rows ∧ c < t.cols) then (chs.getD (r / 16 * gc + c / 16) none, 16 * (r % 16) + c % 16)
          else (some { codes := List.replicate 256 0, side := { zb := true } }, 0)
        let cols := 16 * gc
        let blocks := (List.range d.blocks).map (fun b =>
          let els := (List.range 32).map (fun x =>
            if d.colAxis then at_ (b / cols * 32 + x) (b % cols) else at_ (b / (cols / 32)) (b % (cols / 32) * 32 + x))
          exportBlock f els)
        let k := k.writeBytes 2 m 0 i d.elemSpace d.elem ((blocks.map (fun b => packMx f b.2.1)).flatten)
        let k := k.writeBytes 2 m 0 i d.scaleSpace d.scale (blocks.map (fun b => byteOf b.1))
        let sum := fun (g : Nat × List Nat × Nat × Bool × Nat → Nat) => (blocks.map g).foldl (· + ·) 0
        (.done, { k with conv := { folded := sat32 k.conv.folded (sum (·.2.2.1))
                                   shifted := sat32 k.conv.shifted (sum (fun b => bit b.2.2.2.1))
                                   saturated := sat32 k.conv.saturated (sum (·.2.2.2.2)) } })
    | (x, _, k) => (x, k)

/-- MXIO_COMPLETE: the import or export, or its end with FMT_UNSUPPORTED (02 R56). -/
def execMxioComplete (c : ChanId) (mover : Fin 32) (s : State) : Host.Outcome State Fault Refusal :=
  .next (s.modChan c (fun k => k.moverStep mover.val 6 (fun _ => 0) (fun done i e k =>
    let d := Score.mxioAt k.pool e.desc
    if d.mxtype = 2 then (.done, k.raise { cause := .fmtUnsupported, cls := .S, unit := 2, uidx := mover.val })
    else if d.export_ then k.mxExport mover.val done i e d
    else k.mxImport mover.val done i e d)))

end Sys2Proof.Machine
end

