-- ==== Sys2Proof/Machine/Coll.lean ====
section
/-! DEFINITION. Reductions: the I8A block and the Bell adder, REDUCE payloads, the ring and tree schedules, scale
agreement, repair passes, digests, the dual-path sample, and what a participant sends at each point (02 R59 to R61; 11). -/

namespace Sys2Proof.Machine

open Sys2Proof Sys2Proof.Num

/-! ### The I8A block (02 R59 to R61; 11 R294, R295) -/

/-- A poisoned block. -/
def I8A.poison : I8A := { code := 0xFF }

/-- Clamp an element sum to ±127. -/
def sat127 (z : Int) : Int := clampInt (-127) 127 z

/-- The Bell adder's sum of two blocks, and whether their codes differ (02 R61). -/
def I8A.add (a b : I8A) : I8A × Bool :=
  if a.code = 0xFF ∨ b.code = 0xFF then (I8A.poison, false)
  else if a.code ≠ b.code then (I8A.poison, true)
  else
    let sums := (a.elems.zip b.elems).map (fun x => x.1 + x.2)
    ({ elems := sums.map sat127, code := a.code, ovf := a.ovf || b.ovf || sums.any (fun z => z < -127 || 127 < z) }, false)

/-- The encoder of a contribution under an agreed code (11 R294). -/
def encodeBlock (g : List XNum) (c : Nat) : I8A :=
  if g.any (fun x => !isFin x) then I8A.poison
  else
    let q := g.map (fun x => match x with
      | .fin n m e => let v := roundInt .rne n m (e + 127 - c) 0; if n then -(v : Int) else (v : Int)
      | _ => 0)
    { elems := q.map sat127, code := c, ovf := q.any (fun z => z < -127 || 127 < z) }

/-- BF16 code of a result element (11 R295). -/
def resultCode (ieee : Bool) (c : Nat) (z : Int) : Nat := toBf16 ieee (ofInt z ((c : Int) - 127))

/-- A block as received: element code 0x80 reads as −127 with OVF set (02 R59). -/
def I8A.ofWire (bytes : List Byte) (code : Nat) (ovf : Bool) : I8A :=
  if code = 0xFF then I8A.poison
  else
    let z := bytes.map (fun b => toSigned 8 b.toNat)
    { elems := z.map sat127, code := code, ovf := ovf || z.any (· == -128) }

/-- The 240-byte payload of a REDUCE flit (02 R60). -/
def reducePayload (first : Nat) (bs : List I8A) : List Byte :=
  fitTo 224 ((bs.map (fun (b : I8A) => fitTo 32 (b.elems.map (fun z => byteOf (ofSigned 8 z))))).flatten)
    ++ fitTo 7 (bs.map (fun (b : I8A) => byteOf b.code))
    ++ [byteOf ((bs.zipIdx).foldl (fun a x => a + 2 ^ x.2 * bit x.1.ovf) 0)] ++ leBytes 4 first
    ++ [byteOf bs.length, 0#8, 0#8, 0#8]

/-- FIRST and the blocks of a REDUCE flit (02 R60). -/
def reduceBlocks (pl : List Byte) : Nat × List I8A :=
  (fieldLe pl 232 4, (List.range (min 7 (byteAt pl 236))).map (fun j =>
    I8A.ofWire (slice pl (32 * j) 32) (byteAt pl (224 + j)) (bitOf (byteAt pl 231) j)))

/-- Payload pieces of REDUCE packets for consecutive blocks: 15 flits of 7 blocks and a tail flit (10 R273). -/
def reducePackets (first : Nat) (bs : List I8A) : List (List (List Byte)) :=
  ((chunks 105 (bs.length + 1) bs).zipIdx).map (fun p =>
    ((chunks 7 (p.1.length + 1) p.1).zipIdx).map (fun f => reducePayload (first + 105 * p.2 + 7 * f.2) f.1) ++ [[]])

/-! ### Schedules (11 R296, R297) -/

/-- Start of segment `k` of a list of `l` blocks over `p` participants. -/
def segStart (l p k : Nat) : Nat := k * l / p

/-- The segment of position `j`. -/
def segOf (l p j : Nat) : Nat :=
  ((List.range p).find? (fun k => segStart l p k ≤ j && j < segStart l p (k + 1))).getD 0

/-- Positions of a segment. -/
def segment (l p k : Nat) : List Nat := (List.range (segStart l p (k + 1) - segStart l p k)).map (· + segStart l p k)

/-- Blocks to send: towards the next rank or the parent, and towards the children. -/
structure FlowOut where
  up : List (Nat × I8A) := []
  down : List (Nat × I8A) := []
  mismatches : Nat := 0
deriving DecidableEq, Repr

/-- Children of a tree position. -/
def Flow.kids (f : Flow) : Nat := ([2 * f.rank + 1, 2 * f.rank + 2].filter (· < f.p)).length

/-- The block of a position. -/
def blockAt (l : List I8A) (j : Nat) : I8A := l.getD j {}

/-- A pass starts: what this participant sends before it receives anything. -/
def Flow.start (rank p : Nat) (tree scatter : Bool) (own : List I8A) : Flow × FlowOut :=
  let f : Flow := { rank := rank, p := p, tree := tree, scatter := scatter, own := own, sums := own
                    final := own.map (fun b => if p ≤ 1 then some b else none), seen := own.map (fun _ => 0) }
  if p ≤ 1 then (f, {})
  else if tree then
    (f, if f.kids = 0 then { up := (own.zipIdx).map (fun x => (x.2, x.1)) } else {})
  else (f, { up := (segment own.length p rank).map (fun j => (j, blockAt own j)) })

/-- The larger of two items, field by field (11 R290). -/
def I8A.larger (a b : I8A) : I8A := { elems := (a.elems.zip b.elems).map (fun x => max x.1 x.2) }

/-- What an adder makes of two inputs, and whether their codes differ: their sum, or in an exchange the larger (02 R61; 11 R290). -/
def Flow.combine (f : Flow) (a b : I8A) : I8A × Bool := if f.max then (I8A.larger a b, false) else I8A.add a b

/-- An exchange of the largest starts (11 R290): the schedule of a sum. -/
def Flow.startMax (rank p : Nat) (tree : Bool) (own : List I8A) : Flow × FlowOut :=
  let (f, o) := Flow.start rank p tree false own
  ({ f with max := true }, o)

/-- Everyone's own items start on their way to all (11 R290): round a ring as its gather phase, on a tree up to the root and from there
down. Each participant's own items are those of the segment it would complete. -/
def Flow.startGather (rank p : Nat) (tree : Bool) (own : List I8A) : Flow × FlowOut :=
  let mine := if p ≤ 1 then List.range own.length else segment own.length p ((rank + 1) % p)
  let f : Flow := { rank := rank, p := p, tree := tree, gather := true, own := own, sums := own
                    final := (own.zipIdx).map (fun x => if mine.contains x.2 then some x.1 else none), seen := own.map (fun _ => 1) }
  let items := mine.map (fun j => (j, blockAt own j))
  if p ≤ 1 then (f, {}) else if tree && rank == 0 then (f, { down := items }) else (f, { up := items })

/-- A block received on a ring: the reduce phase adds, the gather phase passes on (11 R296). -/
def Flow.recvRing (f : Flow) (j : Nat) (b : I8A) : Flow × FlowOut :=
  let k := segOf f.own.length f.p j
  let seen := f.seen.getD j 0
  let f := { f with seen := f.seen.set j (seen + 1) }
  if seen = 0 ∧ k ≠ f.rank then
    let (s, mism) := f.combine b (blockAt f.own j)
    let f := { f with sums := f.sums.set j s }
    if k = (f.rank + 1) % f.p then
      ({ f with final := f.final.set j (some s) }, { up := if f.scatter then [] else [(j, s)], mismatches := bit mism })
    else (f, { up := [(j, s)], mismatches := bit mism })
  else
    let h := (f.rank + f.p - k) % f.p
    ({ f with final := f.final.set j (some b) }, { up := if h + 2 < f.p then [(j, b)] else [] })

/-- A block received on a tree: from a child it is summed, from the parent it is passed down (11 R297). -/
def Flow.recvTree (f : Flow) (fromParent : Bool) (j : Nat) (b : I8A) : Flow × FlowOut :=
  if fromParent then ({ f with final := f.final.set j (some b), seen := f.seen.set j 2 }, { down := [(j, b)] })
  else if f.gather then
    ({ f with final := f.final.set j (some b) }, if f.rank = 0 then { down := [(j, b)] } else { up := [(j, b)] })
  else
    let (s, mism) := f.combine b (blockAt f.sums j)
    let n := f.seen.getD j 0 + 1
    let f := { f with sums := f.sums.set j s, seen := f.seen.set j n }
    if n < f.kids then (f, { mismatches := bit mism })
    else if f.rank = 0 then
      ({ f with final := f.final.set j (some s) }, { down := if f.scatter then [] else [(j, s)], mismatches := bit mism })
    else (f, { up := [(j, s)], mismatches := bit mism })

/-- Consecutive blocks received. -/
def Flow.recv (f : Flow) (fromParent : Bool) (first : Nat) (bs : List I8A) : Flow × FlowOut :=
  (bs.zipIdx).foldl (fun (a : Flow × FlowOut) x =>
    let j := first + x.2
    if a.1.own.length ≤ j then a
    else
      let r := if a.1.tree then a.1.recvTree fromParent j x.1 else a.1.recvRing j x.1
      (r.1, { up := a.2.up ++ r.2.up, down := a.2.down ++ r.2.down, mismatches := a.2.mismatches + r.2.mismatches })) (f, {})

/-- Positions whose complete value this participant forms itself: a segment of a ring, all of them at the root of a tree (11 R296, R297). -/
def Flow.completes (f : Flow) : List Nat :=
  if f.p ≤ 1 then List.range f.own.length
  else if f.tree then (if f.rank = 0 then List.range f.own.length else [])
  else segment f.own.length f.p ((f.rank + 1) % f.p)

/-- Positions this participant's result covers: all of them, or in a REDUCE_SCATTER those it completes. -/
def Flow.wanted (f : Flow) : List Nat :=
  if f.scatter then f.completes else List.range f.own.length

/-- The pass is complete here: all that this participant has to receive is in, and what it had to send has been sent. -/
def Flow.complete (f : Flow) : Bool :=
  if f.tree && f.rank != 0 && f.gather then f.seen.all (· == 2)
  else if f.tree && f.rank != 0 && f.scatter then f.seen.all (f.kids ≤ ·)
  else f.wanted.all (fun j => (f.final.getD j none).isSome)

/-- End of the run of items that a packet's first item stands in: the segment on a ring or in a gather, else the list. -/
def Flow.itemEnd (f : Flow) (j : Nat) : Nat :=
  if f.tree && !f.gather then f.own.length else segStart f.own.length f.p (segOf f.own.length f.p j + 1)

/-- Blocks this participant sends in a pass towards the next rank or the parent (11 R311, COUNT). -/
def Flow.upCount (f : Flow) : Nat :=
  let l := f.own.length
  let size := fun k => (segment l f.p (k % f.p)).length
  if f.tree then (if f.rank = 0 then 0 else l)
  else (l - size (f.rank + 1)) + (if f.scatter then 0 else l - size (f.rank + 2))

/-- Group position and block pairs into runs of consecutive positions. -/
def runs : List (Nat × I8A) → List (Nat × List I8A)
  | [] => []
  | (j, b) :: rest =>
    match runs rest with
    | (j', bs) :: more => if j + 1 = j' then (j, b :: bs) :: more else (j, [b]) :: (j', bs) :: more
    | [] => [(j, [b])]

/-! ### CSEQ and paths (11 R291 to R293) -/

/-- CSEQ of a collective of the step under way, path bits 0 (11 R292). -/
def Channel.cseqOf (k : Channel) (cidx : Nat) : Nat := cidx % 4096 + k.attempt % 16 * 2 ^ 12 + k.step % 2 ^ 14 * 2 ^ 16

/-- Is a received CSEQ current? (11 R293) -/
def Channel.current (k : Channel) (cseq : Nat) : Bool :=
  let d := (k.step + 2 ^ 14 - bitsOf cseq 29 16) % 2 ^ 14
  if d = 0 then bitsOf cseq 15 12 == k.attempt % 16 else decide (8193 ≤ d)

/-- CSEQ without its path bits. -/
def pathless (cseq : Nat) : Nat := cseq % 2 ^ 30

/-- The collective with a CSEQ. -/
def Channel.coll? (k : Channel) (cseq : Nat) : Option Coll := k.coll.active.find? (fun (x : Coll) => x.cseq == pathless cseq)

/-- The channel with a collective replaced. -/
def Channel.setColl (k : Channel) (x : Coll) : Channel :=
  { k with coll := { k.coll with active := k.coll.active.map (fun (y : Coll) => if y.cseq == x.cseq then x else y) } }

/-- The collective counters changed. -/
def Channel.collCount (k : Channel) (f : CollCnt → CollCnt) : Channel := { k with coll := { k.coll with cnt := f k.coll.cnt } }

/-- Rank on the primary or the secondary path (11 R291, R296). -/
def Coll.rankOn (x : Coll) (secondary : Bool) : Nat := if secondary then x.desc.p - 1 - x.desc.rank else x.desc.rank

/-- Port field of a role on a path: 0 towards the next rank or the parent, 1 and 2 the children of a tree. -/
def Coll.portOf (x : Coll) (secondary : Bool) (role : Nat) : Option Nat :=
  x.ports.getD ((if secondary then (if x.desc.tree then 3 else 2) else 0) + role) none

/-- The ports on which a participant sends. -/
def Coll.kidPorts (x : Coll) (secondary : Bool) : List Nat :=
  if x.desc.tree then [x.portOf secondary 1, x.portOf secondary 2].filterMap id else []

/-- The port of a channel that leads to a port field's partner now: the port itself, or in routed fallback the egress port
that its routing table names (12 R329). -/
def Channel.egress (k : Channel) (p : PortId) : Option PortId :=
  if (k.port p).st == .up then some p
  else if k.paths.disc.fallback then k.route p ((k.planPort p).partner % 4096) else none

/-- Send packets to the partner of a port. -/
def Channel.sendTo (k : Channel) (w : Self) (port : Nat) (typ vc : Nat) (packets : List (List (List Byte))) : Channel :=
  match portId? port with
  | none => k
  | some p =>
    match k.egress p with
    | none => k
    | some q =>
      let e := (k.planPort p).partner
      packets.foldl (fun (k : Channel) pk => k.sendPacket w q none typ vc (e % 4096) (e / 4096 % 4) pk) k

/-- The collective stops that a COLL_OPEN carries (11 R299, R311). -/
def Colls.params (c : Colls) : List Byte :=
  leBytes 2 c.interval ++ [byteOf c.margin, byteOf c.raise, byteOf c.policy, byteOf c.repeats]

/-- COLL_OPEN for a pass on each port the pass sends on (11 R299). -/
def Channel.openPass (k : Channel) (w : Self) (x : Coll) (secondary : Bool) (pass : Nat) (f : Flow) : Channel :=
  let cseq := x.cseq + (if secondary then 2 ^ 30 else 0)
  let one := fun (k : Channel) (port n : Nat) =>
    if n = 0 then k else k.sendTo w port 3 0 [[ctrlPayload 2 pass 0 0 cseq n 0 k.coll.params]]
  let k := match x.portOf secondary 0 with
    | some p => one k p f.upCount
    | none => k
  if f.tree && !f.scatter then (x.kidPorts secondary).foldl (fun (k : Channel) p => one k p f.own.length) k else k

/-- Send what a pass has to send. -/
def Channel.sendFlow (k : Channel) (w : Self) (x : Coll) (secondary : Bool) (o : FlowOut) : Channel :=
  let packets := fun (l : List (Nat × I8A)) => ((runs l).map (fun r => reducePackets r.1 r.2)).flatten
  let k := match x.portOf secondary 0 with
    | some p => k.sendTo w p 1 2 (packets o.up)
    | none => k
  let k := (x.kidPorts secondary).foldl (fun (k : Channel) p => k.sendTo w p 1 2 (packets o.down)) k
  k.collCount (fun c => { c with scaleMismatch := sat32 c.scaleMismatch o.mismatches })

/-! ### Weights and digests (11 R306, R307) -/

/-- The digest modulus. -/
def digQ : Nat := 2 ^ 61 - 1

/-- Digest weights of the first `n` elements of a bucket. -/
def digWeights (seed step bucket n : Nat) : List Nat :=
  let bs := Hash.shake256 (leBytes 8 seed ++ leBytes 8 step ++ leBytes 2 bucket) (8 * n)
  (chunks 8 n bs).map (fun b => ofLe b % digQ)

/-- Digest of one block at block number `b`. -/
def blockDigest (w : List Nat) (b : Nat) (x : I8A) : Nat :=
  (x.elems.zipIdx).foldl (fun a z => (a + w.getD (32 * b + z.2) 0 * (z.1 % (digQ : Int)).toNat) % digQ) 0

/-- A DIGEST payload (11 R307). -/
def digestPayload (cseq bucket kind hop con res : Nat) : List Byte :=
  leBytes 4 cseq ++ leBytes 2 bucket ++ [byteOf kind, byteOf hop] ++ leBytes 8 con ++ leBytes 8 res ++ List.replicate 184 0#8

/-- The totals of this participant join those that arrive: what it sends, and the totals once complete (11 R307). The item
travels as a list of one on the secondary path: segment P − 1 of a ring. -/
def DigFlow.start (d : DigFlow) : DigFlow × Option (Nat × Nat) :=
  if d.p ≤ 1 then ({ d with totals := some (d.con, d.res) }, none)
  else if d.tree then (d, if d.p ≤ 2 * d.rank + 1 then some (d.con, d.res) else none)
  else (d, if d.rank + 1 = d.p then some (d.con, d.res) else none)

/-- A KIND 0 DIGEST arrives: what goes on towards the next rank or parent, and towards the children. -/
def DigFlow.recv (d : DigFlow) (fromParent : Bool) (con res : Nat) : DigFlow × Option (Nat × Nat) × Option (Nat × Nat) :=
  let add := ((d.con + con) % digQ, (d.res + res) % digQ)
  if d.tree then
    if fromParent then ({ d with totals := some (con, res) }, none, some (con, res))
    else
      let kids := ([2 * d.rank + 1, 2 * d.rank + 2].filter (· < d.p)).length
      let e := { d with con := add.1, res := add.2, seen := d.seen + 1 }
      if e.seen < kids then (e, none, none)
      else if d.rank = 0 then ({ e with totals := some add }, none, some add)
      else (e, some add, none)
  else
    let e := { d with seen := d.seen + 1 }
    if d.seen = 0 ∧ d.rank + 1 ≠ d.p then
      if d.rank + 2 = d.p then ({ e with totals := some add }, some add, none) else (e, some add, none)
    else
      let h := (d.rank + 1) % d.p
      ({ e with totals := some (con, res) }, if h + 2 < d.p then some (con, res) else none, none)

/-! ### The bucket (11 R294, R300 to R302) -/

/-- Number of blocks of a bucket. -/
def bucketBlocks (d : CollDesc) : Nat := 8 * d.chords

/-- VERSION_FAULT of a collective (08 R208, R213). -/
def Channel.collVersion (k : Channel) (uidx : Nat) : Channel :=
  k.raise { cause := .versionFault, cls := .S, unit := 3, uidx := uidx, detail := anyDetail }

/-- A chord of SRC as a collective reads it (02 R44; 08 R207, R213): none when an error of class S or above ends the read. -/
def Channel.srcChord (k : Channel) (entry uidx : Nat) (t : TensorDesc) (want : Option Nat) (i : Nat) :
    Option (List Byte × ChordRead) × Channel :=
  let e := k.entry entry
  let (x, retried, k) := k.readNow 3 uidx 0 t i
  let k := if retried then k.tagEntry entry .errorRetry else k
  let bytes := if x.poisoned then poisonBytes t else x.bytes
  let c := Chord.ofBytes (Score.fmtOf t.layout) bytes
  let faulty := match c with | .good _ => false | _ => true
  if x.lost then (none, k)
  else if wrongTag e want c then (none, k.collVersion uidx)
  else (some (bytes, c), if faulty && !x.poisoned then k.formatFault e.layer else k)

/-- Values of the blocks of SRC: one list of 32 for each block, in bucket order; none when an error of class S or above ends the read. -/
def Channel.srcBlocks (k : Channel) (entry uidx : Nat) (d : CollDesc) : Option (List (List XNum)) × Channel :=
  match k.readTensor (k.entry entry).mb d.src false with
  | none => (none, k.collVersion uidx)
  | some (ix, want) =>
    let t := k.tensor ix
    (List.range d.chords).foldl (fun (a : Option (List (List XNum)) × Channel) i =>
      match a.1 with
      | none => a
      | some bs =>
        let (c, k) := a.2.srcChord entry uidx t want (d.first + i)
        (c.map (fun c => bs ++ chunks 32 8 (Chord.readElements .bf16 (Score.tensorScale t) c.2)), k)) (some [], k)

/-- The scale table's range has not been written under this binding: it stands as reset (11 R300). -/
def Channel.tableFresh (k : Channel) (stab : Nat) : Bool :=
  match k.mem.place 0 stab with
  | some q => !(k.mem.codeword (q.key / 64)).written && (k.mem.line q.key).isNone
  | none => false

/-- The codes of the half for the channel's step, when that half is valid (11 R300); none when an error of class S or above ends the
read. -/
def Channel.readTable (k : Channel) (uidx : Nat) (d : CollDesc) : Option (Option (List Nat)) × Channel :=
  if k.tableFresh d.stab then (some none, k)
  else
    let h := k.step % 2
    match k.readPlace 3 uidx 0 0 d.stab 16 with
    | (none, k) => (none, k)
    | (some b, k) =>
      if fieldLe b (8 * h) 8 = k.step % 2 ^ 64 then
        let (c, k) := k.readPlace 3 uidx 0 0 (d.stab + 32 + h * bucketBlocks d) (bucketBlocks d)
        (c.map (fun c => some (c.map BitVec.toNat)), k)
      else (some none, k)

/-- Write the half for a step: its codes and its STEP field (11 R300). A table not yet written stands as reset, both STEP
fields all ones. -/
def Channel.writeTable (k : Channel) (uidx entry stab step : Nat) (codes : List Nat) : Channel :=
  let h := step % 2
  let b := codes.length
  let k := if k.tableFresh stab then
      let m := (pieces stab (32 + 2 * b)).foldl (fun (m : Mem) p => match m.place 0 p.1 with
        | some q => ((List.range p.2).map (fun i => (q.key + i) / 64)).eraseDups.foldl
            (fun (m : Mem) c => if (m.codeword c).written then m else m.setCodeword c (m.goodWord c)) m
        | none => m) k.mem
      ({ k with mem := m }).writeBytes 3 uidx 0 entry 0 stab (List.replicate 16 0xFF#8)
    else k
  let k := k.writeBytes 3 uidx 0 entry 0 (stab + 32 + h * b) (codes.map byteOf)
  k.writeBytes 3 uidx 0 entry 0 (stab + 8 * h) (leBytes 8 step)

/-- The local code of a block for the explicit exchange (11 R301): 127.5 is 255 · 2^−1. -/
def localCode (g : List XNum) : Nat :=
  match g.foldl (fun a x => if isFin x then maxAbs a x else a) (zero false) with
  | .fin _ 0 _ => 0
  | .fin _ m e =>
    let l := floorLog2 m e
    (clampInt 0 0xFE ((if magLt m e 255 (l - 7) then l - 7 else l - 6) + 128)).toNat
  | _ => 0

/-- ceil(log2 p). -/
def log2Ceil (p : Nat) : Nat := if p ≤ 1 then 0 else Nat.log2 (p - 1) + 1

/-- The agreed code from the largest local code (11 R301). -/
def agreedCode (e p margin : Nat) : Nat := min 0xFE (e + log2Ceil p + margin)

/-- Smallest d at or below 0 with s < 127.5 · 2^d, by fuel. -/
def shrink (s : Nat) : Nat → Int → Int
  | 0, d => d
  | fuel + 1, d => if magLt s 0 255 (d - 2) then shrink s fuel (d - 1) else d

/-- The next step's code of a block (11 R302). -/
def nextCode (c s : Nat) (poisoned : Bool) (margin : Nat) : Nat :=
  let r : Int := if poisoned ∨ s = 0 then c else max ((c : Int) + shrink s 16 0) 0
  min (r.toNat + margin) 0xFE

/-! ### Running a collective (11 R296 to R309) -/

/-- The location run's bookkeeping of a received segment: digest its blocks and, when a hop is complete, return the digest
to the previous rank (11 R309, steps 2 and 4). -/
def Channel.hopReceived (k : Channel) (w : Self) (x : Coll) (first : Nat) (bs : List I8A) : Coll × Channel :=
  if !x.location || x.pass != 0 || x.desc.tree then (x, k)
  else
    let l := x.flow.own.length
    let p := x.flow.p
    let seg := segOf l p first
    let seen := x.flow.seen.getD first 0
    let h := if seen = 0 ∧ seg ≠ x.flow.rank then (x.flow.rank + 2 * p - 1 - seg) % p
      else p - 1 + (x.flow.rank + p - seg) % p
    let wts := digWeights k.bind.seed k.step x.desc.bucket (32 * l)
    let d := (bs.zipIdx).foldl (fun a b => if b.1.ovf then a else (a + blockDigest wts (first + b.2) b.1) % digQ) 0
    let old := SMap.get (0, 0) x.hops h
    let now := ((old.1 + d) % digQ, old.2 + bs.length)
    let x := { x with hops := SMap.set (0, 0) x.hops h now }
    if (segment l p seg).length ≤ now.2 then
      match x.portOf false 1 with
      | some b => (x, k.sendTo w b 2 1 [[digestPayload x.cseq x.desc.bucket 1 h now.1 0]])
      | none => (x, k)
    else (x, k)

/-- Digest of the segment this participant sent at a hop (11 R309, step 5). -/
def Coll.sentDigest (x : Coll) (wts : List Nat) (hop : Nat) : Nat :=
  let l := x.flow.own.length
  let p := x.flow.p
  let seg := if hop + 1 < p then (x.flow.rank + p - hop % p) % p else (x.flow.rank + 1 + 2 * p - hop - 1 + p - 1) % p
  (segment l p seg).foldl (fun a j =>
    let b := if hop + 1 < p then (if hop = 0 then blockAt x.flow.own j else blockAt x.flow.sums j) else (x.flow.final.getD j none).getD {}
    if b.ovf then a else (a + blockDigest wts j b) % digQ) 0

/-- The digest over the final blocks: of the contributions, and of the results this participant completed (11 R306). -/
def Coll.digests (x : Coll) (wts : List Nat) : Nat × Nat :=
  (List.range x.codes.length).foldl (fun (a : Nat × Nat) b =>
    if (blockAt x.result b).code = 0xFF then a
    else ((a.1 + blockDigest wts b (blockAt x.contrib b)) % digQ,
          if x.held.contains b then (a.2 + blockDigest wts b (blockAt x.result b)) % digQ else a.2)) (0, 0)

/-- Do two results agree where neither saturated or was poisoned? (11 R308) -/
def sameResults (a b : List (Option I8A)) : Bool :=
  (a.zip b).all (fun x => match x with
    | (some u, some v) => u.ovf || v.ovf || u.code == 0xFF || v.code == 0xFF || (u.code == v.code && u.elems == v.elems)
    | _ => true)

/-- An error of the Bell adder about a collective. -/
def Channel.collError (k : Channel) (cause : Cause) (cls : ErrClass) (unit port cseq : Nat) : Channel :=
  k.raise { cause := cause, cls := cls, unit := unit, uidx := port, detail := cseq }

/-- Compare the two paths once both are complete (11 R308). -/
def Channel.settleDual (k : Channel) (x : Coll) : Coll × Channel :=
  match x.dual with
  | none => (x, k)
  | some d =>
    if x.dualOk || x.mainRes.isEmpty || !d.complete then (x, k)
    else if sameResults x.mainRes d.final then ({ x with dualOk := true }, k)
    else (x, (k.collCount (fun c => { c with dualMismatch := sat32 c.dualMismatch 1 })).collError .dualMismatch .S 4 x.port x.cseq)

/-- Send digest totals on the secondary path. -/
def Channel.sendTotals (k : Channel) (w : Self) (x : Coll) (up down : Option (Nat × Nat)) : Channel :=
  let pl := fun (t : Nat × Nat) => [[digestPayload x.cseq x.desc.bucket 0 0 t.1 t.2]]
  let k := match up, x.portOf true 0 with
    | some t, some p => k.sendTo w p 2 1 (pl t)
    | _, _ => k
  match down with
  | some t => (x.kidPorts true).foldl (fun (k : Channel) p => k.sendTo w p 2 1 (pl t)) k
  | none => k

/-- Did a packet from SRC come from this participant's parent on a path? -/
def Channel.isParent (k : Channel) (x : Coll) (secondary : Bool) (src : Nat) : Bool :=
  match (x.portOf secondary 0).bind portId? with
  | some p => x.desc.tree && samePartner (k.planPort p).partner src
  | none => false

/-- A KIND 0 DIGEST is taken in: the totals, once complete, are compared (11 R307). -/
def Channel.digestIn (k : Channel) (w : Self) (x : Coll) (src con res : Nat) : Coll × Channel :=
  match x.dig with
  | none => ({ x with digEarly := x.digEarly ++ [(src, con, res)] }, k)
  | some d =>
    let (d', up, down) := d.recv (k.isParent x true src) con res
    let x := { x with dig := some d' }
    let k := k.sendTotals w x up down
    match d.totals, d'.totals with
    | none, some t =>
      if t.1 = t.2 then (x, k)
      else (x, (k.collCount (fun c => { c with digestMismatch := sat32 c.digestMismatch 1 })).collError .digestMismatch .S 4 x.port x.cseq)
    | _, _ => (x, k)

/-- The last pass is complete: this participant sends its digest, and takes in those that came early (11 R307). -/
def Channel.startDigest (k : Channel) (w : Self) (x : Coll) : Coll × Channel :=
  let (con, res) := x.digests (digWeights k.bind.seed k.step x.desc.bucket (32 * x.codes.length))
  let (d, up) := DigFlow.start { rank := x.rankOn true, p := x.desc.p, tree := x.desc.tree, con := con, res := res }
  let early := x.digEarly
  let x := { x with dig := some d, digEarly := [] }
  let k := k.sendTotals w x up none
  early.foldl (fun (a : Coll × Channel) e => a.2.digestIn w a.1 e.1 e.2.1 e.2.2) (x, k)

/-! ### Exchanges in DATA packets (11 R290, R301 to R303; 05 R131; log 34) -/

/-- Payload pieces of a DATA packet: its bytes, which start at byte `off` of its message (10 R273). -/
def dataPacket (mtag off : Nat) (bs : List Byte) : List (List Byte) :=
  let n := (bs.length + 39) / 240 + 1
  (List.range n).map (fun i =>
    if i + 1 < n then slice bs (240 * i) 240
    else slice bs (240 * i) 200 ++ leBytes 4 mtag ++ leBytes 4 off)

/-- DATA packets of bytes from byte `off` of a message on: 16 flits each but the last (10 R279). -/
def dataPackets (mtag off : Nat) (bs : List Byte) : List (List (List Byte)) :=
  ((chunks 3800 (bs.length / 3800 + 1) bs).zipIdx).map (fun x => dataPacket mtag (off + 3800 * x.2) x.1)

/-- Widths in bytes of the fields of an item of an exchange's stage: one code, one state, one code, the bytes of a chord, and the U16 and
two U8 of a word of the verdict record (11 R290). -/
def Coll.itemFields (x : Coll) (k : Channel) (stage : Nat) : List Nat :=
  match stage with
  | 3 => List.replicate (Score.chordSize (k.tensor x.desc.src)) 1
  | 4 => [2, 1, 1]
  | _ => [1]

/-- An item as bytes. -/
def itemBytes (fields : List Nat) (b : I8A) : List Byte := ((fields.zip b.elems).map (fun x => leBytes x.1 x.2.toNat)).flatten

/-- An item from its bytes. -/
def itemOf (fields : List Nat) (bs : List Byte) : I8A :=
  { elems := (fields.foldl (fun (a : Nat × List Int) n => (a.1 + n, a.2 ++ [(fieldLe bs a.1 n : Int)])) (0, [])).2 }

/-- Items of one packet at most. -/
def itemsPerPacket (size : Nat) : Nat := 3800 / size

/-- MTAG of an exchange's packets (log 67). -/
def exchangeMtag (stage cseq : Nat) : Nat := wrap32 (Config.exchangeTag stage cseq)

/-- Send what an exchange has to send, over the primary path. -/
def Channel.sendItems (k : Channel) (w : Self) (x : Coll) (stage : Nat) (o : FlowOut) : Channel :=
  let fields := x.itemFields k stage
  let size := fields.sum
  let per := itemsPerPacket size
  let packets := fun (l : List (Nat × I8A)) => ((runs l).map (fun r =>
    ((chunks per (r.2.length + 1) r.2).zipIdx).map (fun c =>
      dataPacket (exchangeMtag stage x.cseq) (size * (r.1 + per * c.2)) ((c.1.map (itemBytes fields)).flatten)))).flatten
  let k := match x.portOf false 0 with
    | some p => k.sendTo w p 0 3 (packets o.up)
    | none => k
  (x.kidPorts false).foldl (fun (k : Channel) p => k.sendTo w p 0 3 (packets o.down)) k

/-- An exchange starts: what this participant sends before it receives anything. -/
def Channel.startExchange (k : Channel) (w : Self) (x : Coll) (stage : Nat) (items : List I8A) : Coll × Channel :=
  let (f, o) := if stage = 3 then Flow.startGather x.desc.rank x.desc.p x.desc.tree items
    else Flow.startMax x.desc.rank x.desc.p x.desc.tree items
  ({ x with xch := some (stage, f) }, k.sendItems w x stage o)

/-- A packet of an exchange: its items join the flow, and what they complete goes on. -/
def Channel.exchangeIn (k : Channel) (w : Self) (x : Coll) (src off : Nat) (data : List Byte) : Coll × Channel :=
  match x.xch with
  | none => (x, k)
  | some (stage, f) =>
    let fields := x.itemFields k stage
    let size := fields.sum
    let j := off / size
    let n := min (min (itemsPerPacket size) (data.length / size)) (f.itemEnd j - j)
    let items := (List.range n).map (fun i => itemOf fields (slice data (size * i) size))
    let (f, o) := f.recv (k.isParent x false src) j items
    ({ x with xch := some (stage, f) }, k.sendItems w x stage o)

/-- One number as an item. -/
def itemOfNat (n : Nat) : I8A := { elems := [(n : Int)] }

/-- The numbers of a complete exchange. -/
def Flow.numbers (f : Flow) : List Nat := f.final.map (fun b => match b with | some b => (b.elems.headD 0).toNat | none => 0)

/-! ### Passes and what follows them (11 R300 to R308) -/

/-- A pass starts on a path: COLL_OPEN, then the first blocks. -/
def Channel.startPass (k : Channel) (w : Self) (x : Coll) (secondary : Bool) (pass : Nat) (own : List I8A) : Flow × Channel :=
  let (f, o) := Flow.start (x.rankOn secondary) x.desc.p x.desc.tree (x.desc.kind == 2) own
  let k := k.openPass w x secondary pass f
  (f, k.sendFlow w x secondary o)

/-- In a location run the digest of what an adder sends is that of what it received plus its own contribution's, over the blocks that
neither saturated nor are poisoned (11 R309, step 3). -/
def adderAgrees (wts : List Nat) (before after : Flow) (first : Nat) (bs : List I8A) : Bool :=
  (bs.zipIdx).all (fun b =>
    let j := first + b.2
    let sum := blockAt after.sums j
    let adds := before.seen.getD j 0 = 0 ∧ segOf before.own.length before.p j ≠ before.rank
    !decide adds || sum.ovf || sum.code == 0xFF
      || blockDigest wts j sum == (blockDigest wts j b.1 + blockDigest wts j (blockAt before.own j)) % digQ)

/-- Blocks of a pass arrive for a launched collective; those of a pass not yet started here wait. -/
def Channel.blocksIn (k : Channel) (w : Self) (x : Coll) (pass port src first : Nat) (bs : List I8A) : Coll × Channel :=
  let wait : Coll × Channel := ({ x with early := x.early ++ [(pass, port, src, first, bs)] }, k)
  if pass = 4 then
    match x.dual with
    | none => wait
    | some d =>
      let (d, o) := d.recv (k.isParent x true src) first bs
      let x := { x with dual := some d }
      (k.sendFlow w x true o).settleDual x
  else if !x.launched || x.codes.isEmpty || x.pass < pass then wait
  else if pass < x.pass then (x, k)
  else
    let (x, k) := k.hopReceived w x first bs
    let wts := digWeights k.bind.seed k.step x.desc.bucket (32 * x.codes.length)
    let before := x.flow
    let (f, o) := x.flow.recv (k.isParent x false src) first bs
    let k := if x.location && pass == 0 && !x.desc.tree && !adderAgrees wts before f first bs then
        k.collError .adderFault .H 4 x.port x.cseq else k
    let x := { x with flow := f }
    (x, k.sendFlow w x false o)

/-- Blocks that came early are taken in. -/
def Channel.takeEarly (k : Channel) (w : Self) (x : Coll) : Coll × Channel :=
  x.early.foldl (fun (a : Coll × Channel) (r : Nat × Nat × Nat × Nat × List I8A) => a.2.blocksIn w a.1 r.1 r.2.1 r.2.2.1 r.2.2.2.1 r.2.2.2.2)
    ({ x with early := [] }, k)

/-- The codes are agreed: contributions are formed and the main pass starts, with the dual run of a sampled bucket (11 R294, R308, R309). -/
def Channel.startMain (k : Channel) (w : Self) (x : Coll) (codes : List Nat) : Coll × Channel :=
  match k.srcBlocks x.entry x.port x.desc with
  | (none, k) => ({ x with failed := true }, k)
  | (some g, k) =>
    let d := x.desc
    let own := (g.zipIdx).map (fun (b : List XNum × Nat) => encodeBlock b.1 (codes.getD b.2 0))
    let located := 1 < d.p && k.coll.locate == some d.cidx
    let sampled := 1 < d.p && (located || (k.coll.interval != 0 && (k.step * 65536 + d.bucket) % k.coll.interval == 0))
    let x := { x with codes := codes, contrib := own, result := own.map (fun _ => {}), sampled := sampled
                      location := located, dualOk := !sampled }
    let (f, k) := k.startPass w x false 0 own
    let x := { x with flow := f }
    let (x, k) := if sampled then
        let (f2, k) := k.startPass w x true 4 own
        ({ x with dual := some f2 }, k.collCount (fun c => { c with dualSamples := sat32 c.dualSamples 1 }))
      else (x, k)
    k.takeEarly w x

/-- State of a result block, as a REDUCE_SCATTER exchanges it: 1 flagged, 2 poisoned (11 R303, R305; log 34). -/
def I8A.status (b : I8A) : Nat := if b.code = 0xFF then 2 else bit b.ovf

/-- Block number of a position of the pass under way. -/
def Coll.blockNo (x : Coll) (j : Nat) : Nat := if x.pass = 0 then j else x.flagged.getD j 0

/-- Result blocks of the pass that is complete: those held here, and of the others their state alone. -/
def Coll.passBlocks (x : Coll) (states : List Nat) : List (Nat × I8A) :=
  (x.flow.final.zipIdx).map (fun f =>
    let b := x.blockNo f.2
    (b, f.1.getD { code := if states.getD f.2 0 = 2 then 0xFF else x.codes.getD b 0, ovf := states.getD f.2 0 == 1 }))

/-- Largest magnitude of a result block. -/
def I8A.maxAbs (b : I8A) : Nat := b.elems.foldl (fun a z => max a z.natAbs) 0

/-- The next step's codes of the blocks completed here, 0 for the others (11 R302). -/
def Coll.codesHere (x : Coll) (margin : Nat) : List Nat :=
  (List.range x.codes.length).map (fun b =>
    let r := blockAt x.result b
    if x.desc.kind = 2 ∧ 1 < x.desc.p ∧ !x.held.contains b then 0 else nextCode (x.codes.getD b 0) r.maxAbs (r.code == 0xFF) margin)

/-- Every participant knows the state of every block of the pass: the flagged blocks go into a repair pass, or the digest starts and the
next codes are made (11 R303, R304, R307, R302). -/
def Channel.passTaken (k : Channel) (w : Self) (x : Coll) (states : List Nat) : Coll × Channel :=
  let got := x.passBlocks states
  let ended := got.map (fun (b : Nat × I8A) =>
    if b.2.ovf ∧ (3 ≤ x.pass ∨ x.codes.getD b.1 0 = 0xFE) then (b.1, I8A.poison, true) else (b.1, b.2, false))
  let exhausted := (ended.filter (fun (b : Nat × I8A × Bool) => b.2.2)).length
  let result := ended.foldl (fun (l : List I8A) (b : Nat × I8A × Bool) => l.set b.1 b.2.1) x.result
  let flagged := (ended.filter (fun (b : Nat × I8A × Bool) => b.2.1.ovf && b.2.1.code != 0xFF)).map Prod.fst
  let first := decide (x.pass = 0)
  let inPass := got.map Prod.fst
  let x := { x with result := result, mainRes := if first then x.flow.final else x.mainRes
                    held := x.held.filter (fun b => !inPass.contains b) ++ x.flow.completes.map x.blockNo }
  let ovfs := (got.filter (fun (b : Nat × I8A) => b.2.ovf && b.2.code != 0xFF)).length
  let k := k.collCount (fun c => { c with
    ovfBlocks := if first then sat32 c.ovfBlocks ovfs else c.ovfBlocks
    repairExhausted := sat32 c.repairExhausted exhausted })
  let (x, k) := k.settleDual x
  if flagged.isEmpty then
    let (x, k) := k.startDigest w { x with passesDone := true }
    let codes := x.codesHere k.coll.margin
    if x.desc.kind = 2 ∧ 1 < x.desc.p then k.startExchange w x 2 (codes.map itemOfNat) else ({ x with nextCodes := codes }, k)
  else
    match k.srcBlocks x.entry x.port x.desc with
    | (none, k) => ({ x with failed := true }, k)
    | (some g, k) =>
      let codes := flagged.foldl (fun (l : List Nat) b => l.set b (min 0xFE (l.getD b 0 + k.coll.raise))) x.codes
      let own := flagged.map (fun b => encodeBlock (g.getD b []) (codes.getD b 0))
      let contrib := (flagged.zip own).foldl (fun (l : List I8A) b => l.set b.1 b.2) x.contrib
      let x := { x with codes := codes, flagged := flagged, pass := x.pass + 1, contrib := contrib }
      let k := k.collCount (fun c => { c with repairPasses := sat32 c.repairPasses 1
                                              repairBlocks := sat32 c.repairBlocks flagged.length })
      let (f, k) := k.startPass w x false x.pass own
      k.takeEarly w { x with flow := f }

/-- A complete exchange takes effect (11 R301 to R303). An ALLGATHER and the verdict record wait for the event that tells their end. -/
def Channel.exchangeDone (k : Channel) (w : Self) (x : Coll) (stage : Nat) (f : Flow) : Coll × Channel :=
  match stage with
  | 0 =>
    let codes := f.numbers.map (fun e => agreedCode e x.desc.p k.coll.margin)
    let k := k.writeTable x.port x.entry x.desc.stab k.step codes
    k.startMain w { x with xch := none } codes
  | 1 => k.passTaken w { x with xch := none } f.numbers
  | 2 => ({ x with xch := none, nextCodes := f.numbers }, k)
  | _ => (x, k)

/-- A pass is complete here: a REDUCE_SCATTER of several participants exchanges the states of its blocks first (11 R303; log 34). -/
def Channel.passComplete (k : Channel) (w : Self) (x : Coll) : Coll × Channel :=
  if x.desc.kind = 2 ∧ 1 < x.desc.p then
    k.startExchange w x 1 (x.flow.final.map (fun b => itemOfNat ((b.map I8A.status).getD 0)))
  else k.passTaken w x []

/-- A collective goes on as far as what it has received allows: complete exchanges and repair passes lead on at once, the main pass once
COLL_MAIN_PASS_DONE has told its end. -/
def Channel.collAdvance (w : Self) : Nat → Coll × Channel → Coll × Channel
  | 0, a => a
  | fuel + 1, (x, k) =>
    if x.failed || !x.launched || x.desc.kind == 3 then (x, k)
    else match x.xch with
      | some (stage, f) =>
        if f.complete && decide (stage < 3) then Channel.collAdvance w fuel (k.exchangeDone w x stage f) else (x, k)
      | none =>
        if x.mainDone && !x.passesDone && x.flow.complete then Channel.collAdvance w fuel (k.passComplete w x) else (x, k)

/-- Steps of a collective that one command can lead through: an exchange and a pass for each of its four passes, and the exchanges before
and after them. -/
def collFuel : Nat := 12

/-- A collective goes on, and stands among those in flight. -/
def Channel.advanceColl (k : Channel) (w : Self) (x : Coll) : Channel :=
  let (x, k) := Channel.collAdvance w collFuel (x, k)
  k.setColl x

/-- Has a port's Bell a context for a collective: one it holds already, or one of its sixteen that is free (11 R299)? -/
def Channel.contextAt (k : Channel) (cseq p : Nat) : Bool :=
  (k.coll.active.any (fun (x : Coll) => x.cseq == pathless cseq && x.openAt.contains p))
    || decide ((k.coll.active.filter (fun (x : Coll) => x.openAt.contains p)).length < 16)

/-- May a COLL entry launch now: each port it uses has a context for it (11 R299). -/
def Channel.contextFree (k : Channel) (d : CollDesc) : Bool :=
  ((d.ports.filterMap id).map k.resolve).all (k.contextAt (k.cseqOf d.cidx))

/-- The chords of this participant's own segment of an ALLGATHER, as the items of its exchange; none when an error of class S or above
ends the read (11 R290, log 34). -/
def Channel.gatherItems (k : Channel) (x : Coll) : Option (List I8A) × Channel :=
  let d := x.desc
  match k.readTensor (k.entry x.entry).mb d.src false with
  | none => (none, k.collVersion x.port)
  | some (ix, want) =>
    let t := k.tensor ix
    let mine := if d.p ≤ 1 then List.range d.chords else segment d.chords d.p ((d.rank + 1) % d.p)
    mine.foldl (fun (a : Option (List I8A) × Channel) i =>
      match a.1 with
      | none => a
      | some l =>
        let (c, k) := a.2.srcChord x.entry x.port t want (d.first + i)
        (c.map (fun c => l.set i { elems := c.1.map (fun (b : Byte) => (b.toNat : Int)) }), k)) (some (List.replicate d.chords {}), k)

/-- A COLL entry launches (11 R289 to R308): an ALLGATHER sends its own chords; another reads its codes, or sends the local codes that the
agreed ones come from, and starts its passes. -/
def Channel.collLaunch (k : Channel) (w : Self) (entry : Nat) : Channel :=
  let e := k.entry entry
  let d := Score.collAt k.pool e.desc
  let cseq := k.cseqOf d.cidx
  let ports := d.ports.map (fun (p : Option Nat) => p.map k.resolve)
  let x : Coll := { ((k.coll? cseq).getD {}) with
    cseq := cseq, port := e.unit - 0x300, entry := entry, token := e.sets, desc := d, ports := ports, launched := true
    openAt := ports.filterMap id }
  let k := { k with coll := { k.coll with active := (k.coll.active.filter (fun (y : Coll) => y.cseq != cseq)) ++ [x] } }
  let lost := fun (k : Channel) => k.setColl { x with failed := true }
  if d.kind = 3 then
    match k.gatherItems x with
    | (none, k) => lost k
    | (some items, k) =>
      let (x, k) := k.startExchange w x 3 items
      k.setColl x
  else match k.readTable x.port d with
    | (none, k) => lost k
    | (some (some codes), k) =>
      let (x, k) := k.startMain w x codes
      k.advanceColl w x
    | (some none, k) =>
      match k.srcBlocks entry x.port d with
      | (none, k) => lost k
      | (some g, k) =>
        let k := k.collCount (fun c => { c with exchanges := sat32 c.exchanges 1 })
        let (x, k) := k.startExchange w x 0 (g.map (fun b => itemOfNat (localCode b)))
        k.advanceColl w x

/-- COLL_MAIN_PASS_DONE (11 R303): the main pass of a collective is complete and any repair passes follow. -/
def Channel.mainPassDone (k : Channel) (w : Self) (cseq : Nat) : Channel :=
  match k.coll? cseq with
  | none => k
  | some x =>
    if !x.launched || x.mainDone || x.codes.isEmpty || !x.flow.complete then k
    else k.advanceColl w { x with mainDone := true }

/-- An exchange's packet finds its collective, or the verdict record's reduction: the channel after it, none when it belongs to neither
(11 R290; 10 R281). -/
def Channel.exchangePacket (k : Channel) (w : Self) (mtag src off : Nat) (data : List Byte) : Option Channel :=
  let isFor := fun (x : Coll) => match x.xch with | some (stage, _) => exchangeMtag stage x.cseq == mtag | none => false
  match k.coll.active.find? isFor, k.coll.verdict with
  | some x, _ =>
    let (x, k) := k.exchangeIn w x src off data
    some (k.advanceColl w x)
  | none, some v =>
    if isFor v then
      let (v, k) := k.exchangeIn w v src off data
      some { k with coll := { k.coll with verdict := some v } }
    else none
  | none, none => none

/-- Does a tag belong to an exchange of an earlier attempt of the step, which a STEP_ABORT has ended? (11 R293, R299, R312) -/
def Channel.staleTag (k : Channel) (mtag : Nat) : Bool :=
  let cidxs := match k.score with
    | some sc => 0 :: (sc.entries.filter (fun (e : Entry) => e.action == 9)).map (fun (e : Entry) => (Score.collAt sc.pool e.desc).cidx)
    | none => [0]
  (List.range k.attempt).any (fun a => cidxs.any (fun i => [0, 1, 2, 3, 4].any (fun stage =>
    exchangeMtag stage ({ k with attempt := a }.cseqOf i) == mtag)))

/-! ### Delivery (11 R291, R295, R302, R305, R307, R315) -/

/-- Replace the 32 codes of a block in a BF16 chord (11 R295). -/
def putBlock (c : Chord) (b : Nat) (codes : List Nat) : Chord :=
  let all := c.codes.take (32 * b) ++ codes ++ c.codes.drop (32 * b + 32)
  { codes := all, side := { c.side with zb := all.all (· == 0), psn := false } }

/-- An empty BF16 chord of a tensor. -/
def freshChord (t : TensorDesc) (ver : Nat) : Chord :=
  let dir := Score.geomDir t.geom
  { codes := List.replicate 256 0
    side := { scales := if dir = 2 then 0x7F :: List.replicate 15 0 else List.replicate 16 0x7F, zb := true
              dir := dir, blk := Score.geomBlk t.geom, fmt := Fmt.id .bf16, ver := ver } }

/-- Blocks that a participant writes to DST: all of them, or in a REDUCE_SCATTER those it completed (11 R290). -/
def Coll.writes (x : Coll) : List Nat := if x.desc.kind = 2 then x.held else List.range x.codes.length

/-- Write the result blocks this participant holds to DST; false when an error of class S or above met the chord that a block shares
(11 R295; 02 R43). -/
def Channel.writeResult (k : Channel) (x : Coll) : Bool × Channel :=
  let (ti, tag) := k.writeTensor x.desc.dst
  let t := k.tensor ti
  let zeroed := decide (k.coll.policy = 1)
  let codesOf := fun (b : Nat) =>
    let r := blockAt x.result b
    if r.code = 0xFF then List.replicate 32 (if zeroed then 0 else 0x7FC0)
    else r.elems.map (resultCode k.live.ieee r.code)
  ((x.writes.map (· / 8)).eraseDups).foldl (fun (a : Bool × Channel) i =>
    if !a.1 then a
    else
      let bs := x.writes.filter (fun b => b / 8 == i)
      let (ok, base, k) := if bs.length = 8 then (true, freshChord t tag, a.2) else
        (let (r, _, k) := a.2.readNow 3 x.port 0 t (x.desc.first + i)
         (!r.lost, (match Chord.ofBytes .bf16 r.bytes with
          | .good c => c
          | _ => freshChord t tag), k))
      let c := bs.foldl (fun (c : Chord) b => putBlock c (b % 8) (codesOf b)) base
      (ok, if ok then k.writeBytes 3 x.port 0 x.entry t.space (Score.chordAddr t (x.desc.first + i)) (Chord.toBytes .bf16 c) else k)) (true, k)

/-- The blocks of DST re-encoded under their codes, for the check of a P = 1 collective (11 R291). -/
def Channel.reencode (k : Channel) (x : Coll) : List I8A × Channel :=
  let (ti, _) := k.writeTensor x.desc.dst
  let t := k.tensor ti
  let (els, k) := (List.range x.desc.chords).foldl (fun (a : List (List XNum) × Channel) i =>
    let (r, k) := a.2.readBytes 3 x.port 0 t.space (Score.chordAddr t (x.desc.first + i)) (Score.chordSize t)
    (a.1 ++ chunks 32 8 (Chord.readElements .bf16 (.fin false 1 0) (Chord.ofBytes .bf16 r.bytes)), k)) ([], k)
  ((els.zipIdx).map (fun (b : List XNum × Nat) => encodeBlock b.1 (x.codes.getD b.2 0)), k)

/-- The local check of a P = 1 collective: DRES over the integers re-encoded from DST against DCON (11 R291, R306). -/
def Channel.localCheck (k : Channel) (x : Coll) : Bool × Channel :=
  let (again, k) := k.reencode x
  let wts := digWeights k.bind.seed k.step x.desc.bucket (32 * x.codes.length)
  let res := (List.range x.codes.length).foldl (fun a b =>
    if (blockAt x.result b).code = 0xFF then a else (a + blockDigest wts b (blockAt again b)) % digQ) 0
  (res == (x.digests wts).1, k)

/-- An ALLGATHER's result: every chord as it came (11 R290). -/
def Channel.gatherResult (k : Channel) (x : Coll) : Channel :=
  let t := k.tensor (k.writeTensor x.desc.dst).1
  let items := match x.xch with | some (_, f) => f.final | none => []
  (items.zipIdx).foldl (fun (k : Channel) b => match b.1 with
    | some b' => k.writeBytes 3 x.port 0 x.entry t.space (Score.chordAddr t (x.desc.first + b.2)) (b'.elems.map (fun z => byteOf z.toNat))
    | none => k) k

/-- Is a collective ready to be delivered: every chord of an ALLGATHER is in; else its digest totals agree, its dual run if it has one,
and the next codes are gathered (11 R302, R307, R308)? -/
def Coll.ready (x : Coll) : Bool :=
  x.launched && !x.failed && (if x.desc.kind = 3 then (match x.xch with | some (_, f) => f.complete | none => false)
    else x.passesDone && x.dualOk && x.xch.isNone
      && (match x.dig with | some d => (match d.totals with | some t => t.1 == t.2 | none => false) | none => false))

/-- The result is delivered: counters, next codes, the token, the context closed; how many blocks are poisoned. -/
def Channel.deliver (k : Channel) (x : Coll) : Channel × Nat :=
  let close := fun (k : Channel) =>
    ({ k with coll := { k.coll with active := k.coll.active.filter (fun (y : Coll) => y.cseq != x.cseq) } }.landEntry x.entry).collCount
      (fun c => { c with collDone := sat32 c.collDone 1 })
  if x.desc.kind = 3 then (close (k.gatherResult x), 0)
  else match k.writeResult x with
    | (false, k) => (k.setColl { x with failed := true }, 0)
    | (true, k) =>
      let (ok, k) := if x.desc.p ≤ 1 then k.localCheck x else (true, k)
      if !ok then
        (((k.collCount (fun c => { c with digestMismatch := sat32 c.digestMismatch 1 })).collError .digestMismatch .S 4 x.port x.cseq).setColl
          { x with failed := true }, 0)
      else
        let poisoned := (x.result.filter (fun (b : I8A) => b.code == 0xFF)).length
        let k := close k
        ({ k with coll := { k.coll with done := k.coll.done ++ [(x.desc.stab, x.nextCodes)] } }.collCount
          (fun c => { c with poisonBlocks := sat32 c.poisonBlocks poisoned }), poisoned)

/-- The poison policy (11 R305): VOID and ROLLBACK raise the rung the step's verdict requests. -/
def Channel.poisonPolicy (k : Channel) : Channel :=
  match k.coll.policy with
  | 0 => { k with tun := { k.tun with policyRung := max k.tun.policyRung 4 } }
  | 2 => { k with tun := { k.tun with policyRung := max k.tun.policyRung 5 } }
  | _ => k

end Sys2Proof.Machine
end

