-- ==== Sys2Proof/Machine/Net.lean ====
section
/-! DEFINITION. Meanings of the Bell port commands: what a received flit does, packets consumed or forwarded, HELLO, the
timers and the port states (10; 12 R320 to R330), and of the collective's events (11). -/

namespace Sys2Proof.Machine

open Sys2Proof

/-! ### Counting and freeing -/

/-- A port's counters changed. -/
def Channel.portCount (k : Channel) (p : PortId) (f : PortCnt → PortCnt) : Channel :=
  k.modPort p (fun q => { q with cnt := f q.cnt })

/-- The first `n` flits of a VC leave the receive buffer (10 R270). -/
def Channel.dropHead (k : Channel) (p : PortId) (v n : Nat) : Channel :=
  k.modPort p (fun q => ({ q with rxBuf := modAt q.rxBuf v (fun (l : List Flit) => l.drop n) }).free v n)

/-! ### DATA (10 R273, R281) -/

/-- Do byte ranges cover a message of `n` bytes? -/
def covers (n : Nat) (got : List (Nat × Nat)) : Bool :=
  ((got.mergeSort (fun a b => decide (a.1 ≤ b.1))).foldl (fun (e : Nat) (r : Nat × Nat) => if r.1 ≤ e then max e (r.1 + r.2) else e) 0) ≥ n

/-- Does a posted RECV match a packet (10 R281)? -/
def Recv.matches (r : Recv) (mtag src : Nat) : Bool := r.mtag == mtag && (r.peer == 0xFFFF || r.peer % 16384 == src % 16384)

/-- Does a packet of some flits that starts at byte `off` bring bytes beyond a message of `len` bytes? Its last flits may hold none of its
bytes, but the flit before them holds at least one (10 R273, R281). -/
def overruns (len off flits : Nat) : Bool :=
  decide (len ≤ off) || (decide (2 ≤ flits) && decide (len - off ≤ 240 * (flits - 2) + 200))

/-- The posted RECV that a DATA packet on port `p` goes to, with its port: the oldest match there or, in routed fallback, at a port whose
partner SRC is and that is not UP (10 R281; 12 R329). -/
def Channel.recvFor (k : Channel) (p : PortId) (mtag src : Nat) : Option (PortId × Recv) :=
  let lost := portIds.filter (fun q => k.paths.disc.fallback && q != p && (k.port q).st != .up && samePartner (k.planPort q).partner src)
  (p :: lost).findSome? (fun q => ((k.port q).recvs.find? (fun (r : Recv) => r.matches mtag src)).map (fun r => (q, r)))

/-- A DATA packet is taken by the exchange it belongs to, or written to the oldest RECV that matches; none when it has to wait. One of an
exchange that a STEP_ABORT has ended is discarded (10 R281; 11 R290, R312; logs 31, 67). -/
def Channel.dataIn (k : Channel) (w : Self) (p : PortId) (flits src : Nat) (body : List Byte) : Option Channel :=
  let n := body.length
  let mtag := fieldLe body (n - 8) 4
  let off := fieldLe body (n - 4) 4
  match k.exchangePacket w mtag src off (body.take (n - 8)) with
  | some k => some k
  | none =>
  match k.recvFor p mtag src with
  | none => if k.staleTag mtag then some k else none
  | some (at_, r) =>
    let t := k.tensor r.tensor
    let size := Score.chordSize t
    let len := r.count * size
    let data := (body.take (n - 8)).take (len - off)
    let k := k.writeBytes 3 p.val 0 r.entry t.space (Score.chordAddr t r.first + off) data
    let over_ := overruns len off flits
    let got := r.got ++ [(off, data.length)]
    if over_ then
      let k := (k.portCount p (fun c => { c with pktFault := sat32 c.pktFault 1 })).modPort at_ (fun q =>
        { q with recvs := q.recvs.filter (fun (x : Recv) => x.entry != r.entry) })
      some (k.raise { cause := .recvOverrun, cls := .S, unit := 3, uidx := p.val, detail := src })
    else if covers len got then
      some ((k.modPort at_ (fun q => { q with recvs := q.recvs.filter (fun (x : Recv) => x.entry != r.entry) })).landEntry r.entry)
    else
      some (k.modPort at_ (fun q => { q with
        recvs := q.recvs.map (fun (x : Recv) => if x.entry == r.entry then { x with got := got } else x) }))

/-! ### CTRL (11 R299, R311, R312, R316) -/

/-- A COLL_OPEN takes effect; none when it finds no free context and waits (11 R299). -/
def Channel.collOpen (k : Channel) (p : PortId) (src : Nat) (pl : List Byte) : Option Channel :=
  let cseq := fieldLe pl 16 4
  let pass := byteAt pl 1
  let count := fieldLe pl 20 4
  let same := slice pl 26 6 == k.coll.params
  let note := fun (k : Channel) (stale : Bool) => k.modPort p (fun q => { q with
    ctxWait := false, opens := q.opens.filter (fun o => o.1 != src || (decide (0 < o.2.2.2.1) && !o.2.2.2.2)) ++ [(src, cseq, pass, count, stale)] })
  let checked := fun (k : Channel) =>
    if same then k
    else (k.collCount (fun c => { c with paramMismatch := sat32 c.paramMismatch 1 })).collError .paramMismatch .J 8 0 cseq
  if !k.current cseq then
    some (note (checked (k.collCount (fun c => { c with staleColl := sat32 c.staleColl 1 }))) true)
  else if !k.contextAt cseq p.val then none
  else
    let k := match k.coll? cseq with
      | some x => if x.openAt.contains p.val then k else k.setColl { x with openAt := x.openAt ++ [p.val] }
      | none => { k with coll := { k.coll with active := k.coll.active ++ [{ cseq := pathless cseq, port := p.val, openAt := [p.val] }] } }
    some (note (checked k) false)

/-- A REDUCE packet's blocks go to the context that the source's COLL_OPEN named, up to its count; what follows a stale COLL_OPEN is
discarded (11 R299). -/
def Channel.reduceIn (k : Channel) (w : Self) (p : PortId) (src : Nat) (payloads : List (List Byte)) : Channel :=
  let parts := payloads.map reduceBlocks
  let blocks := (parts.map Prod.snd).flatten
  let first := (parts.head?.map Prod.fst).getD 0
  let ofSrc := (k.port p).opens.filter (fun o => o.1 == src)
  let staleNow := match ofSrc.getLast? with | some o => o.2.2.2.2 | none => true
  match ofSrc.find? (fun o => decide (0 < o.2.2.2.1)) with
  | none => k
  | some (_, cseq, pass, left, stale) =>
    let used := fun (o : Nat × Nat × Nat × Nat × Bool) =>
      if o.1 == src && o.2.1 == cseq && o.2.2.1 == pass then (o.1, o.2.1, o.2.2.1, o.2.2.2.1 - blocks.length, o.2.2.2.2) else o
    if staleNow || stale then k
    else
      let k := k.modPort p (fun q => { q with opens := q.opens.map used })
      match k.coll? cseq with
      | none => k
      | some x =>
        let (x, k) := k.blocksIn w x pass p.val src first (blocks.take left)
        k.advanceColl w x

/-- A DIGEST packet: totals that travel, or the digest of a hop returned to the rank that sent it (11 R307, R309). -/
def Channel.digestPacket (k : Channel) (w : Self) (src : Nat) (pl : List Byte) : Channel :=
  match k.coll? (fieldLe pl 0 4) with
  | none => k
  | some x =>
    if byteAt pl 6 = 0 then
      let (x, k) := k.digestIn w x src (fieldLe pl 8 8 % digQ) (fieldLe pl 16 8 % digQ)
      k.setColl x
    else if byteAt pl 6 = 1 ∧ x.location then
      let wts := digWeights k.bind.seed k.step x.desc.bucket (32 * x.codes.length)
      if x.sentDigest wts (byteAt pl 7) = fieldLe pl 8 8 then k
      else
        let a := (x.portOf false 0).getD 0
        let k := (k.collCount (fun c => { c with located := sat32 c.located 1 })).raise
          { cause := .located, cls := .S, unit := 3, uidx := a, detail := w.pos }
        match portId? a with
        | some q => k.portDown q
        | none => k
    else k

/-- A STEP_ABORT arrives (11 R312, R316): one for the step committed last splits the commit; of a voided step, and of any older
one, it is dropped. -/
def State.abortIn (s : State) (c : ChanId) (p : PortId) (pl : List Byte) : State :=
  let s := s.modChan c (fun k => k.collCount (fun n => { n with abortRx := sat32 n.abortRx 1 }))
  let k := s.chan c
  let step := fieldLe pl 4 8
  let att := byteAt pl 12
  if step = k.step ∧ k.attempt % 256 ≤ att then s.stepAbort c (byteAt pl 1) (fieldLe pl 16 4) (some (p, pl))
  else match k.lastEnd with
    | some (t, a) =>
      if step = t ∧ a % 256 ≤ att ∧ k.tun.voidRun = 0 then
        s.logError c { cause := .commitSplit, cls := .J, unit := 8, detail := step } noCseq
      else s
    | none => s

/-! ### The receive buffer (10 R277; 12 R328) -/

/-- Consume an authenticated packet; none when it has to wait in the buffer. -/
def State.consume (s : State) (c : ChanId) (p : PortId) (fs : List Flit) (src : Nat) (body : List Byte) : Option State :=
  let k := s.chan c
  let w := s.self c
  match (fs.head?.map Flit.typ).getD 0 with
  | 0 => (k.dataIn w p fs.length src body).map (s.setChan c)
  | 1 => some (s.setChan c (k.reduceIn w p src ((List.range (fs.length - 1)).map (fun i => slice body (240 * i) 240))))
  | 2 => some (s.setChan c (k.digestPacket w src body))
  | _ =>
    match byteAt body 0 with
    | 1 => some (s.abortIn c p body)
    | 2 => (k.collOpen p src body).map (s.setChan c)
    | _ => some s

/-- What the head of one VC does: none when nothing moves. -/
def State.serviceVc (s : State) (c : ChanId) (p : PortId) (v : Nat) : Option State :=
  let k := s.chan c
  let q := k.port p
  let put := fun (k : Channel) => some (s.setChan c k)
  match headPacket (q.rxBuf.getD v []) with
  | none => none
  | some (fs, complete) =>
    let f := fs.headD {}
    let n := fs.length
    let done := k.dropHead p v n
    let w := s.self c
    if !k.admits p f.job then put (done.portCount p (fun t => { t with isoDrop := sat32 t.isoDrop n }))
    else if f.dpos ≠ w.pos ∨ f.dch ≠ w.chan then
      match k.route p f.dpos with
      | some o =>
        if (k.port o).st == .up && k.admits o f.job then
          put (done.modPort o (fun x => { x with
            txq := modAt x.txq v (· ++ [{ flits := fs.map (fun (y : Flit) => { y with routed := true }) }]) }))
        else put (done.portCount p (fun t => { t with routeMiss := sat32 t.routeMiss n }))
      | none => put (done.portCount p (fun t => { t with routeMiss := sat32 t.routeMiss n }))
    else if !k.bind.bound || f.job ≠ k.bind.job then put (done.portCount p (fun t => { t with isoDrop := sat32 t.isoDrop 1 }))
    else if !complete then put (done.portCount p (fun t => { t with pktFault := sat32 t.pktFault 1 }))
    else
      let (src, epoch, pctr) := tailOf fs
      match q.useKey src epoch with
      | none => put ((k.portCount p (fun t => { t with keyMiss := sat32 t.keyMiss 1 })).modPort p (fun x =>
          { x with keyWait := some (v, src, epoch) }))
      | some (key, q') =>
        let used := fun (k : Channel) => k.modPort p (fun x => { x with keys := q'.keys })
        let k := used k
        let done := used done
        if !k.inOrder src epoch v pctr then put (done.portCount p (fun t => { t with replayRej := sat32 t.replayRej 1 }))
        else match openPacket key fs with
          | none => put ((done.portCount p (fun t => { t with authFail := sat32 t.authFail 1 })).raise
              { cause := .authFail, cls := .S, unit := 3, uidx := p.val, detail := src })
          | some body =>
            let ready := k.accepted src epoch v pctr
            match (s.setChan c ready).consume c p fs src body with
            | some s' => some (s'.modChan c (fun k => k.dropHead p v n))
            | none =>
              if f.typ = 3 ∧ !q.ctxWait then
                put ((k.modPort p (fun x => { x with ctxWait := true })).collCount (fun t => { t with ctxFull := sat32 t.ctxFull 1 }))
              else none

/-- Work off a port's receive buffer, VC0 first, until nothing moves; a COLL_OPEN that waits for a context and a packet that
waits for its key hold back what follows (10 R277, 11 R299). -/
def State.servicePort (c : ChanId) (p : PortId) : Nat → State → State
  | 0, s => s
  | fuel + 1, s =>
    let q := (s.chan c).port p
    if q.st != .up || q.keyWait.isSome then s
    else
      let order := if q.ctxWait then [0] else [0, 1, 2, 3]
      match order.findSome? (fun v => s.serviceVc c p v) with
      | some s' => State.servicePort c p fuel s'
      | none => s

/-- Work off every port of a channel: after a RECV has been posted or a context has closed. -/
def State.serviceAll (s : State) (c : ChanId) : State := portIds.foldl (fun (s : State) p => State.servicePort c p 600 s) s

/-! ### Flits received (10 R265 to R271) -/

/-- An ACK is made ready; it names every flit accepted so far (10 R267). -/
def Port.readyAck (q : Port) (nak : Bool) : Port :=
  { q with ackReady := some { typ := 6, payload := ackPayload q.e nak }, unacked := 0 }

/-- A sequenced flit with good CRC (10 R265, R266). -/
def Port.accept (q : Port) (f : Flit) : Port :=
  let q := { q with cnt := { q.cnt with flitsRx := sat64 q.cnt.flitsRx 1 } }
  let bad := vcOfType f.typ != some f.vc
  let q := if bad then { q with cnt := { q.cnt with badType := sat32 q.cnt.badType 1 } } else q
  if f.seq ≠ q.e then q
  else
    let q := { q with e := (q.e + 1) % 2 ^ 24, unacked := q.unacked + 1 }
    let q := if bad then q.free f.vc 1 else { q with rxBuf := modAt q.rxBuf f.vc (· ++ [f]) }
    if 32 ≤ q.unacked then q.readyAck false else q

/-- What the port's FEC found in the codewords of a flit is counted (10 R286). -/
def Port.fec (q : Port) (corr uncorr : Nat) : Port :=
  { q with cnt := { q.cnt with fecCorr := sat32 q.cnt.fecCorr corr, fecUncorr := sat32 q.cnt.fecUncorr uncorr } }

/-- A port whose lanes are aligned: the flits that arrive on it are counted (10 R286). -/
def Port.trained (q : Port) : Bool := q.st == .hello || q.st == .up || q.st == .dark

/-- SEQUENCED_FLIT_RECEIVE (10 R266). `now` is in nanoseconds. -/
def execSequencedFlitReceive (c : ChanId) (p : PortId) (flit : List Byte) (now fecCorr fecUncorr : Nat) (s : State) :
    Host.Outcome State Fault Refusal :=
  let q := (s.chan c).port p
  if !q.trained then .next s
  else
    let q := q.fec fecCorr fecUncorr
    if q.st != .up then .next (s.modChan c (fun k => k.modPort p (fun _ => q)))
    else if fecUncorr ≠ 0 ∨ !flitGood flit then
      let q := { q with cnt := { q.cnt with crcFail := sat32 q.cnt.crcFail 1 } }
      let again := match q.lastNak with
        | some (e, t) => e == q.e && decide (now < t + 4000)
        | none => false
      let q := if again then q else
        { q.readyAck true with lastNak := some (q.e, now) }
      .next (s.modChan c (fun k => k.modPort p (fun _ => q)))
    else
      let f := Flit.ofBytes flit
      if 4 ≤ f.typ ∧ f.typ ≤ 6 ∧ f.vc = 0 then .next (s.modChan c (fun k => k.modPort p (fun _ => q)))
      else .next (State.servicePort c p 600 (s.modChan c (fun k => k.modPort p (fun _ => q.accept f))))

/-- KEY_DERIVED (10 R277): the sender key enters the cache and the packet's checks resume. -/
def execKeyDerived (c : ChanId) (p : PortId) (s : State) : Host.Outcome State Fault Refusal :=
  let k := s.chan c
  match (k.port p).keyWait, k.paths.kjob with
  | some (_, src, epoch), some kj =>
    .next (State.servicePort c p 600 (s.modChan c (fun k => k.modPort p (fun q =>
      ({ q with keyWait := none }).addKey { src := src, epoch := epoch, key := senderKey kj src epoch }))))
  | _, _ => .next s

/-- A link-local flit on a trained port: its payload when its CRC is good and it is of the type asked for; the port counts
what it must (10 R265). -/
def Port.local_ (q : Port) (flit : List Byte) (fecCorr fecUncorr typ : Nat) : Port × Option (List Byte) :=
  let q := if q.trained then q.fec fecCorr fecUncorr else q
  if !q.trained then (q, none)
  else if fecUncorr ≠ 0 ∨ !flitGood flit then ({ q with cnt := { q.cnt with crcFail := sat32 q.cnt.crcFail 1 } }, none)
  else
    let f := Flit.ofBytes flit
    let q := { q with cnt := { q.cnt with flitsRx := sat64 q.cnt.flitsRx 1 } }
    if vcOfType f.typ ≠ some f.vc then ({ q with cnt := { q.cnt with badType := sat32 q.cnt.badType 1 } }, none)
    else if f.typ = typ then (q, some f.payload)
    else (q, none)

/-- Start a replay from E on, or take the port DOWN when it would be the ninth (10 R268). -/
def Channel.replayFrom (k : Channel) (p : PortId) (e : Nat) : Channel :=
  if 8 ≤ (k.port p).retry then k.portDown p else k.modPort p (fun q => q.startReplay e)

/-- ACK_RECEIVE (10 R267). -/
def execAckReceive (c : ChanId) (p : PortId) (flit : RxFlit) (s : State) : Host.Outcome State Fault Refusal :=
  let (q, pl) := ((s.chan c).port p).local_ flit.bytes flit.fecCorr flit.fecUncorr 6
  .next (s.modChan c (fun k => k.modPort p (fun _ =>
    match pl with
    | some b => if q.st == .up then q.acknowledge (fieldLe b 0 3) else q
    | none => q)))

/-- NAK_RECEIVE (10 R267, R268, R287): earlier flits are acknowledged and a replay starts from E, unless a replay in
progress started at or before E. -/
def execNakReceive (c : ChanId) (p : PortId) (flit : RxFlit) (s : State) : Host.Outcome State Fault Refusal :=
  let (q, pl) := ((s.chan c).port p).local_ flit.bytes flit.fecCorr flit.fecUncorr 6
  .next (s.modChan c (fun k =>
    match pl with
    | none => k.modPort p (fun _ => q)
    | some b =>
      if q.st != .up then k.modPort p (fun _ => q)
      else
        let e := fieldLe b 0 3
        let q := { (q.acknowledge e) with cnt := { q.cnt with nakRx := sat32 q.cnt.nakRx 1 } }
        let ignored := match ((k.port p).replay) with
          | some (start, _) => !seqBefore e start
          | none => false
        let k := k.modPort p (fun _ => q)
        if ignored then k else k.replayFrom p e))

/-- CREDIT_RECEIVE (10 R271). -/
def execCreditReceive (c : ChanId) (p : PortId) (flit : RxFlit) (s : State) : Host.Outcome State Fault Refusal :=
  let (q, pl) := ((s.chan c).port p).local_ flit.bytes flit.fecCorr flit.fecUncorr 5
  .next (s.modChan c (fun k => k.modPort p (fun _ =>
    match pl with
    | some b => if q.st == .up then { q with freed := (List.range 4).map (fun v => fieldLe b (4 * v) 4) } else q
    | none => q)))

/-! ### HELLO (12 R321 to R325, R330; 10 R284) -/

/-- The discovery result's 72 bytes (12 R324). -/
def Discovery.bytes (d : Discovery) (hasPlan : Bool) : List Byte :=
  [byteOf (if hasPlan then d.status else 0), byteOf (bit d.short + 2 * bit d.extra + 4 * bit d.mismatch + 8 * bit d.fallback),
   byteOf (match d.subst with | (a, b) :: _ => a + 8 * b + 128 | [] => 0)] ++ List.replicate 5 0#8
    ++ ((d.results.map (fun r => [byteOf r.1, byteOf r.2.1] ++ leBytes 4 r.2.2 ++ [0#8, 0#8])).flatten)

/-- Subscribers of the discovery result are told a new one (14 R363, 12 R324). -/
def State.notifyDiscovery (s : State) (c : ChanId) (before : Discovery) : State :=
  let k := s.chan c
  if k.paths.disc = before then s
  else s.notify (0x5002 + 256 * c.val) 1 (fun (x : Session) => x.seesChannel k) (fun _ => k.paths.disc.bytes k.paths.plan.isSome)

/-- A port in HELLO, or one in DARK before Start, is judged by a valid HELLO (12 R322, R323, R325; 10 R284). -/
def Channel.judge (k : Channel) (w : Self) (p : PortId) (h : List Byte) : Channel :=
  let e := k.planPort p
  let seen := fieldLe h 6 2 % 16384 + 16384 * (byteAt h 8 % 8)
  let toDark := fun (k : Channel) => k.modPort p (fun q => { q with st := .dark })
  let disc := fun (k : Channel) (f : Discovery → Discovery) => { k with paths := { k.paths with disc := f k.paths.disc } }
  if e.role = roleUnused then disc ((toDark k).setResult p 3 0 seen) (fun d => { d with extra := true })
  else
    let r := k.mismatch w p h
    if r ≠ 0 then disc ((toDark k).setResult p 4 r seen) (fun d => { d with mismatch := true })
    else
      let late := (k.port p).wasDown || k.st == .run || k.st == .stopping
      if k.serves p && !late then (k.modPort p Port.enterUp).setResult p 6 0 seen
      else if e.role = roleSpare || k.replaced p || (k.port p).wasDown then (toDark k).setResult p 5 0 seen
      else if late then toDark k
      else (k.modPort p Port.enterUp).setResult p 1 0 seen

/-- HELLO_RECEIVE (12 R321, R322, R330). -/
def execHelloReceive (c : ChanId) (p : PortId) (flit : RxFlit) (s : State) : Host.Outcome State Fault Refusal :=
  let k := s.chan c
  let (q, pl) := (k.port p).local_ flit.bytes flit.fecCorr flit.fecUncorr 4
  let k1 := k.modPort p (fun _ => q)
  match pl with
  | none => .next (s.setChan c k1)
  | some h =>
    if fieldLe h 0 4 ≠ 0x4F4C4548 ∨ byteAt h 4 ≠ 1 then
      .next (s.setChan c (k1.portCount p (fun t => { t with badType := sat32 t.badType 1 })))
    else
      let w := s.self c
      let seen := fieldLe h 6 2 % 16384 + 16384 * (byteAt h 8 % 8)
      let old := q.lastHello
      let k2 := k1.modPort p (fun q => { q with seenPartner := true, seenSeen := q.seenSeen || bitOf (byteAt h 5) 0
                                                lastHello := h, partner := seen })
      let same := old.isEmpty || patch old 5 [0#8] == patch h 5 [0#8]
      let k3 := match q.st with
        | .hello => k2.judge w p h
        | .up =>
          if same then k2
          else
            let fails := k2.portBusy p || (k2.planPort p).role == roleData
            let k := k2.modPort p (fun q => { q.discard with st := .dark, lastHello := h, seenPartner := true })
            let k := k.setResult p 4 (k.mismatch w p h) seen
            let k := { k with paths := { k.paths with disc := { k.paths.disc with mismatch := true } } }
            if fails then k.raise { cause := .portDown, cls := .S, unit := 3, uidx := p.val } else k
        | .dark => if !q.wasDown && (k2.result p == 4 || k2.result p == 3) then k2.judge w p h else k2
        | _ => k2
      .next ((s.setChan c k3.settleDiscovery).notifyDiscovery c k.paths.disc)

/-- HELLO_TIMER (12 R321). -/
def execHelloTimer (c : ChanId) (p : PortId) (s : State) : Host.Outcome State Fault Refusal :=
  let k := s.chan c
  let q := k.port p
  if q.trained then
    .next (s.setChan c (k.modPort p (fun q => { q with helloReady := some { typ := 4, payload := k.helloPayload (s.self c) p } })))
  else .next s

/-! ### Slots and timers (10 R267 to R272) -/

/-- FLIT_SLOT (10 R272). -/
def execFlitSlot (c : ChanId) (p : PortId) (s : State) : Host.Outcome State Fault Refusal :=
  .next (s.modChan c (fun k => k.modPort p Port.slot))

/-- ACK_TIMER (10 R267). -/
def execAckTimer (c : ChanId) (p : PortId) (s : State) : Host.Outcome State Fault Refusal :=
  .next (s.modChan c (fun k => k.modPort p (fun q => if q.st == .up && q.unacked != 0 then q.readyAck false else q)))

/-- REPLAY_TIMEOUT (10 R268, R287). -/
def execReplayTimeout (c : ChanId) (p : PortId) (s : State) : Host.Outcome State Fault Refusal :=
  .next (s.modChan c (fun k =>
    let q := k.port p
    match q.st, q.replay, q.replayBuf with
    | .up, none, f :: _ =>
      if 8 ≤ q.retry then k.portDown p
      else (k.modPort p (fun q => q.startReplay f.seq)).portCount p (fun t => { t with replayTimeout := sat32 t.replayTimeout 1 })
    | _, _, _ => k))

/-- CREDIT_TIMER (10 R271). -/
def execCreditTimer (c : ChanId) (p : PortId) (s : State) : Host.Outcome State Fault Refusal :=
  .next (s.modChan c (fun k => k.modPort p (fun q =>
    if q.st == .up then { q with creditReady := some { typ := 5, payload := creditPayload q.rxFreed }, rxFreedSince := [0, 0, 0, 0] }
    else q)))

/-! ### Port states (10 R262, R282 to R284) -/

/-- LANE_LOCK_LOSS (10 R262, R283). -/
def execLaneLockLoss (c : ChanId) (p : PortId) (s : State) : Host.Outcome State Fault Refusal :=
  let before := (s.chan c).paths.disc
  .next ((s.modChan c (fun k =>
    match (k.port p).st with
    | .up | .dark => (k.portCount p (fun t => { t with lockLoss := sat32 t.lockLoss 1 })).portDown p
    | .training | .hello => (k.portCount p (fun t => { t with lockLoss := sat32 t.lockLoss 1 })).modPort p (fun q => { q with st := .training })
    | _ => k)).notifyDiscovery c before)

/-- DOWN_IDLE_END (10 R282): TRAINING, or IDLE when the channel is not READY or holds no plan. -/
def execDownIdleEnd (c : ChanId) (p : PortId) (s : State) : Host.Outcome State Fault Refusal :=
  .next (s.modChan c (fun k =>
    if (k.port p).st == .down then
      k.modPort p (fun q => { q with st := if k.trains then .training else .idle })
    else k))

/-- TRAINING_DONE (10 R282): RECVs posted at a port that routed fallback replaces stay posted (12 R329). -/
def execTrainingDone (c : ChanId) (p : PortId) (s : State) : Host.Outcome State Fault Refusal :=
  .next (s.modChan c (fun k =>
    if (k.port p).st == .training then k.modPort p (fun q => { q.discard with st := .hello, recvs := q.recvs }) else k))

/-- DISCOVERY_WINDOW_END (12 R323). -/
def execDiscoveryWindowEnd (c : ChanId) (s : State) : Host.Outcome State Fault Refusal :=
  let before := (s.chan c).paths.disc
  .next ((s.modChan c (fun k => if k.paths.disc.status = 1 then k.endDiscovery else k)).notifyDiscovery c before)

/-! ### Events of SEND and of collectives -/

/-- SEND_COMPLETE (10 R280): a SEND whose last flit the link has acknowledged sets its token. -/
def execSendComplete (c : ChanId) (p : PortId) (s : State) : Host.Outcome State Fault Refusal :=
  .next (s.modChan c (fun k =>
    let q := k.port p
    let acked := fun (x : Sending) => match x.lastSeq with
      | some n => !q.replayBuf.any (fun (f : Flit) => f.seq == n)
      | none => false
    let done := q.sends.filter acked
    let k := k.modPort p (fun q => { q with sends := q.sends.filter (fun (x : Sending) => !acked x) })
    done.foldl (fun (k : Channel) (x : Sending) => k.landEntry x.entry) k))

/-- COLL_MAIN_PASS_DONE (11 R303). -/
def execCollMainPassDone (c : ChanId) (cseq : Nat) (s : State) : Host.Outcome State Fault Refusal :=
  .next (s.modChan c (fun k => k.mainPassDone (s.self c) cseq))

/-- COLL_DELIVERED (11 R307): the result is written, the token set and the context closed; a poisoned block is logged and
the poison policy applied (R305). -/
def execCollDelivered (c : ChanId) (cseq : Nat) (upsets : List Upset) (s : State) : Host.Outcome State Fault Refusal :=
  let s := s.disturbed c upsets
  match (s.chan c).coll? cseq with
  | none => .next s
  | some x =>
    if !x.ready then .next s
    else
      let (k, n) := (s.chan c).deliver x
      let s := s.setChan c (if n = 0 then k else k.poisonPolicy)
      let s := if 0 < n then
          s.tunerEvent c { layer := 0xFFFF, event := 0xC, prod := 2, value := Num.toBf16 false (.fin false n 0) }
        else s
      .next (s.serviceAll c)

/-- COLL_TIMEOUT (11 R310; 05 R131): a collective, or with no CSEQ the verdict reduction, has not been delivered in time. -/
def execCollTimeout (c : ChanId) (cseq : Nat) (s : State) : Host.Outcome State Fault Refusal :=
  let k := s.chan c
  let open_ := if cseq = noCseq then k.tun.verdict.isSome && k.tun.agreed.isNone && k.running
    else match k.coll? cseq with | some x => x.launched | none => false
  if open_ then
    .next (s.setChan c ((k.collCount (fun t => { t with timeouts := sat32 t.timeouts 1 })).raise
      { cause := .collTimeout, cls := .S, unit := 4, uidx := (match k.coll? cseq with | some x => x.port | none => 0), detail := cseq }))
  else .next s

end Sys2Proof.Machine
end

