-- ==== Sys2Proof/Machine/TunerOps.lean ====
section
/-! DEFINITION. The Tuner's policy: metrics and jumps, triggers, the action ladder, the verdict record, what a commit or a
void folds and undoes, and the end of a step; the Chanter requests OPEN, VERDICT and SCALARS; a rollback
(04 R101; 05 R121 to R138, R504; 08 R208 to R212; 11 R302; 17 R407, R421). -/

namespace Sys2Proof.Machine

open Sys2Proof Sys2Proof.Num

/-! ### Metrics (05 R121, R122) -/

/-- Integer square root, bit by bit from bit `k - 1` down. -/
def isqrtBits : Nat → Nat → Nat → Nat
  | 0, _, r => r
  | k + 1, m, r => isqrtBits k m (if (r + 2 ^ k) * (r + 2 ^ k) ≤ m then r + 2 ^ k else r)

/-- BF16 code, RNE, of the square root of a sum of squares. -/
def sqrtBf16 (ieee : Bool) : XNum → Nat
  | .fin _ m e =>
    let (m, e) := if e % 2 = 0 then (m * 2 ^ 64, e - 64) else (m * 2 ^ 65, e - 65)
    let q := isqrtBits (Nat.log2 m / 2 + 1) m 0
    toBf16 ieee (.fin false (2 * q + bit (q * q != m)) (e / 2 - 1))
  | x => toBf16 ieee (abs x)

/-- BF16 code, RNE, of a quotient of non-negative values; 0 for 0/0, infinite for a zero divisor. -/
def quotBf16 (ieee : Bool) (a b : XNum) : Nat :=
  match a, b with
  | .fin _ m e, .fin _ m' e' =>
    if m = 0 then 0
    else if m' = 0 then toBf16 ieee (.inf false)
    else
      let q := m * 2 ^ 64 / m'
      toBf16 ieee (.fin false (2 * q + bit (q * m' != m * 2 ^ 64)) (e - e' - 65))
  | .nan, _ => toBf16 ieee .nan
  | _, .nan => toBf16 ieee .nan
  | .inf _, _ => toBf16 ieee (.inf false)
  | _, .inf _ => 0

/-- One fold of a metric (05 R122): the new mean and deviation, and whether it jumps. `first` is the metric's first fold. -/
def Stat.track (st : Stat) (tau : XNum) (armed first : Bool) (v : Int) : Stat × Bool :=
  if first then ({ mu := v, sig := 0 }, false)
  else
    let lim := floorAt 0 (mul tau (ofInt (max st.sig 32) 0))
    let d := v - st.mu
    let jump := armed && decide (lim < d.natAbs)
    let d := if armed then clampInt (-lim) lim d else d
    ({ mu := st.mu + d / 8, sig := ((st.sig : Int) + ((d.natAbs : Int) - st.sig) / 8).toNat }, jump)

/-- One fold of a product's step amax (04 R101). -/
def Amax.fold (a : Amax) (v : Int) : Amax :=
  { ema := if a.any then a.ema + (v - a.ema) / 8 else v, last := v, any := true }

/-- The metrics of a layer's observations: BF16 codes of ||Y||, ||dX||, ||dW|| and rho. -/
def Obs.metrics (o : Obs) (ieee : Bool) : List Nat :=
  let n := fun (i : Nat) => sqrtBf16 ieee (o.sums.getD i (zero false))
  [n 0, n 1, n 2, quotBf16 ieee (decode .bf16 (n 3)) (decode .bf16 (n 4))]

/-- The value folded for a metric (05 R121): none for 0; free where the metric is not finite (log 5). -/
def metricValue (free : Int) (code : Nat) : Option Int :=
  if code % 32768 = 0 then none
  else match decode .bf16 code with
    | .fin _ _ _ => some (log2Bf16 code)
    | _ => some free

/-! ### Triggers (05 R123) -/

/-- Trigger bits of a step with the product each names. -/
def triggers (t : TunerStops) (o : Obs) (codes : List Nat) (jumps : List Bool) : List (Nat × Nat) :=
  let at_ := fun (l : List Nat) (p : Nat) => l.getD p 0
  let prods := [0, 1, 2]
  (prods.filterMap (fun p => if jumps.getD p false then some (p, p) else none))
    ++ (prods.filterMap (fun p =>
      if at_ o.tiles p < 16 * at_ o.ovfRetry p ∨ 0 < at_ o.ovfFinal p then some (3, p) else none))
    ++ (prods.filterMap (fun p => if 0 < at_ o.ladder p then some (4, p) else none))
    ++ ([0, 1, 2, 3].filterMap (fun p => if 0 < at_ o.inv p + at_ o.poison p then some (5, p) else none))
    ++ (if jumps.getD 3 false ∧ 0 < cmp (decode .bf16 (codes.getD 3 0)) (decode .fp16 t.rhoMax) then [(6, 3)] else [])

/-- Lowest rung of a trigger (05 R123). -/
def lowestRung : Nat → Nat
  | 4 => 2 | 5 => 4 | 6 => 4 | _ => 1

/-- What the verdict point finds of a layer. -/
def judgeLayer (t : TunerStops) (ieee : Bool) (free : Nat → Int) (y : Layer) (o : Obs) : Judged × List (Nat × Nat) :=
  let codes := o.metrics ieee
  let vals := (codes.zipIdx).map (fun x => metricValue (free x.2) x.1)
  let jumps := (vals.zipIdx).map (fun x => match x.1 with
    | some v => ((y.stats.getD x.2 {}).track (decode .fp16 t.tau) y.armed (!y.folded.getD x.2 false) v).2
    | none => false)
  let tr := triggers t o codes jumps
  ({ codes := codes, vals := vals, jumps := jumps
     trig := (tr.map Prod.fst).eraseDups.foldl (fun a b => a + 2 ^ b) 0 }, tr)

/-! ### The action ladder (05 R124 to R126; 04 R112, R113) -/

/-- Base format and ceiling rung of an operand of a layer, as its tiles give them (04 R113): operand 2·p + 0 left or 1 right
of product p; the lowest ceiling when tiles differ. -/
def Channel.operandInfo (k : Channel) (l i : Nat) : Option (Fmt × Nat) :=
  match k.score with
  | none => none
  | some sc =>
    sc.entries.foldl (fun (a : Option (Fmt × Nat)) (e : Entry) =>
      if e.action = 1 then
        let d := Score.tileAt sc.pool e.desc
        if d.layer = l ∧ d.prod = i / 2 then
          let o := if i % 2 = 0 then d.a else d.b
          let f := Score.fmtOf (Score.tensorAt sc.pool o.tensor).layout
          match a with
          | none => some (f, o.ceil)
          | some (g, c) => some (g, min c o.ceil)
        else a
      else a) none

/-- May an operand climb one rung? -/
def canClimb (n : Nat) : Option (Fmt × Nat) → Bool
  | none => false
  | some (f, ceil) => decide (rungAfter f n < 3) && decide (climbOnce f (rungAfter f n) ≤ ceil)

/-- Level of a layer (05 R125). -/
def Layer.level (y : Layer) : Nat :=
  if y.rungs.any (0 < ·) then 3 else if y.dyn then 2 else if 0 < y.mextra then 1 else 0

/-- The action decided for a troubled layer. -/
structure Decision where
  /-- rung of the action, 0 none -/
  rung : Nat := 0
  /-- operands to climb -/
  climbs : List Nat := []
  /-- LADDER_CAP: products whose climb is refused -/
  capped : List Nat := []
  /-- ACT_CAPPED -/
  actCapped : Bool := false
deriving DecidableEq, Repr

/-- The action of a troubled layer (05 R125, R126). `tr` are its triggers, `can` tells which operands may climb. A climb that no operand
can make is refused, under the ceiling's rung as under the action's own (04 R113). -/
def decideAction (y : Layer) (margin ceiling : Nat) (tr : List (Nat × Nat)) (can : Nat → Bool) : Decision :=
  let l := y.level
  let t := (tr.map (fun x => lowestRung x.1)).foldl max 0
  let r := max (l + 1) t
  let prods := ((tr.map Prod.snd).filter (· < 3)).eraseDups
  let ups := ((prods.map (fun p => [2 * p, 2 * p + 1])).flatten).filter can
  let tooWide := decide (8 < margin + y.mextra + 1)
  let d : Decision :=
    if 4 ≤ t then { rung := 4 }
    else if r = 3 ∨ r = 4 then
      (if ups.isEmpty then { rung := 4, capped := prods } else { rung := 3, climbs := ups })
    else if r = 1 ∧ tooWide then { rung := 2 }
    else { rung := r }
  if d.rung ≤ ceiling then d
  else
    let lower : Option Decision := match ceiling with
      | 1 => if y.mextra = 0 then some { rung := 1 } else none
      | 2 => if y.dyn then none else some { rung := 2 }
      | 3 => if l = 3 ∨ ups.isEmpty then none else some { rung := 3, climbs := ups }
      | _ => none
    match lower with
    | some e => { e with capped := d.capped }
    | none => { capped := if ceiling = 3 ∧ l ≠ 3 ∧ ups.isEmpty then prods else d.capped, actCapped := true }

/-- The layer after an action of rung 1 to 3; a void is recorded as its last action (05 R124, R135). -/
def Layer.act (y : Layer) (d : Decision) (step : Nat) : Layer :=
  let y := match d.rung with
    | 1 => { y with mextra := 1 }
    | 2 => { y with dyn := true }
    | 3 => { y with rungs := (y.rungs.zipIdx).map (fun x => if d.climbs.contains x.2 then x.1 + 1 else x.1)
                    climbs := d.climbs :: y.climbs }
    | _ => y
  if d.rung = 0 then y else { y with lastAct := step % 2 ^ 32 }

/-- Operand code of some operands of a product: 0 left, 1 right, 2 both, 3 none (05 R136). -/
def opndCode (ops : List Nat) (p : Nat) : Nat :=
  match ops.contains (2 * p), ops.contains (2 * p + 1) with
  | true, true => 2 | true, false => 0 | false, true => 1 | _, _ => 3

/-- The events that an action gives (05 R136). -/
def Decision.events (d : Decision) (l trig before after_ : Nat) (tr : List (Nat × Nat)) : List TunerEv :=
  let p := match tr with | (_, q) :: _ => q | [] => 3
  let e : TunerEv := { layer := l, prod := p, from_ := before, to_ := after_, trig := trig }
  (d.capped.map (fun q => { e with event := 0xB, prod := q, opnd := 2, to_ := before }))
    ++ (if d.actCapped then [{ e with event := 0xA, to_ := before }] else [])
    ++ (match d.rung with
        | 1 => [{ e with event := 1 }]
        | 2 => [{ e with event := 2 }]
        | 3 =>
          let q := (d.climbs.head?.getD 0) / 2
          [{ e with event := 3, prod := q, opnd := opndCode d.climbs q }]
        | _ => [])

/-! ### The verdict point (05 R131) -/

/-- The rungs of the weight copies are recorded with version CUR + 1 (04 R115). -/
def Channel.recordRungs (k : Channel) : Channel :=
  let m : SMap (Nat × Nat) := k.tun.layers.foldl (fun (m : SMap (Nat × Nat)) (x : Nat × Layer) =>
    SMap.set (0, 0) m x.1 (x.2.rungs.getD 1 0, x.2.rungs.getD 3 0)) []
  { k with verRungs := k.verRungs.set ((k.ver.cur + 1) % 2) m }

/-- Layers of the loaded score. -/
def Channel.layerCount (k : Channel) : Nat := match k.score with | some sc => sc.layers.length | none => 0

/-- Free values that a verdict point may use: one for each metric of each layer. -/
def verdictFree : Nat := 4 * 4096

/-- The local verdict record: stops are sampled, every layer is judged and its action decided and recorded, and the highest
rung is joined by what the poison policy and pending rollback requests ask for (05 R120, R126, R131; 11 R305; 17 R406). -/
def Channel.buildVerdict (k : Channel) (free : Nat → Int) : Channel :=
  let t := k.tun.stops
  let layers := k.tun.saved.getD k.tun.layers
  let start : SMap Layer × SMap Judged × List TunerEv × List (Nat × Nat × Nat) := (layers, [], [], [])
  let (ls, js, evs, recs) := (List.range k.layerCount).foldl
    (fun (a : SMap Layer × SMap Judged × List TunerEv × List (Nat × Nat × Nat)) l =>
      let y := SMap.get {} a.1 l
      let (j, tr) := judgeLayer t k.live.ieee (fun i => free (4 * l + i)) y (SMap.get {} k.tun.obs l)
      if tr.isEmpty then (a.1, SMap.set {} a.2.1 l j, a.2.2.1, a.2.2.2 ++ [(j.codes.getD 3 0, 0, 0)])
      else
        let d := decideAction y k.live.margin t.ceiling tr (fun i => canClimb (y.rungs.getD i 0) (k.operandInfo l i))
        let z := y.act d k.step
        (SMap.set {} a.1 l z, SMap.set {} a.2.1 l j, a.2.2.1 ++ d.events l j.trig y.level z.level tr,
          a.2.2.2 ++ [(j.codes.getD 3 0, if d.rung = 4 then 4 else 0, j.trig)])) start
  let top := recs.foldl (fun a r => max a r.2.1) 0
  let capped := decide (k.tun.policyRung = 5 ∧ t.ceiling < 4)
  let policy := if k.tun.policyRung = 5 then (if t.ceiling = 5 then 5 else if t.ceiling = 4 then 4 else 0) else k.tun.policyRung
  let word := if k.tun.rollbackPending then 5 else max top policy
  { k with tun := { k.tun with
      layers := ls, saved := some layers, judged := js, sampled := some t, maskNow := k.tun.mask, verdict := some (word, recs)
      notes := evs ++ (if capped then [{ layer := 0xFFFF, event := 0xA, prod := 2 }] else []) } }

/-- The words of a verdict record as items of its reduction: a U16 and two U8 each (05 R131; 11 R290). -/
def verdictItems (v : Nat × List (Nat × Nat × Nat)) : List I8A :=
  ((v.1, 0, 0) :: v.2).map (fun x => { elems := [(x.1 : Int), (x.2.1 : Int), (x.2.2 : Int)] })

/-- The agreed record from the largest of each field over the participants (05 R131). -/
def Flow.verdict (f : Flow) : Nat × List (Nat × Nat × Nat) :=
  let ws := f.final.map (fun b => match b with
    | some b => ((b.elems.getD 0 0).toNat, (b.elems.getD 1 0).toNat, (b.elems.getD 2 0).toNat)
    | none => (0, 0, 0))
  ((ws.headD (0, 0, 0)).1 % 256, ws.tail)

/-- BF16 code of the clamp factor of an agreed rho; none where no clamp applies (05 R130, 06 R164). -/
def clampFactor (t : TunerStops) (rho : Nat) : Option Nat :=
  if 0 < cmp (decode .bf16 rho) (decode .fp16 t.rhoMax) then some (quotBf16 false (decode .fp16 t.rhoMax) (decode .bf16 rho)) else none

/-! ### The end of a step (05 R127 to R134, R504; 04 R101) -/

/-- BF16 code of a count. -/
def countCode (n : Nat) : Nat := toBf16 false (.fin false n 0)

/-- Count an event of the Tuner (05 R137). -/
def TunerCnt.count (c : TunerCnt) (event : Nat) : TunerCnt :=
  match event with
  | 0x0 => { c with jumps := sat32 c.jumps 1 }
  | 0x1 => { c with marginUp := sat32 c.marginUp 1 }
  | 0x2 => { c with dynOn := sat32 c.dynOn 1 }
  | 0x3 => { c with climbs := sat32 c.climbs 1 }
  | 0x5 => { c with clamps := sat32 c.clamps 1 }
  | 0x6 => { c with voids := sat32 c.voids 1 }
  | 0x8 => { c with rollbackReq := sat32 c.rollbackReq 1 }
  | 0x9 => { c with descents := sat32 c.descents 1 }
  | 0xA => { c with actCapped := sat32 c.actCapped 1 }
  | 0xB => { c with ladderCap := sat32 c.ladderCap 1 }
  | _ => c

/-- Log a Tuner event and count it. -/
def State.tunerLog (s : State) (c : ChanId) (e : TunerEv) : State :=
  (s.modChan c (fun k => { k with tun := { k.tun with cnt := k.tun.cnt.count e.event } })).tunerEvent c e

/-- Fold a layer's metrics and amax (05 R121, R122; 04 R101). -/
def Layer.fold (y : Layer) (t : TunerStops) (j : Judged) (o : Obs) : Layer :=
  let new := (y.stats.zipIdx).map (fun x => match j.vals.getD x.2 none with
    | some v => (x.1.track (decode .fp16 t.tau) y.armed (!y.folded.getD x.2 false) v).1
    | none => x.1)
  let any := j.vals.any Option.isSome
  let warm := if any then min (y.warm + 1) 0xFFFF else y.warm
  { y with
    stats := new, folded := (y.folded.zipIdx).map (fun x => x.1 || (j.vals.getD x.2 none).isSome)
    warm := warm, armed := decide (32 ≤ warm)
    jumps := sat16 y.jumps (j.jumps.filter id).length
    amax := (y.amax.zipIdx).map (fun x =>
      let code := o.amax.getD x.2 0
      if code % 32768 = 0 then x.1 else x.1.fold (log2Bf16 code)) }

/-- Steps a layer stays quiet before it descends, and within which trouble widens the shift (05 R133, R134). -/
def Layer.span (y : Layer) (t : TunerStops) : Nat := t.quietQ * 2 ^ y.qshift

/-- The most recent action in force is undone (05 R133). -/
def Layer.descend (y : Layer) : Layer :=
  match y.climbs with
  | ops :: rest => { y with climbs := rest, rungs := (y.rungs.zipIdx).map (fun x => if ops.contains x.2 then x.1 - 1 else x.1) }
  | [] => if y.dyn then { y with dyn := false } else { y with mextra := 0 }

/-- Quiet count, descent and hysteresis at the end of a step (05 R133, R134): the layer and the events of a descent. -/
def Layer.settleQuiet (y : Layer) (t : TunerStops) (l : Nat) (troubled committed : Bool) : Layer × List TunerEv :=
  let since := y.sinceDescent.map (· + 1)
  let within := match since with | some n => decide (n ≤ y.span t) | none => false
  let y := { y with sinceDescent := if within && !troubled then since else none
                    qshift := if within && troubled then min 4 (y.qshift + 1) else y.qshift }
  if troubled || !committed then ({ y with quiet := 0 }, [])
  else if y.quiet + 1 < y.span t then ({ y with quiet := y.quiet + 1 }, [])
  else if y.level = 0 then ({ y with quiet := 0, qshift := 0 }, [])
  else
    let z := y.descend
    let e : TunerEv := { layer := l, event := 9, prod := 3, from_ := y.level, to_ := z.level }
    ({ z with quiet := 0, sinceDescent := some 0 }, if y.dyn && !z.dyn then [e, { e with event := 7 }] else [e])

/-- Events of a layer's observations: jumps, ladder passes and poison, once per product (05 R136). -/
def layerEvents (l : Nat) (j : Judged) (o : Obs) : List TunerEv :=
  ((j.jumps.zipIdx).filterMap (fun x =>
      if x.1 then some ({ layer := l, event := 0, prod := x.2, trig := j.trig, value := j.codes.getD x.2 0 } : TunerEv) else none))
    ++ ((o.ladder.zipIdx).filterMap (fun x =>
      if 0 < x.1 then some ({ layer := l, event := 4, prod := x.2, opnd := 2, trig := j.trig, value := countCode x.1 } : TunerEv) else none))
    ++ ((o.poison.zipIdx).filterMap (fun x =>
      if 0 < x.1 then some ({ layer := l, event := 0xC, prod := x.2, opnd := 3, trig := j.trig, value := countCode x.1 } : TunerEv) else none))

/-- The layers after the step, and the events of the fold. -/
def Channel.foldStep (k : Channel) (committed : Bool) : SMap Layer × List TunerEv :=
  let t := k.tun.sampled.getD k.tun.stops
  (List.range k.layerCount).foldl (fun (a : SMap Layer × List TunerEv) l =>
    let y := SMap.get {} a.1 l
    let j := SMap.get {} k.tun.judged l
    let o := SMap.get {} k.tun.obs l
    let (y, evs) := (y.fold t j o).settleQuiet t l (j.trig != 0) committed
    (SMap.set {} a.1 l y, a.2 ++ layerEvents l j o ++ evs)) (k.tun.layers, [])

/-- A provisional checkpoint whose step w + D has ended becomes clean (17 R421). -/
def ChanStore.cleanCkpts (t : ChanStore) (step : Nat) : ChanStore :=
  { t with ckpts := t.ckpts.map (fun (x : Ckpt) => if x.state = 2 ∧ x.cleanAt ≤ step then { x with state := 3 } else x) }

/-- Checkpoint plan fields: interval and mode (13 R338). -/
def Services.ckptInterval (v : Services) : Nat := fieldLe v.ckptPlan 0 4
/-- MODE of the checkpoint plan. -/
def Services.ckptMode (v : Services) : Nat := byteAt v.ckptPlan 4

/-- Every layer's row of the predicted-exponent table, as the Chanters write it after the update pass (04 R102). -/
def Channel.writeExponents (k : Channel) : Channel :=
  { k with tun := { k.tun with layers := SMap.mapVals {} k.tun.layers (fun (y : Layer) => y.writeTable k.live.margin) } }

/-- The channel's own bookkeeping when a step ends by commit or void (04 R102; 05 R127; 08 R211, R212; 11 R302; 13 R336, R338). The
snapshot of the version state stays until the next step's first beat (08 R215). -/
def Channel.stepDone (k : Channel) (voided : Bool) (layers : SMap Layer) : Channel :=
  let next := wrap64 (k.step + 1)
  let k := k.coll.done.foldl (fun (k : Channel) (d : Nat × List Nat) => k.writeTable 0 0 d.1 next d.2) k
  let k := { k with tun := { k.tun with layers := layers } }.writeExponents
  let due := !voided && k.svc.ckptMode != 0 && k.svc.ckptInterval != 0 && k.step % k.svc.ckptInterval == 0
  { k with
    ver := { k.ver with cur := if voided then k.ver.cur else k.ver.cur + 1, opened := false }
    lastEnd := some (k.step, k.attempt), step := next, attempt := 0, mem := { k.mem with failed := [] }
    coll := { k.coll with done := [], locate := none }
    svc := { k.svc with resident := k.svc.resident.filter (· != k.step), ckptDue := k.svc.ckptDue || due }
    ww := { k.ww with stepPhrase := (match k.score with
      | some sc => sc.nextStart (sc.phrases.getD k.ww.phrase {}).next
      | none => 0) }
    tun := { k.tun with
      obs := [], judged := [], notes := [], saved := none, verdict := none, agreed := none
      sampled := none, policyRung := 0, voidRun := if voided then k.tun.voidRun + 1 else 0 } }

/-- The channel with a layer's entry changed. -/
def Channel.modLayer (k : Channel) (l : Nat) (f : Layer → Layer) : Channel :=
  { k with tun := { k.tun with layers := SMap.set {} k.tun.layers l (f (SMap.get {} k.tun.layers l)) } }

/-- COMMIT (05 R128, R131; 08 R208, R212): the step ends according to the agreed verdict; without a VERDICT request the channel
evaluates its triggers now and takes its own record as agreed. -/
def State.commit (s : State) (c : ChanId) : State :=
  let asked := (s.chan c).tun.verdict.isSome
  let s := if asked then s else
    (s.modChan c (fun k => k.buildVerdict (fun i => toSigned 16 (s.freeAt i 65536)))).drew verdictFree
  let k := s.chan c
  let t := k.tun.sampled.getD k.tun.stops
  let (word, recs) := (match k.tun.agreed with | some a => a | none => k.tun.verdict.getD (0, []))
  let voided := decide (4 ≤ word)
  let reach := voided && decide (word < 5) && decide (t.voidsTo ≤ k.tun.voidRun + 1)
  let rolls := decide (5 ≤ word) || (reach && t.ceiling == 5)
  let step : TunerEv := { layer := 0xFFFF, prod := 3 }
  let clamps := if asked && !voided then
      (recs.zipIdx).filterMap (fun r => (clampFactor t r.1.1).map (fun v => (r.2, v))) else []
  let (s, rolling) := if rolls then s.requestRollback c else (s, false)
  let s := k.tun.notes.foldl (fun (s : State) e => s.tunerLog c e) s
  let s := if reach && t.ceiling != 5 then s.tunerLog c { step with event := 0xA } else s
  let s := if rolling then s.tunerLog c { step with event := 8, to_ := 5 } else s
  let s := if voided then s.tunerLog c { step with event := 6, to_ := 4 } else s
  let s := clamps.foldl (fun (s : State) x =>
    (s.modChan c (fun k => k.modLayer x.1 (fun y => { y with clamps := sat32 y.clamps 1 }))).tunerLog c
      { layer := x.1, event := 5, prod := 3, value := x.2 }) s
  let (layers, evs) := (s.chan c).foldStep (!voided)
  let s := evs.foldl (fun (s : State) e => s.tunerLog c e) s
  let lost := (s.chan c).tun.lostStep
  let s := if lost = 0 then s else
    (s.modChan c (fun k => { k with tun := { k.tun with lostStep := 0 } })).tunerLog c { step with event := 0xE, value := countCode lost }
  let s := if rolling then s.logJob c { cause := .rollbackReq, cls := .J, unit := 8, fixedClass := true } else s
  (s.modChan c (fun k => k.stepDone voided layers)).modStore c (fun m => m.cleanCkpts k.step)

/-! ### Chanter requests that wait (08 R208) -/

/-- Unit code of the Chanters. -/
def chanterUnit : Nat := 0x3F0

/-- The Chanter request in flight with a code. -/
def Channel.chntFlight (k : Channel) (code : Nat) : Option Flight :=
  k.flights.find? (fun (f : Flight) => f.unit == chanterUnit && (k.entry f.entry).action == 0x0A && (k.entry f.entry).desc % 256 == code)

/-- Version CUR + 1 is opened (08 R208; 04 R115). -/
def Channel.openVersion (k : Channel) (entry : Nat) : Channel :=
  ({ k with ver := { k.ver with opened := true } }.recordRungs).landEntry entry

/-- OPEN_GRANTED (08 R208; 13 R340): the last reference on the target buffer has cleared. -/
def execOpenGranted (c : ChanId) (s : State) : Host.Outcome State Fault Refusal :=
  .next (s.modChan c (fun k => match k.chntFlight 3 with
    | some f => if k.ver.canOpen && !k.ver.opened then k.openVersion f.entry else k
    | none => k))

/-- The COLL descriptor that a VERDICT request names, for its FORM, P, RANK and PORTS; none where the job runs on this channel alone
(05 R131). -/
def Channel.verdictDesc (k : Channel) (desc : Nat) : Option CollDesc :=
  let rest := desc / 256
  if rest = 0xFFFFFF then none
  else
    let d := Score.collAt k.pool (32 * rest)
    if d.p ≤ 1 then none else some d

/-- The record of a VERDICT request goes out on the collective paths (05 R131; 11 R290). -/
def Channel.sendVerdict (k : Channel) (w : Self) (entry : Nat) : Channel :=
  match k.verdictDesc (k.entry entry).desc, k.tun.verdict with
  | some d, some own =>
    let x : Coll := { cseq := k.cseqOf 0, entry := entry, desc := d, ports := d.ports.map (fun (p : Option Nat) => p.map k.resolve)
                      launched := true }
    let (x, k) := k.startExchange w x 4 (verdictItems own)
    { k with coll := { k.coll with verdict := some x } }
  | _, _ => k

/-- A VERDICT request is launched (05 R131): the record is built and sent; a climb is carried by the version that is open. -/
def State.launchVerdict (s : State) (c : ChanId) (entry : Nat) : State :=
  (s.modChan c (fun k =>
    let k := k.buildVerdict (fun i => toSigned 16 (s.freeAt i 65536))
    (if k.ver.opened then k.recordRungs else k).sendVerdict (s.self c) entry)).drew verdictFree

/-- The record agreed on: this channel's own where the job runs on it alone, else what the reduction has brought; none before that. -/
def Channel.agreedRecord (k : Channel) (entry : Nat) : Option (Nat × List (Nat × Nat × Nat)) :=
  match k.verdictDesc (k.entry entry).desc, k.coll.verdict with
  | none, _ => k.tun.verdict
  | some _, some x => (match x.xch with | some (_, f) => if f.complete then some f.verdict else none | none => none)
  | some _, none => none

/-- VERDICT_AGREED (05 R131): the agreed record has arrived; a job on one channel agrees with itself. -/
def execVerdictAgreed (c : ChanId) (upsets : List Upset) (s : State) : Host.Outcome State Fault Refusal :=
  .next ((s.disturbed c upsets).modChan c (fun k => match k.chntFlight 4, k.tun.agreed with
    | some f, none => (match k.agreedRecord f.entry with
      | some a => { k with tun := { k.tun with agreed := some a }, coll := { k.coll with verdict := none } }.landEntry f.entry
      | none => k)
    | _, _ => k))

/-- BF16 code of 1.0. -/
def bf16One : Nat := 0x3F80

/-- A SCALARS request is launched (06 R142, R164): the Chanter writes the clamp factor of the entry's layer into S9 of every Reed, behind
the writes already sent. DEDUCED: the LAYER field of the entry names that layer (log 42). -/
def Channel.launchScalars (k : Channel) (e : Entry) : Channel :=
  let t := k.tun.sampled.getD k.tun.stops
  let rho := match k.tun.agreed with | some a => (a.2.getD e.layer (0, 0, 0)).1 | none => 0
  { k with scalarQ := k.scalarQ ++ [(none, 9, (clampFactor t rho).getD bf16One)] }

/-- SCALARS_DONE (06 R142): all scalar writes of the step have taken effect, and the scalar token is granted. -/
def execScalarsDone (c : ChanId) (s : State) : Host.Outcome State Fault Refusal :=
  .next (s.modChan c (fun k => match k.chntFlight 5 with
    | some f => if !k.scalarQ.isEmpty then k else { k with scalarTok := true }.landEntry f.entry
    | none => k))

/-! ### Rollback (05 R128, R129; 13 R340; 17 R407) -/

/-- The channel's part of a rollback: the step is over, stamps and reference counts are cleared, the request is done with, and
the restart service takes over. Quiet counts go to 0; history comes with the checkpoint. -/
def Channel.rollBack (k : Channel) : Channel :=
  let k := k.abandon
  { k with
    st := .loaded, resume := false
    ver := { k.ver with ref0 := 0, ref1 := 0, ckref0 := 0, ckref1 := 0, stamps := [], opened := false }
    verSnap := none
    tun := { k.tun with
      layers := SMap.mapVals {} k.tun.layers (fun (y : Layer) => { y with quiet := 0 })
      obs := [], judged := [], notes := [], saved := none, verdict := none, agreed := none, sampled := none
      policyRung := 0, rollbackPending := false, voidRun := 0 }
    svc := { k.svc with ckpt := none, ckptWaiting := false, ckptDue := false, restart := some {} }
    ww := { k.ww with rollbackDue := false, hold := none, boundaryDue := false, beat := 0 } }

/-- ROLLBACK (17 R407), of a running channel or of one that resumes from Last Breath at its limit of repeats (11 R313). -/
def execRollback (c : ChanId) (s : State) : Host.Outcome State Fault Refusal :=
  let k := s.chan c
  if k.ww.rollbackDue && (k.st == .run || k.st == .stopping || (k.st == .loaded && k.resume)) then
    .next ((s.stepFailure c).modChan c Channel.rollBack).settle
  else .next s

/-! ### Clears (05 R136, R137; 02 R58; 03 R93; 04 R104; 06 R155) -/

/-- Bit 0 of 0x3n20.04. VOID_RUN stays, and so do the status words of the latest tiles. -/
def Channel.clearCounters (k : Channel) : Channel :=
  { k with
    reeds := k.reeds.map (fun (r : Reed) => { r with cnt := {}, qcnt := {}, valve := { r.valve with cnt := {} } })
    conv := {}, otherFaults := 0, otherQuant := {}, tun := { k.tun with cnt := {}, layerCnt := [], layerQ := [] } }

/-- Bit 1 of 0x3n20.04. -/
def Channel.clearTunerLog (k : Channel) : Channel :=
  { k with tun := { k.tun with log := [], writeIx := 0, lost := 0, lostStep := 0 } }

end Sys2Proof.Machine
end

