-- ==== Sys2Proof/Machine/Etudes.lean ====
section
/-! DEFINITION. Clock bins of a channel, the binding of slots to healthy Reeds, and Études: the queue, rotation, full runs and
their phases, the suspect sequence, bin floors and windows (01 R16 to R21; 18; 19 R446). -/

namespace Sys2Proof.Machine

open Sys2Proof

/-! ### Bins (01 R21; 19 R446) -/

/-- Effective bin: the slowest of the requested bin, the bin floor, the cap bin and the thermal bin. -/
def State.effBin (s : State) (c : ChanId) : Nat :=
  let b := (s.chan c).bins
  max (max b.requested (s.store c).binFloor) (max b.cap b.thermal)

/-- A bin change starts when the bin in force is not the effective bin: at a phrase boundary or while the channel is
stopped (01 R21). -/
def State.retune (s : State) (c : ChanId) : State :=
  let b := (s.chan c).bins
  if b.change.isSome || b.now = s.effBin c then s
  else s.modChan c (fun k => { k with bins := { k.bins with change := some (s.effBin c) } })

/-- A bin may change now because the channel is not running. -/
def State.retuneStopped (s : State) (c : ChanId) : State :=
  if (s.chan c).running || (s.chan c).st == .init then s else s.retune c

/-- ACLK_BIN_CHANGE_DONE (01 R21). -/
def execAclkBinChangeDone (c : ChanId) (s : State) : Host.Outcome State Fault Refusal :=
  match (s.chan c).bins.change with
  | none => .next s
  | some b =>
    .next ((s.modChan c (fun k => { k with bins := { k.bins with now := b, change := none } })).retuneStopped c)

/-! ### Slots and healthy Reeds (18 R432, R503; 01 R17, R18) -/

/-- Physical Reeds in order. -/
def allReeds : List Nat := List.range 68

/-- Health of a Reed. -/
def State.health (s : State) (c : ChanId) (r : Nat) : Health := (s.store c).health.getD r {}

/-- The state with a Reed's health changed. -/
def State.modHealth (s : State) (c : ChanId) (r : Nat) (f : Health → Health) : State :=
  s.modStore c (fun t => { t with health := modAt t.health r f })

/-- A Reed counts as healthy: not suspect, retired or under test. -/
def State.isHealthy (s : State) (c : ChanId) (r : Nat) : Bool := (s.health c r).state == 0

/-- Healthy Reeds of a channel. -/
def State.healthyReeds (s : State) (c : ChanId) : List Nat := allReeds.filter (s.isHealthy c)

/-- The map of slots is replaced, and SPARE of every Reed follows it (18 R437). -/
def State.setMap (s : State) (c : ChanId) (m : List Nat) : State :=
  (s.modChan c (fun k => { k with slotMap := m })).modStore c (fun t =>
    { t with health := (t.health.zipIdx).map (fun h => { h.1 with spare := h.1.state != 2 && !m.contains h.2 }) })

/-- Bind the active slots to the lowest-numbered healthy Reeds (18 R432). -/
def State.bindSlots (s : State) (c : ChanId) : State :=
  let good := s.healthyReeds c
  s.setMap c ((List.range 68).map (fun i => if i < (s.chan c).active then good.getD i 0xFF else 0xFF))

/-- Free healthy spares, lowest number first. -/
def State.freeSpares (s : State) (c : ChanId) : List Nat :=
  let k := s.chan c
  (s.healthyReeds c).filter (fun r => !k.slotMap.contains r && (match k.etude.copy with | some x => x.1 != r && x.2 != r | none => true))

/-- A slot's Reed is exchanged for another. -/
def State.swapSlot (s : State) (c : ChanId) (old new : Nat) : State :=
  s.setMap c ((s.chan c).slotMap.map (fun (r : Nat) => if r = old then new else r))

/-- At a channel start the recorded column mappings take effect, and a suspect Reed that waited for its mapping is due for its retest
(01 R16; 18 R437). -/
def State.useRepairs (s : State) (c : ChanId) : State :=
  let new := allReeds.filter (fun r => (s.health c r).repair.isSome && !(s.health c r).repairOn)
  new.foldl (fun (s : State) r =>
    let due := (s.health c r).state == 1 && !(s.chan c).etude.queue.contains r
    (s.modHealth c r (fun h => { h with repairOn := true })).modChan c (fun k =>
      if due then { k with etude := { k.etude with queue := k.etude.queue ++ [r] } } else k)) s

/-- At a channel start every slot whose Reed is not healthy takes a healthy spare while there is one (18 R503). -/
def State.rebindSlots (s : State) (c : ChanId) : State :=
  let s := s.useRepairs c
  (s.chan c).slotMap.foldl (fun (s : State) r =>
    if r = 0xFF ∨ s.isHealthy c r then s
    else match s.freeSpares c with
      | sp :: _ => s.swapSlot c r sp
      | [] => s) s

/-! ### Runs (18 R430 to R436) -/

/-- Effective trim of a Reed, mV (18 R436). -/
def State.trim (s : State) (c : ChanId) (r : Nat) : Int := (s.store c).trims.getD r 0 + 10 * ((s.health c r).raises : Int)

/-- Voltage offset and bin offset of the profile of a run. -/
def EtudeRun.offset (x : EtudeRun) (i : Nat) : Int := x.profile.getD i 0

/-- The run's pass is made under stress. -/
def EtudeRun.stressed (x : EtudeRun) : Bool :=
  match x.phase with
  | .stress | .retry => true
  | .binRetest => !x.opFail
  | _ => false

/-- An entry of the result log (18 R438); `code` is the phase code. -/
def State.etudeEntry (s : State) (c : ChanId) (x : EtudeRun) (code result etude tj : Nat) : State :=
  let k := s.chan c
  let e : EtudeResult :=
    { step := if k.bind.bound then k.step else 0xFFFFFFFFFFFFFFFF, etude := etude, reed := x.reed, phase := code, result := result
      bin := x.bin - (if x.stressed then x.offset 1 else 0)
      trim := s.trim c x.reed + (if x.stressed then x.offset 0 else 0), tj := tj }
  let l := k.etude.log
  s.modChan c (fun k => { k with etude := { k.etude with log := (if l.length < 128 then l else l.drop 1) ++ [e] } })

/-- Phase code of the result log. -/
def EtudePhase.code : EtudePhase → Nat
  | .isolate | .operating => 1 | .heat | .stress => 2 | .retry => 3 | .binRetest => 4

/-- No tile and no run works on a Reed (01 R19). -/
def Reed.idle (x : Reed) : Bool := x.tile.isNone && x.waiting.isNone && x.valve.run.isNone

/-- A Reed is idle; only then is it isolated and switched to ECLK_n (01 R19; 18 R430). -/
def Channel.reedIdle (k : Channel) (r : Nat) : Bool := match reedId? r with | some r => (k.reed r).idle | none => true

/-- A Reed's SRAM is cleared before and after its run (18 R431). -/
def Channel.clearSram (k : Channel) (r : Nat) : Channel :=
  match reedId? r with
  | some r => k.modReed r (fun x => { x.quiet with sram := [], badParity := [] })
  | none => k

/-- A full run of a Reed starts, on the Étude pack activated by then (15 R373). -/
def State.startRun (s : State) (c : ChanId) (r : Nat) : State :=
  let s := s.modComp 2 Component.switch
  let was := (s.health c r).state
  let s := s.modChan c (fun k => { k with etude := { k.etude with
    queue := k.etude.queue.filter (· != r), overdue := k.etude.overdue.filter (· != r)
    run := some { reed := r, bin := s.effBin c, inPlace := k.slotMap.contains r, was := was, profile := s.mp.stress } } })
  s.modHealth c r (fun h => { h with state := 3 })

/-- May a queued Reed be tested without rotation now: a spare, any Reed of a channel that is not running, or an overdue Reed
while the channel pauses for it (18 R434, R435)? -/
def State.testable (s : State) (c : ChanId) (r : Nat) : Bool :=
  let k := s.chan c
  !k.slotMap.contains r || (!k.running && k.st != .init && k.st != .halted) || (k.etude.window && k.etude.overdue.contains r)

/-- The next full run starts when none is in progress (18 R433). -/
def State.startTests (s : State) (c : ChanId) : State :=
  let k := s.chan c
  if k.etude.run.isSome || k.etude.copy.isSome || k.st == .init || k.st == .halted || k.st == .holdup then s
  else match k.etude.queue.find? (fun (r : Nat) => s.testable c r) with
    | some r => s.startRun c r
    | none => s

/-- The pause of a window ends: at its length, or with the last test (18 R435). -/
def State.settleWindow (s : State) (c : ChanId) : State :=
  let e := (s.chan c).etude
  if e.window && e.run.isNone && (e.late || (e.untilTests && e.overdue.isEmpty)) then
    s.modChan c (fun k => { k with etude := { k.etude with window := false, late := false, untilTests := false } })
  else s

/-- A run ends: the Reed's health, the cleared SRAM, and whatever waits next. -/
def State.endRun (s : State) (c : ChanId) (x : EtudeRun) (f : Health → Health) : State :=
  let s := s.modChan c (fun k => { (k.clearSram x.reed) with etude := { k.etude with run := none } })
  let s := s.modHealth c x.reed f
  let s := s.setMap c (s.chan c).slotMap
  let s := (s.settleWindow c).startTests c
  (s.settleWindow c).retuneStopped c

/-- A run is given up with RESULT 4; its Reed is still due (18 R439). -/
def State.abandonRun (s : State) (c : ChanId) : State :=
  match (s.chan c).etude.run with
  | none => s.modChan c (fun k => { k with etude := { k.etude with copy := none } })
  | some x =>
    let s := s.etudeEntry c x x.phase.code 4 0xFFFF 0
    let s := s.modChan c (fun k => { k with etude := { k.etude with run := none, copy := none, queue := x.reed :: k.etude.queue } })
    (s.modHealth c x.reed (fun h => { h with state := x.was })).setMap c (s.chan c).slotMap

/-- An error of an Étude that is logged with its action taken and starts nothing (18 R437, R438). -/
def State.etudeError (s : State) (c : ChanId) (cause : Cause) (cls : ErrClass) (r outcome : Nat) : State :=
  (s.logEntry c { cause := cause, cls := cls, unit := 11, uidx := r, detail := anyDetail } outcome).2

/-- The marginal entry in handling of a Reed ends (18 R436). -/
def State.endMarginal (s : State) (c : ChanId) (r outcome : Nat) : State :=
  s.finishErrs c (fun e => e.cause == .etudeMarginal && e.unit == 11 && e.uidx == r) outcome

/-- A Reed is to be retired after a failed run: it is, unless that would leave fewer healthy Reeds than the active count; then
the bin floor rises and the Reed is tested again, up to bin 15 (18 R436, R437). -/
def State.retire (s : State) (c : ChanId) (x : EtudeRun) : State :=
  let short := decide ((s.healthyReeds c).length < (s.chan c).active)
  let cause : Cause := if x.opFail then .etudeFail else .etudeMarginal
  let cls : ErrClass := if x.opFail then .J else .D
  if !short then (s.endMarginal c x.reed 4).endRun c x (fun h => { h with state := 2, stressOk := false })
  else if (s.store c).binFloor < 15 then
    let s := s.modStore c (fun t => { t with binFloor := t.binFloor + 1 })
    let s := s.etudeError c cause cls x.reed 4
    (s.modChan c (fun k => { k with etude := { k.etude with run := some { x with phase := .binRetest, bin := s.effBin c } } })).retuneStopped c
  else if x.opFail then s.endRun c x (fun h => { h with state := 2, stressOk := false })
  else (s.endMarginal c x.reed 4).endRun c x (fun h => { h with state := 0, stressOk := false })

/-- A Reed passes its full run; a bin retest at operating conditions says nothing of stress (log 41). -/
def State.passRun (s : State) (c : ChanId) (x : EtudeRun) : State :=
  (s.endMarginal c x.reed 1).endRun c x (fun h => { h with state := 0, stressOk := x.stressed, age := 0 })

/-- One more trim raise, or the end of the suspect sequence (18 R436). -/
def State.suspectStep (s : State) (c : ChanId) (x : EtudeRun) : State :=
  if (s.health c x.reed).raises < s.mp.suspectSteps then
    (s.modHealth c x.reed (fun h => { h with raises := h.raises + 1 })).modChan c (fun k =>
      { k with etude := { k.etude with run := some { x with phase := .retry, bin := s.effBin c, was := 1 } } })
  else s.retire c { x with was := 1 }

/-- What a column that an Étude finds failed means for its Reed (01 R16): no column is named; the repair column is mapped in its place, or
is so already from the next channel start on; or it is a second failed column. -/
inductive ColumnFind where
  | none | mapped | second
deriving DecidableEq, Repr

/-- What a failed column of a Reed means. -/
def Health.find (h : Health) (col : Option Nat) : ColumnFind :=
  match col, h.repair with
  | Option.none, _ => .none
  | some _, Option.none => .mapped
  | some n, some m => if n = m ∧ h.repairOn = false then .mapped else .second

/-- A failed array column takes the Reed's repair column: the mapping is recorded, and is in use from the next channel start. Until then
the Reed is suspect and is not tested again (log 70). -/
def State.mapColumn (s : State) (c : ChanId) (r : Nat) (col : Option Nat) : State :=
  s.modHealth c r (fun h => { h with repair := h.repair.orElse (fun _ => col) })

/-- ETUDE_PHASE_DONE (18 R431, R436, R437). ECLK_n follows a change of the channel's bin at the next phase (18 R439). -/
def execEtudePhaseDone (c : ChanId) (o : EtudeObs) (s : State) : Host.Outcome State Fault Refusal :=
  match (s.chan c).etude.run with
  | none => .next s
  | some x =>
    let go := fun (s : State) (y : EtudeRun) => s.modChan c (fun k => { k with etude := { k.etude with run := some y } })
    let hot := x.stressed && x.heatShort
    let result := (if o.pass then 0 else 1) + (if hot then 2 else 0)
    let log := fun (s : State) => s.etudeEntry c x x.phase.code result (if o.pass then 0xFFFF else o.etude) o.tj
    match x.phase with
    | .isolate =>
      if (s.chan c).reedIdle x.reed then .next (go (s.modChan c (fun k => k.clearSram x.reed)) { x with phase := .operating, bin := s.effBin c }) else .next s
    | .heat => .next (go s { x with phase := .stress, bin := s.effBin c, heatShort := o.heatShort })
    | .operating =>
      let s := log s
      if o.pass then .next (go s { x with phase := .heat, bin := s.effBin c })
      else
        let s := s.firmwareError c .etudeFail .J 11 x.reed anyDetail
        (match (s.health c x.reed).find o.column with
        | .mapped => .next ((s.mapColumn c x.reed o.column).endRun c x (fun h => { h with state := 1, stressOk := false }))
        | _ => .next (s.retire c { x with opFail := true }))
    | .stress =>
      let s := log s
      if o.pass then .next (s.passRun c x)
      else .next ((s.firmwareError c .etudeMarginal .D 11 x.reed anyDetail).suspectStep c x)
    | .retry =>
      let s := log s
      if o.pass then .next (s.passRun c x) else .next (s.suspectStep c x)
    | .binRetest =>
      let s := log s
      if o.pass then .next (s.passRun c x) else .next (s.retire c x)

/-! ### The queue, rotation and windows (18 R433 to R435) -/

/-- ETUDE_DUE (18 R433): the Reed's age has reached the test interval. -/
def execEtudeDue (c : ChanId) (r : ReedId) (s : State) : Host.Outcome State Fault Refusal :=
  let k := s.chan c
  let testing := match k.etude.run with | some x => x.reed == r.val | none => false
  if testing || k.etude.queue.contains r.val || (s.health c r.val).state == 2 || k.st == .init || k.st == .halted then .next s
  else
    let s := s.modHealth c r.val (fun h => { h with age := max h.age s.mp.testInterval })
    .next ((s.modChan c (fun k => { k with etude := { k.etude with queue := k.etude.queue ++ [r.val] } })).startTests c)

/-- DEFERRAL_DEADLINE (18 R435). -/
def execDeferralDeadline (c : ChanId) (r : ReedId) (s : State) : Host.Outcome State Fault Refusal :=
  .next (s.modChan c (fun k =>
    if k.etude.queue.contains r.val && k.slotMap.contains r.val && !k.etude.overdue.contains r.val then
      { k with etude := { k.etude with overdue := k.etude.overdue ++ [r.val] } }
    else k))

/-- At a phrase boundary a due Reed that holds a slot gives it to a free healthy spare, whose SRAM copy follows
(18 R434). -/
def State.rotate (s : State) (c : ChanId) : State :=
  let k := s.chan c
  if k.etude.run.isSome || k.etude.copy.isSome then s
  else match k.etude.queue.find? (fun (r : Nat) => k.slotMap.contains r), s.freeSpares c with
    | some r, sp :: _ => (s.swapSlot c r sp).modChan c (fun k => { k with etude := { k.etude with copy := some (r, sp) } })
    | _, _ => s

/-- A Reed whose third mismatch failed gives its slot to a healthy spare at the phrase boundary; when every healthy spare is
under test, that test is abandoned (03 R85; 18 R439). -/
def State.replaceFailed (s : State) (c : ChanId) : State :=
  let todo := (s.chan c).etude.replace
  let s := todo.foldl (fun (s : State) r =>
    if !(s.chan c).slotMap.contains r then s
    else match s.freeSpares c with
      | sp :: _ => s.swapSlot c r sp
      | [] => match (s.chan c).etude.run with
        | some x => if x.was = 0 ∧ !x.inPlace then (s.abandonRun c).swapSlot c r x.reed else s
        | none => s) s
  s.modChan c (fun k => { k with etude := { k.etude with replace := [] } })

/-- ROTATION_COPY_DONE (18 R434): the displaced Reed's actions have completed, its SRAM is in the spare, and its run starts. -/
def execRotationCopyDone (c : ChanId) (s : State) : Host.Outcome State Fault Refusal :=
  let k := s.chan c
  match k.etude.copy with
  | none => .next s
  | some (old, new) =>
    match reedId? old, reedId? new with
    | some a, some b =>
      if !(k.reed a).idle then .next s
      else
        let s := s.modChan c (fun k => { (k.modReed b (fun x => { x with sram := (k.reed a).sram, badParity := (k.reed a).badParity }))
          with etude := { k.etude with copy := none } })
        .next (if s.chan c |>.etude.queue.contains old then s.startRun c old else s)
    | _, _ => .next s

/-- At the end of a CKPT phrase a window that is due opens (18 R435). -/
def State.openWindow (s : State) (c : ChanId) : State :=
  let k := s.chan c
  if !k.etude.windowDue then s
  else
    let fixed := s.mp.winInterval != 0
    let s := s.modChan c (fun k => { k with etude := { k.etude with
      windowDue := false, window := fixed || !k.etude.overdue.isEmpty, untilTests := !fixed && !k.etude.overdue.isEmpty, late := false } })
    s.startTests c

/-- ETUDE_WINDOW_END (18 R435): the window length has passed; a test that outlasts it is completed. -/
def execEtudeWindowEnd (c : ChanId) (s : State) : Host.Outcome State Fault Refusal :=
  let e := (s.chan c).etude
  if e.window && !e.untilTests then
    .next ((s.modChan c (fun k => { k with etude := { k.etude with late := true } })).settleWindow c)
  else .next s

/-- After the COMMIT of a step a window may become due (18 R435). -/
def State.noteCommit (s : State) (c : ChanId) (step : Nat) : State :=
  let due := if s.mp.winInterval = 0 then !(s.chan c).etude.overdue.isEmpty else step % s.mp.winInterval == 0
  s.modChan c (fun k => { k with etude := { k.etude with windowDue := k.etude.windowDue || due } })

/-- Reeds are marked suspect for retest before they are used (18 R437). -/
def State.reinstate (s : State) (c : ChanId) (rs : List Nat) : State :=
  let s := rs.foldl (fun (s : State) r => (s.modHealth c r (fun h => { h with state := if h.state = 3 then 3 else 1 })).modChan c (fun k =>
    { k with etude := { k.etude with queue := if k.etude.queue.contains r then k.etude.queue else k.etude.queue ++ [r] } })) s
  (s.setMap c (s.chan c).slotMap).startTests c

end Sys2Proof.Machine
end

