-- ==== Sys2Proof/Machine/Storage.lean ====
section
/-! DEFINITION. What a checkpoint moves: the objects and where their bytes stand, the records that seal them in confidential mode, and the
manifest (13 R336, R339, R341, R346, R347; 05 R135; 08 R209, R210). -/

namespace Sys2Proof.Machine

open Sys2Proof

/-! ### Sealing (13 R346, R347) -/

/-- The storage key of a job: SHAKE256 of key-domain key, "EVT4-STORE", job and job nonce. -/
def storageKey (job : Nat) (nonce : List Byte) : List Byte :=
  Hash.shake256 (fitTo 32 Config.keyDomainKey ++ [0x45#8, 0x56#8, 0x54#8, 0x34#8, 0x2D#8, 0x53#8, 0x54#8, 0x4F#8, 0x52#8, 0x45#8]
    ++ leBytes 2 job ++ fitTo 16 nonce) 32

/-- The storage key of a channel, whose job nonce is the one of its path plan. -/
def Channel.storageKey (k : Channel) : List Byte := Machine.storageKey k.bind.job (k.paths.plan.getD {}).nonce

/-- Largest plaintext of a record. -/
def recordMax : Nat := 1048576

/-- A record: header, ciphertext and tag. -/
def sealRecord (key : List Byte) (seq index : Nat) (pt : List Byte) : List Byte :=
  let h := leBytes 8 seq ++ leBytes 4 pt.length ++ leBytes 4 index
  let x := Hash.gcmSeal key (List.replicate 4 0#8 ++ leBytes 8 seq) h pt
  h ++ x.1 ++ x.2

/-- Plaintext of the record at the head of some bytes, its sequence number, and what follows it; none when it is no valid record. -/
def openRecord (key bs : List Byte) : Option (Nat × List Byte × List Byte) :=
  let seq := fieldLe bs 0 8
  let n := fieldLe bs 8 4
  if bs.length < 32 + n ∨ recordMax < n then none
  else (Hash.gcmOpen key (List.replicate 4 0#8 ++ leBytes 8 seq) (bs.take 16) (slice bs 16 n) (slice bs (16 + n) 16)).map
    (fun pt => (seq, pt, bs.drop (32 + n)))

/-- An object sealed in records (log 69). -/
def sealObject (key : List Byte) (obj : Nat) (pt : List Byte) : List Byte :=
  (((chunks recordMax (pt.length / recordMax + 1) pt).zipIdx).map (fun x => sealRecord key (wrap64 (Config.recordSeq obj x.2)) 0 x.1)).flatten

/-- The plaintext of sealed records up to the padding: records follow one another with rising sequence numbers (13 R346); none when one
is not valid. -/
def openRecords (key : List Byte) : Nat → Option Nat → List Byte → Option (List Byte)
  | 0, _, _ => none
  | fuel + 1, last, bs =>
    if allZero bs then some []
    else match openRecord key bs with
      | none => none
      | some (seq, pt, rest) =>
        if (match last with | some n => decide (seq ≤ n) | none => false) then none
        else (openRecords key fuel (some seq) rest).map (pt ++ ·)

/-- What stored bytes hold: themselves, or in confidential mode the plaintext of their records (13 R347). -/
def unsealStored (conf : Bool) (key bs : List Byte) : Option (List Byte) :=
  if conf then openRecords key (bs.length + 1) none bs else some bs

/-! ### Objects (13 R339, R341) -/

/-- A layer's 64-byte entry (05 R135). DEDUCED: QUIET shows the low 16 bits of the quiet count, which by 05 R133 and R134 may reach
16 · 65,535 (log 68). -/
def Channel.layerBytes (k : Channel) (l : Nat) : List Byte :=
  let y := SMap.get {} k.tun.layers l
  let rung := fun (i : Nat) => match k.operandInfo l i with
    | some (f, _) => rungAfter f (y.rungs.getD i 0)
    | none => y.rungs.getD i 0
  leBytes 2 l ++ [byteOf (y.level + 4 * bit y.dyn + 8 * bit y.armed + 16 * y.qshift), byteOf y.mextra]
    ++ leBytes 2 ((List.range 6).map (fun i => 4 ^ i * rung i)).sum ++ leBytes 2 y.quiet ++ leBytes 2 y.warm
    ++ (y.stats.map (fun (x : Stat) => leBytes 2 (ofSigned 16 x.mu) ++ leBytes 2 x.sig)).flatten
    ++ (y.amax.map (fun (x : Amax) => leBytes 2 (ofSigned 16 x.ema) ++ leBytes 2 (ofSigned 16 x.last))).flatten
    ++ leBytes 4 y.clamps ++ leBytes 2 y.jumps ++ leBytes 4 y.lastAct ++ leBytes 16 0

/-- The tensors of a role, in descriptor order (log 47). -/
def Channel.roleTensors (k : Channel) (role : Nat) : List Nat :=
  match k.score with
  | none => []
  | some sc => sc.entryTensors.filter (fun t => (k.tensor t).role == role && (k.tensor t).space < 2)

/-- The descriptor of a tensor at version `v`: that of buffer `v` mod 2 (08 R207, R210). -/
def Channel.atVersion (k : Channel) (v t : Nat) : TensorDesc := k.tensor (if (k.tensor t).versioned then t + v % 2 else t)

/-- The ranges of memory that an object holds, in the order of its content: space, address and length (log 47). -/
def Channel.objectPlaces (k : Channel) (v typ : Nat) : List (Nat × Nat × Nat) :=
  let whole := fun (ts : List Nat) => ts.map (fun t =>
    let d := k.atVersion v t
    (d.space, d.addr, Score.gridCols d * Score.gridRows d * Score.chordSize d))
  match typ with
  | 1 => whole (k.roleTensors 1)
  | 2 => whole ((k.roleTensors 2).filter (fun t => !Config.secondMoments t))
  | 3 => whole ((k.roleTensors 2).filter Config.secondMoments)
  | 4 => whole (k.roleTensors 6)
  | 6 => (match k.score with
    | none => []
    | some sc => (((sc.entries.filter (fun (e : Entry) => e.action == 9)).map (fun (e : Entry) => Score.collAt sc.pool e.desc)).filter
        (fun (d : CollDesc) => d.kind != 3)).map (fun d => (0, d.stab, 32 + 2 * bucketBlocks d)) |>.eraseDups)
  | _ => []

/-- Layer table of the loaded score, with its sign seeds, as the image holds it (07 R176, R183). -/
def Channel.layerTable (k : Channel) : List Byte :=
  match k.score with
  | none => []
  | some sc =>
    let img := (k.mem.load 0 sc.addr sc.length).1.bytes
    slice img (fieldLe img 40 4) (16 * sc.layers.length)

/-- Plaintext of an object of a checkpoint that captures version `v` of a step. -/
def Channel.objectBytes (k : Channel) (v step typ : Nat) : List Byte :=
  match typ with
  | 5 => ((List.range 4096).map k.layerBytes).flatten
  | 7 => Versions.bytes { cur := v } ++ leBytes 8 step
  | 8 => k.layerTable
  | _ => ((k.objectPlaces v typ).map (fun (p : Nat × Nat × Nat) => (k.mem.load p.1 p.2.1 p.2.2).1.bytes)).flatten

/-- Padded with zeros to whole units of 4 KiB. -/
def padUnit (bs : List Byte) : List Byte := fitTo ((bs.length + 4095) / 4096 * 4096) bs

/-- The objects that a checkpoint captures when it starts: types 1 to 8 in order (13 R339). -/
def Channel.capture (k : Channel) (v step : Nat) : List (List Byte) := [1, 2, 3, 4, 5, 6, 7, 8].map (k.objectBytes v step)

/-- The objects of a checkpoint as written to a target, sealed in confidential mode. -/
def objectsWritten (conf : Bool) (key : List Byte) (r : CkptRun) : List (List Byte) :=
  (r.content.zipIdx).map (fun x => padUnit (if conf then sealObject key (x.2 + 1) x.1 else x.1))

/-- The manifest of objects as written, signed (13 R341). -/
def manifestBytes (job chan decl base : Nat) (r : CkptRun) (mode : Nat) (objects : List (List Byte)) : List Byte :=
  let b := leBytes 4 0x4B505645 ++ leBytes 2 1 ++ leBytes 2 (job % 4096 + 4096 * chan) ++ leBytes 8 r.step ++ leBytes 4 r.version
    ++ leBytes 4 objects.length ++ [byteOf mode] ++ leBytes 7 0 ++ leBytes 8 decl ++ leBytes 8 Config.serial ++ leBytes 16 0
    ++ ((objects.zipIdx).map (fun x => leBytes 4 (x.2 + 1) ++ leBytes 4 (x.1.length / 4096) ++ leBytes 8 (Config.objectLba base (x.2 + 1))
      ++ fitTo 64 (Hash.shake512 x.1))).flatten
  let s := b ++ leBytes 2 1280
  s ++ fitTo 1280 (Config.identitySign s)

/-- The content of an object goes back to its places (13 R343; 08 R210). -/
def Mem.putRanges (m : Mem) : List (Nat × Nat × Nat) → List Byte → Mem
  | [], _ => m
  | p :: ps, bs =>
    let d := bs.take p.2.2
    (if m.mapped true p.1 p.2.1 d.length then m.store p.1 p.2.1 d else m).putRanges ps (bs.drop p.2.2)

/-- Every object of memory of a checkpoint of version `v` goes back: the weights of version `v` into buffer `v` mod 2 (08 R210). -/
def Channel.putObjects (k : Channel) (v : Nat) (objects : List (Nat × List Byte)) : Channel :=
  { k with mem := objects.foldl (fun (m : Mem) o => m.putRanges (k.objectPlaces v o.1) o.2) k.mem }

end Sys2Proof.Machine
end

