-- ==== Sys2Proof/Machine/Services.lean ====
section
/-! DEFINITION. The host-free services of a channel: storage targets, shard fetch, checkpoints and restart
(13 R335 to R343, R348; 17 R421, R422; 08 R210, R211, R216; 05 R129), and the measured log (15 R377, R378). -/

namespace Sys2Proof.Machine

open Sys2Proof

/-! ### Targets (13 R335) -/

/-- ROLE of a target: bit 0 shard source, bit 1 checkpoint target. -/
def Target.role (t : Target) : Nat := byteAt t.raw 278

/-- SITE of a target. -/
def Target.site (t : Target) : Bool := bitOf (byteAt t.raw 279) 0

/-- BASE and SPAN of a target. -/
def Target.lbas (t : Target) : Nat × Nat := (fieldLe t.raw 280 8, fieldLe t.raw 288 8)

/-- A target of a channel. -/
def Services.target (v : Services) (t : Nat) : Target := v.targets.getD t {}

/-- The services with a target changed. -/
def Services.modTarget (v : Services) (t : Nat) (f : Target → Target) : Services := { v with targets := modAt v.targets t f }

/-- The connection to a target is lost, and its queue pair is free again (13 R333, R335). -/
def Services.lose (v : Services) (t : Nat) : Services :=
  { v.modTarget t (fun t => { t with connected := false }) with qps := v.qps - bit (v.target t).connected }

/-- Device and channel can move storage traffic. -/
def State.storageUp (s : State) (c : ChanId) : Bool :=
  s.mp.running && s.mp.host.up && s.awake && (s.chan c).bind.bound && (s.chan c).st != .init && (s.chan c).st != .halted
    && (s.chan c).st != .holdup

/-- TARGET_RECONNECT (13 R335, R333): one attempt to connect to a target whose ROLE is not zero; a connection takes a queue
pair of the channel's pool (log 46). -/
def execTargetReconnect (c : ChanId) (target : Fin 4) (ok : Bool) (s : State) : Host.Outcome State Fault Refusal :=
  let k := s.chan c
  let t := k.svc.target target.val
  if !s.storageUp c || t.connected || t.role == 0 then .next s
  else if ok && decide (k.svc.qps < s.mp.host.pools.getD c.val 0) then
    .next (s.modChan c (fun k => { k with svc := { k.svc.modTarget target.val (fun t => { t with connected := true }) with
      qps := k.svc.qps + 1 } }))
  else .next (s.modChan c (fun k => { k with svc := k.svc.modTarget target.val (fun t => { t with errors := t.errors + 1 }) }))

/-! ### Shard fetch (13 R336, R337) -/

/-- Fields of the shard plan. -/
structure ShardPlan where
  src : Nat
  lba0 : Nat
  count : Nat
  stride : Nat
  shards : Nat
  ring : Nat
  slots : Nat
  slotLen : Nat
deriving DecidableEq, Repr

/-- The shard plan from its bytes (13 R336). -/
def ShardPlan.ofBytes (b : List Byte) : ShardPlan :=
  { src := byteAt b 0, lba0 := fieldLe b 4 8, count := fieldLe b 12 4, stride := fieldLe b 16 8, shards := fieldLe b 24 4
    ring := fieldLe b 28 8, slots := byteAt b 36, slotLen := fieldLe b 40 8 }

/-- The shard plan in force. -/
def Services.plan (v : Services) : ShardPlan := ShardPlan.ofBytes v.shardPlan

/-- A shard plan has been written: without one no step waits for a shard (log 45). -/
def Services.hasShards (v : Services) : Bool := v.plan.shards != 0

/-- The next step whose slot is free: its step has not ended, and its shard is neither resident nor being fetched. -/
def Channel.nextShard (k : Channel) : Option Nat :=
  ((List.range k.svc.plan.slots).map (fun i => wrap64 (k.step + i))).find? (fun (t : Nat) =>
    !k.svc.resident.contains t && !k.svc.fetching.contains t)

/-- SHARD_FETCH (13 R336). -/
def execShardFetch (c : ChanId) (s : State) : Host.Outcome State Fault Refusal :=
  let k := s.chan c
  let source := k.svc.targets.any (fun (t : Target) => t.connected && bitOf t.role 0)
  if !s.storageUp c || !k.svc.hasShards || !source then .next s
  else match k.nextShard with
    | some t => .next (s.modChan c (fun k => { k with svc := { k.svc with fetching := k.svc.fetching ++ [t] } }))
    | none => .next s

/-- SHARD_RESIDENT (13 R336, R337, R347): the shard lands in slot s mod SLOTS from its start and the step's token is set; when every
attempt has failed, or in confidential mode its records do not open, the error is class J. Nothing lands while the Mouthpiece or the
host link is down (01 R13). -/
def execShardResident (c : ChanId) (o : ShardObs) (s : State) : Host.Outcome State Fault Refusal :=
  let k := s.chan c
  if !k.svc.fetching.contains o.step || !s.storageUp c then .next s
  else
    let s := s.modChan c (fun k => { k with svc := { k.svc with fetching := k.svc.fetching.filter (· != o.step) } })
    match o.data.bind (unsealStored s.mram.conf k.storageKey) with
    | none => .next (s.firmwareError c .shardFail .J 9 k.svc.plan.src anyDetail)
    | some d =>
      let p := k.svc.plan
      let at_ := p.ring + o.step % p.slots * p.slotLen
      .next (s.modChan c (fun k =>
        let d := d.take p.slotLen
        let m := if k.mem.mapped true 0 at_ d.length then k.mem.store 0 at_ d else k.mem
        { k with mem := m, svc := { k.svc with resident := k.svc.resident ++ [o.step], lastShard := o.step % p.shards } }))

/-! ### Checkpoints (13 R338 to R342, R348; 17 R421, R422) -/

/-- A new status entry is put in front; when 16 are held, the oldest one that is not the newest clean one is dropped. -/
def ChanStore.addCkpt (t : ChanStore) (x : Ckpt) : ChanStore :=
  let l := t.ckpts
  if l.length < 16 then { t with ckpts := x :: l }
  else
    let clean := l.findIdx (fun (y : Ckpt) => y.state == 3)
    let drop := if clean = l.length - 1 then l.length - 2 else l.length - 1
    { t with ckpts := x :: l.eraseIdx drop }

/-- The entry of the checkpoint being written is changed. -/
def ChanStore.modCkpt (t : ChanStore) (f : Ckpt → Ckpt) : ChanStore :=
  let i := t.ckpts.findIdx (fun (x : Ckpt) => x.state == 1)
  { t with ckpts := modAt t.ckpts i f }

/-- A checkpoint starts: it captures version CUR, and adds 1 to the count of its buffer (13 R339, R340). -/
def State.startCkpt (s : State) (c : ChanId) : State :=
  let k := s.chan c
  let step := match k.lastEnd with | some e => e.1 | none => 0
  let v := k.ver.cur
  let plan := k.svc.ckptPlan
  let targets := if k.svc.ckptMode = 2 then [byteAt plan 5, byteAt plan 6] else [byteAt plan 5]
  let s := s.modChan c (fun k =>
    { k with
      ver := (if v % 2 = 0 then { k.ver with ckref0 := k.ver.ckref0 + 1 } else { k.ver with ckref1 := k.ver.ckref1 + 1 })
      svc := { k.svc with
        ckptDue := false, ckptWaiting := false
        ckpt := some { version := v, step := step, mode := k.svc.ckptMode, targets := targets, content := k.capture v step } } })
  s.modStore c (fun t => t.addCkpt
    { step := step, wver := v, state := 1, mode := k.svc.ckptMode, depth := s.mp.detDepth, cleanAt := step + s.mp.detDepth })

/-- At the end of a CKPT phrase a checkpoint that is due starts, or waits for the one still writing (13 R338, R348). -/
def State.ckptBoundary (s : State) (c : ChanId) : State :=
  let k := s.chan c
  if !k.svc.ckptDue then s
  else if k.svc.ckpt.isSome then
    s.modChan c (fun k => { k with svc := { k.svc with ckptDue := false, ckptWaiting := true } })
  else s.startCkpt c

/-- A checkpoint that waited starts when the previous one has ended. -/
def State.ckptNext (s : State) (c : ChanId) : State :=
  if (s.chan c).svc.ckptWaiting && (s.chan c).svc.ckpt.isNone then s.startCkpt c else s

/-- The checkpoint ends with manifests on the targets that remain: its entry becomes provisional, or clean when step
s + D has ended already (17 R421). -/
def State.endCkpt (s : State) (c : ChanId) (mode : Nat) : State :=
  let k := s.chan c
  let last := match k.lastEnd with | some e => e.1 | none => 0
  let s := s.modStore c (fun t => t.modCkpt (fun (x : Ckpt) =>
    { x with state := if x.cleanAt ≤ last then 3 else 2, mode := mode, decl := s.mp.declTime }))
  (s.modChan c Channel.dropCkpt).ckptNext c

/-- One target of the checkpoint is done with: the rest follows when none is still writing. -/
def State.targetDone (s : State) (c : ChanId) (run : CkptRun) : State :=
  let s := s.modChan c (fun k => { k with svc := { k.svc with ckpt := some run } })
  if run.targets.isEmpty then s.endCkpt c (if run.failed.isEmpty then run.mode else 3) else s

/-- What a checkpoint leaves on a target: the objects and then the manifest (13 R341, R347). -/
def State.ckptWritten (s : State) (c : ChanId) (r : CkptRun) (target : Nat) : List Byte × List (List Byte) :=
  let k := s.chan c
  let objects := objectsWritten s.mram.conf k.storageKey r
  (manifestBytes k.bind.job c.val s.mp.declTime (k.svc.target target).lbas.1 r (if r.failed.isEmpty then r.mode else 3) objects, objects)

/-- CHECKPOINT_DONE (13 R341): the manifest's Flush has completed on a target. -/
def execCheckpointDone (c : ChanId) (target : Fin 4) (s : State) : Host.Outcome State Fault Refusal :=
  match (s.chan c).svc.ckpt with
  | none => .next s
  | some r =>
    if !r.targets.contains target.val || !s.storageUp c then .next s
    else
      let written := s.ckptWritten c r target.val
      let s := s.modChan c (fun k => { k with svc := k.svc.modTarget target.val (fun t => { t with written := some written }) })
      let s := s.modStore c (fun t => t.modCkpt (fun (x : Ckpt) => { x with targets := withBit x.targets target.val }))
      .next (s.targetDone c { r with targets := r.targets.erase target.val })

/-- A target fails during a checkpoint: the other target of a dual checkpoint completes it in MODE 3; otherwise the checkpoint is
abandoned, class J (13 R342). -/
def State.targetFail (s : State) (c : ChanId) (target : Nat) : State :=
  match (s.chan c).svc.ckpt with
  | none => s
  | some r =>
    if !r.targets.contains target then s
    else
      let s := s.modChan c (fun k => { k with svc := (k.svc.lose target).modTarget target (fun t => { t with errors := t.errors + 1 }) })
      let rest := r.targets.erase target
      if r.mode = 2 ∧ r.failed.isEmpty then
        let s := s.firmwareError c .ckptTarget .S 9 target anyDetail
        s.targetDone c { r with targets := rest, failed := [target] }
      else
        let s := (s.modStore c (fun t => t.modCkpt (fun (x : Ckpt) => { x with state := 5 }))).modChan c Channel.dropCkpt
        (s.firmwareError c .ckptFail .J 9 target anyDetail).ckptNext c

/-- CHECKPOINT_TARGET_FAIL (13 R342). -/
def execCheckpointTargetFail (c : ChanId) (target : Fin 4) (s : State) : Host.Outcome State Fault Refusal :=
  .next (s.targetFail c target.val)

/-- A checkpoint being written is abandoned without a failure of its own: a Mouthpiece restart or a reset (17 R411). -/
def State.abandonCkpt (s : State) (c : ChanId) : State :=
  if (s.chan c).svc.ckpt.isNone then s
  else (s.modStore c (fun t => t.modCkpt (fun (x : Ckpt) => { x with state := 5 }))).modChan c Channel.dropCkpt

/-! ### The start of a score (07 R187, R188) -/

/-- The score starts from the STEP_START phrase of the channel's step. -/
def State.startStep (s : State) (c : ChanId) : State :=
  let s := s.rebindSlots c
  (s.modChan c (fun k => { k with
    st := .run
    ww := { k.ww with phrase := k.ww.stepPhrase, beat := 0, boundaryDue := true, started := true, hold := none } })).settle

/-! ### Restart (13 R343; 08 R210, R211; 05 R129) -/

/-- Fields of a manifest (13 R341). -/
structure Manifest where
  job : Nat
  chan : Nat
  step : Nat
  wver : Nat
  mode : Nat
  id : Nat
  objects : List (Nat × Nat × List Byte)
deriving DecidableEq, Repr

/-- A manifest as read, when its fixed fields stand and its signature is good: the signature covers every byte before it. -/
def Manifest.ofBytes (b : List Byte) : Option Manifest :=
  let n := fieldLe b 20 4
  let sigAt := 64 + 80 * n
  let len := fieldLe b sigAt 2
  let id := fieldLe b 40 8
  let key := if id = Config.serial then Config.identityPub else Config.peerKey id
  if fieldLe b 0 4 = 0x4B505645 ∧ fieldLe b 4 2 = 1 ∧ sigAt + 2 + len ≤ b.length
      ∧ Config.falconVerify key (b.take (sigAt + 2)) (slice b (sigAt + 2) len) = true then
    some { job := fieldLe b 6 2 % 4096, chan := bitsOf (fieldLe b 6 2) 13 12, step := fieldLe b 8 8, wver := fieldLe b 16 4
           mode := byteAt b 24, id := id
           objects := (List.range n).map (fun i =>
             (fieldLe b (64 + 80 * i) 4, fieldLe b (68 + 80 * i) 4, slice b (80 + 80 * i) 64)) }
  else none

/-- Every object has its length and its digest, as written. -/
def Manifest.holds (m : Manifest) (os : List (List Byte)) : Bool :=
  m.objects.length == os.length &&
    (m.objects.zip os).all (fun p => p.2.length == 4096 * p.1.2.1 && Hash.shake512 p.2 == p.1.2.2)

/-- What the objects as written hold, by type, once they are verified: in confidential mode their records open (13 R343, R347). -/
def Manifest.opened (m : Manifest) (conf : Bool) (key : List Byte) (os : List (List Byte)) : Option (List (Nat × List Byte)) :=
  if m.holds os then
    (m.objects.zip os).foldr (fun p acc => match acc, unsealStored conf key p.2 with
      | some l, some bs => some ((p.1.1, bs) :: l)
      | _, _ => none) (some [])
  else none

/-- The log is emptied and its chain starts anew. -/
def measStart (job epoch : Nat) : Measured :=
  { chain := Hash.shake512 ([0x45#8, 0x56#8, 0x54#8, 0x34#8, 0x2D#8, 0x4D#8, 0x45#8, 0x41#8, 0x53#8] ++ leBytes 2 job ++ leBytes 4 epoch) }

/-- The 80 bytes of an entry. -/
def MeasEntry.bytes (e : MeasEntry) : List Byte :=
  [byteOf e.typ, 0#8] ++ leBytes 2 e.seq ++ leBytes 4 e.aux ++ leBytes 8 e.length ++ fitTo 64 e.digest

/-- An entry is appended and folded into the chain. -/
def Measured.add (m : Measured) (typ aux length : Nat) (digest : List Byte) : Measured :=
  let e : MeasEntry := { typ := typ, seq := m.seq, aux := aux, length := length, digest := digest }
  let full := decide (1024 ≤ m.log.length)
  { m with
    log := (if full then m.log.drop 1 else m.log) ++ [e], chain := Hash.shake512 (m.chain ++ e.bytes)
    seq := (m.seq + 1) % 65536, dropped := m.dropped || full
    nScore := if typ = 1 then m.nScore + 1 else m.nScore, nWeight := if typ = 1 then m.nWeight else m.nWeight + 1 }

/-- Each object that the restart service has verified makes a TYPE 3 entry (15 R378). -/
def Channel.measureObjects (k : Channel) (m : Manifest) : Channel :=
  { k with meas := m.objects.foldl (fun (x : Measured) o => x.add 3 o.1 (4096 * o.2.1) o.2.2) k.meas }

/-- Is a manifest clean for channel `c` (17 R422)? -/
def State.cleanManifest (s : State) (c : ChanId) (m : Manifest) : Bool :=
  let cks := (s.store c).ckpts
  if cks.any (fun (x : Ckpt) => x.state == 3) then
    cks.any (fun (x : Ckpt) => x.state == 3 && x.step == m.step && x.wver == m.wver)
  else m.step ≤ s.mp.declClean.getD c.val 0 && s.mp.declClean.getD c.val 0 != 0

/-- Is an image of a checkpoint target with the channel's own job and channel? -/
def State.candidate (s : State) (c : ChanId) (x : CkptImage) : Option (Manifest × CkptImage) :=
  let k := s.chan c
  if !bitOf (k.svc.target x.target).role 1 then none
  else match Manifest.ofBytes x.manifest with
    | some m => if m.job = k.bind.job ∧ m.chan = c.val ∧ s.cleanManifest c m = true then some (m, x) else none
    | none => none

/-- Candidates in the order they are tried: newest first, and of one checkpoint the target on the device's own site first. -/
def State.candidates (s : State) (c : ChanId) (xs : List CkptImage) : List (Manifest × CkptImage) :=
  let own := bitOf s.pins.straps 11
  let site := fun (x : Manifest × CkptImage) => ((s.chan c).svc.target x.2.target).site == own
  (xs.filterMap (s.candidate c)).mergeSort (fun a b =>
    decide (b.1.step < a.1.step) || (a.1.step == b.1.step && (site a || !site b)))

/-- A layer takes means, deviations, amax histories and warm-up count from an entry of the per-layer table, and keeps its
margin, override, rungs and hysteresis (05 R129, R135). -/
def Layer.restore (y : Layer) (e : List Byte) : Layer :=
  let warm := fieldLe e 8 2
  let seen := decide (0 < warm)
  { y with
    warm := warm, armed := decide (32 ≤ warm), quiet := 0
    stats := (List.range 4).map (fun i => { mu := toSigned 16 (fieldLe e (10 + 4 * i) 2), sig := fieldLe e (12 + 4 * i) 2 })
    folded := List.replicate 4 seen
    amax := (List.range 3).map (fun i =>
      { ema := toSigned 16 (fieldLe e (26 + 4 * i) 2), last := toSigned 16 (fieldLe e (28 + 4 * i) 2), any := seen }) }

/-- The version before another one: CUR has 32 bits. -/
def versionBefore (v : Nat) : Nat := if v = 0 then 2 ^ 32 - 1 else v - 1

/-- A weight-copy tile is run again for the version in CUR, and its chords go to the copy's tensor (08 R216; 13 R343). -/
def Channel.rerunCopy (k : Channel) (i : Nat) : Channel :=
  let e := k.entry i
  match k.slotReed e.unit with
  | none => k
  | some r =>
    let v := k.ver.cur
    let k := ({ k with ver := { k.ver with cur := versionBefore v } }).cueTile r i
    let k := (match k.tileIn r .clean with
      | none => k
      | some t =>
        let d := t.desc
        let ix := (k.writeTensor d.otensor).1
        let f := rungFmt (Score.fmtOf d.olayout) t.rungA
        let dst := tensorAsFmt (k.tensor ix) f
        let gc := Score.gridCols dst
        let lr := Score.geomDir d.ogeom != 1
        let wide := if lr then t.cur.out.chords.length / 8 else 8
        (t.cur.out.chords.zipIdx).foldl (fun (k : Channel) (x : Chord × Nat) =>
          let row := (if lr then d.m0 / 16 else 0) + x.2 / wide
          let col := (if lr then 0 else d.n0 / 16) + x.2 % wide
          k.writeBytes 0 r.val r i dst.space (Score.chordAddr dst (row * gc + col)) (Chord.toBytes f x.1)) k)
    { (k.modReed r (fun x => { x with tile := none, waiting := none })) with ver := { k.ver with cur := v } }

/-- Every weight-copy tile of the loaded score is run again. -/
def Channel.rerunCopies (k : Channel) : Channel :=
  match k.score with
  | none => k
  | some sc =>
    let v := k.ver.cur
    let k := { k with tun := { k.tun with inForce := k.tun.layers }, ver := { k.ver with cur := versionBefore v } }.recordRungs
    let k := { k with ver := { k.ver with cur := v } }
    (sc.entries.zipIdx).foldl (fun (k : Channel) (p : Entry × Nat) =>
      if p.1.action = 1 ∧ (Score.tileAt k.pool p.1.desc).prod = 3 then k.rerunCopy p.2 else k) k

/-- The objects of a loaded checkpoint go to the tensors and bucket tables of the score, and the weight copies are made again
(13 R343; 08 R210, R216). -/
def Channel.placeCkpt (k : Channel) (objects : List (Nat × List Byte)) : Channel := (k.putObjects k.ver.cur objects).rerunCopies

/-- The channel's state after a checkpoint has been loaded. -/
def Channel.loadCkpt (k : Channel) (m : Manifest) (objects : List (Nat × List Byte)) : Channel :=
  let table := ((objects.find? (fun o => o.1 == 5)).map (·.2)).getD []
  let layer := fun (l : Nat) (y : Layer) =>
    if 64 * l + 64 ≤ table.length then (y.restore (slice table (64 * l) 64)).writeTable k.live.margin else y
  let count := table.length / 64
  let layers := (List.range (min count 4096)).foldl (fun (a : SMap Layer) l => SMap.set {} a l (layer l (SMap.get {} a l))) k.tun.layers
  let k := { k with
    ver := { cur := m.wver }
    verSnap := none, step := wrap64 (m.step + 1), attempt := 0, lastEnd := none
    tun := { k.tun with layers := layers }
    ww := { k.ww with stepPhrase := (match k.score with | some sc => sc.nextStart 0 | none => 0) }
    svc := { k.svc with resident := [], fetching := [], ckpt := none, ckptWaiting := false, ckptDue := false } }
  if k.score.isSome then k.placeCkpt objects else k

/-- RESTART_LOAD_DONE (13 R343; 17 R407): the newest clean checkpoint that verifies is loaded and the score starts; when none
verifies, RESTART_FAILED. -/
def execRestartLoadDone (c : ChanId) (images : List CkptImage) (s : State) : Host.Outcome State Fault Refusal :=
  let k := s.chan c
  match k.svc.restart with
  | none => .next s
  | some x =>
    if x.ready || !s.storageUp c then .next s
    else match (s.candidates c images).findSome? (fun (p : Manifest × CkptImage) =>
        (p.1.opened s.mram.conf k.storageKey p.2.objects).map (fun os => (p.1, os))) with
      | none =>
        let s := s.modChan c (fun k => { k with svc := { k.svc with restart := none } })
        .next (s.firmwareError c .restartFailed .J 9 0 anyDetail)
      | some (m, objects) =>
        let s := s.modChan c (fun k => (k.loadCkpt m objects).measureObjects m)
        if k.score.isNone then
          .next (s.modChan c (fun k => { k with svc := { k.svc with restart := some { ready := true, objects := objects } } }))
        else
          let s := s.modChan c (fun k => { k with svc := { k.svc with restart := none } })
          .next ((s.startStep c).rollbackDone c)

end Sys2Proof.Machine
end

