-- ==== Sys2Proof/Machine/Windway.lean ====
section
/-! DEFINITION. The Windway: phrase boundaries, the test of a beat with its missing tokens and hold counters, and the launch of a
beat's entries (07 R165 to R175, R177, R188 to R191; 01 R21, R24; 08 R208, R215; 10 R279 to R281; 18 R434, R435). -/

namespace Sys2Proof.Machine

open Sys2Proof

/-! ### Phrase boundaries (07 R177, R188, R189) -/

/-- The phrase table entry with an index. -/
def Channel.phraseAt (k : Channel) (i : Nat) : Phrase :=
  match k.score with | some sc => sc.phrases.getD i {} | none => {}

/-- The phrase whose beats are being issued. -/
def Channel.phrase (k : Channel) : Phrase := k.phraseAt k.ww.phrase

/-- The layers of a score that have a rotated tile. -/
def rotatedLayers (sc : Score) : List Nat :=
  (((sc.entries.filter (fun (e : Entry) => e.action == 1)).map (fun (e : Entry) => Score.tileAt sc.pool e.desc)).filter
    (fun (d : TileDesc) => d.rotn != 0)).map (fun d => d.layer) |>.eraseDups

/-- The Crook sign tables that come into force (03 R70). DESIGN CHOICE: the manual does not say when a Chanter loads the table of a layer;
here all are loaded by the first phrase boundary of the score (log 72). -/
def Channel.signTables (k : Channel) : SMap (List Byte) :=
  match k.score with
  | none => []
  | some sc => (rotatedLayers sc).foldl (fun (m : SMap (List Byte)) l => SMap.set [] m l (QGrid.signTable (k.layerInfo l).seed)) []

/-- The channel's own part of a boundary: written lines go out, pending shadows are copied into the live registers, sign tables that have
been loaded come into force, and the Windway stands at beat 0 of a phrase. Entering a step latches what its tiles see of the Tuner
(03 R70; 05 R124; 07 R189; 09 R239, R248). -/
def Channel.enterPhrase (k : Channel) (phrase : Nat) : Channel :=
  let k := ({ k with mem := k.mem.flush }).frameErrors
  let k := { k with
    live := k.shadow, shadowed := false, signs := k.signTables
    ww := { k.ww with phrase := phrase, beat := 0, boundaryDue := false } }
  if k.phrase.stepStart then { k with tun := { k.tun with inForce := k.tun.layers } } else k

/-- A phrase boundary is passed. After the last beat of a phrase a checkpoint or an Étude window may begin and a stop takes effect
(07 R188; 13 R338; 18 R435); Reeds are exchanged and a bin change may start (18 R434; 03 R85; 01 R21). -/
def State.passBoundary (s : State) (c : ChanId) : State :=
  let k := s.chan c
  let p := k.phrase
  let ended := decide (p.len ≤ k.ww.beat)
  let stop := ended && (k.ww.stopAt == k.ww.phrase || k.ww.stopAt == 0xFFFE)
  let s := if ended && p.ckpt then (s.ckptBoundary c).openWindow c else s
  let s := s.ckptNext c
  let s := s.modChan c (fun k => k.enterPhrase (if ended then p.next else k.ww.phrase))
  if stop then (s.modChan c (fun k => { k with st := .stopping })).settle
  else ((s.replaceFailed c).rotate c).retune c

/-! ### Missing tokens (07 R168 to R172) -/

/-- The cause of a token still clear. -/
def Channel.tokenCause (k : Channel) (t : Nat) : HoldCause := (k.token t).tag.getD .other

/-- The Bell port that an entry's unit names, after substitution (12 R325). -/
def Channel.bellPort (k : Channel) (e : Entry) : PortId := (portId? (k.resolve (e.unit - 0x300))).getD 0

/-- The tag of the action in flight on a unit. -/
def Channel.flightCause (k : Channel) (unit : Nat) : HoldCause :=
  match k.flight unit with
  | some f => f.tag.getD .other
  | none => .other

/-- The tag of the action in flight of a score entry. -/
def Channel.entryCause (k : Channel) (i : Nat) : HoldCause :=
  match k.flights.find? (fun (f : Flight) => f.entry == i) with
  | some f => f.tag.getD .other
  | none => .other

/-- A tile cue waits while the array works, or while both slots of the output buffer are taken: by outputs on their way to the Valve and
by finished tiles that await release (03 R62, R76; 07 R170). -/
def Channel.tileBusy (k : Channel) (x : Reed) : List HoldCause :=
  let done := x.waiting.toList ++ x.tile.toList
  match x.tile with
  | some t =>
    if t.phase ≠ .clean then [k.entryCause t.entry]
    else if 2 ≤ x.slots.length + done.length then done.map (fun t => k.entryCause t.entry) else []
  | none => if 2 ≤ x.slots.length + done.length then .other :: done.map (fun t => k.entryCause t.entry) else []

/-- The unit of an entry is busy with an earlier action, or has no room for another (07 R170; 10 R281; 11 R299; 08 R208). -/
def Channel.busyCause (k : Channel) (e : Entry) : List HoldCause :=
  let reed := fun (slot : Nat) => (k.slotReed slot).map k.reed
  match e.action with
  | 1 => match reed e.unit with
    | some r => k.tileBusy r
    | none => []
  | 2 => match reed (e.unit - 0x100) with
    | some r =>
      let d := Score.vrunAt k.pool e.desc
      let load := k.flights.find? (fun (f : Flight) => (k.entry f.entry).action == 3 &&
        ((Score.ploadAt k.pool (k.entry f.entry).desc).slot + 0x100 == e.unit && (Score.ploadAt k.pool (k.entry f.entry).desc).pslot == d.pslot))
      (if r.valve.run.isSome then [k.flightCause e.unit] else [])
        ++ (match load with | some f => [f.tag.getD .other] | none => [])
    | none => []
  | 3 | 4 | 5 | 6 | 0x0A => if (k.flight e.unit).isSome then [k.flightCause e.unit] else []
  | 7 => (k.flights.filter (fun (f : Flight) => f.unit == e.unit && (k.entry f.entry).action == 7)).map (fun f => f.tag.getD .other)
  | 8 => if 64 ≤ (k.port (k.bellPort e)).recvs.length then [.lateLink] else []
  | 9 => if k.contextFree (Score.collAt k.pool e.desc) then [] else [.lateLink]
  | _ => []

/-- What an entry still waits for. -/
def Channel.entryCauses (k : Channel) (e : Entry) : List HoldCause :=
  ((e.waits.filter (fun t => !(k.token t).set)).map k.tokenCause)
    ++ (match e.sets with
        | some t => if (k.token t).flying then [k.tokenCause t] else []
        | none => [])
    ++ (if e.waitScalar && !k.scalarTok then [.scalar] else [])
    ++ k.busyCause e

/-- The entries of the pending beat with their indexes. -/
def Channel.beatEntries (k : Channel) : List (Nat × Entry) :=
  match k.score with
  | none => []
  | some sc =>
    let p := k.phrase
    ((((sc.entries.drop p.first).take p.count).zipIdx).filter (fun (x : Entry × Nat) => x.1.beat == k.ww.beat)).map
      (fun x => (p.first + x.2, x.1))

/-- Everything the pending beat waits for: tokens and busy units, a stalled crossing or a full error FIFO, entries not yet
fetched, the shard of the step (13 R337), and the SRAM copy of a spare (18 R434). -/
def Channel.missing (k : Channel) (starved : Bool) : List HoldCause :=
  ((k.beatEntries.map (fun x => k.entryCauses x.2)).flatten)
    ++ (k.stalls.map (fun (x : Nat × Bool) => if x.2 then HoldCause.hbmRefresh else HoldCause.other))
    ++ (if k.err.stalled.isEmpty then [] else [.other])
    ++ (if starved then [.other] else [])
    ++ (if k.ww.beat == 0 && k.phrase.stepStart && k.svc.hasShards && !k.svc.resident.contains k.step then [.lateLink] else [])
    ++ (if k.ww.beat == 0 && k.etude.copy.isSome then [.other] else [])

/-- The cause with the lowest code. -/
def lowestCause : List HoldCause → Option HoldCause
  | [] => none
  | h :: hs => some (hs.foldl (fun a b => if HoldCause.code b < HoldCause.code a then b else a) h)

/-- A failed test: one held beat, and at its first test one hold event, under the lowest cause (07 R167, R171, R173). -/
def Windway.heldBeat (w : Windway) (h : HoldCause) : Windway :=
  { w with
    held := sat64 w.held 1
    causeBeats := modAt w.causeBeats (HoldCause.code h) (sat64 · 1)
    causeEvents := if w.hold.isNone then modAt w.causeEvents (HoldCause.code h) (sat32 · 1) else w.causeEvents
    hold := some h }

/-- A scalar write of one Reed, or of all Reeds of the channel (06 R142). -/
def Channel.writeScalar (k : Channel) (x : Option ReedId × Nat × Nat) : Channel :=
  let set := fun (v : Valve) => { v with scal := SMap.set 0 v.scal x.2.1 x.2.2 }
  match x.1 with
  | some r => k.modValve r set
  | none => { k with reeds := k.reeds.map (fun (r : Reed) => { r with valve := set r.valve }) }

/-- Pending scalar writes take effect in the order they were sent (06 R142). -/
def Channel.applyScalars (k : Channel) : Channel := { k.scalarQ.foldl Channel.writeScalar k with scalarQ := [] }

/-! ### Launches (07 R166, R179) -/

/-- The message of a SEND: its chords in order; none when an error of class S or above ends the read (08 R207, R213; 10 R279). -/
def Channel.sendBytes (k : Channel) (p : PortId) (i : Nat) (e : Entry) (ix : Nat) (want : Option Nat) : Option (List Byte) × Channel :=
  let d := Score.sendAt k.pool e.desc
  let t := k.storedTensor d.tensor ix
  (List.range d.count).foldl (fun (a : Option (List Byte) × Channel) j =>
    match a.1 with
    | none => a
    | some bs =>
      let (x, retried, k) := a.2.readNow 3 p.val 0 t (d.first + j)
      let k := if retried then k.tagEntry i .errorRetry else k
      if x.lost then (none, k)
      else if wrongTag e want (Chord.ofBytes (Score.fmtOf t.layout) x.bytes) then (none, k.collVersion p.val)
      else (some (bs ++ (if x.poisoned then poisonBytes t else x.bytes)), k)) (some [], k)

/-- SEND (10 R279, R280): refused when the peer is not at the end of its path; otherwise its packets are queued. -/
def Channel.launchSend (k : Channel) (w : Self) (i : Nat) (e : Entry) : Channel :=
  let d := Score.sendAt k.pool e.desc
  let p := k.bellPort e
  let partner := (k.port p).partner % 16384
  let path := if d.route = 1 then k.route p (d.peer % 4096) else if partner = d.peer then k.egress p else none
  match path, k.readTensor e.mb d.tensor false with
  | none, _ => k.raise { cause := .sendRefused, cls := .S, unit := 3, uidx := p.val, detail := anyDetail }
  | _, none => k.collVersion p.val
  | some q, some (ix, want) => match k.sendBytes p i e ix want with
    | (none, k) => k
    | (some bs, k) =>
      let k := k.modPort q (fun r => { r with sends := r.sends ++ [{ entry := i, token := e.sets }] })
      (dataPackets d.mtag 0 bs).foldl (fun (k : Channel) pk =>
        k.sendPacket w q (some i) 0 3 (d.peer % 4096) (d.peer / 4096 % 4) pk) k

/-- RECV (10 R281): it is posted at its port. -/
def Channel.launchRecv (k : Channel) (i : Nat) (e : Entry) : Channel :=
  let d := Score.sendAt k.pool e.desc
  k.modPort (k.bellPort e) (fun q => { q with recvs := q.recvs ++
    [{ entry := i, token := e.sets, tensor := (k.writeTensor d.tensor).1, first := d.first, count := d.count, mtag := d.mtag
       peer := d.peer }] })

/-- A range of chords of a tensor at index `ix`, of a pair that starts at `even`: space, address and length. -/
def Channel.chordSpan (k : Channel) (even ix first n : Nat) : Nat × Nat × Nat :=
  let t := k.storedTensor even ix
  (t.space, Score.chordAddr t first, n * Score.chordSize t)

/-- The ranges of a window of a tensor, one for each row of chords. -/
def Channel.windowSpans (k : Channel) (ix r0 c0 nr nc : Nat) : List (Nat × Nat × Nat) :=
  let t := k.tensor ix
  let last := min (Score.gridCols t) ((c0 + nc + 15) / 16)
  (List.range (min (Score.gridRows t) ((r0 + nr + 15) / 16) - r0 / 16)).map (fun i =>
    (t.space, Score.chordAddr t ((r0 / 16 + i) * Score.gridCols t + c0 / 16), (last - c0 / 16) * Score.chordSize t))

/-- The ranges of memory that a tile reads: the windows of its wide sources, or the strip of a weight copy (04 R105; 08 R216). -/
def Channel.tileSpans (k : Channel) (e : Entry) : List (Nat × Nat × Nat) :=
  let d := Score.tileAt k.pool e.desc
  let strip := fun (t : Nat) (copy lr : Bool) (org k0 len : Nat) => match k.readTensor e.mb t copy with
    | none => []
    | some (ix, _) => if lr then k.windowSpans ix org k0 128 len else k.windowSpans ix k0 org len 128
  if d.prod = 3 then
    let lr := Score.geomDir d.ogeom != 1
    strip d.a.tensor true lr (if lr then d.m0 else d.n0) 0 (16 * max (Score.gridCols (k.tensor d.a.tensor)) (Score.gridRows (k.tensor d.a.tensor)))
  else
    let wide := fun (o : OpndDesc) (lr : Bool) (org : Nat) => match o.wide with
      | some w => strip w false lr org o.k0 d.k
      | none => []
    wide d.a (d.prod != 2) d.m0 ++ wide d.b (d.prod == 1) d.n0

/-- The ranges of memory that an entry's action reads and writes: space, address and length (07 R179). -/
def Channel.spans (k : Channel) (e : Entry) : List (Nat × Nat × Nat) :=
  let reads := fun (t first n : Nat) => match k.readTensor e.mb t false with
    | some (ix, _) => [k.chordSpan t ix first n]
    | none => []
  let writes := fun (t first n : Nat) => [k.chordSpan t (k.writeTensor t).1 first n]
  match e.action with
  | 1 => k.tileSpans e
  | 2 =>
    let d := Score.vrunAt k.pool e.desc
    ((d.ins.filterMap id).map (fun (st : StreamDesc) => reads st.tensor st.first d.e)).flatten
      ++ ((d.outs.filterMap id).map (fun (st : StreamDesc) => writes st.tensor st.first d.e)).flatten
  | 3 => let d := Score.ploadAt k.pool e.desc; [(d.space, d.addr, 8 * d.count)]
  | 4 => let d := Score.moveAt k.pool e.desc; reads d.srct d.sfirst d.count ++ writes d.dstt d.dfirst d.count
  | 5 =>
    let d := Score.pickAt k.pool e.desc
    let list := (k.mem.load d.listSpace d.list (8 * d.count)).1.bytes
    (d.listSpace, d.list, 8 * d.count) :: (List.range d.count).map (fun j =>
      let v := fieldLe list (8 * j) 8
      (v / 2 ^ 60, bitsOf v 59 5 * 32, if d.chord then 32 * (v % 32) else 32))
  | 6 =>
    let d := Score.mxioAt k.pool e.desc
    let t := k.tensor d.tensor
    let n := Score.gridCols t * Score.gridRows t
    (d.elemSpace, d.elem, 32 * d.blocks) :: (d.scaleSpace, d.scale, d.blocks)
      :: (if d.export_ then reads d.tensor 0 n else writes d.tensor 0 n)
  | 7 => let d := Score.sendAt k.pool e.desc; reads d.tensor d.first d.count
  | 8 => let d := Score.sendAt k.pool e.desc; writes d.tensor d.first d.count
  | 9 =>
    let d := Score.collAt k.pool e.desc
    (0, d.stab, if d.kind = 3 then 0 else 32 + 2 * bucketBlocks d) :: reads d.src d.first d.chords ++ writes d.dst d.first d.chords
  | _ => []

/-- Does an entry's action touch the far tier (09 R254)? -/
def Channel.usesFar (k : Channel) (e : Entry) : Bool := (k.spans e).any (fun x => k.farRange x.1 x.2.1 x.2.2)

/-- The tag that an action takes at its launch, for the beats it may hold: the far tier, else the link (07 R171; 09 R254). DESIGN CHOICE:
the model has no schedule, so that a transfer is tagged whether it comes late or not (log 71). -/
def Channel.launchTag (k : Channel) (i : Nat) (e : Entry) : Channel :=
  if k.usesFar e then k.tagEntry i .farTier
  else if e.action = 7 ∨ e.action = 8 ∨ e.action = 9 then k.tagEntry i .lateLink
  else k

/-- STAMP, RELEASE and OPEN (08 R208). -/
def Channel.launchVersion (k : Channel) (i : Nat) (e : Entry) : Channel :=
  let fault := k.raise { cause := .versionFault, cls := .S, unit := 8, detail := anyDetail }
  match e.desc % 256 with
  | 1 => (match k.ver.stampMb e.mb with
    | some v => { k with ver := v }.landEntry i
    | none => fault)
  | 2 => (match k.ver.release e.mb with
    | some v => { k with ver := v }.landEntry i
    | none => fault)
  | _ =>
    if k.ver.opened then fault
    else if k.ver.canOpen then k.openVersion i
    else k.tagEntry i .versionWait

/-- A CHNT entry (08 R208). -/
def State.launchChnt (s : State) (c : ChanId) (i : Nat) (e : Entry) : State :=
  match e.desc % 256 with
  | 4 => ((s.modChan c (fun k => k.tagEntry i .lateLink)).launchVerdict c i).serviceAll c
  | 5 => s.modChan c (fun k => (k.launchScalars e).tagEntry i .scalar)
  | 6 =>
    let k := s.chan c
    let s := (s.modChan c (fun k => k.landEntry i)).commit c
    if (s.chan c).ver.cur = k.ver.cur then s else s.noteCommit c k.step
  | _ => s.modChan c (fun k => k.launchVersion i e)

/-- One entry launches. -/
def State.launch (s : State) (c : ChanId) (x : Nat × Entry) : State :=
  let (i, e) := x
  let s := s.modChan c (fun k => (k.fly e.unit i e.sets).launchTag i e)
  match e.action with
  | 1 => s.modChan c (fun k => match k.slotReed e.unit with | some r => k.cueTile r i | none => k)
  | 2 => s.modChan c (fun k => match k.slotReed (e.unit - 0x100) with | some r => k.cueRun r i | none => k)
  | 3 | 4 | 5 | 6 => s
  | 7 => s.modChan c (fun k => k.launchSend (s.self c) i e)
  | 8 => (s.modChan c (fun k => k.launchRecv i e)).serviceAll c
  | 9 => (s.modChan c (fun k => k.collLaunch (s.self c) i)).serviceAll c
  | 0x0A => s.launchChnt c i e
  | _ => s.modChan c (fun k => k.landEntry i)

/-! ### The test (07 R167, R175; 08 R215; 02 R48) -/

/-- At beat 0 of a STEP_START phrase the version state is kept, the lanes are reseeded, the scalar token is taken back, and a
channel that resumes is in RUN (08 R215; 02 R48; 06 R142; 19 R452). -/
def Channel.beginStep (k : Channel) : Channel :=
  { k with
    verSnap := some k.ver, scalarTok := false
    ww := { k.ww with stepPhrase := k.ww.phrase, resumed := false }
    reeds := k.reeds.map (fun (r : Reed) => { r with valve := { r.valve with lfsr := [], qlfsr := [], seedStep := some k.step } })
    st := .run, resume := false }

/-- The beat issues: its boundary is passed, every token its entries produce is cleared, and then they launch together. -/
def State.issue (s : State) (c : ChanId) : State :=
  let es := (s.chan c).beatEntries
  let s := s.modChan c (fun k =>
    let k : Channel := { k.applyScalars with ww := { k.ww with beats := wrap64 (k.ww.beats + 1), hold := none } }
    let k : Channel := if k.ww.beat = 0 ∧ k.phrase.stepStart then k.beginStep else k
    let last := decide (k.phrase.len ≤ k.ww.beat + 1)
    let k : Channel := { k with ww := { k.ww with beat := k.ww.beat + 1, boundaryDue := last } }
    es.foldl (fun (k : Channel) x => k.launchToken x.2.sets) k)
  (es.foldl (fun (s : State) x =>
    if (s.chan c).st == .run && (s.chan c).ww.beat != 0 then s.launch c x else s) s).settle

/-- May the Windway test a beat: running or resuming, no bin change, no Étude window, no rollback due, the device awake? -/
def State.mayTest (s : State) (c : ChanId) : Bool :=
  let k := s.chan c
  (k.st == .run || (k.st == .loaded && k.resume && k.ww.resumed)) && s.awake && k.score.isSome && k.bins.change.isNone
    && !k.etude.window && !k.ww.rollbackDue

/-- The state in which a beat is tested: what has been disturbed or has stalled since the last test is in it, and a boundary that is
due has been passed. -/
def State.beatState (s : State) (c : ChanId) (o : BeatObs) : State :=
  let s := s.modChan c (fun k =>
    let k := k.disturbed o.upsets
    { k with stalls := k.stalls ++ o.stalls.filter (fun (x : Nat × Bool) => !k.stalls.any (fun (y : Nat × Bool) => y.1 == x.1)) })
  if (s.chan c).ww.boundaryDue then s.passBoundary c else s

/-- BEAT_TEST (07 R167). -/
def execBeatTest (c : ChanId) (o : BeatObs) (s : State) : Host.Outcome State Fault Refusal :=
  if !s.mayTest c then .next s
  else
    let s := s.beatState c o
    if !s.mayTest c then .next s
    else
      let k := s.chan c
      match lowestCause (k.missing o.starved) with
      | none => .next (s.issue c)
      | some h =>
        let only := k.ww.hold.isSome && (k.missing o.starved).all (· == .scalar)
        .next (s.modChan c (fun k => { (if only then k.applyScalars else k) with ww := k.ww.heldBeat h }))

/-- CROSSING_FIFO_SPACE (01 R24). -/
def execCrossingFifoSpace (c : ChanId) (crossing : Nat) (s : State) : Host.Outcome State Fault Refusal :=
  .next (s.modChan c (fun k => { k with stalls := k.stalls.filter (fun (x : Nat × Bool) => x.1 != crossing) }))

/-- HOLD_TIMEOUT (07 R174): the hold watchdog has run out on the hold in progress, be it on beat 0 of a resume (19 R452). -/
def execHoldTimeout (c : ChanId) (s : State) : Host.Outcome State Fault Refusal :=
  let k := s.chan c
  if (k.st == .run || (k.st == .loaded && k.resume)) && k.ww.hold.isSome then .next (s.firmwareError c .holdTimeout .S 7 0 anyDetail) else .next s

/-- STOP_COMPLETE (07 R188): every action in flight has completed, the channel is LOADED and the stop index returns to none. -/
def execStopComplete (c : ChanId) (s : State) : Host.Outcome State Fault Refusal :=
  let k := s.chan c
  if k.st == .stopping && k.flights.isEmpty then
    let s := s.modChan c (fun k => { k with
      st := .loaded, ww := { k.ww with stopAt := 0xFFFF, hold := none }, err := { k.err with waitStop := false } })
    .next (((s.finishErrs c (fun e => ErrClass.code e.cls == 4 && waitsForHost e.cause) 4).startTests c).retuneStopped c).settle
  else .next s

end Sys2Proof.Machine
end

