-- ==== Sys2Proof/Machine/Events.lean ====
section
/-! DEFINITION. Events of a channel's memory, and the draining of its hardware error FIFO (09 R230, R241, R253, R255, R259;
17 R413, R414). -/

namespace Sys2Proof.Machine

open Sys2Proof

/-! ### HBM refresh and patrol scrub (09 R230, R241) -/

/-- HBM_REFRESH: each scheduled transfer that a refresh delays is counted as a collision and tagged, in place of the tag it may have had
since its launch for the far tier; a tag that tells of a later cause of a lower code stays (03 R89; 07 R171; log 71). -/
def execHbmRefresh (c : ChanId) (delayed : List Nat) (s : State) : Host.Outcome State Fault Refusal :=
  .next (s.modChan c (fun k =>
    (delayed.filter (fun u => (k.flight u).isSome)).foldl (fun (k : Channel) u =>
      let k := { k with mem := { k.mem with cnt := { k.mem.cnt with refreshColl := sat32 k.mem.cnt.refreshColl 1 } } }
      match k.flight u with
      | some f => if f.tag = none ∨ f.tag = some .farTier then k.tagFlight u .hbmRefresh else k
      | none => k) k))

/-- Codewords of a page. -/
def pageCodewords : Nat := 32768

/-- Is a page on the scrub's round: every valid C page, and every valid W page when the stop says so (09 R241)? -/
def Mem.scrubbed (m : Mem) (e : PageEnt) : Bool := e.valid && (e.cls == 2 || (e.cls == 1 && m.scrubW))

/-- First page of the round at or above a position; positions count codewords through space 0 and then space 1. -/
def Mem.scrubNext (m : Mem) (at_ : Nat) : Option Nat :=
  let own := fun (off : Nat) (l : SMap PageEnt) => (l.filter (fun (x : Nat × PageEnt) => m.scrubbed x.2)).map (fun x => x.1 + off)
  ((own 0 m.class0 ++ own logicalPages m.class1).find? (fun p => at_ < (p + 1) * pageCodewords)).map
    (fun p => max at_ (p * pageCodewords))

/-- Tier address of a scrub position. -/
def Mem.scrubKey (m : Mem) (at_ : Nat) : Option Place :=
  let p := at_ / pageCodewords
  if p < logicalPages then m.place 0 (at_ * 64) else m.place 1 ((at_ - logicalPages * pageCodewords) * 64)

/-- A write to a codeword that is pending goes first (09 R260). -/
def Mem.writeFirst (m : Mem) (cwi : Nat) : Mem :=
  match m.writePending cwi, m.line (64 * cwi) with
  | true, some l => ({ m with wcb := m.wcb.filter (fun (x : WcbLine) => x.addr != l.addr) }).writeLine l
  | _, _ => m

/-- The scrub has read the codeword at `q`: corrected and written back, or counted and logged without being changed (09 R239,
R241, R260). -/
def Channel.scrubAt (k : Channel) (q : Place) : Channel :=
  let page := k.mem.scrubAt / pageCodewords
  let cwi := q.key / 64
  let m := k.mem.writeFirst cwi
  let w := m.codeword cwi
  let m := (m.indications w).moved q.key 64
  if m.uncorrectable cwi then
    (({ k with mem := { m with cnt := { m.cnt with scrubUncorr := sat32 m.cnt.scrubUncorr 1 } } }).raise
      { cause := .memUncorr, cls := .C, unit := 5, detail := page, ended := some 4, fixedClass := true }).frameErrors
  else if w.wrong = 1 then
    ({ k with mem := (({ m with cnt := { m.cnt with scrubCorr := sat32 m.cnt.scrubCorr 1 } }).corrected cwi).writeBack cwi }).frameErrors
  else ({ k with mem := m }).frameErrors

/-- SCRUB_READ: the next codeword of the round is read; at its end the pass is counted. In standby the memory is in self-refresh and
MCLK is gated, so nothing is read (19 R442). -/
def execScrubRead (c : ChanId) (found : Option Upset) (s : State) : Host.Outcome State Fault Refusal :=
  let k := s.chan c
  if k.st == .init || k.st == .halted || k.st == .holdup || k.mem.scrubRate == 0 || !s.awake || s.power.standby then .next s
  else .next (s.modChan c (fun k =>
    match k.mem.scrubNext k.mem.scrubAt with
    | none =>
      if k.mem.scrubAt = 0 then k
      else { k with mem := { k.mem with scrubAt := 0, scrubPasses := wrap32 (k.mem.scrubPasses + 1) } }
    | some at_ =>
      match k.mem.scrubKey at_ with
      | none => k
      | some q =>
        let k := match found with | some u => k.upset { u with addr := q.key } | none => k
        let k := ({ k with mem := { k.mem with scrubAt := at_ } }).scrubAt q
        { k with mem := { k.mem with scrubAt := at_ + 1 } }))

/-! ### CXL (09 R253, R255) -/

/-- Is any far-tier frame valid? -/
def Mem.farValid (m : Mem) : Bool :=
  m.class1.any (fun (x : Nat × PageEnt) => x.2.valid) || m.pages.any (fun (x : Nat × PageMap) => x.2.valid && x.2.far)

/-- The link to the expander is trained (09 R253). -/
def Mem.cxlTrained (m : Mem) : Bool := m.cxlPresent && m.cxlRate != 3

/-- A lost CXL link: with far frames valid the channel halts and FATAL is set, else the loss is logged (09 R255). -/
def Channel.cxlLost (k : Channel) : Channel :=
  let far := k.mem.farValid
  { k with mem := { k.mem with cxlFatal := k.mem.cxlFatal || far } }.raise
    (if far then { cause := .cxlLink, cls := .H, unit := 6, detail := anyDetail }
     else { cause := .cxlLink, cls := .C, unit := 6, detail := anyDetail, ended := some 1 })

/-- The CXL link of a channel goes down, be its memory in use or not. -/
def Channel.cxlLoss (k : Channel) : Channel :=
  if !k.mem.cxlTrained then k
  else
    ({ k with mem := { k.mem with
        cxlUp := false, cxlRate := 3, cxlWidth := 0, cxlDegraded := true
        cnt := { k.mem.cnt with cxlLink := sat32 k.mem.cnt.cxlLink 1 } } }).cxlLost

/-- After a warm resume the state of the link is read again: one lost while far frames are valid halts the channel (09 R255, R260). -/
def Channel.rereadCxl (k : Channel) : Channel :=
  if k.mem.cxlPresent && k.mem.cxlRate == 3 && k.mem.farValid && k.st != .halted then k.cxlLost else k

/-- CXL_LINK_LOSS (09 R255). -/
def execCxlLinkLoss (c : ChanId) (s : State) : Host.Outcome State Fault Refusal := .next (s.modChan c Channel.cxlLoss)

/-- The port finds a device at channel boot and at channel reset (09 R253). -/
def Mem.trainCxl (m : Mem) (o : CxlObs) : Mem :=
  let ok := o.present && o.type3
  let up := ok && decide (o.rate < 3)
  { m with
    cxlPresent := o.present, cxlUp := up, cxlRate := if o.present then o.rate else 3, cxlWidth := min o.width 16
    cxlTypeOk := ok, cxlDegraded := o.present && (o.rate != 0 || decide (o.width < 16)), cxlFatal := false
    cxlCap := if up then min o.capacity (2 ^ 41) / pageBytes * pageBytes else 0 }

/-! ### The hardware error FIFO (17 R413) -/

/-- ERROR_FIFO_DRAIN: the Chanters take the oldest entry, complete and log it, and start its recovery; the room it leaves takes
the entry of a stalled unit. In Last Breath entries are only logged, until the records are written (17 R424). A halted channel whose log is drained starts the timer of halt policy 1 (17 R408). -/
def execErrorFifoDrain (c : ChanId) (s : State) : Host.Outcome State Fault Refusal :=
  let saving := match s.power.lb with | some b => !b.saved && s.pins.pwrGood && s.pins.refclkL | none => false
  if (s.chan c).st == .init || !(s.awake || saving) then .next s
  else match (s.chan c).err.fifo with
    | [] => .next s
    | x :: rest =>
      let s := s.modChan c (fun k => match k.err.stalled with
        | y :: more => { k with err := { k.err with fifo := rest ++ [y], stalled := more } }
        | [] => { k with err := { k.err with fifo := rest } })
      let named : Bool := x.cause == .collTimeout || x.cause == .digestMismatch || x.cause == .dualMismatch
      let s := s.logError c x (if named then x.detail else noCseq)
      .next (s.modChan c (fun k =>
        if k.st == .halted && k.err.fifo.isEmpty && k.err.stalled.isEmpty && s.dev != 5 then
          { k with err := { k.err with haltTimer := true } }
        else k))

end Sys2Proof.Machine
end

