-- ==== Sys2Proof/Machine/MeterOps.lean ====
section
/-! DEFINITION. The sealed energy meter: intervals and their allocation, job records, events, pulses, seals, the mirror, signed
read-outs, and its part in a hold-up (16). -/

namespace Sys2Proof.Machine

open Sys2Proof

/-- Seconds since the meter's power-up (16 R392). -/
def Meter.seconds (m : Meter) : Nat := m.intervals / 10

/-- The legal total in millijoules (16 R387). -/
def Meter.total (m : Meter) : Nat := m.regs.ein / 1000

/-! ### Events (16 R395) -/

/-- Append an event: a seal event also enters the section that is never overwritten while that has room, and marks every open
record (R394). -/
def Meter.event (m : Meter) (code value : Nat) : Meter :=
  let e : MeterEvent := { eseq := m.nextEseq, pup := m.pup, t := m.seconds, code := code, hasDecl := m.decl != 0, decl := m.decl
                          value := value }
  let isSeal := decide (3 ≤ code ∧ code ≤ 6)
  { m with
    nextEseq := m.nextEseq + 1
    ring := (if m.ring.length < 2048 then m.ring else m.ring.drop 1) ++ [e]
    seals := if isSeal && decide (m.seals.length < 64) then m.seals ++ [e] else m.seals
    records := if isSeal then m.records.map (fun (r : JobRecord) => if r.state = 0 then { r with sealEvent := true } else r)
      else m.records }

/-- The meter logs an event, and subscribers of its log are told. -/
def State.meterEvent (s : State) (code value : Nat) : State :=
  let s := s.modMeter (fun m => m.event code value)
  match s.meter.ring.getLast? with
  | some e => s.notify 0x9005 0 (fun _ => true) (fun _ => e.bytes)
  | none => s

/-! ### Records (16 R390, R391, R402) -/

/-- The open record of a channel. -/
def Meter.openRecord (m : Meter) (chan : Nat) : Option JobRecord := m.records.find? (fun (r : JobRecord) => r.state == 0 && r.chan == chan)

/-- A record is closed with a STATE at the meter's present values. -/
def Meter.close (m : Meter) (st : Nat) (r : JobRecord) : JobRecord :=
  { r with state := st, pupClose := m.pup, tClose := m.seconds, declClose := m.decl, hasClose := m.decl != 0, einClose := m.total }

/-- Open records that satisfy `hit` are closed. -/
def Meter.closeAll (m : Meter) (st : Nat) (hit : JobRecord → Bool) : Meter :=
  { m with records := m.records.map (fun (r : JobRecord) => if r.state = 0 ∧ hit r = true then m.close st r else r) }

/-- A Binding open reaches the meter: a new record, the oldest closed one making room when the ring is full. -/
def State.meterOpen (s : State) (chan job : Nat) : State :=
  let m := s.meter
  let full := decide (8192 ≤ m.records.length)
  let old := m.records.find? (fun (r : JobRecord) => r.state != 0)
  let s := match full, old with
    | true, some r =>
      (s.modMeter (fun m => { m with records := m.records.erase r, lost := m.lost + 1 })).meterEvent 9 r.rseq
    | _, _ => s
  s.modMeter (fun m => { m with
    nextRseq := m.nextRseq + 1
    records := m.records ++ [{ rseq := m.nextRseq, job := job, chan := chan, hasOpen := m.decl != 0, declOpen := m.decl
                               unsealed := m.sealSt == 0, pupOpen := m.pup, tOpen := m.seconds, einOpen := m.total }] })

/-- A Binding message from the Mouthpiece: it arrives only while the link is up (16 R385, R386). -/
def State.meterBind (s : State) (chan job : Nat) (open_ : Bool) : State :=
  if !s.mp.meterLink || !s.meter.powered then s
  else
    let s := s.modMeter (fun m => m.closeAll 1 (fun r => r.chan == chan))
    if open_ then s.meterOpen chan job else s

/-! ### Intervals (16 R387 to R390, R396) -/

/-- The allocation of an interval's shared energy. -/
def allocate (ein : Nat) (ech : List Nat) : List Int :=
  let sum : Nat := ech.foldl (fun (x y : Nat) => x + y) 0
  let shared : Int := (ein : Int) - sum
  let w : List Nat := if sum = 0 then [1, 1, 1, 1] else ech
  let tot : Int := if sum = 0 then 4 else sum
  let a : List Int := (List.range 4).map (fun n => Int.fdiv (shared * ((w.getD n 0 : Nat) : Int)) tot)
  let big := w.idxOf (w.foldl max 0)
  modAt a big (fun (z : Int) => z + (shared - a.foldl (fun (x y : Int) => x + y) 0))

/-- METER_INTERVAL: one 100 ms interval of TCLK with its energies in microjoules. -/
def execMeterInterval (input : Nat) (channels : List Nat) (s : State) : Host.Outcome State Fault Refusal :=
  if !s.meter.powered then .next s
  else .next (s.modMeter (fun m =>
    let ech := (List.range 4).map (fun n => channels.getD n 0)
    let a := allocate input ech
    let regs : MeterRegs :=
      { ein := m.regs.ein + input
        meas := (List.range 4).map (fun n => m.regs.meas.getD n 0 + ech.getD n 0)
        alloc := (List.range 4).map (fun n => m.regs.alloc.getD n 0 + a.getD n 0)
        shared := m.regs.shared + ((input : Int) - (ech.foldl (· + ·) 0 : Nat)) }
    let due := m.pulsesDue + (regs.ein / 360000000 - m.regs.ein / 360000000)
    let start := decide (0 < due) && !m.pulseLow
    { m with
      regs := regs, intervals := m.intervals + 1
      records := m.records.map (fun (r : JobRecord) =>
        if r.state = 0 then { r with meas := r.meas + ech.getD r.chan 0, alloc := r.alloc + a.getD r.chan 0 } else r)
      pulsesDue := if start then due - 1 else due, pulseLow := m.pulseLow || start }))

/-- MTR_PULSE_END: the pulse output returns high. -/
def execMtrPulseEnd (s : State) : Host.Outcome State Fault Refusal :=
  .next (if s.meter.powered then s.modMeter (fun m => { m with pulseLow := false }) else s)

/-- CRYSTAL_STOP (16 R392). -/
def execCrystalStop (s : State) : Host.Outcome State Fault Refusal :=
  if !s.meter.powered || !s.meter.clockOk then .next s
  else .next ((s.meterEvent 0xB 0).modMeter (fun m => { m.closeAll 3 (fun _ => true) with clockOk := false }))

/-! ### Seals (16 R393, R394) -/

/-- The loop opens or closes, with its event. -/
def State.loopTo (s : State) (open_ : Bool) : State :=
  if s.meter.loopOpen = open_ then s
  else (s.modMeter (fun m => { m with loopOpen := open_ })).meterEvent (if open_ then 3 else 4) 0

/-- SEAL_LOOP_SAMPLE: one reading of the loop resistance. -/
def execSealLoopSample (ohms : Nat) (s : State) : Host.Outcome State Fault Refusal :=
  if !s.meter.powered then .next s
  else
    let first := decide (s.meter.firstMs < 10)
    let high := decide (10000 < ohms)
    let low := decide (ohms ≤ 100)
    let s := s.modMeter (fun m => { m with
      highMs := if high then m.highMs + 1 else 0, nonLowMs := if low then 0 else m.nonLowMs + 1
      lowMs := if low then m.lowMs + 1 else 0
      firstMs := min 10 (m.firstMs + 1), firstLow := if m.firstMs < 10 then m.firstLow && low else m.firstLow })
    let m := s.meter
    if m.firstMs < 10 then .next s
    else if first then .next (s.loopTo (!m.firstLow))
    else if 10 ≤ m.highMs ∨ 1000 ≤ m.nonLowMs then .next (s.loopTo true)
    else if 10 ≤ m.lowMs then .next (s.loopTo false)
    else .next s

/-- The wire is found broken: seal state 2 for good. -/
def State.breakSeal (s : State) : State :=
  if s.meter.sealSt = 2 then s else (s.modMeter (fun m => { m with sealSt := 2 })).meterEvent 5 0

/-- SEAL_BROKEN (16 R394): while powered at once, else at the next power-up. -/
def execSealBroken (s : State) : Host.Outcome State Fault Refusal := .next (if s.meter.powered then s.breakSeal else s)

/-- SEALED (16 R393): the authority seals an unsealed meter through the configuration port, once. -/
def execSealed (s : State) : Host.Outcome State Fault Refusal :=
  if s.meter.sealSt != 0 || !s.meter.powered then .next s
  else .next (((s.meterEvent 7 0).modMeter (fun m => { m with sealSt := 1 })).meterEvent 6 0)

/-! ### The mirror and read-outs (16 R385, R397, R398) -/

/-- METER_POLL: whether the link answers, and when it does the mirror. -/
def execMeterPoll (linkUp : Bool) (s : State) : Host.Outcome State Fault Refusal :=
  if !s.mp.running then .next s
  else
    let up := linkUp && s.meter.powered
    .next (s.modMp (fun m => { m with meterLink := up, mirror := if up then s.meter else m.mirror }))

/-- The 80 bytes of a job record (16 R391). -/
def JobRecord.bytes (r : JobRecord) : List Byte :=
  leBytes 4 r.rseq ++ leBytes 2 (r.job % 4096 + 4096 * r.chan) ++ [byteOf r.state,
    byteOf (bit r.hasOpen + 2 * bit r.hasClose + 4 * bit r.unsealed + 8 * bit r.sealEvent)]
    ++ leBytes 4 r.pupOpen ++ leBytes 4 r.tOpen ++ leBytes 4 r.pupClose ++ leBytes 4 r.tClose ++ leBytes 8 r.declOpen
    ++ leBytes 8 r.declClose ++ leBytes 8 (r.meas / 1000) ++ leBytes 8 (ofSigned 64 (Int.fdiv r.alloc 1000))
    ++ leBytes 8 r.einOpen ++ leBytes 8 r.einClose ++ leBytes 8 0

/-- The 72 bytes of 0x9003 (16 R389). -/
def Meter.channelBytes (m : Meter) : List Byte :=
  ((List.range 4).map (fun n => leBytes 8 (m.regs.meas.getD n 0 / 1000))).flatten
    ++ ((List.range 4).map (fun n => leBytes 8 (ofSigned 64 (Int.fdiv (m.regs.alloc.getD n 0) 1000)))).flatten
    ++ leBytes 8 (ofSigned 64 (Int.fdiv m.regs.shared 1000))

/-- Records that match a job filter. -/
def Meter.matching (m : Meter) (filter : Nat) : List JobRecord :=
  m.records.filter (fun (r : JobRecord) => filter == 0xFFFF || r.job == filter)

/-- The signed read-out (16 R398). -/
def Meter.readOut (m : Meter) (nonce : List Byte) (filter : Nat) : List Byte :=
  let rs := m.matching filter
  let es := m.seals ++ m.ring
  let body := leBytes 4 0x4D545645 ++ leBytes 2 1 ++ leBytes 2 1634 ++ leBytes 8 Config.meterSerial
    ++ slice Config.meterLegal 32 64 ++ fitTo 32 nonce ++ leBytes 2 filter ++ [byteOf m.sealSt, byteOf (bit (m.decl != 0))]
    ++ leBytes 4 m.pup ++ leBytes 4 m.seconds ++ leBytes 8 m.decl ++ leBytes 8 m.total ++ m.channelBytes
    ++ leBytes 4 rs.length ++ leBytes 4 ((rs.map JobRecord.rseq).foldl max 0)
    ++ Hash.shake512 ((rs.map JobRecord.bytes).flatten) ++ leBytes 4 es.length ++ Hash.shake512 ((es.map MeterEvent.bytes).flatten)
  body ++ leBytes 2 1280 ++ fitTo 1280 (Config.meterSign body)

/-- READOUT_COMPLETE: the read-out arrives, is kept for its session, and the nonce write is answered OK. -/
def execReadoutComplete (s : State) : Host.Outcome State Fault Refusal :=
  if !s.mp.meterLink || !s.mp.running || s.power.lb.isSome then .next s
  else match s.meter.readouts with
    | [] => .next s
    | r :: rest =>
      let b := s.meter.readOut r.nonce r.filter
      let s := s.modMeter (fun m => { m with readouts := rest })
      .next (match s.session? r.session with
        | some _ => (s.modSession r.session (fun x => { x with readout := some b })).respond
            { session := r.session, txid := r.txid, op := r.op, index := 0x9006 }
        | none => s)

/-! ### Hold-up and power-up (16 R400, R401) -/

/-- Freeze: the registers and the open records are kept in a signed snapshot; a read-out being built is dropped (R402). -/
def State.meterFreeze (s : State) : State :=
  if !s.meter.powered then s
  else
    (s.modMeter (fun m => { m with
      readouts := []
      snap := some { regs := m.regs, opens := m.records.filter (fun (r : JobRecord) => r.state == 0), t := m.seconds } })).meterEvent
      2 s.meter.total

/-- The device resumes: the records stay open. -/
def State.meterResume (s : State) : State :=
  if !s.meter.powered then s else (s.modMeter (fun m => { m with snap := none })).meterEvent 0xA s.meter.total

/-- Records left open by a power loss are closed: from the snapshot with STATE 2, or with STATE 3 when its signature fails; with no
snapshot, from the interval state (16 R401). -/
def Meter.closeLost (m : Meter) (snapshotOk : Bool) : Meter :=
  match m.snap with
  | some x =>
    if snapshotOk then
      let back := fun (r : JobRecord) => (x.opens.find? (fun (y : JobRecord) => y.rseq == r.rseq)).getD r
      let m' : Meter := { m with regs := x.regs, intervals := 10 * x.t }
      { m' with records := m.records.map (fun (r : JobRecord) => if r.state = 0 then m'.close 2 (back r) else r), snap := none }
    else { m.closeAll 3 (fun _ => true) with snap := none }
  | none => m.closeAll 2 (fun _ => true)

/-- METER_POWER_UP: the power-up number rises, records left open are closed, and the break wire is read. -/
def execMeterPowerUp (wireIntact snapshotOk : Bool) (s : State) : Host.Outcome State Fault Refusal :=
  if s.meter.powered || !s.power.on then .next s
  else
    let failed := s.meter.snap.isSome && !snapshotOk
    let s := s.modMeter (fun m => { m.closeLost snapshotOk with
      powered := true, pup := m.pup + 1, intervals := 0, decl := 0, readouts := [], clockOk := true
      highMs := 0, nonLowMs := 0, lowMs := 0, firstMs := 0, firstLow := true, pulseLow := false })
    let s := s.meterEvent 1 s.meter.total
    let s := if failed then s.meterEvent 0xC 0 else s
    .next (if wireIntact then s else s.breakSeal)

end Sys2Proof.Machine
end

