-- ==== Sys2Proof/Machine/Security.lean ====
section
/-! DEFINITION. The security engine: image checks and firmware slots, what the boot ROM does, fuses, the measured log and weight
load windows, writes by host peers, bounce records, and the attestation report (13 R344 to R347; 15). -/

namespace Sys2Proof.Machine

open Sys2Proof

/-! ### Images (15 R370 to R373) -/

/-- 0x1018.02 (15 R501). -/
def productCode : Nat := 0x00060624

/-- A public key and signature block: the key, a length of 1,280, and the signature over `msg`. -/
def signedBy (pub sigBlock msg : List Byte) : Bool :=
  fieldLe sigBlock 0 2 == 1280 && Config.falconVerify pub msg (slice sigBlock 2 1280)

/-- Result code of the image check, steps 1 to 7 (15 R371). -/
def checkImage (f : Fuses) (b : List Byte) : Nat :=
  let n := fieldLe b 12 4
  let flags := fieldLe b 16 4
  let op := bitOf flags 0
  let v := 128 + n
  let o := v + 3075
  let vpub := slice b v 1793
  let opub := slice b o 1793
  let comp := byteAt b 6
  if fieldLe b 0 4 ≠ 0x57465645 ∨ fieldLe b 4 2 ≠ 1 ∨ comp = 0 ∨ 3 < comp ∨ 64 < byteAt b 7 ∨ n = 0 ∨ 1040384 < n ∨ 1 < flags
      ∨ allZero (slice b 20 12) = false ∨ allZero (slice b 96 32) = false
      ∨ b.length ≠ o + (if op then 3075 else 0) then 0x01
  else if fieldLe b 8 4 ≠ productCode then 0x02
  else if byteAt b 7 < f.minSvn then 0x03
  else if Hash.shake512 vpub ≠ Config.vendorDigest then 0x04
  else if !signedBy vpub (slice b (v + 1793) 1282) (b.take 128) then 0x05
  else
    let opSigned := signedBy opub (slice b (o + 1793) 1282) (b.take 128 ++ slice b v 3075)
    let opOk := match f.opSlot with
      | some d => op && Hash.shake512 opub == d && opSigned
      | none => !op || opSigned
    if !opOk then 0x06
    else if Hash.shake512 (slice b 128 n) ≠ slice b 32 64 then 0x07
    else 0x00

/-- The digest of the operator key of an image's operator block, if it carries one (15 R370). -/
def imageCosigner (b : List Byte) : Option (List Byte) :=
  if bitOf (fieldLe b 16 4) 0 then some (Hash.shake512 (slice b (128 + fieldLe b 12 4 + 3075) 1793)) else none

/-- The slot that a checked image fills. -/
def Slot.ofImage (b : List Byte) (stored : Bool) : Slot :=
  { present := stored, factory := false, svn := byteAt b 7, digest := slice b 32 64, count := fieldLe b 134 2, cosigner := imageCosigner b }

/-- An image is staged into its component's inactive slot; gives the result code (15 R373, R371 step 8). -/
def State.stageImage (s : State) (b : List Byte) (stored : Bool) : Nat × State :=
  let r := checkImage s.fuses b
  let code := if r = 0 && !stored then 0x09 else r
  let i := byteAt b 6 - 1
  let slot := Slot.ofImage b stored
  let put := fun (x : Component) => if x.activeB then { x with slotA := slot } else { x with slotB := slot }
  if byteAt b 6 = 0 ∨ 3 < byteAt b 6 then (code, s)
  else if r ≠ 0 then (code, s.modComp i (fun x => { x with lastResult := code }))
  else (code, s.modComp i (fun x =>
    { put x with pending := stored, armed := false, taken := [false, false, false, false], lastResult := code }))

/-- Activation of a component is asked for (15 R373). -/
def State.arm (s : State) (i : Nat) : State := s.modComp i (fun x => if x.pending then { x with armed := true } else x)

/-- A channel's reset makes it run the pending Chanter image; when every channel runs it, its slot is the active one. -/
def State.takeChanterImage (s : State) (c : ChanId) : State :=
  s.modComp 1 (fun x =>
    if x.pending && x.armed then
      let x := { x with taken := setAt x.taken c.val true }
      if x.taken.all id then x.switch else x
    else x)

/-! ### The boot ROM (15 R372; 17 R412) -/

/-- Body digest of the image in a slot of component `i`. -/
def Slot.bodyDigest (x : Slot) (i : Nat) : List Byte := fitTo 64 (if x.factory then Config.factoryDigest i else x.digest)

/-- Entry count of the Étude pack in a slot. -/
def Slot.entries (x : Slot) : Nat := if x.factory then Config.factoryEntries % 1024 + 1 else x.count

/-- The operator key whose block the image in a slot of component `i` carries, by its digest. -/
def Slot.cosignedBy (x : Slot) (i : Nat) : Option (List Byte) := if x.factory then Config.factoryCosigner i else x.cosigner

/-- The slot a component boots from: the active one when its image passes, else the other when that passes. An image passes with its
security version and, once the operator slot is programmed, with the operator's block (15 R371, R372). -/
def bootSlot (f : Fuses) (bad : List (Nat × Bool)) (i : Nat) (x : Component) : Option (Slot × Bool) :=
  let ok := fun (sl : Slot) (isB : Bool) => sl.present && decide (f.minSvn ≤ sl.svn)
    && (f.opSlot.isNone || f.opSlot == sl.cosignedBy i) && !bad.contains (i, isB)
  if ok x.active x.activeB then some (x.active, false)
  else if ok x.inactive (!x.activeB) then some (x.inactive, true)
  else none

/-- The ROM checks and measures the three components and the key store checks itself; a failure of class F leaves the device in
FAULT. -/
def State.bootRom (s : State) (o : BootObs) : State :=
  let s := [0, 1].foldl (fun (s : State) i => s.modComp i Component.switch) s
  let found := (List.range 3).map (fun i => bootSlot s.fuses o.bad i (s.comp i))
  let s := s.modMp (fun m => { m with
    bootable := (found.getD 0 none).isSome
    bootFallback := found.any (fun (x : Option (Slot × Bool)) => match x with | some y => y.2 | none => false)
    bootDigests := (found.zipIdx).map (fun (x : Option (Slot × Bool) × Nat) =>
      match x.1 with | some y => y.1.bodyDigest x.2 | none => List.replicate 64 0#8) })
  let s := if found.any Option.isNone then (s.logMp .bootImage .F 10 0 4).deviceFault else s
  if o.keystoreBad then (s.logMp .keystore .F 12 0 4).deviceFault else s

/-! ### Weight load windows and host writes (15 R379, R380; 13 R344, R346) -/

/-- WEIGHT_MEASURE_DONE: the range has been read back; an uncorrectable error ends the measurement without an entry. -/
def execWeightMeasureDone (c : ChanId) (s : State) : Host.Outcome State Fault Refusal :=
  let k := s.chan c
  if k.meas.winState != 2 then .next s
  else
    let (f, m) := k.mem.load 0 k.meas.winAddr k.meas.winLen
    let s := s.modChan c (fun k => ({ k with
      mem := m
      meas := { (if f.bad then k.meas else k.meas.add 2 0 k.meas.winLen (Hash.shake512 f.bytes)) with winState := 0 } }).frameErrors)
    .next (if f.bad then s.firmwareError c .memUncorr .S 2 0 (k.meas.winAddr / pageBytes) else s)

/-- A write by a host peer is refused: counted or flagged, and logged outside the step (13 R344, 15 R379). -/
def State.refuseHost (s : State) (c : ChanId) (cause : Cause) : State := s.firmwareError c cause .S 9 0 anyDetail

/-- The pages a range touches that are of class W. -/
def Mem.touchesW (m : Mem) (addr n : Nat) : Bool :=
  n != 0 && (List.range ((addr + n - 1) / pageBytes - addr / pageBytes + 1)).any (fun i =>
    let e := SMap.get {} m.class0 (addr / pageBytes + i)
    e.valid && e.cls == 1)

/-- HOST_RDMA_WRITE: a write of plain data to space 0. In confidential mode it is refused; class W pages are open only inside the
weight load window; an invalid or locked page is an address fault. -/
def execHostRdmaWrite (c : ChanId) (addr : Nat) (data : List Byte) (s : State) : Host.Outcome State Fault Refusal :=
  let k := s.chan c
  if !s.mp.running || !s.mp.host.up || !s.awake || k.st == .init || k.st == .halted || data.isEmpty then .next s
  else if s.mram.conf then
    let s := s.modChan c (fun k => { k with svc := { k.svc with bounceRefused := k.svc.bounceRefused + 1 } })
    .next (s.refuseHost c .confRefused)
  else
    let n := data.length
    let inWindow := k.meas.winState == 1 && decide (k.meas.winAddr ≤ addr ∧ addr + n ≤ k.meas.winAddr + k.meas.winLen)
    if k.bind.bound && k.mem.touchesW addr n && !inWindow then
      let s := s.modChan c (fun k => { k with meas := { k.meas with refused := true } })
      .next (s.refuseHost c .measRefused)
    else if k.mem.mapped true 0 addr n then .next (s.modChan c (fun k => { k with mem := k.mem.store 0 addr data }))
    else .next (s.modChan c (fun k => k.addrFault 9 0 addr))

/-- BOUNCE_RECORD_RECEIVE: a record with a good tag, a rising sequence number and a plaintext of at most 1 MiB reaches its bounce
buffer; any other is refused, counted and logged. -/
def execBounceRecordReceive (c : ChanId) (record : List Byte) (s : State) : Host.Outcome State Fault Refusal :=
  let k := s.chan c
  if !s.mp.running || !s.mp.host.up || !s.awake || !s.mram.conf || k.st == .init || k.st == .halted then .next s
  else
    let h := record.take 16
    let seq := fieldLe h 0 8
    let len := fieldLe h 8 4
    let body := (record.drop 16).take (record.length - 32)
    let tag := record.drop (record.length - 16)
    let fresh := match k.svc.bounceSeq with | some n => decide (n < seq) | none => true
    let plain := match k.svc.bounceKeys with
      | some keys => if 32 ≤ record.length ∧ len = body.length ∧ len ≤ 1048576 ∧ fresh then
          Hash.gcmOpen keys.1 (List.replicate 4 0#8 ++ leBytes 8 seq) h body tag else none
      | none => none
    match plain with
    | some d => .next (s.modChan c (fun k => { k with svc := { k.svc with
        bounceSeq := some seq, bounce := SMap.put k.svc.bounce (fieldLe h 12 4) d } }))
    | none =>
      let s := s.modChan c (fun k => { k with svc := { k.svc with bounceRefused := k.svc.bounceRefused + 1 } })
      .next (s.refuseHost c .confRefused)

/-! ### Security state and attestation (15 R368, R381, R382) -/

/-- An image is staged and not active. -/
def State.updPending (s : State) : Bool := s.mram.comps.any (fun (x : Component) => x.pending)

/-- 0x8000. -/
def State.secState (s : State) : Nat :=
  bit s.fuses.prod + 2 * bit s.fuses.debugClosed + 4 * bit s.fuses.opSlot.isSome + 8 * bit s.mram.conf
    + 16 * bit (s.mp.mirror.sealSt == 1) + 32 * bit s.updPending + 64 * bit s.mp.bootFallback
    + 128 * bit (chans.any (fun c => (s.chan c).meas.refused)) + 256 * s.fuses.minSvn

/-- 0x8007.01. -/
def State.bootBytes (s : State) : List Byte :=
  (s.mp.bootDigests.map (fitTo 64)).flatten ++ slice Config.meterLegal 32 64

/-- The first 96 bytes of a channel section. -/
def State.sectionHead (s : State) (c : ChanId) : List Byte :=
  let k := s.chan c
  [byteOf (ChState.code k.st), byteOf (bit k.bind.bound + 2 * bit k.meas.dropped + 4 * bit k.meas.refused)] ++ leBytes 2 k.bind.job
    ++ leBytes 4 (s.store c).epoch ++ leBytes 4 k.meas.nScore ++ leBytes 4 k.meas.nWeight ++ fitTo 64 k.meas.chain ++ leBytes 16 0

/-- A channel section of a report. -/
def State.reportSection (s : State) (c : ChanId) : List Byte :=
  let l := (s.chan c).meas.log
  s.sectionHead c ++ fitTo 1280 (((l.drop (l.length - 16)).map MeasEntry.bytes).flatten)

/-- Bytes [5887:0] of a report as its nonce is accepted, COUNTER still 0. -/
def State.reportBody (s : State) (x : Session) (nonce : List Byte) : List Byte :=
  let tenant := x.role == .tenant
  leBytes 4 0x54415645 ++ leBytes 2 1 ++ leBytes 2 7170 ++ leBytes 8 Config.serial ++ (Hash.shake512 Config.identityPub).take 32
    ++ leBytes 2 s.pins.straps ++ leBytes 2 0 ++ leBytes 4 (if s.fuses.prod then Config.keyDomain else 0) ++ leBytes 4 s.secState
    ++ [byteOf (bit s.mram.conf), byteOf (bit tenant)] ++ leBytes 2 0 ++ leBytes 8 0 ++ leBytes 8 s.mp.declTime ++ fitTo 32 nonce
    ++ leBytes 16 0 ++ s.bootBytes
    ++ (chans.map (fun c => if !tenant || x.seesChannel (s.chan c) then s.reportSection c else List.replicate 1376 0#8)).flatten

/-- ATTESTATION_SIGNED: the first report waiting is signed, COUNTER rises, and its session's write is answered OK; a report whose
session has closed is discarded (15 R383). -/
def execAttestationSigned (s : State) : Host.Outcome State Fault Refusal :=
  if !s.mp.running || s.power.lb.isSome then .next s
  else match s.mp.reports with
    | [] => .next s
    | r :: rest =>
      let n := s.mram.counter + 1
      let b := patch r.body 64 (leBytes 8 n) ++ leBytes 2 1280
      let rep := b ++ fitTo 1280 (Config.identitySign b)
      let s := { (s.modMp (fun m => { m with reports := rest })) with mram := { s.mram with counter := n } }
      .next (match s.session? r.session with
        | some _ => (s.modSession r.session (fun x => { x with report := some rep })).respond
            { session := r.session, txid := r.txid, op := r.op, index := 0x8001 }
        | none => s)

end Sys2Proof.Machine
end

