-- ==== Sys2Proof/Machine/Binding.lean ====
section
/-! DEFINITION. Job binding and unbinding, the path plan, accepting a score image, and starting a score (01 R17; 07 R168, R185 to
R188, R234; 09 R243, R244; 12 R319, R320; 21 R477, R484, R485). -/

namespace Sys2Proof.Machine

open Sys2Proof

/-! ### Job binding (21 R477, R484) -/

/-- The binding epoch rises; it does not wrap (09 R243). -/
def ChanStore.raiseEpoch (t : ChanStore) : ChanStore := { t with epoch := min (t.epoch + 1) 0xFFFFFFFF }

/-- Active and spare Reeds that the spare policy sets (01 R17). -/
def State.sparePolicy (s : State) (span : Nat) : Nat × Nat := if s.mram.largeJob ≤ span then (60, 8) else (64, 4)

/-- What a job binding and an unbinding both reset: hold counters, the weight window and the measured log, the per-layer table
and what the step under way knew of it, and the memory, collective and port counters (21 R484). -/
def Channel.resetForJob (k : Channel) (job epoch : Nat) : Channel :=
  { k with
    ww := { k.ww with held := 0, causeBeats := List.replicate 8 0, causeEvents := List.replicate 8 0 }
    tun := { k.tun with
      layers := [], inForce := [], obs := [], saved := none, verdict := none, agreed := none, judged := [], notes := []
      sampled := none, policyRung := 0 }
    mem := { k.mem with cnt := {}, farBytes := 0, corrections := [] }
    coll := { k.coll with cnt := {} }
    ports := k.ports.map (fun (p : Port) => { p with cnt := {} })
    meas := measStart job epoch }

/-- A Reed and its Valve as a new binding finds them: SRAM and program words are zero (06 R143; 09 R244). -/
def Reed.wiped (r : Reed) : Reed :=
  { r.quiet with sram := [], badParity := [], valve := { r.valve with words := [], run := none } }

/-- The channel's own part of a binding: its step state starts at step 0, no key, counter or source of an earlier binding is left,
and nothing written before can be read (05 R128, R135; 08 R209, R211; 09 R243, R244; 10 R275, R278). -/
def Channel.bindTo (k : Channel) (b : Binding) (policy : Nat × Nat) (epoch : Nat) : Channel :=
  let k := k.resetForJob b.job epoch
  { k with
    bind := b, active := policy.1, spares := policy.2
    step := 0, attempt := 0, lastEnd := none, ver := {}, verSnap := none, verRungs := [[], []]
    tun := { k.tun with voidRun := 0, lastRollback := none, rollbackPending := false }
    mem := { k.mem.newEpoch epoch with chest := [], badChest := [], chestWriter := [] }
    reeds := k.reeds.map Reed.wiped
    ports := k.ports.map (fun (p : Port) => { p with pctr := [0, 0, 0, 0], keys := [], keyWait := none })
    paths := { k.paths with srcTable := [] }
    coll := { k.coll with done := [], locate := none, stopAtEnd := false }
    svc := { k.svc with resident := [], fetching := [], lastShard := 0, ckptDue := false, ckptWaiting := false } }

/-- Why a binding is refused in a READY channel: the meter is sealed and its link down (16 R386), or too few healthy Reeds are left
(18 R437). -/
def State.bindForbidden (s : State) (c : ChanId) (b : Binding) : Bool :=
  (s.mp.mirror.sealSt == 1 && !s.mp.meterLink) || decide ((s.healthyReeds c).length < (s.sparePolicy b.span).1)

/-- A job is bound (21 R477): epoch, checkpoint status, channel, slots, and the meter's record. -/
def State.bindJob (s : State) (c : ChanId) (b : Binding) : State :=
  let s := s.modStore c (fun t => { t.raiseEpoch with ckpts := [] })
  let s := s.modChan c (fun k => k.bindTo { b with bound := true } (s.sparePolicy b.span) (s.store c).epoch)
  (s.bindSlots c).meterBind c.val b.job true

/-- Ports in standby: enabled ports return to IDLE and send electrical idle (10 R282; 19 R442). -/
def Channel.idlePorts (k : Channel) : Channel :=
  portIds.foldl (fun (k : Channel) p => k.modPort p (fun q =>
    match q.st with
    | .disabled => q
    | _ => { q.discard with st := .idle, wasDown := false, keys := [], partner := 0 })) k

/-- The path plan and everything it gave is cleared, and K_job with every K_s is erased (12 R320; 15 R367). Ports keep their state, and
what still arrives is discarded (10 R287). -/
def Channel.clearPlan (k : Channel) : Channel :=
  { k with ports := k.ports.map (fun (q : Port) => { q with keys := [], keyWait := none, recvs := [], sends := [], opens := [] })
           paths := { k.paths with plan := none, disc := {}, kjob := none, window := 5000 }
           live := { k.live with routes := [], isolate := [] }, shadow := { k.shadow with routes := [], isolate := [] } }

/-- LOCK of every page that holds a score image is cleared or set (09 R234). -/
def Mem.lockImage (m : Mem) (sc : Option Score) (lock : Bool) : Mem :=
  match sc with
  | none => m
  | some x =>
    if x.length = 0 then m
    else
      let first := x.addr / pageBytes
      let pages := (List.range ((x.addr + x.length - 1) / pageBytes - first + 1)).foldl (fun (a : SMap PageMap) i =>
        SMap.set {} a (first + i) { SMap.get {} a (first + i) with lock := lock }) m.pages
      { m with pages := pages }

/-- The channel's own part of an unbinding (21 R477, R484): the score goes with the maps, the services and the plan. -/
def Channel.unbindJob (k : Channel) (epoch : Nat) : Channel :=
  let k := (k.resetForJob k.bind.job epoch).clearPlan.dropCkpt
  { k with
    bind := { k.bind with bound := false }, st := .ready, score := none, loading := none
    load := if k.load = 1 then 0 else k.load, resume := false
    tokens := [], scalarTok := false, flights := [], scalarQ := [], stalls := []
    mem := { k.mem.clearMaps with wcb := [], scrubAt := 0 }
    svc := { bounceKeys := k.svc.bounceKeys, bounceSeq := k.svc.bounceSeq, bounceRefused := k.svc.bounceRefused
             bounce := k.svc.bounce } }

/-- A job is unbound (21 R477); a checkpoint still being written is given up. -/
def State.unbindJob (s : State) (c : ChanId) : State :=
  let s := s.abandonCkpt c
  (s.modChan c (fun k => k.unbindJob (s.store c).epoch)).meterBind c.val 0 false

/-! ### The path plan (12 R319, R320) -/

/-- The plan's 64 bytes as read: NONCE reads as zeros. -/
def Plan.bytes (p : Plan) : List Byte :=
  leBytes 2 p.job ++ [byteOf (bit p.fallback), 0#8] ++ leBytes 4 p.seq ++ List.replicate 24 0#8
    ++ (p.ports.map (fun (e : PlanPort) => leBytes 4 (e.partner + e.role * 2 ^ 17))).flatten

/-- A plan from its bytes. -/
def Plan.ofBytes (b : List Byte) : Plan :=
  { job := fieldLe b 0 2 % 4096, fallback := bitOf (byteAt b 2) 0, seq := fieldLe b 4 4, nonce := slice b 8 16
    ports := (List.range 8).map (fun p =>
      { partner := fieldLe b (32 + 4 * p) 4 % 2 ^ 17, role := bitsOf (fieldLe b (32 + 4 * p) 4) 18 17 }) }

/-- Why a plan write is out of range (12 R320). -/
def Channel.planBad (k : Channel) (w : Self) (b : List Byte) : Bool :=
  let p := Plan.ofBytes b
  let has := fun (r : Nat) => (p.ports.filter (fun (e : PlanPort) => e.role == r)).length
  let reserved := fieldLe b 0 2 / 4096 != 0 || 1 < byteAt b 2 || byteAt b 3 != 0 || !allZero (slice b 24 8)
    || (List.range 8).any (fun i => fieldLe b (32 + 4 * i) 4 / 2 ^ 19 != 0)
  (p.job != 0 && !(k.bind.bound && k.bind.job == p.job)) || (p.job == 0 && (k.bind.bound || has 1 != 0 || has 2 != 0))
    || 1 < has 2 || (has 2 != 0 && k.bind.span ≤ 256)
    || (p.ports.zipIdx).any (fun x => x.1.role != 0 && (!bitOf k.paths.enable x.2 || x.1.partner % 16384 == w.pos + 4096 * w.chan))
    || reserved

/-- A plan takes force: K_job is derived, and discovery restarts on every port (12 R320; 15 R367; 10 R284). While the device
stands by, ports stay idle (19 R442). -/
def Channel.applyPlan (k : Channel) (p : Plan) (standby : Bool) : Channel :=
  let kj := if p.job = 0 then none else some (jobKey p.job p.nonce)
  let same := k.paths.kjob == kj
  let k := { k with
    paths := { k.paths with plan := some p, kjob := kj }
    ports := k.ports.map (fun (q : Port) => { q with wasDown := false, keys := if same then q.keys else [] }) }
  if standby then ({ k with paths := { k.paths with disc := { status := 1, windowOpen := true } } }).idlePorts
  else k.startDiscovery

/-! ### Scores (07 R185, R186, R188) -/

/-- The loader accepts a score image: it replaces the old one, its pages are locked, and its digest is measured. -/
def Channel.acceptScore (k : Channel) (x : Score) : Channel :=
  { k with
    score := some x, load := 2, loading := none, st := .loaded
    signs := [], mem := (k.mem.lockImage k.score false).lockImage (some x) true
    tokens := [], scalarTok := false, scalarQ := []
    meas := k.meas.add 1 0 x.length x.digest
    ww := { k.ww with phrase := 0, beat := 0, boundaryDue := false, started := false, stepPhrase := x.nextStart 0, hold := none } }

/-- The score starts from phrase 0 with every token clear (07 R168, R187). -/
def State.startScore (s : State) (c : ChanId) : State :=
  let s := s.rebindSlots c
  (s.modChan c (fun k => { k with
    st := .run, tokens := [], scalarTok := false
    ww := { k.ww with phrase := 0, beat := 0, boundaryDue := true, started := true, hold := none } })).settle

/-- A restart that waited for its score goes on: the checkpoint's objects go to the tensors that the score names (log 48). -/
def State.resumeRestart (s : State) (c : ChanId) : State :=
  match (s.chan c).svc.restart with
  | some r =>
    if r.ready && (s.chan c).score.isSome then
      ((s.modChan c (fun k => { (k.placeCkpt r.objects) with svc := { k.svc with restart := none } })).startStep c).rollbackDone c
    else s
  | none => s

/-- RESTART_FAILED: the channel waits for the host (13 R343). -/
def State.restartFailed (s : State) (c : ChanId) : State := s.firmwareError c .restartFailed .J 9 0 anyDetail

end Sys2Proof.Machine
end

