-- ==== Sys2Proof/Machine/Startup.lean ====
section
/-! DEFINITION. Start-up and resets: device-wide resets, the straps, the Mouthpiece's firmware and its restarts, channel resets and
channel boots, and the restart without a host after a power loss (12 R317, R318; 17 R408, R410, R411; 18 R432; 19 R451,
R453; 20; 22 R490). -/

namespace Sys2Proof.Machine

open Sys2Proof

/-! ### Channel reset (20 R467, R468) -/

/-- The receive buffer of an endpoint is emptied when a side of its crossing is reset; what was under way in it is discarded and counted
(01 R25; log 75). -/
def HostPort.empty (h : HostPort) (e : Nat) : HostPort :=
  { h with fill := setAt h.fill e 0
           cuts := if h.fill.getD e 0 = 0 then h.cuts else setAt h.cuts e (sat32 (h.cuts.getD e 0) 1) }

/-- A port of a channel that is reset: one that was UP or DARK goes DOWN (10 R283), and counters are clear (10 R286). -/
def Port.reset (q : Port) : Port :=
  match q.st with
  | .up | .dark | .down => { st := .down, wasDown := true }
  | _ => {}

/-- The stops and units of a channel at their defaults. The error log and the Étude result log stay, Reeds stay due, and cap bin and
thermal bin are not the channel's own (18 R439; 19 R445; 22 R497). -/
def Channel.resetFresh (k : Channel) (epoch : Nat) : Channel :=
  { mem := { epoch := epoch }, ports := k.ports.map Port.reset
    err := { log := k.err.log }, etude := { log := k.etude.log, queue := k.etude.queue }
    bins := { cap := k.bins.cap, thermal := k.bins.thermal, sinceRise := k.bins.sinceRise, coolFor := k.bins.coolFor
              sinceFall := k.bins.sinceFall }
    meas := measStart 0 epoch }

/-- A channel reset: whatever was under way is given up, the epoch rises, a pending Chanter image is taken, the meter learns that no
job is bound, and the channel boots (15 R373, R377; 16 R390; 18 R439; 20 R468). -/
def State.channelReset (s : State) (c : ChanId) : State :=
  let s := (s.abandonRun c).abandonCkpt c
  let s := (s.finishErrs c (fun e => ErrClass.code e.cls == 5) 4).finishErrs c (fun _ => true) 3
  let bound := (s.chan c).bind.bound
  let s := s.modStore c ChanStore.raiseEpoch
  let s := (s.modChan c (fun k => k.resetFresh (s.store c).epoch)).takeChanterImage c
  let s := s.modMp (fun m => { m with host := m.host.empty (c.val + 1) })
  (if bound then s.meterBind c.val 0 false else s).settle

/-- HALT_RESET_TIMER (17 R408): under halt policy 1 the channel is reset once its log has been drained for 100 ms. -/
def execHaltResetTimer (c : ChanId) (s : State) : Host.Outcome State Fault Refusal :=
  if (s.chan c).st == .halted && (s.chan c).err.haltTimer && s.mram.haltPolicy == 1 && s.dev != 5 && s.awake then
    .next (s.channelReset c)
  else .next s

/-! ### Device-wide resets (20 R467, R470; 21 R484) -/

/-- 0x7006 after power or a reset has ended a hold-up (19 R451, R453; 20 R470; 22 R490). -/
def Holdup.lost (h : Holdup) (lb : Option LastBreath) : Holdup :=
  match lb with
  | none => h
  | some b => { h with outcome := if b.saved then 2 else 3, tHold := 0xFFFFFFFF }

/-- Entries are appended to a log again with the sequence numbers they had. -/
def ErrLog.reappend (l : ErrLog) (xs : List ErrEntry) : ErrLog :=
  let l := xs.foldl ErrLog.append l
  match xs.getLast? with
  | some e => { l with seq := (e.seq + 1) % 65536 }
  | none => l

/-- What a device-wide reset leaves of a channel: a channel at its defaults, and after a hold-up that lost power the saved log
entries and what its error FIFO held (19 R453; 21 R484). -/
def freshChannel (t : ChanStore) (thermLow followed : Bool) : Channel :=
  let log := match followed, t.record with
    | true, some r => ({} : ErrLog).reappend r.log
    | _, _ => {}
  let fifo := match followed, t.record with
    | true, some r => r.fifo
    | _, _ => []
  { mem := { epoch := t.epoch }, meas := measStart 0 t.epoch, err := { log := log, fifo := fifo }, bins := { thermal := if thermLow then 15 else 0 } }

/-- A device-wide reset: every stop but the RWS ones takes its default, every epoch rises, HBM is lost. `cold` is a reset that
counts as a power-up after a loss of power. -/
def State.deviceReset (s : State) (cold : Bool) : State :=
  let lb := s.power.lb
  let followed := match lb with | some b => b.saved | none => false
  let s := chans.foldl (fun (s : State) c => (s.abandonRun c).abandonCkpt c) s
  let s := chans.foldl (fun (s : State) c =>
    if !cold && (s.chan c).bind.bound then s.meterBind c.val 0 false else s) s
  let s := chans.foldl (fun (s : State) c => s.modStore c (fun t =>
    let t := t.raiseEpoch
    if cold then t.discardCkpts else t)) s
  let mpLog := match followed, s.mram.mpRecord with
    | true, some r => ({} : ErrLog).reappend r.log
    | _, _ => {}
  { s with
    pins := { pwrGood := true, resetHeld := s.pins.resetHeld, refclkL := s.pins.refclkL, refclkC := s.pins.refclkC
              psagLow := s.pins.psagLow, thermLow := s.pins.thermLow }
    power := { vin := s.power.vin, input := s.power.input, ov := s.power.ov, ovHold := s.power.ovHold
               ovEvents := s.power.ovEvents, lowv := s.power.lowv }
    dev := 0
    mp := { log := mpLog, sent := s.mp.sent }
    mram := { s.mram with holdup := s.mram.holdup.lost lb }
    ch := Vector.ofFn (fun c => freshChannel (s.store c) s.pins.thermLow followed) }

/-- The device may start from STRAP: it has power and its link clock, and RESET_N is released. -/
def State.released (s : State) : Bool := s.pins.pwrGood && !s.pins.resetHeld && s.pins.refclkL

/-- STRAP begins, and the Mouthpiece ROM checks the images (20 R458, R462). -/
def State.startBoot (s : State) (o : BootObs) : State := if s.released then s.bootRom o else s

/-- POWER_ON (20 R462, R467): PWR_GOOD is asserted. It cannot be asserted while the input stage is held off (22 R498), nor again
once STRAP is over (logs 2, 3). -/
def execPowerOn (o : BootObs) (s : State) : Host.Outcome State Fault Refusal :=
  if s.power.tripped || (s.pins.pwrGood && s.pins.phase != .strap) then .next s
  else
    let s := s.deviceReset true
    .next ({ s with power := { vin := if s.power.vin < 66000 then 72000 else s.power.vin } }.startBoot o)

/-- RESET_N (20 R470): acted on at once, except in a Last Breath before save-complete. -/
def execResetN (s : State) : Host.Outcome State Fault Refusal :=
  if !s.pins.pwrGood || s.pins.resetHeld then .next s
  else
    let s : State := { s with pins := { s.pins with resetHeld := true } }
    match s.power.lb with
    | some b =>
      if b.saved then .next (s.deviceReset true)
      else .next { s with pins := { s.pins with resetDeferred := true } }
    | none => .next (s.deviceReset false)

/-- RESET_N_RELEASE (20 R458): STRAP starts, unless the reset is still deferred. -/
def execResetNRelease (s : State) : Host.Outcome State Fault Refusal :=
  if !s.pins.resetHeld then .next s
  else
    let s : State := { s with pins := { s.pins with resetHeld := false } }
    .next (if s.pins.resetDeferred then s else s.startBoot {})

/-- REFCLK_L_LOSS (22 R490): the module holds itself in reset; this cannot be deferred. -/
def execRefclkLLoss (s : State) : Host.Outcome State Fault Refusal :=
  let s' : State := { s with pins := { s.pins with refclkL := false } }
  if !s.pins.pwrGood || !s.pins.refclkL then .next s'
  else .next (s'.deviceReset s.power.lb.isSome)

/-- REFCLK_L_RETURN (22 R490): the boot starts from STRAP. -/
def execRefclkLReturn (s : State) : Host.Outcome State Fault Refusal :=
  if s.pins.refclkL then .next s
  else .next ({ s with pins := { s.pins with refclkL := true } }.startBoot {})

/-- REFCLK_C_LOSS (22 R490): every CXL link goes down. -/
def execRefclkCLoss (s : State) : Host.Outcome State Fault Refusal :=
  let s : State := { s with pins := { s.pins with refclkC := false } }
  .next (chans.foldl (fun (s : State) c => s.modChan c Channel.cxlLoss) s)

/-- A stop-list restore returns every RWS stop to its default; fuses, firmware, counter, epochs, hold-up record, checkpoint status,
Reed health and bin floors stay (20 R469). -/
def Mram.restored (m : Mram) : Mram :=
  { chan := m.chan.map (fun (t : ChanStore) => { t with trims := List.replicate 68 0, autoRestart := false })
    counter := m.counter, holdup := m.holdup, comps := m.comps, mpRecord := m.mpRecord }

/-! ### Straps (12 R317, R318; 20 R458) -/

/-- STRAP_END: each position bit is the majority of its samples, a tie reading as 0; bit 15 says that the samples of some pin
disagreed. -/
def execStrapEnd (samples : List Nat) (s : State) : Host.Outcome State Fault Refusal :=
  if !s.released || s.pins.phase != .strap then .next s
  else
    let ones := fun (i : Nat) => (samples.filter (fun v => bitOf v i)).length
    let v := (List.range 12).foldl (fun a i => a + (if samples.length < 2 * ones i then 2 ^ i else 0)) 0
    let mixed := (List.range 12).any (fun i => ones i != 0 && ones i != samples.length)
    .next { s with pins := { s.pins with phase := .run, straps := v, unstable := mixed } }

/-! ### The Mouthpiece (17 R411; 20 R461) -/

/-- MP_FIRMWARE_READY: the verified firmware runs, and FNG[7:4] has shown 0xF. -/
def execMpFirmwareReady (s : State) : Host.Outcome State Fault Refusal :=
  if !s.released || s.pins.phase != .run || s.mp.running || !s.mp.bootable || s.power.lb.isSome then .next s
  else .next ({ (s.modMp (fun m => { m with running := true })) with pins := { s.pins with seenF := true } }).settle

/-- The Mouthpiece stops and starts again: its sessions close, its receive buffer is emptied (01 R25), reports are lost, and a checkpoint being written is abandoned and
logged outside the step (14 R355; 17 R411; 15 R373). -/
def State.mpDown (s : State) : State :=
  let s := chans.foldl (fun (s : State) c =>
    match (s.chan c).svc.ckpt with
    | none => s
    | some r => (s.firmwareError c .ckptTarget .S 9 (r.targets.headD 0) anyDetail).abandonCkpt c) s
  s.modMp (fun m => { m with running := false, sessions := [], opens := [], reports := []
                             host := m.host.empty 0 })

/-- 600 s of PCLK, 1.5 GHz (01 R21). -/
def repeatWindow : Nat := 900000000000

/-- A Mouthpiece fault at a PCLK count: MP_RESTART, and at the third restart within 600 s MP_REPEAT (17 R411). -/
def State.mpFault (s : State) (pclk : Nat) : State :=
  if !s.mp.running || !s.released || s.power.lb.isSome then s
  else
    let s := (s.logMp .mpRestart .H 10 pclk 4).mpDown
    let recent := pclk :: s.mp.restarts.filter (fun t => pclk < t + repeatWindow)
    let s := s.modMp (fun m => { m with restarts := recent })
    if 3 ≤ recent.length then (s.logMp .mpRepeat .F 10 pclk 4).deviceFault else s

/-- MP_WATCHDOG (17 R411). -/
def execMpWatchdog (pclk : Nat) (s : State) : Host.Outcome State Fault Refusal := .next (s.mpFault pclk)

/-- MP_TRAP (17 R411). -/
def execMpTrap (pclk : Nat) (s : State) : Host.Outcome State Fault Refusal := .next (s.mpFault pclk)

/-! ### Channel boot (18 R432; 19 R453; 20 R463) -/

/-- Results of the boot set: an entry for each Reed, and one for the other units (18 R432, R438). -/
def State.bootEntries (s : State) (c : ChanId) (o : ChannelBootObs) : State :=
  let entry := fun (s : State) (r : Nat) (fail : Option Nat) =>
    s.etudeEntry c { reed := r, bin := s.effBin c } 0 (if fail.isSome then 1 else 0) (fail.getD 0xFFFF) o.tj
  let s := allReeds.foldl (fun (s : State) r =>
    entry s r ((o.failing.find? (fun (x : Nat × Nat) => x.1 == r)).map Prod.snd)) s
  entry s 0xFF o.otherFail

/-- A column that a boot Étude finds failed: the repair column is mapped in its place, and the Reed is suspect until the mapping is in
use; a second one retires the Reed, or, where healthy Reeds would be short raises the bin floor, and the Reed is tested again (01 R16, R18;
18 R437). -/
def State.bootColumn (s : State) (c : ChanId) (r col : Nat) : State :=
  let suspect := fun (s : State) => s.modHealth c r (fun h => if h.state = 2 then h else { h with state := 1 })
  match (s.health c r).find (some col) with
  | .second =>
    let s := suspect s
    if (s.healthyReeds c).length < (s.chan c).active ∧ (s.store c).binFloor < 15 then
      (s.modStore c (fun t => { t with binFloor := t.binFloor + 1 })).etudeError c .etudeFail .J r 4
    else s.modHealth c r (fun h => { h with state := 2, stressOk := false })
  | _ => (suspect (s.mapColumn c r (some col))).modChan c (fun k =>
    { k with etude := { k.etude with queue := k.etude.queue.filter (· != r) } })

/-- The channel's boot Études and what they find: a failing Reed is suspect and due, a failed column takes the repair column, and
each failure is logged with its action taken (01 R16; 18 R432, R438). -/
def State.bootEtudes (s : State) (c : ChanId) (o : ChannelBootObs) : State :=
  let s := s.bootEntries c o
  let s := o.failing.foldl (fun (s : State) x =>
    if 68 ≤ x.1 then s
    else
      let s := (s.etudeError c .etudeFail .J x.1 4).modStore c ChanStore.discardCkpts
      let s := s.modHealth c x.1 (fun h => if h.state = 0 then { h with state := 1 } else h)
      s.modChan c (fun k => if k.etude.queue.contains x.1 || (s.health c x.1).state == 2 then k
        else { k with etude := { k.etude with queue := k.etude.queue ++ [x.1] } })) s
  let s := if o.otherFail.isSome then (s.etudeError c .etudeFail .J 0 4).modStore c ChanStore.discardCkpts else s
  o.columns.foldl (fun (s : State) x =>
    if 68 ≤ x.1 then s else s.bootColumn c x.1 x.2) s

/-- Restart without a host (19 R453): the job is bound under a new epoch, the saved configuration and plan are applied, the saved
image is loaded again, and a restart begins; an epoch that would wrap refuses the binding and is logged (09 R243). -/
def State.coldRestart (s : State) (c : ChanId) : State :=
  match (s.store c).record with
  | none => s
  | some r =>
    let s := s.modStore c (fun t => { t with record := none })
    if s.mram.holdup.outcome != 2 || !(s.store c).autoRestart || !r.binding.bound then s
    else match r.score with
      | none => s.restartFailed c
      | some x =>
        if s.bindForbidden c r.binding then s.restartFailed c
        else if (s.store c).epoch = 0xFFFFFFFF then (s.firmwareError c .epochExhausted .H 8 0 anyDetail).restartFailed c
        else
          let cks := (s.store c).ckpts
          let s := (s.bindJob c r.binding).modStore c (fun t => { t with ckpts := cks })
          let s := s.modChan c (fun k =>
            let m : Mem := { k.mem with spill := r.spill }
            let m : Mem := match m.placeMap r.class0 r.class1 with
              | some (pages, hbm, far) => { m with class0 := r.class0, class1 := r.class1, pages := pages, checkHbm := hbm, checkFar := far }
              | none => m
            { k with
              mem := m.store 0 x.addr r.image
              coll := { k.coll with floor := r.coll.floor, factor := r.coll.factor, interval := r.coll.interval, margin := r.coll.margin
                                    raise := r.coll.raise, policy := r.coll.policy, repeats := r.coll.repeats }
              tun := { k.tun with stops := r.tun.stops, mask := r.tun.mask }
              svc := { k.svc with targets := r.svc.targets.map (fun (t : Target) => { t with connected := false })
                                  shardPlan := r.svc.shardPlan, ckptPlan := r.svc.ckptPlan } })
          let s := match r.plan with
            | some p => s.modChan c (fun k => k.applyPlan p false)
            | none => s
          s.modChan c (fun k => { k.acceptScore x with svc := { k.svc with restart := some {} } })

/-- A channel whose stacks have trained boots: its Études run, its slots are bound, and it is READY at its effective bin (18 R432, R433;
19 R446; 20 R463). -/
def State.bootChannel (s : State) (c : ChanId) (o : ChannelBootObs) : State :=
  let s := (s.bootEtudes c o).bindSlots c
  (s.modChan c (fun k => { k with st := .ready, bins := { k.bins with now := s.effBin c } })).startTests c

/-- CHANNEL_READY (20 R463): the channel's boot ends. A pseudo-channel that fails training halts it (09 R229), with ESC set when the
boot was the recovery of a class H error, and then nothing resets it again (17 R410). -/
def execChannelReady (c : ChanId) (o : ChannelBootObs) (s : State) : Host.Outcome State Fault Refusal :=
  if (s.chan c).st != .init || !s.awake || s.pins.phase != .run then .next s
  else
    let s := s.modChan c (fun k => { k with mem := k.mem.trainCxl o.cxl, cxlPerst := false })
    match o.hbmFail with
    | some i =>
      let s := s.logError c { cause := .hbmTrain, cls := .H, unit := 5, detail := i
                              failureOf := if o.resetFail then some .hbmTrain else none } noCseq
      .next (if o.resetFail then s.modChan c (fun k => { k with err := { k.err with haltTimer := false } }) else s)
    | none => .next ((s.bootChannel c o).coldRestart c).settle

end Sys2Proof.Machine
end

