-- ==== Sys2Proof/Machine/PowerOps.lean ====
section
/-! DEFINITION. Power: Last Breath, hold-up and resume, power off, over-voltage and low input, the power cap, standby, and the
thermal limits (19; 20 R460, R461, R471; 22 R497, R498). -/

namespace Sys2Proof.Machine

open Sys2Proof

/-! ### Sag and Last Breath (19 R447, R448; 17 R424) -/

/-- A channel at t0: no further beat, every action abandoned, its ports DOWN, write-combining lines discarded, a bin change given up;
errors still waiting are cut off (01 R21; 03 R91; 06 R162; 07 R191; 09 R260; 10 R283; 17 R424). -/
def Channel.breath (k : Channel) : Channel :=
  let cut := fun (x : RawErr) => if x.ended.isNone then { x with ended := some 5 } else x
  let k := portIds.foldl (fun (k : Channel) p => k.modPort p (fun q =>
    match q.st with
    | .disabled | .idle => q
    | .down => q.discard
    | _ => { q.discard with
        st := .down, wasDown := true, cnt := { q.cnt with down := sat32 q.cnt.down 1 } })) k.abandon
  { k with
    before := k.st, st := .holdup, ww := { k.ww with hold := none, resumed := false, rollbackDue := false }
    mem := { k.mem with wcb := [] }, bins := { k.bins with change := none }, stalls := []
    svc := { k.svc with fetching := [], ckptWaiting := false }
    etude := { k.etude with window := false, late := false, untilTests := false }
    err := { k.err with fifo := k.err.fifo.map cut, stalled := k.err.stalled.map cut, waitStop := false } }

/-- Was the channel running at t0, or on its way back from an earlier hold-up (19 R452, R457)? -/
def Channel.ranAtT0 (k : Channel) : Bool := k.before == .run || k.before == .stopping || (k.before == .loaded && k.resume)

/-- Last Breath starts at t0 with the reason bits of 0x7006 (19 R448, R453). -/
def State.lastBreath (s : State) (trig vin : Nat) : State :=
  let h : Holdup := { hseq := wrap32 (s.mram.holdup.hseq + 1), trig := trig, outcome := 0, state := s.dev, vT0 := vin / 10
                      vMin := vin / 10, decl := s.mp.declTime }
  let acked := chans.map (fun c => (s.chan c).st == .init || (s.chan c).st == .halted)
  let s := chans.foldl (fun (s : State) c =>
    (((s.abandonRun c).abandonCkpt c).finishErrs c (fun _ => true) 5).modChan c Channel.breath) s
  let s := chans.foldl (fun (s : State) c => s.modStore c (fun t => { t with record := none })) s
  let s : State := { s with
    power := { s.power with lb := some { before := h.state } }, dev := 3
    pins := { s.pins with phase := .hold, acked := acked }
    mp := { s.mp with reports := [] }
    mram := { s.mram with holdup := h, mpRecord := none } }
  s.meterFreeze

/-- SAG_DETECT (19 R447): V_IN below the sag threshold, or PSAG_N low. Before the Mouthpiece firmware has run it starts nothing. -/
def execSagDetect (psag : Bool) (vin : Nat) (s : State) : Host.Outcome State Fault Refusal :=
  let s : State := { s with pins := { s.pins with psagLow := psag }, power := { s.power with vin := vin } }
  let trig := bit (decide (vin < s.mram.sagThreshold)) + 2 * bit psag
  if trig = 0 || !s.awake || !s.pins.seenF then .next s else .next (s.lastBreath trig vin)

/-- Largest score image kept in a save record (19 R450). -/
def savedImage : Nat := 6291456

/-- The save record of a channel (19 R450). -/
def State.saveRecord (s : State) (c : ChanId) : SaveRecord :=
  let k := s.chan c
  let keeps := match k.score with | some x => decide (x.length ≤ savedImage) | none => false
  { hseq := s.mram.holdup.hseq, wasRunning := k.ranAtT0, decl := s.mp.declTime, bin := k.bins.now, step := k.step, attempt := k.attempt, ver := k.ver
    verSnap := k.verSnap
    voidRun := k.tun.voidRun, shadow := k.shadow, beats := k.ww.beats, pctr := k.ports.toList.map Port.pctr
    plan := k.paths.plan, tun := k.tun, fifo := k.err.fifo ++ k.err.stalled, log := k.err.log.ring, meas := k.meas
    binding := k.bind, svc := k.svc, class0 := k.mem.class0, class1 := k.mem.class1, spill := k.mem.spill, coll := k.coll
    score := if keeps then k.score else none
    image := match keeps, k.score with
      | true, some x => (k.mem.load 0 x.addr x.length).1.bytes
      | _, _ => [] }

/-- The device is in a Last Breath that has not reached save-complete, and has power and its clock. -/
def State.saving (s : State) : Bool :=
  s.pins.pwrGood && s.pins.refclkL && (match s.power.lb with | some b => !b.saved | none => false)

/-- CHANNEL_SAVE_WRITTEN (20 R460): the record is in the save store and FNG[n] is released. -/
def execChannelSaveWritten (c : ChanId) (s : State) : Host.Outcome State Fault Refusal :=
  if !s.saving || s.pins.acked.getD c.val true then .next s
  else
    let s := s.modStore c (fun t => { t with record := some (s.saveRecord c) })
    .next { s with pins := { s.pins with acked := setAt s.pins.acked c.val true } }

/-- SAVE_COMPLETE (19 R448, R453): the Mouthpiece's record is written too, and a reset that waited acts now (20 R470). The count of PCLK
cycles is a free value (log 5). -/
def execSaveComplete (micros vmin : Nat) (s : State) : Host.Outcome State Fault Refusal :=
  if !s.saving || !s.pins.acked.all id then .next s
  else
    let valid := chans.foldl (fun a c => a + (if (s.store c).record.isSome then 2 ^ c.val else 0)) 16
    let h := s.mram.holdup
    let (pclk, s) := s.draw (2 ^ 64)
    let tops := chans.map (fun c => (s.chan c).err.log.top) ++ [s.mp.log.top]
    let s : State := { s with
      power := { s.power with lb := s.power.lb.map (fun (b : LastBreath) => { b with saved := true }) }
      mram := { s.mram with
        holdup := { h with saved := valid, tSave := micros, vMin := min h.vMin (vmin / 10) }
        mpRecord := some { pclk := pclk, decl := s.mp.declTime, log := s.mp.log.ring, tops := tops, sessions := s.mp.sessions, host := s.mp.host
                           vin := [10 * h.vT0, vmin] } } }
    .next (if s.pins.resetDeferred then
        let s := s.deviceReset true
        s.startBoot {}
      else s)

/-! ### Resume (19 R451, R452; 10 R275; 12 R330; 13 R340) -/

/-- A channel at the resume decision: one that was running is LOADED with RESUME set; any other returns to the state it had. Plans
are applied anew, with the substitutions in force (12 R330), and packet counters skip 2^32; no checkpoint holds a buffer any more; the CXL link is read again (09 R260). -/
def Channel.resumeFrom (k : Channel) : Channel :=
  let ran := k.ranAtT0
  let k : Channel := { k with
    st := if ran then .loaded else k.before, resume := ran
    ver := { k.ver with ckref0 := 0, ckref1 := 0 }
    ports := k.ports.map (fun (p : Port) => { p with pctr := p.pctr.map (fun n => wrap64 (n + 2 ^ 32)) }) }
  let k : Channel := match k.paths.plan with
    | some p =>
      if k.st == .halted then k
      else
        let subst := k.paths.disc.subst
        let k := k.applyPlan p false
        { k with paths := { k.paths with disc := { k.paths.disc with subst := subst } } }
    | none => k
  k.rereadCxl

/-- RESUME_DECISION: V_IN has been above 66 V for 10 ms while the device holds. -/
def execResumeDecision (vin micros : Nat) (s : State) : Host.Outcome State Fault Refusal :=
  match s.power.lb with
  | none => .next s
  | some b =>
    if !b.saved || vin ≤ 66000 || !s.pins.pwrGood || !s.pins.refclkL then .next s
    else
      let s := chans.foldl (fun (s : State) c => s.modChan c Channel.resumeFrom) s
      let ready := chans.all (fun c => (s.chan c).st != .init)
      let s : State := { s with
        power := { s.power with lb := none, vin := vin, standby := false, returning := false }
        dev := if b.before = 5 then 5 else if ready then 1 else b.before
        pins := { s.pins with phase := .run, acked := [false, false, false, false] }
        mram := { s.mram with holdup := { s.mram.holdup with outcome := 1, tHold := micros } } }
      .next (s.meterResume)

/-- RESUME_START (19 R452; 11 R313): discovery has completed, and the interrupted step begins again at its STEP_START phrase with its
attempt raised; at the limit of repeats a rollback is asked for instead. A discovery that ended short without fallback leaves the
channel LOADED for the host, with what the step had done undone (05 R132). -/
def execResumeStart (c : ChanId) (s : State) : Host.Outcome State Fault Refusal :=
  let k := s.chan c
  let done := k.paths.plan.isNone || k.paths.disc.status == 2
  if !(k.st == .loaded && k.resume && !k.ww.resumed && done && s.awake) then .next s
  else if k.paths.disc.short && !k.paths.disc.fallback then
    .next (s.modChan c (fun k => { (k.endStep none) with resume := false, ww := { (k.endStep none).ww with boundaryDue := false } }))
  else
    let s := (s.rebindSlots c).modChan c (fun k => k.endStep none)
    let k := s.chan c
    if k.coll.repeats ≤ k.attempt then
      let s := s.logJob c { cause := .repeatLimit, cls := .J, unit := 8, fixedClass := true }
      let (s, rolls) := s.requestRollback c
      .next (if rolls then s
        else s.modChan c (fun k => { k with resume := false, ww := { k.ww with boundaryDue := false } }))
    else .next (s.modChan c (fun k => { k with ww := { k.ww with resumed := true } }))

/-! ### Power off (19 R440, R451; 22 R498) -/

/-- Nothing stays powered: Études and checkpoints under way are given up, and only the save store, the fuses and the meter's own
memory are left until the next power-up. -/
def State.unpowered (s : State) : State :=
  let s := chans.foldl (fun (s : State) c => (s.abandonRun c).abandonCkpt c) s
  { s with
    pins := { s.pins with pwrGood := false, resetDeferred := false }
    power := { s.power with on := false }
    mp := {}, dev := 0, meter := { s.meter with powered := false }
    ch := Vector.replicate 4 {} }

/-- POWER_OFF: V_IN has fallen below 48 V. -/
def execPowerOff (vin : Nat) (s : State) : Host.Outcome State Fault Refusal :=
  if 48000 ≤ vin then .next s
  else
    let h := s.mram.holdup
    let s := if s.power.lb.isSome then { s with mram := { s.mram with holdup := { h with vMin := min h.vMin 4800 } } } else s
    let s := if s.pins.pwrGood then s.unpowered else s
    .next { s with power := { s.power with tripped := false, vin := vin } }

/-- THERMAL_TRIP (22 R498): a junction at 112 °C turns conversion off at once; the input stage stays off until V_IN has fallen below
48 V. -/
def execThermalTrip (s : State) : Host.Outcome State Fault Refusal :=
  if !s.pins.pwrGood then .next s
  else
    let s := s.unpowered
    .next { s with power := { s.power with tripped := true } }

/-! ### Input voltage (19 R440; 20 R461; 22 R486) -/

/-- OV_EVENT: V_IN above 80 V. Above 100 V it is outside the absolute maximum. -/
def execOvEvent (vin : Nat) (s : State) : Host.Outcome State Fault Refusal :=
  if 100000 < vin then .fault .absoluteMaximum
  else if vin ≤ 80000 || !s.pins.pwrGood then .next s
  else .next { s with power := { s.power with
    vin := vin, ov := true, ovEvents := if s.power.ov then s.power.ovEvents else sat16 s.power.ovEvents 1 } }

/-- OV_EPISODE_END: V_IN is back at 80 V or below, and the alert stays for 1 s. -/
def execOvEpisodeEnd (vin : Nat) (s : State) : Host.Outcome State Fault Refusal :=
  if 80000 < vin || !s.power.ov then .next s
  else .next { s with power := { s.power with vin := vin, ov := false, ovHold := true } }

/-- OV_ALERT_HOLD_END. -/
def execOvAlertHoldEnd (s : State) : Host.Outcome State Fault Refusal :=
  .next { s with power := { s.power with ovHold := false } }

/-- LOW_INPUT: LOWV is set from the sag threshold to 64 V. -/
def execLowInput (vin : Nat) (s : State) : Host.Outcome State Fault Refusal :=
  if !s.pins.pwrGood then .next s
  else .next { s with power := { s.power with vin := vin, lowv := decide (s.mram.sagThreshold ≤ vin ∧ vin < 64000) } }

/-! ### The power cap (19 R444 to R446) -/

/-- Board cap, W. -/
def State.boardCap (s : State) : Nat := 1800 - 80 * s.power.boardLevel

/-- 0x7003, W. -/
def State.cap (s : State) : Nat := min s.power.swCap s.boardCap

/-- A bin change of the channel has not yet taken effect. -/
def State.binPending (s : State) (c : ChanId) : Bool := (s.chan c).bins.change.isSome || (s.chan c).bins.now != s.effBin c

/-- Channels running and drawing power. -/
def State.runners (s : State) : List ChanId := chans.filter (fun c => (s.chan c).st == .run || (s.chan c).st == .stopping)

/-- The first channel of a list whose value is largest. -/
def largest (f : ChanId → Nat) : List ChanId → Option ChanId
  | [] => none
  | c :: cs => match largest f cs with
    | some d => if f c < f d then some d else some c
    | none => some c

/-- A channel's cap bin is changed; a running channel changes its bin at the next phrase boundary. -/
def State.setCapBin (s : State) (c : ChanId) (f : Nat → Nat) : State :=
  s.modChan c (fun k => { k with bins := { k.bins with cap := f k.bins.cap } })

/-- CAP_CHECK: one comparison of the input power with the effective cap, with the measured power of each channel. -/
def execCapCheck (milliwatts : Nat) (channels : List Nat) (s : State) : Host.Outcome State Fault Refusal :=
  if !s.mp.running || !s.awake then .next s
  else
    let s : State := { s with power := { s.power with input := milliwatts } }
    let limit := 1000 * s.cap
    let free := s.runners.filter (fun c => !s.binPending c)
    let above := decide (limit < milliwatts + 20000)
    let below := decide (milliwatts + 120000 < limit)
    let lowFor := if below then s.power.lowFor + 1 else 0
    let s := if above then
        (match largest (fun c => channels.getD c.val 0) (free.filter (fun c => (s.chan c).bins.cap < 15)) with
         | some c => s.setCapBin c (· + 1)
         | none => s)
      else if 50 ≤ lowFor then
        (match largest (fun c => (s.chan c).bins.cap) (free.filter (fun c => 0 < (s.chan c).bins.cap)) with
         | some c => s.setCapBin c (· - 1)
         | none => s)
      else s
    let unmet := !s.runners.isEmpty && s.runners.all (fun c => (s.chan c).bins.now == 15) && decide (limit < milliwatts)
    .next { s with power := { s.power with capUnmet := unmet, lowFor := if 50 ≤ lowFor then 0 else lowFor } }

/-- BOARD_CAP_LEVEL: a level on FNG[11:8] that has been stable for 1 ms; it is not read before the first 0xF, in the hold phase, or
while the Mouthpiece restarts (19 R444; 20 R461). -/
def execBoardCapLevel (level : Fin 16) (s : State) : Host.Outcome State Fault Refusal :=
  if !s.pins.seenF || !s.mp.running || !s.awake || s.pins.phase != .run then .next s
  else .next { s with power := { s.power with boardLevel := level.val } }

/-! ### Standby (19 R442) -/

/-- Entering P3 is refused while a channel runs, a checkpoint is writing or an Étude run is in progress. -/
def State.standbyForbidden (s : State) : Bool :=
  s.anyRunning || chans.any (fun c => (s.chan c).svc.ckpt.isSome || (s.chan c).etude.run.isSome)

/-- P3: Bell ports send electrical idle. -/
def State.enterStandby (s : State) : State :=
  let idle := fun (q : Port) => match q.st with
    | .disabled => q
    | _ => { q.discard with st := .idle }
  let s := chans.foldl (fun (s : State) c => s.modChan c (fun k => { k with ports := k.ports.map idle })) s
  { s with power := { s.power with standby := true, returning := false } }.settle

/-- The return to P2 begins. -/
def State.leaveStandby (s : State) : State :=
  if s.power.standby then { s with power := { s.power with standby := false, returning := true } } else s

/-- RETURN_TO_P2: the device is in P2 again, and ports of channels that hold a plan leave IDLE (12 R321). -/
def execReturnToP2 (s : State) : Host.Outcome State Fault Refusal :=
  if !s.power.returning || !s.awake then .next s
  else
    let s := chans.foldl (fun (s : State) c => s.modChan c (fun k =>
      if k.paths.plan.isSome && (k.st == .ready || k.st == .loaded) then k.startDiscovery else k)) s
    .next ({ s with power := { s.power with returning := false } }.settle)

/-! ### Thermal limits (22 R497) -/

/-- One sample of a channel's junction and stacks. -/
def Bins.sample (b : Bins) (tj : Nat) (readouts : List Nat) (thermLow : Bool) : Bins :=
  let hot := decide (100 ≤ tj) || readouts.any (95 ≤ ·)
  let cool := decide (tj < 97) && readouts.all (· < 92)
  let coolFor := if cool then min 1000 (b.coolFor + 1) else 0
  let rises := hot && decide (100 ≤ b.sinceRise) && decide (b.thermal < 15)
  let falls := decide (1000 ≤ coolFor) && decide (1000 ≤ b.sinceFall) && decide (0 < b.thermal)
  if thermLow then { b with thermal := 15, coolFor := coolFor, sinceRise := min 100 (b.sinceRise + 1), sinceFall := min 1000 (b.sinceFall + 1) }
  else
    { b with
      thermal := if rises then b.thermal + 1 else if falls then b.thermal - 1 else b.thermal
      coolFor := coolFor
      sinceRise := if rises then 1 else min 100 (b.sinceRise + 1)
      sinceFall := if falls && !rises then 1 else min 1000 (b.sinceFall + 1) }

/-- THERMAL_SAMPLE: taken every 100 us; the bin applies under 01 R21. -/
def execThermalSample (c : ChanId) (tj : Nat) (readouts : List Nat) (s : State) : Host.Outcome State Fault Refusal :=
  if !s.awake then .next s
  else .next (s.modChan c (fun k => { k with bins := k.bins.sample tj readouts s.pins.thermLow }))

/-- THERM_N: low for 1 ms, or released. In the hold phase it changes no bin (22 R500). -/
def execThermN (low : Bool) (s : State) : Host.Outcome State Fault Refusal :=
  let s : State := { s with pins := { s.pins with thermLow := low } }
  if !low || !s.awake then .next s
  else .next (chans.foldl (fun (s : State) c => s.modChan c (fun k => { k with bins := { k.bins with thermal := 15, coolFor := 0 } })) s)

end Sys2Proof.Machine
end

