-- ==== Sys2Proof/Machine/StopTable.lean ====
section
/-! DEFINITION. The stop list: every fixed stop with its type, access class and range (14 R349 to R353; 21 R473 to R483). -/

namespace Sys2Proof.Machine

open Sys2Proof

/-- Access classes (00 R8; 14 R351). -/
inductive Access where
  | ro | wo | rw | rwl | rwp | rws | rwm
deriving DecidableEq, Repr

/-- Stop types with their ranges (14 R350): unsigned of a length and range, binary16 between two codes, BOOL, ENUM up to a code, STR,
BLOB of a fixed length, and BLOB of at most a length. -/
inductive StopType where
  | num (bytes lo hi : Nat)
  | f16 (lo hi : Nat)
  | bool
  | enum (top : Nat)
  | str
  | blob (len : Nat)
  | blobVar (max : Nat)
deriving DecidableEq, Repr

/-- A row of the stop reference: the index with n = 0, the subindex, the access class, the type, and whether only an operator may
write it. -/
structure StopRow where
  base : Nat
  sub : Nat
  access : Access
  type : StopType
  opOnly : Bool
deriving DecidableEq, Repr

/-- The 0x1000 block (21 R475). -/
def identityStops : List StopRow := [
  ⟨0x1000, 0, .ro, .num 4 0 4294967295, false⟩,
  ⟨0x1001, 0, .ro, .num 4 0 4294967295, false⟩,
  ⟨0x1008, 0, .ro, .str, false⟩,
  ⟨0x1012, 0, .wo, .num 4 0x54534552 0x54534552, true⟩,
  ⟨0x1018, 1, .ro, .num 4 0 4294967295, false⟩,
  ⟨0x1018, 2, .ro, .num 4 0 4294967295, false⟩,
  ⟨0x1018, 3, .ro, .num 4 0 4294967295, false⟩,
  ⟨0x1018, 4, .ro, .num 8 0 18446744073709551615, false⟩,
  ⟨0x1020, 0, .ro, .num 2 0 65535, false⟩,
  ⟨0x1021, 0, .ro, .num 4 0 4294967295, false⟩,
  ⟨0x1030, 0, .ro, .enum 5, false⟩,
  ⟨0x1031, 0, .ro, .blob 8, false⟩,
  ⟨0x1040, 0, .rw, .num 8 0 18446744073709551615, true⟩,
  ⟨0x1050, 1, .ro, .blob 1024, false⟩,
  ⟨0x1050, 2, .rws, .blob 1152, true⟩,
  ⟨0x1050, 3, .wo, .num 2 0 65535, true⟩,
  ⟨0x1050, 4, .rw, .num 4 10 86400, false⟩,
  ⟨0x1060, 1, .rw, .num 4 0 4294967295, false⟩,
  ⟨0x1060, 2, .rwl, .blob 8, false⟩,
  ⟨0x1060, 3, .rws, .blob 240, false⟩,
  ⟨0x1060, 4, .rws, .num 1 0 255, false⟩,
  ⟨0x1060, 5, .ro, .num 4 0 4294967295, false⟩,
  ⟨0x1060, 6, .ro, .blob 136, false⟩]

/-- The 0x2n00 block (21 R476). -/
def channelStops : List StopRow := [
  ⟨0x2000, 0, .ro, .num 4 0 4294967295, false⟩,
  ⟨0x2001, 0, .rwl, .blob 16, true⟩,
  ⟨0x2002, 0, .rwl, .num 1 0 15, true⟩,
  ⟨0x2003, 0, .rwl, .num 2 0 65535, false⟩,
  ⟨0x2004, 0, .ro, .blob 136, false⟩,
  ⟨0x2005, 0, .wo, .num 1 1 1, true⟩,
  ⟨0x2010, 1, .wo, .blob 16, false⟩,
  ⟨0x2010, 2, .wo, .num 1 1 2, false⟩,
  ⟨0x2010, 3, .rw, .num 2 0 65535, false⟩,
  ⟨0x2010, 4, .ro, .num 4 0 4294967295, false⟩,
  ⟨0x2010, 5, .ro, .num 8 0 18446744073709551615, false⟩,
  ⟨0x2010, 6, .ro, .num 8 0 18446744073709551615, false⟩,
  ⟨0x2010, 7, .ro, .blob 96, false⟩,
  ⟨0x2010, 8, .rw, .num 4 1000 10000000, false⟩,
  ⟨0x2010, 9, .ro, .num 8 0 18446744073709551615, false⟩,
  ⟨0x2020, 0, .rws, .blob 68, true⟩,
  ⟨0x2030, 1, .rwl, .blob 320, false⟩,
  ⟨0x2030, 2, .rwl, .blob 320, false⟩,
  ⟨0x2030, 3, .rwl, .blob 320, false⟩,
  ⟨0x2030, 4, .rwl, .blob 320, false⟩,
  ⟨0x2030, 5, .rwl, .blob 48, false⟩,
  ⟨0x2030, 6, .rwl, .blob 16, false⟩,
  ⟨0x2030, 7, .wo, .num 1 1 1, false⟩,
  ⟨0x2030, 8, .rws, .bool, false⟩,
  ⟨0x2030, 9, .ro, .blobVar 8192, false⟩,
  ⟨0x2031, 1, .wo, .blob 16, false⟩,
  ⟨0x2031, 2, .wo, .num 1 1 1, false⟩,
  ⟨0x2031, 3, .ro, .num 4 0 4294967295, false⟩]

/-- The 0x3n00 block (21 R478). -/
def numericsStops : List StopRow := [
  ⟨0x3000, 0, .rwp, .enum 1, false⟩,
  ⟨0x3001, 0, .rwp, .enum 1, false⟩,
  ⟨0x3002, 0, .rwp, .num 1 0 8, false⟩,
  ⟨0x3003, 0, .rwp, .num 1 0 3, false⟩,
  ⟨0x3004, 0, .rwp, .num 1 1 32, false⟩,
  ⟨0x3005, 0, .rwp, .num 1 0 7, false⟩,
  ⟨0x3006, 0, .ro, .num 1 0 255, false⟩,
  ⟨0x3007, 0, .rwp, .f16 0x4000 0x5400, false⟩,
  ⟨0x3008, 0, .rwp, .num 1 0 63, false⟩,
  ⟨0x3010, 1, .rw, .f16 0x4000 0x5000, false⟩,
  ⟨0x3010, 2, .rw, .f16 0x1419 0x3C00, false⟩,
  ⟨0x3010, 3, .rw, .num 2 10 65535, false⟩,
  ⟨0x3010, 4, .rw, .num 1 0 5, false⟩,
  ⟨0x3010, 5, .rw, .num 1 1 16, false⟩,
  ⟨0x3020, 1, .ro, .blobVar 8192, false⟩,
  ⟨0x3020, 2, .ro, .blob 40960, false⟩,
  ⟨0x3020, 3, .ro, .num 4 0 4294967295, false⟩,
  ⟨0x3020, 4, .wo, .num 1 0 3, false⟩,
  ⟨0x3020, 5, .rw, .num 2 0 65535, false⟩,
  ⟨0x3040, 1, .rw, .num 2 0 4095, false⟩,
  ⟨0x3040, 2, .ro, .blob 64, false⟩,
  ⟨0x3040, 3, .ro, .blob 262144, false⟩]

/-- The 0x4n00 block (21 R479). -/
def memoryStops : List StopRow := [
  ⟨0x4000, 1, .ro, .num 8 0 18446744073709551615, false⟩,
  ⟨0x4000, 2, .ro, .num 4 0 4294967295, false⟩,
  ⟨0x4000, 3, .ro, .num 4 0 4294967295, false⟩,
  ⟨0x4000, 4, .ro, .num 4 0 4294967295, false⟩,
  ⟨0x4001, 1, .rwl, .blob 131072, false⟩,
  ⟨0x4001, 2, .rwl, .blobVar 524288, false⟩,
  ⟨0x4001, 3, .ro, .blob 1048576, false⟩,
  ⟨0x4002, 1, .rw, .num 2 0 1024, false⟩,
  ⟨0x4002, 2, .rw, .bool, false⟩,
  ⟨0x4002, 3, .ro, .num 4 0 4294967295, false⟩,
  ⟨0x4003, 0, .ro, .num 4 0 4294967295, false⟩,
  ⟨0x4004, 0, .ro, .num 8 0 18446744073709551615, false⟩,
  ⟨0x4005, 0, .rwl, .enum 2, false⟩,
  ⟨0x4010, 1, .ro, .blob 76, false⟩,
  ⟨0x4010, 2, .wo, .num 1 0 1, false⟩,
  ⟨0x4010, 3, .ro, .num 4 0 4294967295, false⟩]

/-- The 0x5n00 block (21 R480). -/
def bellStops : List StopRow := [
  ⟨0x5000, 1, .rwl, .num 1 0 255, true⟩,
  ⟨0x5000, 2, .ro, .num 4 0 4294967295, false⟩,
  ⟨0x5001, 1, .rwl, .blob 64, true⟩,
  ⟨0x5001, 2, .rw, .num 4 100 60000, false⟩,
  ⟨0x5002, 1, .ro, .blob 72, false⟩,
  ⟨0x5003, 1, .rwp, .blob 1024, true⟩,
  ⟨0x5003, 2, .rwp, .blob 1024, true⟩,
  ⟨0x5003, 3, .rwp, .blob 1024, true⟩,
  ⟨0x5003, 4, .rwp, .blob 1024, true⟩,
  ⟨0x5003, 5, .rwp, .blob 1024, true⟩,
  ⟨0x5003, 6, .rwp, .blob 1024, true⟩,
  ⟨0x5003, 7, .rwp, .blob 1024, true⟩,
  ⟨0x5003, 8, .rwp, .blob 1024, true⟩,
  ⟨0x5004, 1, .rwp, .blob 512, true⟩,
  ⟨0x5004, 2, .rwp, .blob 512, true⟩,
  ⟨0x5004, 3, .rwp, .blob 512, true⟩,
  ⟨0x5004, 4, .rwp, .blob 512, true⟩,
  ⟨0x5004, 5, .rwp, .blob 512, true⟩,
  ⟨0x5004, 6, .rwp, .blob 512, true⟩,
  ⟨0x5004, 7, .rwp, .blob 512, true⟩,
  ⟨0x5004, 8, .rwp, .blob 512, true⟩,
  ⟨0x5010, 1, .rw, .num 4 100 1000000, false⟩,
  ⟨0x5010, 2, .rw, .f16 0x3C00 0x5400, false⟩,
  ⟨0x5010, 3, .rwl, .num 2 0 65535, false⟩,
  ⟨0x5010, 4, .rwl, .num 1 0 8, false⟩,
  ⟨0x5010, 5, .rwl, .num 1 1 8, false⟩,
  ⟨0x5010, 6, .rwl, .enum 2, false⟩,
  ⟨0x5010, 7, .rwl, .num 1 1 16, false⟩,
  ⟨0x5010, 8, .ro, .blob 72, false⟩,
  ⟨0x5010, 9, .wo, .num 1 0 1, false⟩,
  ⟨0x5020, 1, .ro, .blob 92, false⟩,
  ⟨0x5020, 2, .ro, .blob 92, false⟩,
  ⟨0x5020, 3, .ro, .blob 92, false⟩,
  ⟨0x5020, 4, .ro, .blob 92, false⟩,
  ⟨0x5020, 5, .ro, .blob 92, false⟩,
  ⟨0x5020, 6, .ro, .blob 92, false⟩,
  ⟨0x5020, 7, .ro, .blob 92, false⟩,
  ⟨0x5020, 8, .ro, .blob 92, false⟩,
  ⟨0x5020, 9, .wo, .num 1 0 255, false⟩]

/-- The 0x6000 block (21 R481). -/
def faultStops : List StopRow := [
  ⟨0x6000, 1, .ro, .blob 10240, false⟩,
  ⟨0x6000, 2, .ro, .blob 10240, false⟩,
  ⟨0x6000, 3, .ro, .blob 10240, false⟩,
  ⟨0x6000, 4, .ro, .blob 10240, false⟩,
  ⟨0x6000, 5, .ro, .blob 10240, false⟩,
  ⟨0x6001, 0, .wo, .num 1 0 31, true⟩,
  ⟨0x6002, 0, .rwl, .num 1 1 64, false⟩,
  ⟨0x6003, 1, .ro, .blob 512, false⟩,
  ⟨0x6003, 2, .ro, .blob 512, false⟩,
  ⟨0x6003, 3, .ro, .blob 512, false⟩,
  ⟨0x6003, 4, .ro, .blob 512, false⟩,
  ⟨0x6003, 5, .rw, .blob 32, true⟩,
  ⟨0x6004, 0, .rws, .enum 1, false⟩,
  ⟨0x6010, 1, .ro, .blob 72, false⟩,
  ⟨0x6010, 2, .rws, .blobVar 68611, false⟩,
  ⟨0x6010, 3, .ro, .blob 64, false⟩,
  ⟨0x6010, 4, .ro, .blob 12288, false⟩,
  ⟨0x6011, 0, .rw, .num 4 3600 2592000, false⟩,
  ⟨0x6012, 0, .rw, .num 2 10 10080, false⟩,
  ⟨0x6013, 0, .rw, .blob 4, false⟩,
  ⟨0x6014, 0, .rwl, .num 4 0 4294967295, false⟩,
  ⟨0x6015, 0, .rwl, .num 2 500 25000, false⟩,
  ⟨0x6020, 0, .rw, .num 1 0 8, false⟩,
  ⟨0x6030, 1, .rws, .num 2 2 4096, false⟩,
  ⟨0x6030, 2, .ro, .blob 272, false⟩,
  ⟨0x6030, 3, .ro, .blob 4, false⟩,
  ⟨0x6030, 4, .wo, .num 2 0 65535, true⟩]

/-- The 0x7000, 0x8000 and 0x9000 blocks (21 R482). -/
def powerStops : List StopRow := [
  ⟨0x7000, 0, .ro, .num 4 0 4294967295, false⟩,
  ⟨0x7001, 0, .ro, .num 4 0 4294967295, false⟩,
  ⟨0x7002, 0, .rw, .num 2 600 1800, false⟩,
  ⟨0x7003, 0, .ro, .num 2 0 65535, false⟩,
  ⟨0x7004, 0, .rws, .num 4 58000 66000, false⟩,
  ⟨0x7005, 0, .rws, .num 4 2200 20000, false⟩,
  ⟨0x7006, 0, .ro, .blob 32, false⟩,
  ⟨0x7007, 1, .ro, .blob 8, false⟩,
  ⟨0x7007, 2, .wo, .num 1 0 255, false⟩,
  ⟨0x8000, 0, .ro, .num 4 0 4294967295, false⟩,
  ⟨0x8001, 0, .wo, .blob 32, false⟩,
  ⟨0x8002, 0, .ro, .blob 7170, false⟩,
  ⟨0x8003, 0, .ro, .blob 3203, false⟩,
  ⟨0x8004, 0, .ro, .num 4 0 4294967295, false⟩,
  ⟨0x8005, 1, .rws, .bool, false⟩,
  ⟨0x8005, 2, .wo, .blob 1568, false⟩,
  ⟨0x8005, 3, .ro, .blob 2851, false⟩,
  ⟨0x8006, 1, .wo, .blobVar 1046662, true⟩,
  ⟨0x8006, 2, .ro, .blob 24, false⟩,
  ⟨0x8006, 3, .wo, .num 1 0 255, true⟩,
  ⟨0x8006, 4, .wo, .num 1 1 1, true⟩,
  ⟨0x8006, 5, .wo, .blob 64, true⟩,
  ⟨0x8007, 1, .ro, .blob 256, false⟩,
  ⟨0x8007, 2, .ro, .blobVar 82016, false⟩,
  ⟨0x8007, 3, .ro, .blobVar 82016, false⟩,
  ⟨0x8007, 4, .ro, .blobVar 82016, false⟩,
  ⟨0x8007, 5, .ro, .blobVar 82016, false⟩,
  ⟨0x9000, 0, .rwm, .blob 3128, false⟩,
  ⟨0x9001, 0, .rwm, .blob 96, false⟩,
  ⟨0x9002, 0, .rwm, .num 8 0 18446744073709551615, false⟩,
  ⟨0x9003, 0, .rwm, .blob 72, false⟩,
  ⟨0x9004, 0, .rwm, .blobVar 655360, false⟩,
  ⟨0x9005, 0, .rwm, .blob 67584, false⟩,
  ⟨0x9006, 0, .wo, .blob 40, false⟩,
  ⟨0x9007, 0, .rwm, .blob 1634, false⟩]

/-- Every stop of the tables (21 R473). -/
def stopRows : List StopRow :=
  identityStops ++ channelStops ++ numericsStops ++ memoryStops ++ bellStops ++ faultStops ++ powerStops

/-- Is an index in a block that exists once per channel (00 R7). -/
def perChannel (index : Nat) : Bool := decide (0x2000 ≤ index ∧ index < 0x6000)

/-- An index with n = 0, and the channel it names (00 R7). -/
def stopBase (index : Nat) : Nat := if perChannel index then index - 256 * (index / 256 % 16) else index

/-- The channel of a channel stop. -/
def stopChan (index : Nat) : Option ChanId := if perChannel index then chanId? (index / 256 % 16) else none

/-- The rows of an index. -/
def rowsOf (index : Nat) : List StopRow :=
  if perChannel index && (stopChan index).isNone then []
  else stopRows.filter (fun (r : StopRow) => r.base == stopBase index)

/-- The row of a stop; subindex 0x00 of an index with subindices holds the highest one in use (14 R349). -/
def stopRow (index sub : Nat) : Option StopRow :=
  let rows := rowsOf index
  match rows.find? (fun (r : StopRow) => r.sub == sub) with
  | some r => some r
  | none => if sub = 0 ∧ rows ≠ [] then some ⟨stopBase index, 0, .ro, .num 1 0 255, false⟩ else none

/-- The highest subindex of an index. -/
def topSub (index : Nat) : Nat := (rowsOf index).foldl (fun a (r : StopRow) => max a r.sub) 0

/-- The value has a fixed length (14 R350, R363). -/
def StopType.fixed : StopType → Bool
  | .str => false
  | .blobVar _ => false
  | _ => true

/-- The block operations apply (14 R361, R362). -/
def StopType.isBlob : StopType → Bool
  | .blob _ => true
  | .blobVar _ => true
  | _ => false

/-- UTF-8 (14 R350): every byte sequence is a code point of the shortest form, and no surrogate. -/
def utf8 : Nat → List Byte → Bool
  | 0, bs => bs.isEmpty
  | n + 1, bs =>
    match bs.map BitVec.toNat with
    | [] => true
    | a :: r =>
      let c := fun (i lo hi : Nat) => decide (lo ≤ r.getD i 0 ∧ r.getD i 0 ≤ hi)
      if a < 0x80 then utf8 n (bs.drop 1)
      else if 0xC2 ≤ a ∧ a ≤ 0xDF then c 0 0x80 0xBF && utf8 n (bs.drop 2)
      else if 0xE0 ≤ a ∧ a ≤ 0xEF then
        c 0 (if a = 0xE0 then 0xA0 else 0x80) (if a = 0xED then 0x9F else 0xBF) && c 1 0x80 0xBF && utf8 n (bs.drop 3)
      else if 0xF0 ≤ a ∧ a ≤ 0xF4 then
        c 0 (if a = 0xF0 then 0x90 else 0x80) (if a = 0xF4 then 0x8F else 0xBF) && c 1 0x80 0xBF && c 2 0x80 0xBF && utf8 n (bs.drop 4)
      else false

/-- Step 7 of R359 for a type: the length (0x0605), then the range (0x0606); 0 when both hold (14 R350). -/
def StopType.check (t : StopType) (d : List Byte) : Nat :=
  let v := ofLe d
  match t with
  | .num n lo hi => if d.length ≠ n then 0x0605 else if lo ≤ v ∧ v ≤ hi then 0 else 0x0606
  | .f16 lo hi => if d.length ≠ 2 then 0x0605 else if lo ≤ v ∧ v ≤ hi then 0 else 0x0606
  | .bool => if d.length ≠ 1 then 0x0605 else if v ≤ 1 then 0 else 0x0606
  | .enum top => if d.length ≠ 1 then 0x0605 else if v ≤ top then 0 else 0x0606
  | .str => if 255 < d.length then 0x0605 else if utf8 256 d then 0 else 0x0606
  | .blob n => if d.length ≠ n then 0x0605 else 0
  | .blobVar n => if n < d.length then 0x0605 else 0

end Sys2Proof.Machine
end

