-- ==== Sys2Proof/Machine/StopRead.lean ====
section
/-! DEFINITION. The values of the stops as a READ returns them, and the Fingering outputs (01 R16; 04 R104; 05 R135 to R137; 07 R173,
R188; 09 R234, R253, R259; 10 R282, R286; 12 R326, R327; 14 R353; 15 R369, R376; 16 R399; 17 R414, R422; 18 R428, R437, R438;
19 R453, R456; 20 R460, R461). -/

namespace Sys2Proof.Machine

open Sys2Proof

/-- U32 values in order. -/
def words32 (l : List Nat) : List Byte := (l.map (fun n => leBytes 4 n)).flatten

/-! ### Identity and communication -/

/-- The device certificate, 1,410 bytes (15 R369). -/
def State.certificate (s : State) : List Byte :=
  leBytes 4 0x54435645 ++ leBytes 2 1 ++ leBytes 2 0 ++ leBytes 8 Config.serial ++ leBytes 4 productCode ++ leBytes 4 Config.revision
    ++ leBytes 4 (if s.fuses.prod then Config.keyDomain else 0) ++ leBytes 4 0 ++ Hash.shake512 Config.identityPub ++ leBytes 32 0
    ++ leBytes 2 1280 ++ fitTo 1280 Config.certificateSig

/-- 0x1001 (17 R414). -/
def State.errorRegister (s : State) : Nat :=
  let logs := chans.map (fun c => (s.chan c).err.log) ++ [s.mp.log]
  ((logs.zipIdx).map (fun (x : ErrLog × Nat) => 8 ^ x.2 * x.1.top + 2 ^ (16 + x.2) * bit x.1.lost)).sum + 2 ^ 15 * bit (s.dev == 5)

/-- The alert of the RUN phase (20 R461). -/
def State.alert (s : State) : Nat :=
  let thermal := chans.any (fun c =>
    let b := (s.chan c).bins
    decide (max (max b.requested (s.store c).binFloor) b.cap < b.thermal))
  if !s.mp.running then 0xE
  else if s.dev = 5 then 0x1
  else if chans.any (fun c => (s.chan c).st == .halted) then 0x2
  else if thermal then 0x3
  else if s.power.capUnmet then 0x4
  else if s.power.ov || s.power.ovHold then 0x6
  else if s.power.lowv then 0x7
  else if s.mp.mirror.sealSt == 2 || !s.mp.meterLink then 0x8
  else if s.mp.bootFallback then 0x9
  else 0xF

/-- What the device drives on FNG[7:4]: nothing in STRAP, the alert in RUN, and 0x0 or 0x5 while it holds (20 R458). -/
def State.fngAlert (s : State) : Option Nat :=
  match s.pins.phase with
  | .strap => none
  | .run => some s.alert
  | .hold => some (match s.power.lb with | some x => if x.saved then 0x5 else 0x0 | none => 0x0)

/-- Is FNG[n] driven low: CH_READY in RUN, the save acknowledge in HOLD (20 R460)? -/
def State.fngLow (s : State) (c : ChanId) : Bool :=
  match s.pins.phase with
  | .strap => false
  | .run => match (s.chan c).st with
    | .init | .halted | .holdup => true
    | _ => false
  | .hold => !s.pins.acked.getD c.val false

/-- 0x1031 (20 R461). -/
def State.fingering (s : State) : List Byte :=
  [byteOf (match s.pins.phase with | .strap => 0 | .run => 1 | .hold => 2), byteOf (s.fngAlert.getD 0xE),
   byteOf ((chans.map (fun c => 2 ^ c.val * bit (s.fngLow c))).sum + 16 * bit s.pins.seenF), 0#8] ++ leBytes 4 s.pins.initDrops

/-- Code of a role (14 R354). -/
def Role.code : Role → Nat
  | .operator => 1 | .tenant => 2 | .observer => 3

/-- A row of the session table (14 R355). -/
def Session.row (x : Session) : List Byte :=
  leBytes 2 x.handle ++ [byteOf (Role.code x.role), byteOf x.keyEntry] ++ leBytes 2 x.job ++ leBytes 2 x.subs.length ++ leBytes 4 x.idle
    ++ leBytes 4 0

/-- 0x1050.01; a tenant sees only its own row (14 R353). -/
def State.sessionTable (s : State) (x : Session) : List Byte :=
  fitTo 1024 ((s.mp.sessions.map (fun (y : Session) =>
    if x.role = .tenant ∧ y.handle ≠ x.handle then List.replicate 16 0#8 else y.row)).flatten)

/-- The 72 bytes of a client key entry (14 R354). -/
def ClientKey.bytes (e : ClientKey) : List Byte := fitTo 64 e.digest ++ [byteOf e.role] ++ leBytes 2 e.job ++ leBytes 5 0

/-- A client key entry from its bytes. -/
def ClientKey.ofBytes (b : List Byte) : ClientKey := { digest := slice b 0 64, role := byteAt b 64, job := fieldLe b 65 2 }

/-- Entry 0 of the client key list: the fused operator provisioning key (14 R354). -/
def provisioningKey : ClientKey := { digest := fitTo 64 Config.provisioningDigest, role := 1 }

/-- The client key list as it stands. -/
def State.keyList (s : State) : List ClientKey := provisioningKey :: s.mram.clientKeys

/-- 0x1060.03: each entry's MAC is the part's (13 R332). -/
def State.endpointBytes (s : State) : List Byte :=
  ((List.range 5).map (fun i => fitTo 6 (Config.mac i) ++ slice s.mram.endpoints (48 * i + 6) 42)).flatten

/-- The 0x1000 block. -/
def State.identityValue (s : State) (x : Session) (index sub : Nat) : List Byte :=
  match index, sub with
  | 0x1000, _ => leBytes 4 4
  | 0x1001, _ => leBytes 4 s.errorRegister
  | 0x1008, _ => [0x45, 0x6C, 0x76, 0x65, 0x6C, 0x6F, 0x20, 0x54, 0x34]
  | 0x1018, 1 => leBytes 4 0x00004B52
  | 0x1018, 2 => leBytes 4 productCode
  | 0x1018, 3 => leBytes 4 Config.revision
  | 0x1018, 4 => leBytes 8 Config.serial
  | 0x1020, _ => leBytes 2 (s.pins.straps % 4096)
  | 0x1021, _ => leBytes 4 (s.pins.straps % 4096 + 2 ^ 15 * bit s.pins.unstable)
  | 0x1030, _ => leBytes 1 s.dev
  | 0x1031, _ => s.fingering
  | 0x1040, _ => leBytes 8 s.mp.declTime
  | 0x1050, 1 => s.sessionTable x
  | 0x1050, 2 => (s.keyList.map ClientKey.bytes).flatten
  | 0x1050, 4 => leBytes 4 s.mp.idleTimeout
  | 0x1060, 1 => leBytes 4 s.mp.host.weights
  | 0x1060, 2 => (s.mp.host.pools.map (fun n => leBytes 2 n)).flatten
  | 0x1060, 3 => s.endpointBytes
  | 0x1060, 4 => leBytes 1 s.mram.pfc
  | 0x1060, 5 => leBytes 4 (bit s.mp.host.up + 2 * s.mp.host.lanes)
  | 0x1060, 6 => (s.mp.host.cnt.map (fun n => leBytes 8 n)).flatten
  | _, _ => []

/-! ### Channel state, scores and services -/

/-- 0x2n00 (07 R188). -/
def Channel.stateWord (k : Channel) : Nat :=
  ChState.code k.st + 8 * bit k.ww.hold.isSome + 16 * (match k.ww.hold with | some h => HoldCause.code h | none => 0)
    + 128 * bit k.shadowed + 256 * k.load + 2 ^ 16 * bit k.resume

/-- 0x2n01 (21 R477). -/
def Binding.bytes (b : Binding) : List Byte :=
  leBytes 2 (b.job + 2 ^ 15 * bit b.bound) ++ leBytes 2 b.span ++ leBytes 4 0 ++ leBytes 8 b.seed

/-- 0x2n04: physical Reed and repair column by logical slot. -/
def State.reedMap (s : State) (c : ChanId) : List Byte :=
  ((s.chan c).slotMap.map (fun r => [byteOf r, byteOf (((s.store c).health.getD r {}).repair.getD 0xFF)])).flatten

/-- The 0x2n00 block. -/
def State.channelValue (s : State) (c : ChanId) (base sub : Nat) : List Byte :=
  let k := s.chan c
  let t := s.store c
  match base, sub with
  | 0x2000, _ => leBytes 4 k.stateWord
  | 0x2001, _ => k.bind.bytes
  | 0x2002, _ => leBytes 1 k.bins.requested
  | 0x2003, _ => leBytes 2 (k.active + 256 * k.spares)
  | 0x2004, _ => s.reedMap c
  | 0x2010, 3 => leBytes 2 k.ww.stopAt
  | 0x2010, 4 => leBytes 4 k.ww.phrase
  | 0x2010, 5 => leBytes 8 k.ww.beats
  | 0x2010, 6 => leBytes 8 k.ww.held
  | 0x2010, 7 => (k.ww.causeBeats.map (fun n => leBytes 8 n)).flatten ++ words32 k.ww.causeEvents
  | 0x2010, 8 => leBytes 4 k.ww.watchdog
  | 0x2010, 9 => leBytes 8 k.step
  | 0x2020, _ => (t.trims.map (fun z => leBytes 1 (ofSigned 8 z))).flatten
  | 0x2030, 5 => k.svc.shardPlan
  | 0x2030, 6 => k.svc.ckptPlan
  | 0x2030, 8 => leBytes 1 (bit t.autoRestart)
  | 0x2030, 9 => Config.serviceState (k.svc.targets.map (fun (x : Target) => (x.connected, x.errors))) k.svc.lastShard k.svc.ckpt.isSome
  | 0x2030, n => (k.svc.target (n - 1)).raw
  | 0x2031, 3 => leBytes 4 k.meas.winState
  | _, _ => []

/-! ### Numerics and Tuner -/

/-- Reed counters in the order of 03 R93. -/
def ReedCnt.list (c : ReedCnt) : List Nat :=
  [c.recompOvf, c.recompUz, c.recompLadder, c.ovfFinal, c.satOut, c.chkMismatch, c.parErr, c.inv, c.psnIn, c.wloss, c.obOvf, c.fmtFault]

/-- Quantiser counters in the order of 04 R104. -/
def quantList (c : QGrid.Counts) : List Nat :=
  [c.zbBlk, c.uzBlk, c.crushBlk, c.crushElem, c.satElem, c.psnBlk, c.codeLow, c.codeHigh, c.promote]

/-- Valve counters in the order of 06 R155. -/
def ValveCnt.list (c : ValveCnt) : List Nat := [c.vInv, c.vDz, c.vOvf, c.permOor, c.qpsn, c.vfault, c.droneSat]

/-- Tuner counters in the order of 05 R137. -/
def TunerCnt.list (c : TunerCnt) : List Nat :=
  [c.jumps, c.marginUp, c.dynOn, c.climbs, c.descents, c.clamps, c.voids, c.rollbackReq, c.actCapped, c.ladderCap, c.dynSkip]

/-- Saturating sums of lists of counters. -/
def totals32 (n : Nat) (l : List (List Nat)) : List Nat :=
  l.foldl (fun (a : List Nat) b => (List.range n).map (fun i => sat32 (a.getD i 0) (b.getD i 0))) (List.replicate n 0)

/-- A tile status word as the Chanters show it, with the identity of its tile (03 R92): 24 bytes, zeros where there is none. -/
def TileWord.bytes (w : TileWord) : List Byte :=
  leBytes 4 w.entry ++ leBytes 2 w.layer ++ [byteOf w.prod, 0#8] ++ leBytes 4 w.m0 ++ leBytes 4 w.n0 ++ leBytes 4 w.word ++ leBytes 4 0

/-- The channel totals of the counters, the Tuner counters and VOID_RUN. The format faults and quantiser events of units that belong to
no Reed are in the totals (02 R44; 04 R104). -/
def Channel.totals (k : Channel) : List Nat :=
  let rs := k.reeds.toList
  totals32 12 (({ fmtFault := k.otherFaults } : ReedCnt).list :: rs.map (fun (r : Reed) => r.cnt.list))
    ++ totals32 9 (quantList k.otherQuant :: rs.map (fun (r : Reed) => quantList r.qcnt))
    ++ [k.conv.folded, k.conv.shifted, k.conv.saturated] ++ totals32 7 (rs.map (fun (r : Reed) => r.valve.cnt.list))
    ++ k.tun.cnt.list ++ [k.tun.voidRun]

/-- 0x3n20.01: the totals; the status words of each Reed's latest four tiles, latest first (03 R92); and the quantiser sums of each layer
and operand, behind the key that names them (04 R104). DESIGN CHOICE: the manual gives the contents and no layout beyond the order of
the totals (log 73). -/
def Channel.counterBytes (k : Channel) : List Byte :=
  words32 k.totals ++ ((k.reeds.toList.map (fun (r : Reed) => (List.range 4).map (fun i => (r.words.getD i {}).bytes))).flatten).flatten
    ++ (k.tun.layerQ.map (fun (x : Nat × QGrid.Counts) => words32 (x.1 :: quantList x.2))).flatten

/-- 0x3n20.02: the ring, oldest first; a slot never written is zero (05 R120, R136). -/
def Tuner.logBytes (t : Tuner) : List Byte := fitTo 40960 ((t.log.map TunerEv.bytes).flatten)

/-- The 0x3n00 block; an RWP stop reads as its shadow (07 R189). -/
def State.numericsValue (s : State) (c : ChanId) (base sub : Nat) : List Byte :=
  let k := s.chan c
  let w := k.shadow
  let t := k.tun
  match base, sub with
  | 0x3000, _ => leBytes 1 (bit w.strict)
  | 0x3001, _ => leBytes 1 (bit w.ieee)
  | 0x3002, _ => leBytes 1 w.margin
  | 0x3003, _ => leBytes 1 w.retries
  | 0x3004, _ => leBytes 1 w.crush
  | 0x3005, _ => leBytes 1 w.outMode
  | 0x3006, _ => leBytes 1 16
  | 0x3007, _ => leBytes 2 w.promote
  | 0x3008, _ => leBytes 1 w.obThr
  | 0x3010, 1 => leBytes 2 t.stops.tau
  | 0x3010, 2 => leBytes 2 t.stops.rhoMax
  | 0x3010, 3 => leBytes 2 t.stops.quietQ
  | 0x3010, 4 => leBytes 1 t.stops.ceiling
  | 0x3010, 5 => leBytes 1 t.stops.voidsTo
  | 0x3020, 1 => k.counterBytes
  | 0x3020, 2 => t.logBytes
  | 0x3020, 3 => leBytes 4 (t.writeIx + 1024 * t.lost)
  | 0x3020, 5 => leBytes 2 t.mask
  | 0x3040, 1 => leBytes 2 t.layerSel
  | 0x3040, 2 => k.layerBytes t.layerSel
  | 0x3040, 3 => ((List.range 4096).map k.layerBytes).flatten
  | _, _ => []

/-! ### Memory -/

/-- Bytes of the class map of space 1 (21 R479). -/
def Mem.map1Length (m : Mem) : Nat := (m.cxlCap / pageBytes + 1) / 2

/-- A page map entry (09 R234). -/
def PageMap.word (e : PageMap) : Nat := e.frame + 2 ^ 20 * bit e.far + 2 ^ 21 * bit e.lock + 2 ^ 22 * bit e.valid

/-- 0x4n03 (09 R253). -/
def Mem.cxlWord (m : Mem) : Nat :=
  bit m.cxlPresent + 2 * bit m.cxlUp + 4 * m.cxlRate + 16 * m.cxlWidth + 512 * bit m.cxlTypeOk + 1024 * bit m.cxlDegraded
    + 2048 * bit m.cxlFatal

/-- Memory counters in the order of 09 R259. -/
def Mem.counters (m : Mem) : List Nat :=
  let c := m.cnt
  [c.eccCorr, c.eccUncorr, c.achkFail, c.crcA, c.crcW, c.crcC, c.odCorr, c.odUncorr, c.scrubCorr, c.scrubUncorr, c.rmwPoison,
   c.addrFault, c.pickRefused, c.wcbEvict, c.wcbRmw, c.refreshColl, c.cxlPoison, c.cxlLink, min (m.farBytes / 2 ^ 20) 0xFFFFFFFF]

/-- The 0x4n00 block. -/
def State.memoryValue (s : State) (c : ChanId) (base sub : Nat) : List Byte :=
  let m := (s.chan c).mem
  match base, sub with
  | 0x4000, 1 => leBytes 8 154618822656
  | 0x4000, 2 => leBytes 4 m.freeHbm
  | 0x4000, 3 => leBytes 4 m.checkHbm
  | 0x4000, 4 => leBytes 4 64
  | 0x4001, 1 => classMapBytes m.class0 131072
  | 0x4001, 2 => classMapBytes m.class1 m.map1Length
  | 0x4001, 3 => words32 ((List.range logicalPages).map (fun p => (SMap.get {} m.pages p).word))
  | 0x4002, 1 => leBytes 2 m.scrubRate
  | 0x4002, 2 => leBytes 1 (bit m.scrubW)
  | 0x4002, 3 => leBytes 4 m.scrubPasses
  | 0x4003, _ => leBytes 4 m.cxlWord
  | 0x4004, _ => leBytes 8 m.cxlCap
  | 0x4005, _ => leBytes 1 m.spill
  | 0x4010, 1 => words32 m.counters
  | 0x4010, 3 => leBytes 4 (s.store c).epoch
  | _, _ => []

/-! ### Bells, paths and collectives -/

/-- Codes of the port states (10 R282). -/
def PortState.code : PortState → Nat
  | .disabled => 0 | .idle => 1 | .training => 2 | .hello => 3 | .up => 4 | .dark => 5 | .down => 6

/-- A routing table's 256 entries of port `p` (12 R326). -/
def Rwp.routeBytes (w : Rwp) (p : Nat) : List Byte := words32 ((List.range 256).map (fun i => SMap.get 0 w.routes (256 * p + i)))

/-- An isolation table's bitmap of port `p` (12 R327). -/
def Rwp.isolateBytes (w : Rwp) (p : Nat) : List Byte :=
  (List.range 512).map (fun i =>
    byteOf ((List.range 8).map (fun b => 2 ^ b * bit (SMap.get false w.isolate (4096 * p + 8 * i + b)))).sum)

/-- Collective counters in the order of 11 R315. -/
def CollCnt.list (c : CollCnt) : List Nat :=
  [c.collDone, c.exchanges, c.ovfBlocks, c.repairPasses, c.repairBlocks, c.repairExhausted, c.poisonBlocks, c.scaleMismatch,
   c.digestMismatch, c.dualSamples, c.dualMismatch, c.located, c.timeouts, c.abortTx, c.abortRx, c.staleColl, c.ctxFull, c.paramMismatch]

/-- Port counters in the order of 10 R286: two of 64 bits, the rest of 32. -/
def PortCnt.bytes (c : PortCnt) : List Byte :=
  leBytes 8 c.flitsTx ++ leBytes 8 c.flitsRx
    ++ words32 [c.fecCorr, c.fecUncorr, c.crcFail, c.badType, c.nakTx, c.nakRx, c.replays, c.replayFlits, c.replayTimeout, c.replayFull,
      c.creditStall, c.lockLoss, c.down, c.isoDrop, c.pktFault, c.keyMiss, c.replayRej, c.authFail, c.routeMiss]

/-- The 0x5n00 block. -/
def State.bellValue (s : State) (c : ChanId) (base sub : Nat) : List Byte :=
  let k := s.chan c
  let o := k.coll
  match base, sub with
  | 0x5000, 1 => leBytes 1 k.paths.enable
  | 0x5000, 2 => leBytes 4 ((portIds.map (fun p => 16 ^ p.val * PortState.code (k.port p).st)).sum)
  | 0x5001, 1 => match k.paths.plan with | some p => p.bytes | none => List.replicate 64 0#8
  | 0x5001, 2 => leBytes 4 k.paths.window
  | 0x5002, 1 => k.paths.disc.bytes k.paths.plan.isSome
  | 0x5003, n => k.shadow.routeBytes (n - 1)
  | 0x5004, n => k.shadow.isolateBytes (n - 1)
  | 0x5010, 1 => leBytes 4 o.floor
  | 0x5010, 2 => leBytes 2 o.factor
  | 0x5010, 3 => leBytes 2 o.interval
  | 0x5010, 4 => leBytes 1 o.margin
  | 0x5010, 5 => leBytes 1 o.raise
  | 0x5010, 6 => leBytes 1 o.policy
  | 0x5010, 7 => leBytes 1 o.repeats
  | 0x5010, 8 => words32 o.cnt.list
  | 0x5020, n => match portId? (n - 1) with | some p => (k.port p).cnt.bytes | none => []
  | _, _ => []

/-! ### Faults, checkpoints and Études -/

/-- An error log, oldest first (17 R413). -/
def ErrLog.bytes (l : ErrLog) : List Byte := fitTo 10240 ((l.ring.map ErrEntry.bytes).flatten)

/-- A checkpoint status entry (17 R422). -/
def Ckpt.bytes (x : Ckpt) : List Byte :=
  leBytes 8 x.step ++ leBytes 4 x.wver ++ [byteOf x.state, byteOf x.mode, byteOf x.depth, byteOf x.targets] ++ leBytes 8 x.cleanAt
    ++ leBytes 8 x.decl

/-- An Étude result entry (18 R438). -/
def EtudeResult.bytes (x : EtudeResult) : List Byte :=
  leBytes 8 x.step ++ leBytes 2 x.etude ++ [byteOf x.reed, byteOf x.phase, byteOf x.result, byteOf (ofSigned 8 x.bin),
    byteOf (ofSigned 8 x.trim), byteOf x.tj] ++ leBytes 8 0

/-- A Reed's health byte (18 R437). -/
def Health.code (h : Health) : Nat := h.state + 4 * bit h.spare + 8 * h.raises + 128 * bit h.stressOk

/-- A channel's part of 0x6010.03 (18 R428). -/
def Etude.bytes (e : Etude) : List Byte :=
  [byteOf (match e.run with | some r => r.reed | none => 0xFF), byteOf e.queue.length, byteOf (bit e.window), byteOf e.overdue.length]
    ++ leBytes 12 0

/-- One part per channel; a tenant sees the parts of other channels as zeros (14 R353). -/
def State.perChannelBytes (s : State) (x : Session) (f : ChanId → List Byte) : List Byte :=
  (chans.map (fun c => if x.seesChannel (s.chan c) then f c else (f c).map (fun _ => 0#8))).flatten

/-- The same for one channel. -/
def State.oneChannelBytes (s : State) (x : Session) (n : Nat) (f : ChanId → List Byte) : List Byte :=
  match chanId? n with
  | some c => if x.seesChannel (s.chan c) then f c else (f c).map (fun _ => 0#8)
  | none => []

/-- The 0x6000 block. -/
def State.faultValue (s : State) (x : Session) (index sub : Nat) : List Byte :=
  let m := s.mp
  match index, sub with
  | 0x6000, 5 => m.log.bytes
  | 0x6000, n => s.oneChannelBytes x (n - 1) (fun c => (s.chan c).err.log.bytes)
  | 0x6002, _ => leBytes 1 m.detDepth
  | 0x6003, 5 => s.perChannelBytes x (fun c => leBytes 8 (m.declClean.getD c.val 0))
  | 0x6003, n => s.oneChannelBytes x (n - 1) (fun c => fitTo 512 (((s.store c).ckpts.map Ckpt.bytes).flatten))
  | 0x6004, _ => leBytes 1 s.mram.haltPolicy
  | 0x6010, 1 =>
    let p := (s.comp 2).active
    [byteOf p.svn] ++ leBytes 3 0 ++ leBytes 4 p.entries ++ p.bodyDigest 2
  | 0x6010, 2 => s.mram.supplement
  | 0x6010, 3 => s.perChannelBytes x (fun c => (s.chan c).etude.bytes)
  | 0x6010, 4 => s.perChannelBytes x (fun c => fitTo 3072 (((s.chan c).etude.log.map EtudeResult.bytes).flatten))
  | 0x6011, _ => leBytes 4 m.testInterval
  | 0x6012, _ => leBytes 2 m.deferral
  | 0x6013, _ => (m.stress.map (fun z => leBytes 1 (ofSigned 8 z))).flatten
  | 0x6014, _ => leBytes 4 m.winInterval
  | 0x6015, _ => leBytes 2 m.winLength
  | 0x6020, _ => leBytes 1 m.suspectSteps
  | 0x6030, 1 => leBytes 2 s.mram.largeJob
  | 0x6030, 2 => s.perChannelBytes x (fun c => (s.store c).health.map (fun (h : Health) => byteOf h.code))
  | 0x6030, 3 => s.perChannelBytes x (fun c => leBytes 1 (s.store c).binFloor)
  | _, _ => []

/-! ### Power, security and meter -/

/-- 0x7006 (19 R453). -/
def Holdup.bytes (h : Holdup) : List Byte :=
  leBytes 4 h.hseq ++ [byteOf h.trig, byteOf h.outcome, byteOf h.saved, byteOf h.state] ++ leBytes 2 (min h.vT0 0xFFFF)
    ++ leBytes 2 (min h.vMin 0xFFFF) ++ leBytes 4 h.tSave ++ leBytes 4 h.tHold ++ leBytes 8 h.decl ++ leBytes 4 0

/-- The power state (19 R441, R456). -/
def State.powerCode (s : State) : Nat :=
  if s.power.lb.isSome then 4
  else if s.power.standby || s.power.returning then 3
  else if !s.anyRunning then 2
  else if chans.any (fun c => let b := (s.chan c).bins
      (s.chan c).running && decide (max b.requested (s.store c).binFloor < max b.cap b.thermal)) then 1
  else 0

/-- A nibble per channel. -/
def nibbles (f : ChanId → Nat) : Nat := (chans.map (fun c => 16 ^ c.val * f c)).sum

/-- 0x7007.01 (19 R456). -/
def State.powerBytes (s : State) : List Byte :=
  let p := s.power
  let thermal := chans.any (fun c => let b := (s.chan c).bins
    decide (max (max b.requested (s.store c).binFloor) b.cap < b.thermal))
  [byteOf (s.powerCode + 16 * p.boardLevel),
   byteOf (bit p.ov + 2 * bit p.lowv + 4 * bit (decide (p.swCap < 1800 ∧ p.swCap ≤ s.boardCap))
     + 8 * bit (decide (s.boardCap < 1800 ∧ s.boardCap < p.swCap)) + 16 * bit thermal + 32 * bit p.capUnmet)]
    ++ leBytes 2 (nibbles (fun c => s.effBin c)) ++ leBytes 2 (nibbles (fun c => (s.chan c).bins.cap)) ++ leBytes 2 p.ovEvents

/-- A component's part of 0x8006.02 (15 R376). -/
def Component.bytes (x : Component) : List Byte :=
  [byteOf (bit x.activeB), byteOf (if x.pending then bit (!x.activeB) else 0xFF), byteOf x.active.svn,
   byteOf (if x.pending then x.inactive.svn else Config.noPendingSvn), byteOf x.lastResult] ++ leBytes 3 0

/-- A channel log of 0x8007.02 to .05 (15 R380). -/
def State.channelLog (s : State) (n : Nat) : List Byte :=
  match chanId? n with
  | some c => s.sectionHead c ++ ((s.chan c).meas.log.map MeasEntry.bytes).flatten
  | none => []

/-- 0x9000 (16 R399). -/
def State.meterIdentity (s : State) : List Byte :=
  let m := s.mp.mirror
  leBytes 8 Config.meterSerial ++ fitTo 32 Config.meterApproval ++ fitTo 1793 Config.meterPub ++ fitTo 1282 Config.meterVendorSig
    ++ [byteOf m.sealSt, byteOf (Config.meterFlags s.mp.meterLink m.clockOk)] ++ leBytes 3 0 ++ leBytes 4 m.pup ++ leBytes 4 m.lost

/-- 0x9005: the section of seal events, then the ring (16 R395). -/
def Meter.eventBytes (m : Meter) : List Byte :=
  let part := fun (n : Nat) (l : List MeterEvent) =>
    (l.map MeterEvent.bytes).flatten ++ List.replicate (32 * (n - l.length)) Config.emptyEvent
  part 64 m.seals ++ part 2048 m.ring

/-- The 0x7000, 0x8000 and 0x9000 blocks. A report or read-out that has not been made for the session has no value. -/
def State.powerValue (s : State) (x : Session) (index sub : Nat) : List Byte :=
  let m := s.mp.mirror
  match index, sub with
  | 0x7000, _ => leBytes 4 s.power.vin
  | 0x7001, _ => leBytes 4 s.power.input
  | 0x7002, _ => leBytes 2 s.power.swCap
  | 0x7003, _ => leBytes 2 s.cap
  | 0x7004, _ => leBytes 4 s.mram.sagThreshold
  | 0x7005, _ => leBytes 4 s.mram.capacitance
  | 0x7006, _ => s.mram.holdup.bytes
  | 0x7007, 1 => s.powerBytes
  | 0x8000, _ => leBytes 4 s.secState
  | 0x8002, _ => x.report.getD []
  | 0x8003, _ => fitTo 1793 Config.identityPub ++ s.certificate
  | 0x8004, _ => leBytes 4 (if s.fuses.prod then Config.keyDomain else 0)
  | 0x8005, 1 => leBytes 1 (bit s.mram.conf)
  | 0x8005, 3 => fitTo 2851 s.mp.encapReply
  | 0x8006, 2 => (s.mram.comps.map Component.bytes).flatten
  | 0x8007, 1 => s.bootBytes
  | 0x8007, n => s.channelLog (n - 2)
  | 0x9000, _ => s.meterIdentity
  | 0x9001, _ => fitTo 96 Config.meterLegal
  | 0x9002, _ => leBytes 8 m.total
  | 0x9003, _ => m.channelBytes
  | 0x9004, _ =>
    ((m.records.filter (fun (r : JobRecord) => x.role != .tenant || r.job == x.job)).map JobRecord.bytes).flatten
  | 0x9005, _ => m.eventBytes
  | 0x9007, _ => x.readout.getD []
  | _, _ => []

/-! ### A stop's value -/

/-- The value a READ of a stop returns to a session. -/
def State.stopValue (s : State) (x : Session) (index sub : Nat) : List Byte :=
  if sub = 0 ∧ topSub index ≠ 0 then leBytes 1 (topSub index)
  else match stopChan index with
    | some c =>
      let base := stopBase index
      if base < 0x3000 then s.channelValue c base sub
      else if base < 0x4000 then s.numericsValue c base sub
      else if base < 0x5000 then s.memoryValue c base sub
      else s.bellValue c base sub
    | none =>
      if index < 0x2000 then s.identityValue x index sub
      else if index < 0x7000 then s.faultValue x index sub
      else s.powerValue x index sub

/-- What a READ of a log marks as read (17 R414): the channel's or the Mouthpiece's error log, for a session that sees it. -/
def State.markRead (s : State) (x : Session) (index sub : Nat) : State :=
  if index ≠ 0x6000 then s
  else if sub = 5 then s.modMp (fun m => { m with log := { m.log with unread := 0 } })
  else match chanId? (sub - 1) with
    | some c =>
      if sub ≠ 0 ∧ x.seesChannel (s.chan c) then
        s.modChan c (fun k => { k with err := { k.err with log := { k.err.log with unread := 0 } } })
      else s
    | none => s

end Sys2Proof.Machine
end

