-- ==== Sys2Proof/Machine/StopWrite.lean ====
section
/-! DEFINITION. Writes of the stops: the ranges of each stop, the run-time lock, and what an accepted write does (07 R185 to R190;
09 R232, R233; 12 R319, R326, R327; 13 R333 to R345; 14 R351, R354; 15 R373 to R381; 16 R397; 17 R415; 18 R427 to R429, R437;
19 R442; 20 R468, R469; 21 R475 to R482). -/

namespace Sys2Proof.Machine

open Sys2Proof

/-- What a write meets that its bytes do not say: whether the staging slot took the image (15 R371, step 8), after how many fuses a
sag came, and whether a sag interrupted the programming of the operator slot (15 R375, R376). -/
structure WriteObs where
  stored : Bool := true
  sagAfter : Option Nat := none
  interrupted : Bool := false
deriving DecidableEq, Repr

/-! ### Ranges (14 R359, step 7) -/

/-- A value of the shard plan is out of range (13 R336). -/
def Channel.shardPlanBad (k : Channel) (d : List Byte) : Bool :=
  let p := ShardPlan.ofBytes d
  let t := k.svc.target p.src
  let (base, span) := t.lbas
  3 < p.src || !allZero (slice d 1 3) || !allZero (slice d 37 3) || p.slots < 2 || 8 < p.slots || p.count == 0 || p.shards == 0
    || p.ring % 32 != 0 || p.slotLen % 32 != 0 || decide (p.slotLen < p.count * Config.lbaSize t.raw) || !bitOf t.role 0
    || decide (p.lba0 < base ∨ base + span < p.lba0 + (p.shards - 1) * p.stride + p.count)
    || decide (logicalPages * pageBytes < p.ring + p.slots * p.slotLen) || !k.mem.inClass 0 p.ring (p.slots * p.slotLen)

/-- A value of the checkpoint plan is out of range (13 R338). -/
def Channel.ckptPlanBad (k : Channel) (d : List Byte) : Bool :=
  let mode := byteAt d 4
  let p := k.svc.target (byteAt d 5)
  let q := k.svc.target (byteAt d 6)
  2 < mode || 3 < byteAt d 5 || 3 < byteAt d 6 || !allZero (slice d 7 9) || (fieldLe d 0 4 == 0 && mode != 0)
    || (mode != 0 && !bitOf p.role 1) || (mode != 2 && byteAt d 6 != 0)
    || (mode == 2 && (byteAt d 5 == byteAt d 6 || !bitOf q.role 1 || p.site == q.site))

/-- A class map holds a reserved value by itself: CLASS 0b11, COLD in space 1, VALID beyond the far tier, or the spare nibble of an
odd page count (09 R233; 21 R479). -/
def Mem.mapBad (m : Mem) (space1 : Bool) (d : List Byte) : Bool :=
  let nib := (d.map (fun (b : Byte) => [b.toNat % 16, b.toNat / 16])).flatten
  nib.any (fun v => v % 4 == 3) || (space1 && (nib.any (fun v => bitOf v 2) || (nib.drop (m.cxlCap / pageBytes)).any (· != 0)))

/-- A routing table is out of range (12 R326). -/
def routesBad (p : Nat) (d : List Byte) : Bool :=
  let used := ((List.range 256).map (fun i => fieldLe d (4 * i) 4)).filter (fun w => bitOf w 15)
  used.any (fun w => bitsOf w 14 12 == p) || !(used.map (fun w => w % 4096)).Nodup

/-- A supplement that is no Étude BODY with SETS bit 2 set in every entry, followed by a key and a signature (18 R425, R427). -/
def supplementBad (d : List Byte) : Bool :=
  let n := fieldLe d 6 2
  d.length < 3091 || fieldLe d 0 4 != 0x54455645 || fieldLe d 4 2 != 1 || n == 0 || 1024 < n || !allZero (slice d 8 8)
    || d.length < 3091 + 48 * n || (List.range n).any (fun i => !bitOf (byteAt d (16 + 48 * i + 3)) 2)

/-- The value is out of the stop's own range (14 R350; 21 R475 to R482). -/
def State.valueBad (s : State) (index sub : Nat) (d : List Byte) : Bool :=
  let v := ofLe d
  match stopChan index with
  | some c =>
    let k := s.chan c
    match stopBase index, sub with
    | 0x2001, _ =>
      bitsOf (fieldLe d 0 2) 14 12 != 0 || !allZero (slice d 4 4)
        || (bitOf (fieldLe d 0 2) 15 && decide (fieldLe d 2 2 = 0 ∨ 4096 < fieldLe d 2 2))
    | 0x2003, _ => v != k.active + 256 * k.spares
    | 0x2010, 1 => fieldLe d 12 4 != 0
    | 0x2020, _ => d.any (fun (b : Byte) => let z := toSigned 8 b.toNat; decide (z < -50 ∨ 50 < z))
    | 0x2030, 5 => k.shardPlanBad d
    | 0x2030, 6 => k.ckptPlanBad d
    | 0x2031, 1 => fieldLe d 0 8 % 32 != 0 || fieldLe d 8 8 % 32 != 0 || fieldLe d 8 8 == 0
    | 0x4001, 1 => k.mem.mapBad false d
    | 0x4001, 2 => k.mem.mapBad true d
    | 0x5001, 1 => k.planBad (s.self c) d
    | 0x5003, n => routesBad (n - 1) d
    | _, _ => false
  | none =>
    match index, sub with
    | 0x1050, 2 => (List.range 15).any (fun i => 3 < byteAt d (72 * (i + 1) + 64) || !allZero (slice d (72 * (i + 1) + 67) 5))
    | 0x1050, 3 => (s.session? v).isNone
    | 0x1060, 1 => d.any (fun (b : Byte) => b == 0#8)
    | 0x1060, 2 => decide (4096 < ((List.range 4).map (fun i => fieldLe d (2 * i) 2)).sum)
    | 0x1060, 4 => decide (2 < ((List.range 8).filter (fun i => bitOf v i)).length)
    | 0x6010, 2 => supplementBad d
    | 0x6013, _ =>
      let z := toSigned 8 (byteAt d 0)
      decide (z < -60 ∨ 0 < z) || 2 < byteAt d 1 || byteAt d 2 < 85 || 100 < byteAt d 2 || byteAt d 3 < 5 || 50 < byteAt d 3
    | 0x6030, 4 => (67 < v % 256 && v % 256 != 0xFF) || 1024 ≤ v
    | 0x7007, 2 => v != 0 && v != 2
    | 0x8006, 3 => bitsOf v 6 3 != 0
    | _, _ => false

/-- Length of a written value where the table leaves it to the state: the class map of space 1 (21 R479). -/
def State.lengthBad (s : State) (index sub : Nat) (n : Nat) : Bool :=
  match stopChan index with
  | some c => stopBase index == 0x4001 && sub == 2 && n != (s.chan c).mem.map1Length
  | none => false

/-! ### The run-time lock (07 R189; 14 R351, R359, step 8) -/

/-- An RWL stop is locked. `d` is the value to be written; the pools are locked only for a running channel whose pool changes. -/
def State.locked (s : State) (index sub : Nat) (d : Option (List Byte)) : Bool :=
  match stopChan index with
  | some c => (s.chan c).running
  | none =>
    if index = 0x1060 ∧ sub = 2 then
      match d with
      | none => false
      | some d => chans.any (fun c => (s.chan c).running && fieldLe d (2 * c.val) 2 != s.mp.host.pools.getD c.val 0)
    else s.anyRunning

/-! ### Identity and communication -/

/-- Sessions and handshakes that satisfy `hit` close; their subscriptions, staged values and reports go with them (14 R355, R365;
15 R383). -/
def State.closeSessions (s : State) (hit : Session → Bool) : State :=
  s.modMp (fun m => { m with sessions := m.sessions.filter (fun (x : Session) => !hit x) })

/-- The client key list is replaced; a key entry that changes closes its sessions and gives up its handshakes (14 R354). -/
def State.writeKeys (s : State) (d : List Byte) : State :=
  let new := (List.range 15).map (fun i => ClientKey.ofBytes (slice d (72 * (i + 1)) 72))
  let gone := fun (e : Nat) => e != 0 && (new.getD (e - 1) {}).bytes != (s.mram.clientKeys.getD (e - 1) {}).bytes
  let t : State := { s with mram := { s.mram with clientKeys := new } }
  (t.closeSessions (fun (x : Session) => gone x.keyEntry)).modMp (fun m =>
    { m with opens := m.opens.filter (fun (o : Opening) => !gone o.keyEntry) })

/-- The declared time is set and carried to the meter (00 R28; 16 R385, R392). -/
def State.declare (s : State) (v : Nat) : State :=
  let s := s.modMp (fun m => { m with declTime := v })
  if s.mp.meterLink && s.meter.powered then s.modMeter (fun m => { m with decl := v }) else s

/-- Writes of the 0x1000 block. -/
def State.applyIdentity (s : State) (index sub : Nat) (d : List Byte) : Nat × State :=
  let v := ofLe d
  match index, sub with
  | 0x1012, _ => (if chans.any (fun c => (s.chan c).bind.bound) then 0x0608 else 0, s)
  | 0x1040, _ => (0, s.declare v)
  | 0x1050, 2 => (0, s.writeKeys d)
  | 0x1050, 3 => (0, s.closeSessions (fun (x : Session) => x.handle == v))
  | 0x1050, 4 => (0, s.modMp (fun m => { m with idleTimeout := v }))
  | 0x1060, 1 => (0, s.modMp (fun m => { m with host := { m.host with weights := v } }))
  | 0x1060, 2 => (0, s.modMp (fun m => { m with host := { m.host with pools := (List.range 4).map (fun i => fieldLe d (2 * i) 2) } }))
  | 0x1060, 3 => (0, { s with mram := { s.mram with
      endpoints := ((List.range 5).map (fun i => List.replicate 6 0#8 ++ slice d (48 * i + 6) 42)).flatten } })
  | 0x1060, 4 => (0, { s with mram := { s.mram with pfc := v } })
  | _, _ => (0x0608, s)

/-! ### Channel state, scores and services -/

/-- A job binding write (21 R477); an epoch that would wrap refuses the binding and is logged (09 R243). -/
def State.writeBinding (s : State) (c : ChanId) (d : List Byte) : Nat × State :=
  let k := s.chan c
  let b : Binding := { job := fieldLe d 0 2 % 4096, span := fieldLe d 2 2, seed := fieldLe d 8 8 }
  if bitOf (fieldLe d 0 2) 15 then
    if k.bind.bound || k.st != .ready || s.bindForbidden c b then (0x0608, s)
    else if (s.store c).epoch = 0xFFFFFFFF then (0x0608, s.firmwareError c .epochExhausted .H 8 0 anyDetail)
    else (0, s.bindJob c b)
  else if k.st != .ready && k.st != .loaded then (0x0608, s)
  else if !k.bind.bound then (0, s)
  else (0, s.unbindJob c)

/-- Why Start is refused (07 R187, R188; 12 R324; 15 R380; 19 R442, R452). -/
def State.startForbidden (s : State) (c : ChanId) (mode : Nat) : Bool :=
  let k := s.chan c
  let short := k.paths.disc.short && !(match k.paths.plan with | some p => p.fallback | none => false)
  k.st != .loaded || k.load == 1 || k.score.isNone || k.resume || k.meas.winState != 0 || s.power.standby || s.power.returning
    || (k.bind.bound && k.paths.plan.isSome && (k.paths.disc.status == 1 || short)) || (mode == 1 && k.ww.started)

/-- A weight load window is opened; its checks run in the order of 15 R380. -/
def Channel.openWindow (k : Channel) (d : List Byte) : Nat × Channel :=
  let a := fieldLe d 0 8
  let n := fieldLe d 8 8
  if !k.bind.bound || k.running || k.meas.winState != 0 then (0x0608, k)
  else if logicalPages * pageBytes < a + n || !k.mem.inClass 1 a n then (0x0606, k)
  else (0, { k with meas := { k.meas with winState := 1, winAddr := a, winLen := n } })

/-- Writes of the 0x2n00 block. -/
def State.applyChannel (s : State) (c : ChanId) (base sub : Nat) (d : List Byte) : Nat × State :=
  let k := s.chan c
  let v := ofLe d
  match base, sub with
  | 0x2001, _ => s.writeBinding c d
  | 0x2002, _ => (0, (s.modChan c (fun k => { k with bins := { k.bins with requested := v } })).retuneStopped c)
  | 0x2003, _ => (0, s)
  | 0x2005, _ => if k.st == .holdup then (0x0608, s) else (0, s.channelReset c)
  | 0x2010, 1 =>
    if (k.st != .ready && k.st != .loaded) || !k.bind.bound || k.load == 1 then (0x0608, s)
    else (0, s.modChan c (fun k => { k with load := 1, loading := some (fieldLe d 0 8, fieldLe d 8 4) }))
  | 0x2010, 2 =>
    if s.startForbidden c v then (0x0608, s)
    else if v = 1 then (0, s.startScore c)
    else (0, s.startStep c)
  | 0x2010, 3 => (0, s.modChan c (fun k => { k with ww := { k.ww with stopAt := v } }))
  | 0x2010, 8 => (0, s.modChan c (fun k => { k with ww := { k.ww with watchdog := v } }))
  | 0x2020, _ => (0, s.modStore c (fun t => { t with trims := d.map (fun (b : Byte) => toSigned 8 b.toNat) }))
  | 0x2030, 5 => (0, s.modChan c (fun k => { k with svc := { k.svc with shardPlan := d, resident := [], fetching := [] } }))
  | 0x2030, 6 => (0, s.modChan c (fun k => { k with svc := { k.svc with ckptPlan := d } }))
  | 0x2030, 7 =>
    if k.st != .ready || !k.bind.bound then (0x0608, s)
    else (0, s.modChan c (fun k => { k with svc := { k.svc with restart := some {} } }))
  | 0x2030, 8 => (0, s.modStore c (fun t => { t with autoRestart := v == 1 }))
  | 0x2030, n => (0, s.modChan c (fun k => { k with svc := k.svc.modTarget (n - 1) (fun _ => { raw := d }) }))
  | 0x2031, 1 => let r := k.openWindow d; (r.1, s.setChan c r.2)
  | 0x2031, 2 =>
    if k.meas.winState != 1 then (0x0608, s)
    else (0, s.modChan c (fun k => { k with meas := { k.meas with winState := 2 } }))
  | _, _ => (0x0608, s)

/-! ### Numerics and Tuner -/

/-- A write of an RWP stop goes into the shadow, and SHADOW is set; into the live copy too while the channel is not running (07 R189). -/
def Channel.writeRwp (k : Channel) (f : Rwp → Rwp) : Channel :=
  { k with shadow := f k.shadow, live := if k.running then k.live else f k.live, shadowed := k.shadowed || k.running }

/-- The value of an RWP stop of the 0x3n00 block. -/
def Rwp.put (w : Rwp) (base v : Nat) : Rwp :=
  match base with
  | 0x3000 => { w with strict := v == 1 }
  | 0x3001 => { w with ieee := v == 1 }
  | 0x3002 => { w with margin := v }
  | 0x3003 => { w with retries := v }
  | 0x3004 => { w with crush := v }
  | 0x3005 => { w with outMode := v }
  | 0x3007 => { w with promote := v }
  | 0x3008 => { w with obThr := v }
  | _ => w

/-- Writes of the 0x3n00 block. -/
def Channel.applyNumerics (k : Channel) (base sub : Nat) (d : List Byte) : Channel :=
  let v := ofLe d
  let stops := fun (f : TunerStops → TunerStops) => { k with tun := { k.tun with stops := f k.tun.stops } }
  match base, sub with
  | 0x3010, 1 => stops (fun t => { t with tau := v })
  | 0x3010, 2 => stops (fun t => { t with rhoMax := v })
  | 0x3010, 3 => stops (fun t => { t with quietQ := v })
  | 0x3010, 4 => stops (fun t => { t with ceiling := v })
  | 0x3010, 5 => stops (fun t => { t with voidsTo := v })
  | 0x3020, 4 =>
    let k := if bitOf v 0 then k.clearCounters else k
    if bitOf v 1 then k.clearTunerLog else k
  | 0x3020, 5 => { k with tun := { k.tun with mask := v } }
  | 0x3040, 1 => { k with tun := { k.tun with layerSel := v } }
  | b, _ => k.writeRwp (fun w => w.put b v)

/-! ### Memory -/

/-- Tier addresses of the frames whose contents a class map write takes away: those of pages that are not kept, and those that new pages
take (09 R233). -/
def Mem.mapGone (m : Mem) (new0 new1 : SMap PageEnt) (pages : SMap PageMap) : List Nat :=
  let dropped := (m.pages.filter (fun (e : Nat × PageMap) => e.2.valid && !keptPage m.class0 new0 e.1)).map (fun e => frameKey e.2)
  let placed := (pages.filter (fun (e : Nat × PageMap) => e.2.valid && !(SMap.get {} m.pages e.1).valid)).map (fun e => frameKey e.2)
  let gone1 := ((m.class1 ++ new1).filter (fun (e : Nat × PageEnt) => !keptPage m.class1 new1 e.1)).map
    (fun e => farBase + e.1 * pageBytes)
  dropped ++ placed ++ gone1

/-- A class map is written: the whole map is checked, then its pages are placed, and the frames of pages that are not kept lose their
contents (09 R233). -/
def Channel.writeMap (k : Channel) (space1 : Bool) (d : List Byte) : Nat × Channel :=
  if !k.bind.bound || k.meas.winState != 0 then (0x0608, k)
  else
    let m := k.mem
    let new0 := if space1 then m.class0 else classMapOf d logicalPages
    let new1 := if space1 then classMapOf d (m.cxlCap / pageBytes) else m.class1
    let touched := m.pages.any (fun (e : Nat × PageMap) => e.2.lock && !keptPage m.class0 new0 e.1)
    let clash := m.pages.any (fun (e : Nat × PageMap) =>
      e.2.valid && e.2.far && keptPage m.class0 new0 e.1 && (SMap.get {} new1 e.2.frame).valid)
    if touched || clash then (0x0606, k)
    else match m.placeMap new0 new1 with
      | none => (0x0606, k)
      | some (pages, hbm, far) =>
        let m := (m.mapGone new0 new1 pages).foldl Mem.forgetFrame m
        (0, { k with mem := { m with class0 := new0, class1 := new1, pages := pages, checkHbm := hbm, checkFar := far, scrubAt := 0 } })

/-- Writes of the 0x4n00 block. -/
def Channel.applyMemory (k : Channel) (base sub : Nat) (d : List Byte) : Nat × Channel :=
  let v := ofLe d
  let put := fun (f : Mem → Mem) => (0, { k with mem := f k.mem })
  match base, sub with
  | 0x4001, 1 => k.writeMap false d
  | 0x4001, 2 => k.writeMap true d
  | 0x4002, 1 => put (fun m => { m with scrubRate := v })
  | 0x4002, 2 => put (fun m => { m with scrubW := v == 1 })
  | 0x4005, _ => put (fun m => { m with spill := v })
  | 0x4010, 2 => put (fun m => if bitOf v 0 then { m with cnt := {}, farBytes := 0 } else m)
  | _, _ => (0x0608, k)

/-! ### Bells, paths and collectives -/

/-- Entries `base` to `base + n - 1` of a map from a function of their places. -/
def fillMap {V : Type} [DecidableEq V] (dflt : V) (m : SMap V) (base n : Nat) (f : Nat → V) : SMap V :=
  (List.range n).foldl (fun (a : SMap V) i => SMap.set dflt a (base + i) (f i)) m

/-- Writes of the 0x5n00 block; in standby ports stay idle (19 R442). -/
def Channel.applyBell (k : Channel) (standby : Bool) (base sub : Nat) (d : List Byte) : Nat × Channel :=
  let v := ofLe d
  let put := fun (f : Colls → Colls) => (0, { k with coll := f k.coll })
  match base, sub with
  | 0x5000, 1 =>
    let k := ({ k with paths := { k.paths with enable := v } }).wakePorts
    (0, if standby then k.idlePorts else k)
  | 0x5001, 1 => (0, k.applyPlan (Plan.ofBytes d) standby)
  | 0x5001, 2 => (0, { k with paths := { k.paths with window := v } })
  | 0x5003, n => (0, k.writeRwp (fun w => { w with routes := fillMap 0 w.routes (256 * (n - 1)) 256 (fun i => fieldLe d (4 * i) 4) }))
  | 0x5004, n => (0, k.writeRwp (fun w =>
      { w with isolate := fillMap false w.isolate (4096 * (n - 1)) 4096 (fun i => bitOf (byteAt d (i / 8)) (i % 8)) }))
  | 0x5010, 1 => put (fun o => { o with floor := v })
  | 0x5010, 2 => put (fun o => { o with factor := v })
  | 0x5010, 3 => put (fun o => { o with interval := v })
  | 0x5010, 4 => put (fun o => { o with margin := v })
  | 0x5010, 5 => put (fun o => { o with raise := v })
  | 0x5010, 6 => put (fun o => { o with policy := v })
  | 0x5010, 7 => put (fun o => { o with repeats := v })
  | 0x5010, 9 => put (fun o => if bitOf v 0 then { o with cnt := {} } else o)
  | 0x5020, 9 => (0, portIds.foldl (fun (k : Channel) p =>
      if bitOf v p.val then k.modPort p (fun q => { q with cnt := {} }) else k) k)
  | _, _ => (0x0608, k)

/-! ### Faults, checkpoints and Études -/

/-- A log is cleared: its ring, its field of 0x1001 and its LOST bit; SEQ goes on (17 R415). -/
def ErrLog.clear (l : ErrLog) : ErrLog := { l with ring := [], top := 0, lost := false, unread := 0 }

/-- LOG_CLEAR: the logs named by a mask. -/
def State.clearLogs (s : State) (mask : Nat) : State :=
  let s := chans.foldl (fun (s : State) c =>
    if bitOf mask c.val then s.modChan c (fun k => { k with err := { k.err with log := k.err.log.clear } }) else s) s
  if bitOf mask 4 then s.modMp (fun m => { m with log := m.log.clear }) else s

/-- A write of 0x6030.04: the named Reeds are suspect again, and with Reed 0xFF the bin floor is cleared too (18 R437). -/
def State.writeReinstate (s : State) (v : Nat) : Nat × State :=
  match chanId? (v / 256) with
  | none => (0x0606, s)
  | some c =>
    if (s.chan c).running then (0x0608, s)
    else if v % 256 = 0xFF then
      (0, ((s.modStore c (fun t => { t with binFloor := 0 })).reinstate c allReeds).retuneStopped c)
    else (0, s.reinstate c [v % 256])

/-- A supplement is stored once its key and signature stand (18 R427). -/
def State.writeSupplement (s : State) (d : List Byte) : Nat × State :=
  match s.fuses.opSlot with
  | none => (0x0608, s)
  | some slot =>
    let n := d.length - 3075
    let pub := slice d n 1793
    if Hash.shake512 pub ≠ slot || !signedBy pub (slice d (n + 1793) 1282) (d.take n) then (0x0606, s)
    else (0, { s with mram := { s.mram with supplement := d } })

/-- Writes of the 0x6000 block. -/
def State.applyFault (s : State) (index sub : Nat) (d : List Byte) : Nat × State :=
  let v := ofLe d
  match index, sub with
  | 0x6001, _ => (0, s.clearLogs v)
  | 0x6002, _ => (0, s.modMp (fun m => { m with detDepth := v }))
  | 0x6003, _ => (0, s.modMp (fun m => { m with declClean := (List.range 4).map (fun i => fieldLe d (8 * i) 8) }))
  | 0x6004, _ => (0, { s with mram := { s.mram with haltPolicy := v } })
  | 0x6010, _ => s.writeSupplement d
  | 0x6011, _ => (0, s.modMp (fun m => { m with testInterval := v }))
  | 0x6012, _ => (0, s.modMp (fun m => { m with deferral := v }))
  | 0x6013, _ => (0, s.modMp (fun m => { m with
      stress := [toSigned 8 (byteAt d 0), (byteAt d 1 : Int), (byteAt d 2 : Int), (byteAt d 3 : Int)] }))
  | 0x6014, _ => (0, s.modMp (fun m => { m with winInterval := v }))
  | 0x6015, _ => (0, s.modMp (fun m => { m with winLength := v }))
  | 0x6020, _ => (0, s.modMp (fun m => { m with suspectSteps := v }))
  | 0x6030, 1 => (0, { s with mram := { s.mram with largeJob := v } })
  | 0x6030, 4 => s.writeReinstate v
  | _, _ => (0x0608, s)

/-! ### Power, security and meter -/

/-- The Mouthpiece's result code after fuse programming failed (15 R376). -/
def State.fuseFailed (s : State) : State := s.modComp 0 (fun x => { x with lastResult := Config.fuseFailure % 255 + 1 })

/-- 0x8006.04: MIN_SVN is raised to the SVN of the active Mouthpiece image, a fuse at a time; a sag ends the raise at the fuses that
have been blown (15 R374, R376). The second part tells whether an answer is sent. -/
def State.raiseSvn (s : State) (o : WriteObs) : Option Nat × State :=
  let svn := (s.comp 0).active.svn
  if svn ≤ s.fuses.minSvn ∨ 64 < svn then (some 0x0606, s)
  else if s.power.vin ≤ 66000 then (some 0x0608, s)
  else match o.sagAfter with
    | none => (some 0, { s with fuses := { s.fuses with minSvn := svn } })
    | some n =>
      let t : State := { s with fuses := { s.fuses with minSvn := min svn (s.fuses.minSvn + n) } }
      (none, t.fuseFailed)

/-- 0x8006.05: the operator slot is programmed into the next copy of its fuses (15 R375, R376). -/
def State.programSlot (s : State) (d : List Byte) (o : WriteObs) : Option Nat × State :=
  if s.fuses.opSlot.isSome ∨ 2 ≤ s.fuses.opSpent ∨ s.power.vin ≤ 66000 then (some 0x0608, s)
  else
    let t : State := { s with fuses := { s.fuses with opSpent := s.fuses.opSpent + 1 } }
    if o.interrupted then (none, t.fuseFailed)
    else (some 0, { t with fuses := { t.fuses with opSlot := some d } })

/-- 0x8005.02: keys of a bounce-buffer session are agreed for one of the channels the session may write (13 R345). -/
def State.encapsulate (s : State) (x : Session) (key : List Byte) : Nat × State :=
  let open_ := chans.filter (fun c => x.seesChannel (s.chan c))
  let (i, s) := s.draw open_.length
  match open_[i]? with
  | none => (0x060C, s)
  | some c =>
    let r := Config.freeNat s.freeCtr
    let s := s.drew 1
    let ct := fitTo 1568 (Config.kemCiphertext key r)
    let keys := Hash.shake256 (Config.kemSecret key r ++ [0x45#8, 0x56#8, 0x54#8, 0x34#8, 0x2D#8, 0x42#8, 0x4F#8, 0x55#8, 0x4E#8, 0x43#8, 0x45#8] ++ ct) 64
    let sig := fitTo 1280 (Config.identitySign (Hash.shake512 (key ++ fitTo 1793 Config.identityPub ++ ct)))
    let s := s.modChan c (fun k => { k with svc := { k.svc with bounceKeys := some (keys.take 32, keys.drop 32), bounceSeq := none } })
    (0, s.modMp (fun m => { m with encapReply := ct ++ [byteOf c.val] ++ leBytes 2 1280 ++ sig }))

/-- 0x8001: the report's snapshot is taken, and the write is answered when the report is signed (15 R381). -/
def State.startReport (s : State) (x : Session) (txid op : Nat) (nonce : List Byte) : Option Nat × State :=
  if s.mp.reports.any (fun (r : ReportRun) => r.session == x.handle) then (some 0x0608, s)
  else (none, s.modMp (fun m => { m with reports := m.reports ++ [{ session := x.handle, txid := txid, op := op, body := s.reportBody x nonce }] }))

/-- 0x9006: the request is forwarded to the meter; a tenant's filter is its own job (16 R397). Without its link the meter cannot be
asked. -/
def State.requestReadout (s : State) (x : Session) (txid op : Nat) (d : List Byte) : Option Nat × State :=
  if !s.mp.meterLink || !s.meter.powered then (some 0x0608, s)
  else
    let filter := if x.role = .tenant then x.job else fieldLe d 32 2
    (none, s.modMeter (fun m => { m with readouts := m.readouts ++ [{ session := x.handle, txid := txid, op := op, nonce := d.take 32, filter := filter }] }))

/-- 0x8006.03: the named components are to be activated (15 R373). -/
def State.activate (s : State) (mask : Nat) : State :=
  (List.range 3).foldl (fun (s : State) i => if bitOf mask i then s.arm i else s) s

/-- Writes of the 0x7000, 0x8000 and 0x9000 blocks. No code: the answer comes later, or not at all. -/
def State.applyPower (s : State) (x : Session) (txid op : Nat) (index sub : Nat) (d : List Byte) (o : WriteObs) : Option Nat × State :=
  let v := ofLe d
  match index, sub with
  | 0x7002, _ => (some 0, { s with power := { s.power with swCap := v } })
  | 0x7004, _ => (some 0, { s with mram := { s.mram with sagThreshold := v } })
  | 0x7005, _ => (some 0, { s with mram := { s.mram with capacitance := v } })
  | 0x7007, _ =>
    if v = 0 then (some 0, s.leaveStandby)
    else if s.standbyForbidden then (some 0x0608, s)
    else (some 0, s.enterStandby)
  | 0x8001, _ => s.startReport x txid op d
  | 0x8005, 1 =>
    if chans.any (fun c => (s.chan c).bind.bound) then (some 0x0608, s)
    else (some 0, { s with mram := { s.mram with conf := v == 1 } })
  | 0x8005, 2 => let r := s.encapsulate x d; (some r.1, r.2)
  | 0x8006, 1 => let r := s.stageImage d o.stored; (some (if r.1 = 0 then 0 else 0x0606), r.2)
  | 0x8006, 3 => (some 0, s.activate v)
  | 0x8006, 4 => s.raiseSvn o
  | 0x8006, 5 => s.programSlot d o
  | 0x9006, _ => s.requestReadout x txid op d
  | _, _ => (some 0x0608, s)

/-! ### Any stop -/

/-- Lift a channel's outcome. -/
def State.liftChan (s : State) (c : ChanId) (r : Nat × Channel) : Option Nat × State := (some r.1, s.setChan c r.2)

/-- An accepted value reaches its stop: step 9 of R359, then the write. No code: the answer comes later, or not at all. -/
def State.applyStop (s : State) (x : Session) (txid op : Nat) (index sub : Nat) (d : List Byte) (o : WriteObs) : Option Nat × State :=
  match stopChan index with
  | some c =>
    let base := stopBase index
    let k := s.chan c
    if base < 0x3000 then let r := s.applyChannel c base sub d; (some r.1, r.2)
    else if base < 0x4000 then (some 0, s.setChan c (k.applyNumerics base sub d))
    else if base < 0x5000 then s.liftChan c (k.applyMemory base sub d)
    else s.liftChan c (k.applyBell (s.power.standby || s.power.returning) base sub d)
  | none =>
    if index < 0x2000 then let r := s.applyIdentity index sub d; (some r.1, r.2)
    else if index < 0x7000 then let r := s.applyFault index sub d; (some r.1, r.2)
    else s.applyPower x txid op index sub d o

/-- What an accepted write does once it has been answered: a stop-list restore and a reset of the Mouthpiece end the sessions (15 R373;
20 R469). -/
def State.afterWrite (s : State) (index sub : Nat) (d : List Byte) : State :=
  if index = 0x1012 then ({ s with mram := s.mram.restored }.deviceReset false).startBoot {}
  else if index = 0x8006 ∧ sub = 3 ∧ bitOf (ofLe d) 7 then
    (if bitOf (ofLe d) 0 then s.modComp 0 Component.switch else s).mpDown
  else s

end Sys2Proof.Machine
end

