-- ==== Sys2Proof/Machine/Server.lean ====
section
/-! DEFINITION. The stop-protocol server: the order of its checks, responses and the most recent ones, block transfers, subscriptions
and their notifications on change, sessions and their keys, and datagrams as bytes (14 R353 to R365; 17 R409; 20 R465). -/

namespace Sys2Proof.Machine

open Sys2Proof

/-! ### The checks (14 R353, R359) -/

/-- The identity stops, which are read without a session (14 R353). -/
def isIdentity (index sub : Nat) : Bool :=
  match index, sub with
  | 0x1000, 0 => true
  | 0x1008, 0 => true
  | 0x1018, n => decide (1 ≤ n ∧ n ≤ 4)
  | 0x1020, 0 => true
  | 0x8003, 0 => true
  | _, _ => false

/-- A READ of an identity stop. -/
def identityRead (op index sub : Nat) : Bool := op == 1 && isIdentity index sub

/-- WRITE and WRITE_BLOCK. -/
def isWrite (op : Nat) : Bool := op == 2 || op == 4

/-- The stops outside the channels that a tenant may write (14 R353). -/
def tenantWrites (index sub : Nat) : Bool := (index == 0x8001 && sub == 0) || (index == 0x8005 && sub == 2) || (index == 0x9006 && sub == 0)

/-- Step 5 of R359: may the session use the stop so? 0 when it may. -/
def State.rights (s : State) (q : Req) (x : Session) (op : Nat) (r : StopRow) (index sub : Nat) : Nat :=
  if q.session = 0 then (if identityRead op index sub then 0 else 0x0609)
  else match x.role with
    | .operator => 0
    | .observer => if isWrite op then 0x0609 else 0
    | .tenant =>
      if isWrite op && r.opOnly then 0x0609
      else match stopChan index with
        | some c => if x.seesChannel (s.chan c) then 0 else 0x060C
        | none => if isWrite op && !tenantWrites index sub then 0x0609 else 0

/-- Step 6 of R359: does the access class admit the operation? 0 when it does. -/
def Access.check (a : Access) (op : Nat) : Nat :=
  match a, isWrite op with
  | .ro, true => 0x0603
  | .rwm, true => 0x060B
  | .wo, false => 0x0604
  | _, _ => 0

/-- Steps 4 to 6 of R359. -/
def State.accessCheck (s : State) (q : Req) (x : Session) (op index sub : Nat) : Nat :=
  match stopRow index sub with
  | none => if rowsOf index = [] then 0x0601 else 0x0602
  | some r =>
    let n := s.rights q x op r index sub
    if n ≠ 0 then n else r.access.check op

/-- A device in FAULT answers only the identity reads, 0x1001, 0x1030 and the 0x6000 block (17 R409). -/
def State.faultForbids (s : State) (op index sub : Nat) : Bool :=
  s.dev == 5 && !((op == 1 || op == 3)
    && (isIdentity index sub || index == 0x1001 || index == 0x1030 || decide (0x6000 ≤ index ∧ index < 0x7000)))

/-! ### Answers (14 R356, R359, R360) -/

/-- An answer: its abort code, or none when it is given later; its payload and MORE. -/
structure Answer where
  code : Option Nat := some 0
  payload : List Byte := []
  more : Bool := false
deriving DecidableEq, Repr

/-- An abort. -/
def abort (n : Nat) : Answer := { code := some n }

/-- An answer is sent: an abort has no payload (14 R359). -/
def State.answer (s : State) (q : Req) (op index sub : Nat) (a : Answer) : State :=
  match a.code with
  | none => s
  | some n => s.respond { session := q.session, txid := q.txid, op := op, index := index, sub := sub, abort := n
                          payload := if n = 0 then a.payload else [], more := n == 0 && a.more }

/-- What stands for the session of a request without one. -/
def noSession : Session := {}

/-- The response of a request of the session that has been answered before (14 R360). -/
def Session.cached (x : Session) (txid : Nat) : Option Reply := x.cache.find? (fun (r : Reply) => r.txid == txid)

/-- A request of the session is still being carried out (14 R365). -/
def State.underway (s : State) (q : Req) : Bool :=
  s.mp.reports.any (fun (r : ReportRun) => r.session == q.session && r.txid == q.txid)
    || s.meter.readouts.any (fun (r : Readout) => r.session == q.session && r.txid == q.txid)

/-- The range 0xF000 to 0xFFFF (21 R483). -/
def engineering (index : Nat) : Bool := decide (0xF000 ≤ index ∧ index ≤ 0xFFFF)

/-- A request is served (14 R359, R360): the checks in their order, then `body`, whose answer is sent and kept; `post` follows the
answer of a request that has been carried out. Nothing arrives while no datagram can be answered (14 R365; 20 R465). -/
def State.serve (s : State) (q : Req) (op index sub : Nat) (body : Session → State → Answer × State) (post : State → State) :
    Host.Outcome State Fault Refusal :=
  if !s.canSend then .next s
  else
    let s := s.modSession q.session (fun x => { x with idle := 0 })
    let no := fun (n : Nat) => .next (s.answer q op index sub (abort n))
    let x := (s.session? q.session).getD noSession
    if q.version ≠ 1 then no 0x060E
    else if s.dev = 0 && !identityRead op index sub then no 0x060A
    else if q.session ≠ 0 ∧ (s.session? q.session).isNone then no 0x060D
    else match (s.session? q.session).bind (fun (x : Session) => x.cached q.txid) with
      | some r => .next (s.send r)
      | none =>
        if s.underway q then .next s
        else if engineering index then
          (if !s.fuses.debugClosed && q.session != 0 && x.role == .operator then .refused .engineeringStop else no 0x0609)
        else if s.accessCheck q x op index sub ≠ 0 then no (s.accessCheck q x op index sub)
        else
          let r := body x s
          let t := r.2.answer q op index sub r.1
          .next (if r.1.code = some 0 then post t else t)

/-! ### READ and WRITE (14 R350, R351, R357) -/

/-- The value of a stop has not been made for the session (15 R381; 16 R397). -/
def Session.hasNoValue (x : Session) (index : Nat) : Bool :=
  (index == 0x8002 && x.report.isNone) || (index == 0x9007 && x.readout.isNone)

/-- The stop is a BLOB. -/
def blobStop (index sub : Nat) : Bool := match stopRow index sub with | some r => r.type.isBlob | none => false

/-- READ: a BLOB longer than a frame or than the session's payload cap is read with READ_BLOCK only. -/
def readBody (bad : Nat) (index sub : Nat) (x : Session) (s : State) : Answer × State :=
  let v := s.stopValue x index sub
  if bad ≠ 0 then (abort bad, s)
  else if blobStop index sub && decide (8192 < v.length ∨ x.cap < v.length) then (abort 0x0605, s)
  else if s.faultForbids 1 index sub || x.hasNoValue index then (abort 0x0608, s)
  else ({ payload := v }, s.markRead x index sub)

/-- Steps 7 to 9 of R359 for a whole value, then the write. -/
def writeBody (q : Req) (op : Nat) (block : Bool) (o : WriteObs) (index sub : Nat) (d : List Byte) (x : Session) (s : State) :
    Answer × State :=
  match stopRow index sub with
  | none => (abort 0x0602, s)
  | some r =>
    let n := r.type.check d
    if n = 0x0605 || s.lengthBad index sub d.length || (!block && decide (8192 < d.length)) then (abort 0x0605, s)
    else if n ≠ 0 || s.valueBad index sub d then (abort 0x0606, s)
    else if r.access == .rwl && s.locked index sub (some d) then (abort 0x0607, s)
    else if s.faultForbids op index sub then (abort 0x0608, s)
    else
      let (a, t) := s.applyStop x q.txid op index sub d o
      ({ code := a }, t)

/-- A READ request. -/
def State.readStop (s : State) (q : Req) (bad index sub : Nat) : Host.Outcome State Fault Refusal :=
  s.serve q 1 index sub (readBody bad index sub) id

/-- A WRITE request; `block` when the value came in segments. -/
def State.writeStop (s : State) (q : Req) (block : Bool) (o : WriteObs) (index sub : Nat) (d : List Byte) :
    Host.Outcome State Fault Refusal :=
  s.serve q (if block then 4 else 2) index sub (writeBody q (if block then 4 else 2) block o index sub d)
    (fun t => t.afterWrite index sub d)

/-! ### Block transfers (14 R361, R362) -/

/-- READ_BLOCK: at offset 0 a snapshot is taken; it is gone once its last byte has been read. -/
def readBlockBody (bad : Nat) (index sub offset maximum : Nat) (x : Session) (s : State) : Answer × State :=
  if bad ≠ 0 then (abort bad, s)
  else if !blobStop index sub then (abort 0x0605, s)
  else if s.faultForbids 3 index sub || (offset == 0 && x.hasNoValue index) then (abort 0x0608, s)
  else
    let held := match x.snap with
      | some p => if p.index = index ∧ p.sub = sub then some p.data else none
      | none => none
    match (if offset = 0 then some (s.stopValue x index sub) else held) with
    | none => (abort 0x0608, s)
    | some v =>
      if v.length < offset then (abort 0x0606, s)
      else
        let part := (v.drop offset).take (min maximum (x.cap - 4))
        let more := decide (offset + part.length < v.length)
        let s := if offset = 0 then s.markRead x index sub else s
        ({ payload := leBytes 4 v.length ++ part, more := more },
         s.modSession x.handle (fun y => { y with snap := if more then some { index := index, sub := sub, data := v } else none }))

/-- Step 9 of R359 for a segment: what forbids the write whatever its value (14 R361). -/
def State.blockForbidden (s : State) (x : Session) (index sub : Nat) : Bool :=
  match stopChan index with
  | some c =>
    let k := s.chan c
    match stopBase index, sub with
    | 0x2010, 1 => (k.st != .ready && k.st != .loaded) || !k.bind.bound || k.load == 1
    | 0x2031, 1 => !k.bind.bound || k.running || k.meas.winState != 0
    | 0x4001, _ => !k.bind.bound || k.meas.winState != 0
    | _, _ => false
  | none =>
    match index, sub with
    | 0x6010, 2 => s.fuses.opSlot.isNone
    | 0x8001, _ => s.mp.reports.any (fun (r : ReportRun) => r.session == x.handle)
    | 0x8006, 5 => s.fuses.opSlot.isSome || decide (2 ≤ s.fuses.opSpent)
    | 0x9006, _ => !s.mp.meterLink || !s.meter.powered
    | _, _ => false

/-- WRITE_BLOCK: a segment is staged, and the one that ends at the total commits. Whatever refuses a segment discards what has been
staged. -/
def writeBlockBody (q : Req) (bad : Nat) (o : WriteObs) (index sub total offset : Nat) (d : List Byte) (x : Session) (s : State) :
    Answer × State :=
  match stopRow index sub with
  | none => (abort 0x0602, s)
  | some r =>
    let drop := s.modSession x.handle (fun y => { y with staged := none })
    let held := match x.staged with
      | some g => if g.index = index ∧ g.sub = sub ∧ g.total = total ∧ g.data.length = offset then some g.data else none
      | none => none
    match (if offset = 0 then some [] else held) with
    | none => (abort 0x0605, drop)
    | some before =>
      let fits := match r.type with
        | .blob n => total == n
        | .blobVar n => decide (total ≤ n)
        | _ => false
      if bad ≠ 0 then (abort bad, drop)
      else if !fits || s.lengthBad index sub total || decide (8184 < d.length ∨ 2 ^ 20 < total ∨ total < offset + d.length) then
        (abort 0x0605, drop)
      else if offset + d.length = total then writeBody q 4 true o index sub (before ++ d) x drop
      else if r.access == .rwl && s.locked index sub none then (abort 0x0607, drop)
      else if s.faultForbids 4 index sub || s.blockForbidden x index sub then (abort 0x0608, drop)
      else
        ({}, s.modSession x.handle (fun y =>
          { y with staged := some { index := index, sub := sub, total := total, data := before ++ d } }))

/-! ### Subscriptions (14 R363) -/

/-- The stops that admit mode 2. -/
def eachEntryStop (index sub : Nat) : Bool :=
  match stopBase index, sub with
  | 0x3020, 2 => true
  | 0x5002, 1 => true
  | 0x6000, n => decide (1 ≤ n ∧ n ≤ 5)
  | 0x9005, _ => true
  | _, _ => false

/-- The stops that admit mode 1: those of fixed length that one frame carries. -/
def onChangeStop (index sub : Nat) : Bool :=
  match stopRow index sub with
  | some r => match r.type with
    | .blob n => decide (n ≤ 8192)
    | t => t.fixed
  | none => false

/-- SUBSCRIBE in mode 0 to 2; the response holds the number of the session's subscriptions. -/
def subscribeBody (bad : Nat) (mode index sub interval : Nat) (x : Session) (s : State) : Answer × State :=
  let others := x.subs.filter (fun (u : Subscription) => !(u.index == index && u.sub == sub))
  let admitted := match mode with
    | 0 => true
    | 1 => onChangeStop index sub
    | _ => eachEntryStop index sub
  if bad ≠ 0 then (abort bad, s)
  else if s.faultForbids 6 index sub || !admitted || (mode != 0 && decide (256 ≤ others.length)) then (abort 0x0608, s)
  else
    let u : Subscription := { index := index, sub := sub, mode := mode, interval := interval
                              last := if mode = 1 then s.stopValue x index sub else [] }
    let subs := if mode = 0 then others else others ++ [u]
    ({ payload := leBytes 2 subs.length }, s.modSession x.handle (fun y => { y with subs := subs }))

/-- A SUBSCRIBE request. -/
def State.subscribe (s : State) (q : Req) (bad mode index sub interval : Nat) : Host.Outcome State Fault Refusal :=
  s.serve q 6 index sub (subscribeBody bad mode index sub interval) id

/-- One subscription in mode 1: a NOTIFY when the value has changed, if the session may still see the stop. -/
def State.notifyChange (s : State) (h : Nat) (u : Subscription) : State :=
  match s.session? h with
  | none => s
  | some x =>
    let v := s.stopValue x u.index u.sub
    if u.mode ≠ 1 ∨ v = u.last then s
    else
      let s := s.modSession h (fun y => { y with
        subs := y.subs.map (fun (w : Subscription) => if w.index = u.index ∧ w.sub = u.sub then { w with last := v } else w) })
      s.notifyOne h (fun y => match stopChan u.index with | some c => y.seesChannel (s.chan c) | none => true) u.index u.sub (fun _ => v)

/-- Every subscription in mode 1 whose stop has changed is notified; the block does this when no command waits (log 1). -/
def State.idle (s : State) : State :=
  if !s.canSend then s
  else s.mp.sessions.foldl (fun (s : State) (x : Session) =>
    x.subs.foldl (fun (s : State) (u : Subscription) => s.notifyChange x.handle u) s) s

/-! ### Sessions (14 R354, R355, R358) -/

/-- The payload of OPEN. -/
def openPayload (f : OpenFrame) : List Byte :=
  [0x01#8, byteOf f.role] ++ leBytes 2 f.job ++ leBytes 2 f.cap ++ f.nonce ++ f.kemKey ++ f.pub

/-- The key entry that admits an OPEN: its digest, its role, and for a tenant its job. -/
def State.keyEntry (s : State) (f : OpenFrame) : Option Nat :=
  let d := Hash.shake512 f.pub
  ((s.keyList.zipIdx).find? (fun (e : ClientKey × Nat) =>
    e.1.digest == d && e.1.role == f.role && e.1.role != 0 && (f.role != 2 || e.1.job == f.job))).map Prod.snd

/-- A role from its code. -/
def Role.ofCode (n : Nat) : Role := if n = 1 then .operator else if n = 2 then .tenant else .observer

/-- A handle that neither a session nor a handshake has. -/
def Mouthpiece.freshHandle (m : Mouthpiece) : Nat :=
  let used := m.sessions.map Session.handle ++ m.opens.map Opening.handle
  (((List.range 130).map (fun i => (m.nextHandle + i - 1) % 65535 + 1)).find? (fun n => !used.contains n)).getD 0

/-- The session limits are reached: 64 in all, 16 for one key; handshakes count (14 R355). -/
def Mouthpiece.full (m : Mouthpiece) (entry : Nat) : Bool :=
  decide (64 ≤ m.sessions.length + m.opens.length
    ∨ 16 ≤ (m.sessions.filter (fun (x : Session) => x.keyEntry == entry)).length
      + (m.opens.filter (fun (o : Opening) => o.keyEntry == entry)).length)

/-- The answer to a SESSION request, which names no stop. -/
def State.answerSession (s : State) (q : Req) (a : Answer) : State := s.answer q 7 0 0 a

/-- The device's side of an OPEN that is admitted: it encapsulates, draws its nonce, and signs the transcript. -/
def State.openSession (s : State) (q : Req) (f : OpenFrame) (entry : Nat) : State :=
  let h := s.mp.freshHandle
  let r := Config.freeNat s.freeCtr
  let s := s.drew 1
  let nonce := (List.range 32).map (fun i => byteOf (s.freeAt i 256))
  let s := s.drew 32
  let head := [0x01#8] ++ leBytes 2 h ++ fitTo 1568 (Config.kemCiphertext f.kemKey r) ++ nonce
  let sig := fitTo 1280 (Config.identitySign (Hash.shake512 (openPayload f ++ head)))
  let o : Opening := { handle := h, role := Role.ofCode f.role, keyEntry := entry, job := if f.role = 2 then f.job else 0, cap := f.cap
                       secret := Config.kemSecret f.kemKey r, transcript := openPayload f ++ head ++ sig, pub := f.pub }
  (s.modMp (fun m => { m with opens := m.opens ++ [o], nextHandle := h % 65535 + 1 })).answerSession q { payload := head ++ sig }

/-- SESSION OPEN: checked against the key list, then for its lengths and its cap, then for the limits. -/
def State.serveOpen (s : State) (q : Req) (bad : Nat) (f : OpenFrame) : State :=
  if !s.canSend then s
  else if q.version ≠ 1 then s.answerSession q (abort 0x060E)
  else if q.session ≠ 0 ∧ (s.session? q.session).isNone then s.answerSession q (abort 0x060D)
  else match s.keyEntry f with
    | none => s.answerSession q (abort (if bad ≠ 0 then bad else 0x0609))
    | some e =>
      if bad ≠ 0 ∨ f.nonce.length ≠ 32 ∨ f.kemKey.length ≠ 1568 ∨ f.pub.length ≠ 1793 then s.answerSession q (abort 0x0605)
      else if f.cap < 1024 ∨ 8192 < f.cap then s.answerSession q (abort 0x0606)
      else if s.dev = 5 || s.mp.full e then s.answerSession q (abort 0x0608)
      else s.openSession q f e

/-- A session opens with the keys of its handshake. -/
def Opening.session (o : Opening) (transcript : List Byte) : Session :=
  let keys := Hash.shake256 (o.secret ++ [0x45#8, 0x56#8, 0x54#8, 0x34#8, 0x2D#8, 0x53#8, 0x54#8, 0x4F#8, 0x50#8] ++ Hash.shake512 transcript) 64
  { handle := o.handle, role := o.role, keyEntry := o.keyEntry, job := o.job, cap := o.cap, keyIn := keys.take 32, keyOut := keys.drop 32 }

/-- SESSION FINISH: the client's signature over the transcript hash opens the session. -/
def State.serveFinish (s : State) (q : Req) (handle : Nat) (signature : List Byte) : State :=
  if !s.canSend then s
  else if q.version ≠ 1 then s.answerSession q (abort 0x060E)
  else match s.mp.opens.find? (fun (o : Opening) => o.handle == handle) with
    | none => s.answerSession q (abort 0x060D)
    | some o =>
      if !Config.falconVerify o.pub (Hash.shake512 o.transcript) signature then s.answerSession q (abort 0x060D)
      else if s.dev = 5 then s.answerSession q (abort 0x0608)
      else
        (s.modMp (fun m => { m with opens := m.opens.filter (fun (y : Opening) => y.handle != handle)
                                    sessions := m.sessions ++ [o.session o.transcript] })).answerSession q { payload := [0x02#8] }

/-- SESSION CLOSE, inside the session: it is answered, and the session is gone. -/
def State.serveClose (s : State) (q : Req) : State :=
  if !s.canSend then s
  else if q.version ≠ 1 then s.answerSession q (abort 0x060E)
  else match s.session? q.session with
    | none => s.answerSession q (abort 0x060D)
    | some x =>
      match x.cached q.txid with
      | some r => s.send r
      | none =>
        if s.dev = 5 then s.answerSession q (abort 0x0608)
        else (s.answerSession q { payload := [0x03#8] }).closeSessions (fun (y : Session) => y.handle == q.session)

/-! ### Datagrams (14 R356, R357) -/

/-- The header of a response or notification, as sent. -/
def Reply.header (r : Reply) : List Byte :=
  [0x01#8, byteOf (r.op + 16 * bit (r.op != 5) + 32 * bit r.more)] ++ leBytes 2 r.session ++ leBytes 4 r.txid ++ leBytes 2 r.index
    ++ [byteOf r.sub, 0#8] ++ leBytes 2 r.payload.length ++ leBytes 2 r.abort

/-- The IV of a datagram: session, direction, zero, sequence number. -/
def datagramIv (session dir seq : Nat) : List Byte := leBytes 2 session ++ [byteOf dir, 0#8] ++ leBytes 8 seq

/-- A datagram the device sends, as bytes: in the clear without a session, sealed within one. -/
def Session.datagram (x : Session) (r : Reply) : List Byte :=
  if r.session = 0 then r.header ++ r.payload
  else
    let aad := r.header ++ leBytes 8 r.seq
    let (ct, tag) := Hash.gcmSeal x.keyOut (datagramIv r.session 1 r.seq) aad r.payload
    aad ++ ct ++ tag

/-- A request's payload within a session: none when its tag fails or its sequence number is stale. -/
def Session.unseal (x : Session) (b : List Byte) : Option (Nat × List Byte) :=
  let seq := fieldLe b 16 8
  let fresh := match x.seqIn with | some n => decide (n < seq) | none => true
  if b.length < 40 || !fresh then none
  else (Hash.gcmOpen x.keyIn (datagramIv x.handle 0 seq) (b.take 24) ((b.drop 24).take (b.length - 40)) (b.drop (b.length - 16))).map
    (fun p => (seq, p))

/-- The operation of a datagram on its payload. -/
def State.operate (s : State) (q : Req) (op index sub : Nat) (p : List Byte) : Host.Outcome State Fault Refusal :=
  match op with
  | 1 => s.readStop q (if p.isEmpty then 0 else 0x0605) index sub
  | 2 => s.writeStop q false {} index sub p
  | 3 => s.serve q 3 index sub (readBlockBody (if p.length = 6 then 0 else 0x0605) index sub (fieldLe p 0 4) (fieldLe p 4 2)) id
  | 4 => s.serve q 4 index sub
      (writeBlockBody q (if p.length < 8 then 0x0605 else 0) {} index sub (fieldLe p 0 4) (fieldLe p 4 4) (p.drop 8)) id
  | 6 =>
    let bad := if p.length ≠ 8 then 0x0605 else if 2 < byteAt p 0 ∨ !allZero (slice p 1 3) then 0x0606 else 0
    s.subscribe q bad (byteAt p 0) index sub (fieldLe p 4 4)
  | 7 =>
    match byteAt p 0 with
    | 1 => .next (s.serveOpen q (if p.length = 3399 then 0 else 0x0605)
        { role := byteAt p 1, job := fieldLe p 2 2, cap := fieldLe p 4 2, nonce := slice p 6 32, kemKey := slice p 38 1568
          pub := slice p 1606 1793 })
    | 2 => .next (s.serveFinish q (fieldLe p 1 2) (p.drop 3))
    | 3 => .next (s.serveClose q)
    | _ => .next (if s.canSend then s.answerSession q (abort 0x060E) else s)
  | _ => .next (if s.canSend then s.answer q (op % 16) index sub (abort 0x060E) else s)

/-- A stop-protocol datagram arrives: a response is no request; a datagram of an open session is dropped and counted when it does not
verify (14 R357; 13 R502). -/
def State.datagram (s : State) (b : List Byte) : Host.Outcome State Fault Refusal :=
  let op := byteAt b 1 % 16
  let h := fieldLe b 2 2
  let q : Req := { session := h, txid := fieldLe b 4 4, version := byteAt b 0 }
  let index := fieldLe b 8 2
  let sub := byteAt b 10
  if b.length < 16 || bitOf (byteAt b 1) 4 then .next s
  else if h = 0 then s.operate q op index sub ((b.drop 16).take (fieldLe b 12 2))
  else match s.session? h with
    | none => if op = 7 then .next (s.serveClose q) else s.operate q op index sub []
    | some x =>
      match x.unseal b with
      | none => .next (s.modMp (fun m => { m with host := m.host.count 16 1 }))
      | some (seq, p) => (s.modSession h (fun y => { y with seqIn := some seq })).operate q op index sub p

/-- The INIT token bucket (20 R465): a depth of 256 tokens, 4,096 a second, one token a datagram; a drop is counted. The limit holds
while 0x1030 is 0. -/
def State.takeToken (s : State) (now : Nat) : Bool × State :=
  if s.dev ≠ 0 then (true, s)
  else
    let full := min 256000000 (s.pins.bucket + 4096 * (now - s.pins.bucketAt))
    let p := { s.pins with bucketAt := max now s.pins.bucketAt }
    if full < 1000000 then (false, { s with pins := { p with bucket := full, initDrops := sat32 p.initDrops 1 } })
    else (true, { s with pins := { p with bucket := full - 1000000 } })

end Sys2Proof.Machine
end

