-- ==== Sys2Proof/Machine/Requests.lean ====
section
/-! DEFINITION. The commands of the stop-protocol clients, and the host port: each request row of the table over the server, the end of
a score check, frames, the link, and connection requests (07 R185; 13 R331 to R334, R348, R502; 14; 20 R465, R466). -/

namespace Sys2Proof.Machine

open Sys2Proof

/-- A stop of channel `c`. -/
def ofChan (c : ChanId) (base : Nat) : Nat := base + 256 * c.val

/-- A write of a stop in one frame. -/
def State.put (s : State) (q : Req) (index sub : Nat) (d : List Byte) : Host.Outcome State Fault Refusal :=
  s.writeStop q false {} index sub d

/-! ### Any stop -/

/-- STOP_WRITE (14 R351). -/
def execStopWrite (q : Req) (index sub : Nat) (data : List Byte) (s : State) : Host.Outcome State Fault Refusal := s.put q index sub data

/-- READ (14 R359). -/
def execRead (q : Req) (index sub : Nat) (s : State) : Host.Outcome State Fault Refusal := s.readStop q 0 index sub

/-- READ_BLOCK (14 R362). -/
def execReadBlock (q : Req) (index sub offset maximum : Nat) (s : State) : Host.Outcome State Fault Refusal :=
  s.serve q 3 index sub (readBlockBody 0 index sub offset maximum) id

/-- READ_BLOCK_SNAPSHOT_EXPIRE (14 R362). -/
def execReadBlockSnapshotExpire (session : Nat) (s : State) : Host.Outcome State Fault Refusal :=
  .next (s.modSession session (fun x => { x with snap := none }))

/-- WRITE_BLOCK (14 R361). -/
def execWriteBlock (q : Req) (index sub total offset : Nat) (data : List Byte) (s : State) : Host.Outcome State Fault Refusal :=
  s.serve q 4 index sub (writeBlockBody q 0 {} index sub total offset data) id

/-- WRITE_BLOCK_TIMEOUT (14 R361). -/
def execWriteBlockTimeout (session : Nat) (s : State) : Host.Outcome State Fault Refusal :=
  .next (s.modSession session (fun x => { x with staged := none }))

/-- SUBSCRIBE_CANCEL (14 R363). -/
def execSubscribeCancel (q : Req) (index sub : Nat) (s : State) : Host.Outcome State Fault Refusal := s.subscribe q 0 0 index sub 0

/-- SUBSCRIBE_ON_CHANGE (14 R363). -/
def execSubscribeOnChange (q : Req) (index sub interval : Nat) (s : State) : Host.Outcome State Fault Refusal :=
  s.subscribe q 0 1 index sub interval

/-- SUBSCRIBE_EACH_ENTRY (14 R363). -/
def execSubscribeEachEntry (q : Req) (index sub interval : Nat) (s : State) : Host.Outcome State Fault Refusal :=
  s.subscribe q 0 2 index sub interval

/-! ### Sessions -/

/-- SESSION_OPEN (14 R358). -/
def execSessionOpen (q : Req) (f : OpenFrame) (s : State) : Host.Outcome State Fault Refusal := .next (s.serveOpen q 0 f)

/-- SESSION_FINISH (14 R358). -/
def execSessionFinish (q : Req) (handle : Nat) (signature : List Byte) (s : State) : Host.Outcome State Fault Refusal :=
  .next (s.serveFinish q handle signature)

/-- SESSION_CLOSE (14 R358). -/
def execSessionClose (q : Req) (s : State) : Host.Outcome State Fault Refusal := .next (s.serveClose q)

/-- SESSION_OPEN_EXPIRE (14 R358): an OPEN not finished within 5 s is discarded. -/
def execSessionOpenExpire (handle : Nat) (s : State) : Host.Outcome State Fault Refusal :=
  .next (s.modMp (fun m => { m with opens := m.opens.filter (fun (o : Opening) => o.handle != handle) }))

/-- SESSION_IDLE_TIMEOUT (14 R355): a session that has been idle beyond the timeout closes. -/
def execSessionIdleTimeout (handle idle : Nat) (s : State) : Host.Outcome State Fault Refusal :=
  .next (if s.mp.idleTimeout < idle then s.closeSessions (fun (x : Session) => x.handle == handle)
         else s.modSession handle (fun x => { x with idle := idle }))

/-- CLOSE_SESSION (14 R355). -/
def execCloseSession (q : Req) (arg : List Byte) (s : State) : Host.Outcome State Fault Refusal := s.put q 0x1050 3 arg

/-- CLIENT_KEY_LIST_WRITE (14 R354). -/
def execClientKeyListWrite (q : Req) (data : List Byte) (s : State) : Host.Outcome State Fault Refusal := s.put q 0x1050 2 data

/-! ### The host port (13 R331 to R334, R348, R502) -/

/-- A receive buffer's 4 MiB. -/
def endpointBuffer : Nat := 4194304

/-- Bytes in the shared ingress buffer that count towards a pause: a channel that is halted, reset or holding causes none (13 R334). -/
def State.ingress (s : State) : Nat :=
  s.mp.host.fill.getD 0 0 + (chans.map (fun c =>
    let k := s.chan c
    if k.st == .halted || k.st == .init || k.st == .holdup || k.ww.hold.isSome then 0 else s.mp.host.fill.getD (c.val + 1) 0)).sum

/-- PFC pause starts when the ingress buffer passes three quarters of 16 MiB, on the priorities of 0x1060.04, and ends below. -/
def State.pause (s : State) : State :=
  let full := decide (12582912 < s.ingress) && s.mram.pfc != 0
  s.modMp (fun m => { m with host :=
    if full && !m.host.pausing then { (m.host.count 8 1).count 0 1 with pausing := true } else { m.host with pausing := full } })

/-- A frame comes to endpoint `e`: into its receive buffer, or dropped and counted when that is full. True when it is taken. -/
def State.receive (s : State) (e len : Nat) : Bool × State :=
  if endpointBuffer < s.mp.host.fill.getD e 0 + len then (false, s.modMp (fun m => { m with host := m.host.count (3 + e) 1 }))
  else (true, (s.modMp (fun m => { m with host := { m.host with fill := setAt m.host.fill e (m.host.fill.getD e 0 + len) } })).pause)

/-- HOST_FRAME_RECEIVE (13 R332 to R334; 01 R11). A frame of one of the device's own channels is either dropped, when another endpoint
of the device is addressed, or sent. -/
def execHostFrameReceive (f : HostFrame) (s : State) : Host.Outcome State Fault Refusal :=
  if !s.canSend then .next s
  else
    let s := (s.modMp (fun m => { m with host := { m.host with
      fill := (m.host.fill.zipIdx).map (fun (x : Nat × Nat) => x.1 - f.drained.getD x.2 0) } })).pause
    let count := fun (s : State) (i : Nat) => s.modMp (fun m => { m with host := m.host.count i 1 })
    match f.src with
    | some c =>
      (match f.dst with
       | some e => if e ≤ 4 ∧ e ≠ c + 1 ∧ c < 4 then .next (count s (4 + c)) else .next (count s 0)
       | none => .next (count s 0))
    | none =>
      let s := count s 1
      if f.pause then .next (count s 9)
      else if f.cnp then .next (count s 11)
      else match f.dst with
        | none => .next (count s 2)
        | some e =>
          if 4 < e then .next (count s 2)
          else
            let (taken, s) := s.receive e f.len
            match f.dgram with
            | some b =>
              if !taken || e != 0 then .next s
              else
                let (ok, s) := s.takeToken f.now
                if ok then s.datagram b else .next s
            | none => .next s

/-- Channel `c` loses the connections to all its targets: a checkpoint being written fails on each, and the queue pairs are free again
(13 R333, R348). -/
def State.loseTargets (s : State) (c : ChanId) : State :=
  let s := match (s.chan c).svc.ckpt with
    | some r => r.targets.foldl (fun (s : State) t => s.targetFail c t) s
    | none => s
  s.modChan c (fun k => { k with svc := { k.svc with
    targets := k.svc.targets.map (fun (t : Target) => { t with connected := false })
    qps := k.svc.qps - (k.svc.targets.filter (fun (t : Target) => t.connected)).length } })

/-- HOST_LINK_DOWN (13 R348): connections to the targets are lost, and every checkpoint being written fails on each target. -/
def execHostLinkDown (s : State) : Host.Outcome State Fault Refusal :=
  if !s.mp.host.up then .next s
  else
    let s := s.modMp (fun m => { m with host := { m.host with up := false, lanes := 0 } })
    .next (chans.foldl State.loseTargets s)

/-- HOST_LINK_UP (20 R462). -/
def execHostLinkUp (lanes : Nat) (s : State) : Host.Outcome State Fault Refusal :=
  if !s.awake then .next s
  else .next (s.modMp (fun m => { m with host := { m.host with up := true, lanes := lanes % 256 } }))

/-- CM_REQUEST (20 R466; 13 R333): a connection takes a queue pair of the channel's pool; until the channel is READY it is refused and
counted. -/
def execCmRequest (c : ChanId) (s : State) : Host.Outcome State Fault Refusal :=
  let k := s.chan c
  if !s.canSend then .next s
  else if k.st == .init || k.st == .halted then .next (s.modMp (fun m => { m with host := m.host.count (12 + c.val) 1 }))
  else if k.svc.qps < s.mp.host.pools.getD c.val 0 then .next (s.modChan c (fun k => { k with svc := { k.svc with qps := k.svc.qps + 1 } }))
  else .next s

/-! ### Resets and bindings -/

/-- CHANNEL_RESET (20 R468). -/
def execChannelReset (q : Req) (c : ChanId) (arg : List Byte) (s : State) : Host.Outcome State Fault Refusal :=
  s.put q (ofChan c 0x2005) 0 arg

/-- STOP_LIST_RESTORE (20 R469). -/
def execStopListRestore (q : Req) (arg : List Byte) (s : State) : Host.Outcome State Fault Refusal := s.put q 0x1012 0 arg

/-- The 16 bytes of a binding write (21 R477). -/
def bindBytes (b : BindArg) (bound : Bool) : List Byte :=
  leBytes 2 (b.job % 4096 + 4096 * (b.rsvA % 8) + 2 ^ 15 * bit bound) ++ leBytes 2 b.span ++ leBytes 4 b.rsvB ++ leBytes 8 b.seed

/-- BIND (21 R477). -/
def execBind (q : Req) (c : ChanId) (b : BindArg) (s : State) : Host.Outcome State Fault Refusal :=
  s.put q (ofChan c 0x2001) 0 (bindBytes b true)

/-- UNBIND (21 R477). -/
def execUnbind (q : Req) (c : ChanId) (b : BindArg) (s : State) : Host.Outcome State Fault Refusal :=
  s.put q (ofChan c 0x2001) 0 (bindBytes b false)

/-! ### Confidential mode (13 R344, R345) -/

/-- HOST_ENCAP_KEY_WRITE (13 R345). -/
def execHostEncapKeyWrite (q : Req) (data : List Byte) (s : State) : Host.Outcome State Fault Refusal := s.put q 0x8005 2 data

/-- CONFIDENTIAL_MODE_WRITE (13 R344). -/
def execConfidentialModeWrite (q : Req) (arg : List Byte) (s : State) : Host.Outcome State Fault Refusal := s.put q 0x8005 1 arg

/-! ### Scores (07 R185 to R188) -/

/-- LOAD_SCORE (07 R185). -/
def execLoadScore (q : Req) (c : ChanId) (arg : List Byte) (s : State) : Host.Outcome State Fault Refusal :=
  s.put q (ofChan c 0x2010) 1 arg

/-- A score is refused: the code stands in LOAD, and the refusal is logged (07 R185). -/
def State.refuseScore (s : State) (c : ChanId) (code : Nat) : State :=
  (s.modChan c (fun k => { k with load := code, loading := none })).firmwareError c .scoreRefused .S 8 0 code

/-- SCORE_CHECK_DONE (07 R185): the argument is checked, then the image as read. An image that cannot be read from its class C pages
halts the channel (09 R238); a check that a halt or a Last Breath has overtaken gives nothing (17 R408). -/
def execScoreCheckDone (c : ChanId) (s : State) : Host.Outcome State Fault Refusal :=
  let k := s.chan c
  match k.loading with
  | none => .next s
  | some (addr, len) =>
    if k.st != .ready && k.st != .loaded then .next (s.modChan c (fun k => { k with load := 0, loading := none }))
    else if len ≠ 0 && (decide (logicalPages * pageBytes < addr + len) || !k.mem.inClass 2 addr len) then .next (s.refuseScore c 0x19)
    else
      let (f, m) := k.mem.load 0 addr len
      let s := s.modChan c (fun k => ({ k with mem := m }).frameErrors)
      if f.bad then
        .next ((s.modChan c (fun k => { k with load := 0, loading := none })).firmwareError c .memUncorr .H 5 0 (addr / pageBytes))
      else match Score.check f.bytes { job := k.bind.job, active := k.active } addr len with
        | .inl code => .next (s.refuseScore c code)
        | .inr x => .next ((s.modChan c (fun k => k.acceptScore x)).resumeRestart c)

/-- START_FROM_PHRASE0 (07 R187). -/
def execStartFromPhrase0 (q : Req) (c : ChanId) (s : State) : Host.Outcome State Fault Refusal := s.put q (ofChan c 0x2010) 2 [0x01#8]

/-- START_FROM_STEP (07 R187). -/
def execStartFromStep (q : Req) (c : ChanId) (s : State) : Host.Outcome State Fault Refusal := s.put q (ofChan c 0x2010) 2 [0x02#8]

/-- STOP_AT_PHRASE_WRITE (07 R188). -/
def execStopAtPhraseWrite (q : Req) (c : ChanId) (arg : List Byte) (s : State) : Host.Outcome State Fault Refusal :=
  s.put q (ofChan c 0x2010) 3 arg

/-! ### Counters and logs -/

/-- TUNER_CLEAR_COUNTERS (05 R137). -/
def execTunerClearCounters (q : Req) (c : ChanId) (s : State) : Host.Outcome State Fault Refusal := s.put q (ofChan c 0x3020) 4 [0x01#8]

/-- TUNER_CLEAR_LOG (05 R136). -/
def execTunerClearLog (q : Req) (c : ChanId) (s : State) : Host.Outcome State Fault Refusal := s.put q (ofChan c 0x3020) 4 [0x02#8]

/-- PORT_COUNTERS_CLEAR (10 R286). -/
def execPortCountersClear (q : Req) (c : ChanId) (mask : BitVec 8) (s : State) : Host.Outcome State Fault Refusal :=
  s.put q (ofChan c 0x5020) 9 [mask]

/-- COLL_COUNTERS_CLEAR (11 R315). -/
def execCollCountersClear (q : Req) (c : ChanId) (s : State) : Host.Outcome State Fault Refusal := s.put q (ofChan c 0x5010) 9 [0x01#8]

/-- MEM_COUNTERS_CLEAR (09 R259). -/
def execMemCountersClear (q : Req) (c : ChanId) (s : State) : Host.Outcome State Fault Refusal := s.put q (ofChan c 0x4010) 2 [0x01#8]

/-- LOG_CLEAR (17 R415). -/
def execLogClear (q : Req) (arg : List Byte) (s : State) : Host.Outcome State Fault Refusal := s.put q 0x6001 0 arg

/-! ### Plans and maps -/

/-- PATH_PLAN_WRITE (12 R320). -/
def execPathPlanWrite (q : Req) (c : ChanId) (data : List Byte) (s : State) : Host.Outcome State Fault Refusal :=
  s.put q (ofChan c 0x5001) 1 data

/-- CLASS_MAP_WRITE (09 R233): the map of one space, all its segments. -/
def execClassMapWrite (q : Req) (c : ChanId) (space1 : Bool) (data : List Byte) (s : State) : Host.Outcome State Fault Refusal :=
  s.writeStop q true {} (ofChan c 0x4001) (if space1 then 2 else 1) data

/-! ### Services and measurement -/

/-- RESTART (13 R343). -/
def execRestart (q : Req) (c : ChanId) (arg : List Byte) (s : State) : Host.Outcome State Fault Refusal := s.put q (ofChan c 0x2030) 7 arg

/-- WEIGHT_LOAD_OPEN (15 R380). -/
def execWeightLoadOpen (q : Req) (c : ChanId) (data : List Byte) (s : State) : Host.Outcome State Fault Refusal :=
  s.put q (ofChan c 0x2031) 1 data

/-- WEIGHT_LOAD_CLOSE (15 R380). -/
def execWeightLoadClose (q : Req) (c : ChanId) (arg : List Byte) (s : State) : Host.Outcome State Fault Refusal :=
  s.put q (ofChan c 0x2031) 2 arg

/-- ATTESTATION_NONCE (15 R381). -/
def execAttestationNonce (q : Req) (nonce : List Byte) (s : State) : Host.Outcome State Fault Refusal := s.put q 0x8001 0 nonce

/-- METER_READOUT_REQUEST (16 R397). -/
def execMeterReadoutRequest (q : Req) (data : List Byte) (s : State) : Host.Outcome State Fault Refusal := s.put q 0x9006 0 data

/-! ### Firmware and fuses (15 R373 to R376) -/

/-- UPDATE_IMAGE (15 R373): a committed image; `stored` tells whether the staging slot took it. -/
def execUpdateImage (q : Req) (image : List Byte) (stored : Bool) (s : State) : Host.Outcome State Fault Refusal :=
  s.writeStop q true { stored := stored } 0x8006 1 image

/-- ACTIVATE_MP_FIRMWARE (15 R373). -/
def execActivateMpFirmware (q : Req) (s : State) : Host.Outcome State Fault Refusal := s.put q 0x8006 3 [0x01#8]

/-- ACTIVATE_CHANTER_FIRMWARE (15 R373). -/
def execActivateChanterFirmware (q : Req) (s : State) : Host.Outcome State Fault Refusal := s.put q 0x8006 3 [0x02#8]

/-- ACTIVATE_ETUDE_PACK (15 R373). -/
def execActivateEtudePack (q : Req) (s : State) : Host.Outcome State Fault Refusal := s.put q 0x8006 3 [0x04#8]

/-- MOUTHPIECE_RESET (15 R373): bit 7, with the components named beside it. -/
def execMouthpieceReset (q : Req) (mask : BitVec 3) (s : State) : Host.Outcome State Fault Refusal :=
  s.put q 0x8006 3 [byteOf (128 + mask.toNat)]

/-- RAISE_MIN_SVN (15 R374). -/
def execRaiseMinSvn (q : Req) (arg : List Byte) (sagAfter : Option Nat) (s : State) : Host.Outcome State Fault Refusal :=
  s.writeStop q false { sagAfter := sagAfter } 0x8006 4 arg

/-- PROGRAM_OPERATOR_SLOT (15 R375). -/
def execProgramOperatorSlot (q : Req) (digest : List Byte) (interrupted : Bool) (s : State) : Host.Outcome State Fault Refusal :=
  s.writeStop q false { interrupted := interrupted } 0x8006 5 digest

/-! ### Études, power and time -/

/-- REINSTATE (18 R437). -/
def execReinstate (q : Req) (arg : List Byte) (s : State) : Host.Outcome State Fault Refusal := s.put q 0x6030 4 arg

/-- REINSTATE_ALL (18 R437). -/
def execReinstateAll (q : Req) (c : ChanId) (s : State) : Host.Outcome State Fault Refusal := s.put q 0x6030 4 [0xFF#8, byteOf c.val]

/-- OPERATOR_SUPPLEMENT_WRITE (18 R427). -/
def execOperatorSupplementWrite (q : Req) (data : List Byte) (s : State) : Host.Outcome State Fault Refusal :=
  s.writeStop q true {} 0x6010 2 data

/-- ENTER_STANDBY (19 R442). -/
def execEnterStandby (q : Req) (s : State) : Host.Outcome State Fault Refusal := s.put q 0x7007 2 [0x02#8]

/-- LEAVE_STANDBY (19 R442). -/
def execLeaveStandby (q : Req) (s : State) : Host.Outcome State Fault Refusal := s.put q 0x7007 2 [0x00#8]

/-- DECLARED_TIME_WRITE (00 R28; 16 R385). -/
def execDeclaredTimeWrite (q : Req) (arg : List Byte) (s : State) : Host.Outcome State Fault Refusal := s.put q 0x1040 0 arg

end Sys2Proof.Machine
end

