-- ==== Sys2Proof/Machine/Dispatch.lean ====
section
/-! DEFINITION. The dispatch: one arm for each command, a direct call of its meaning. -/

namespace Sys2Proof.Machine

/-- The effect of one command on everything but the queue. -/
def exec (i : Instr) (s : State) : Host.Outcome State Fault Refusal :=
  match i with
  | .powerOn o => Sys2Proof.Machine.execPowerOn o s
  | .strapEnd samples => Sys2Proof.Machine.execStrapEnd samples s
  | .resetN => Sys2Proof.Machine.execResetN s
  | .mpFirmwareReady => Sys2Proof.Machine.execMpFirmwareReady s
  | .channelReady c o => Sys2Proof.Machine.execChannelReady c o s
  | .channelReset q c arg => Sys2Proof.Machine.execChannelReset q c arg s
  | .stopListRestore q arg => Sys2Proof.Machine.execStopListRestore q arg s
  | .bind q c b => Sys2Proof.Machine.execBind q c b s
  | .unbind q c b => Sys2Proof.Machine.execUnbind q c b s
  | .stopWrite q index sub data => Sys2Proof.Machine.execStopWrite q index sub data s
  | .read q index sub => Sys2Proof.Machine.execRead q index sub s
  | .readBlock q index sub offset maximum => Sys2Proof.Machine.execReadBlock q index sub offset maximum s
  | .readBlockSnapshotExpire session => Sys2Proof.Machine.execReadBlockSnapshotExpire session s
  | .writeBlock q index sub total offset data => Sys2Proof.Machine.execWriteBlock q index sub total offset data s
  | .writeBlockTimeout session => Sys2Proof.Machine.execWriteBlockTimeout session s
  | .subscribeCancel q index sub => Sys2Proof.Machine.execSubscribeCancel q index sub s
  | .subscribeOnChange q index sub interval => Sys2Proof.Machine.execSubscribeOnChange q index sub interval s
  | .subscribeEachEntry q index sub interval => Sys2Proof.Machine.execSubscribeEachEntry q index sub interval s
  | .sessionOpen q f => Sys2Proof.Machine.execSessionOpen q f s
  | .sessionFinish q handle signature => Sys2Proof.Machine.execSessionFinish q handle signature s
  | .sessionClose q => Sys2Proof.Machine.execSessionClose q s
  | .sessionOpenExpire handle => Sys2Proof.Machine.execSessionOpenExpire handle s
  | .sessionIdleTimeout handle idle => Sys2Proof.Machine.execSessionIdleTimeout handle idle s
  | .closeSession q arg => Sys2Proof.Machine.execCloseSession q arg s
  | .clientKeyListWrite q data => Sys2Proof.Machine.execClientKeyListWrite q data s
  | .hostFrameReceive f => Sys2Proof.Machine.execHostFrameReceive f s
  | .hostLinkDown => Sys2Proof.Machine.execHostLinkDown s
  | .hostLinkUp lanes => Sys2Proof.Machine.execHostLinkUp lanes s
  | .cmRequest c => Sys2Proof.Machine.execCmRequest c s
  | .hostRdmaWrite c addr data => Sys2Proof.Machine.execHostRdmaWrite c addr data s
  | .bounceRecordReceive c record => Sys2Proof.Machine.execBounceRecordReceive c record s
  | .hostEncapKeyWrite q data => Sys2Proof.Machine.execHostEncapKeyWrite q data s
  | .confidentialModeWrite q arg => Sys2Proof.Machine.execConfidentialModeWrite q arg s
  | .loadScore q c arg => Sys2Proof.Machine.execLoadScore q c arg s
  | .scoreCheckDone c => Sys2Proof.Machine.execScoreCheckDone c s
  | .startFromPhrase0 q c => Sys2Proof.Machine.execStartFromPhrase0 q c s
  | .startFromStep q c => Sys2Proof.Machine.execStartFromStep q c s
  | .stopAtPhraseWrite q c arg => Sys2Proof.Machine.execStopAtPhraseWrite q c arg s
  | .stopComplete c => Sys2Proof.Machine.execStopComplete c s
  | .beatTest c o => Sys2Proof.Machine.execBeatTest c o s
  | .holdTimeout c => Sys2Proof.Machine.execHoldTimeout c s
  | .aclkBinChangeDone c => Sys2Proof.Machine.execAclkBinChangeDone c s
  | .crossingFifoSpace c crossing => Sys2Proof.Machine.execCrossingFifoSpace c crossing s
  | .versionReloadDone c r => Sys2Proof.Machine.execVersionReloadDone c r s
  | .overflowRetry c r => Sys2Proof.Machine.execOverflowRetry c r s
  | .checksumMismatch c r => Sys2Proof.Machine.execChecksumMismatch c r s
  | .tilePassEnd c r => Sys2Proof.Machine.execTilePassEnd c r s
  | .underflowPass c r => Sys2Proof.Machine.execUnderflowPass c r s
  | .tileRelease c r => Sys2Proof.Machine.execTileRelease c r s
  | .valveRestart c r => Sys2Proof.Machine.execValveRestart c r s
  | .vrunComplete c r => Sys2Proof.Machine.execVrunComplete c r s
  | .nop c r => Sys2Proof.Machine.execNop c r s
  | .add c r => Sys2Proof.Machine.execAdd c r s
  | .sub c r => Sys2Proof.Machine.execSub c r s
  | .mul c r => Sys2Proof.Machine.execMul c r s
  | .fma c r => Sys2Proof.Machine.execFma c r s
  | .min c r => Sys2Proof.Machine.execMin c r s
  | .max c r => Sys2Proof.Machine.execMax c r s
  | .cmp c r => Sys2Proof.Machine.execCmp c r s
  | .sel c r => Sys2Proof.Machine.execSel c r s
  | .exp2 c r => Sys2Proof.Machine.execExp2 c r s
  | .log2 c r => Sys2Proof.Machine.execLog2 c r s
  | .rcp c r => Sys2Proof.Machine.execRcp c r s
  | .rsqrt c r => Sys2Proof.Machine.execRsqrt c r s
  | .tanh c r => Sys2Proof.Machine.execTanh c r s
  | .sigm c r => Sys2Proof.Machine.execSigm c r s
  | .cvt c r => Sys2Proof.Machine.execCvt c r s
  | .qnt c r => Sys2Proof.Machine.execQnt c r s
  | .dq c r => Sys2Proof.Machine.execDq c r s
  | .perm c r => Sys2Proof.Machine.execPerm c r s
  | .permx c r => Sys2Proof.Machine.execPermx c r s
  | .shl c r => Sys2Proof.Machine.execShl c r s
  | .shr c r => Sys2Proof.Machine.execShr c r s
  | .sar c r => Sys2Proof.Machine.execSar c r s
  | .and_ c r => Sys2Proof.Machine.execAnd c r s
  | .or_ c r => Sys2Proof.Machine.execOr c r s
  | .xor_ c r => Sys2Proof.Machine.execXor c r s
  | .mov c r => Sys2Proof.Machine.execMov c r s
  | .in_ c r => Sys2Proof.Machine.execIn c r s
  | .out c r => Sys2Proof.Machine.execOut c r s
  | .drn c r => Sys2Proof.Machine.execDrn c r s
  | .movi c r => Sys2Proof.Machine.execMovi c r s
  | .scalarWrite c r reg value => Sys2Proof.Machine.execScalarWrite c r reg value s
  | .ploadComplete c mover => Sys2Proof.Machine.execPloadComplete c mover s
  | .moveComplete c mover => Sys2Proof.Machine.execMoveComplete c mover s
  | .pickComplete c mover => Sys2Proof.Machine.execPickComplete c mover s
  | .mxioComplete c mover => Sys2Proof.Machine.execMxioComplete c mover s
  | .openGranted c => Sys2Proof.Machine.execOpenGranted c s
  | .verdictAgreed c upsets => Sys2Proof.Machine.execVerdictAgreed c upsets s
  | .scalarsDone c => Sys2Proof.Machine.execScalarsDone c s
  | .rollback c => Sys2Proof.Machine.execRollback c s
  | .tunerClearCounters q c => Sys2Proof.Machine.execTunerClearCounters q c s
  | .tunerClearLog q c => Sys2Proof.Machine.execTunerClearLog q c s
  | .sendComplete c p => Sys2Proof.Machine.execSendComplete c p s
  | .collMainPassDone c cseq => Sys2Proof.Machine.execCollMainPassDone c cseq s
  | .collDelivered c cseq upsets => Sys2Proof.Machine.execCollDelivered c cseq upsets s
  | .collTimeout c cseq => Sys2Proof.Machine.execCollTimeout c cseq s
  | .sequencedFlitReceive c p flit now fecCorr fecUncorr => Sys2Proof.Machine.execSequencedFlitReceive c p flit now fecCorr fecUncorr s
  | .keyDerived c p => Sys2Proof.Machine.execKeyDerived c p s
  | .ackReceive c p flit => Sys2Proof.Machine.execAckReceive c p flit s
  | .nakReceive c p flit => Sys2Proof.Machine.execNakReceive c p flit s
  | .creditReceive c p flit => Sys2Proof.Machine.execCreditReceive c p flit s
  | .helloReceive c p flit => Sys2Proof.Machine.execHelloReceive c p flit s
  | .flitSlot c p => Sys2Proof.Machine.execFlitSlot c p s
  | .ackTimer c p => Sys2Proof.Machine.execAckTimer c p s
  | .replayTimeout c p => Sys2Proof.Machine.execReplayTimeout c p s
  | .creditTimer c p => Sys2Proof.Machine.execCreditTimer c p s
  | .helloTimer c p => Sys2Proof.Machine.execHelloTimer c p s
  | .laneLockLoss c p => Sys2Proof.Machine.execLaneLockLoss c p s
  | .downIdleEnd c p => Sys2Proof.Machine.execDownIdleEnd c p s
  | .trainingDone c p => Sys2Proof.Machine.execTrainingDone c p s
  | .portCountersClear q c mask => Sys2Proof.Machine.execPortCountersClear q c mask s
  | .collCountersClear q c => Sys2Proof.Machine.execCollCountersClear q c s
  | .pathPlanWrite q c data => Sys2Proof.Machine.execPathPlanWrite q c data s
  | .discoveryWindowEnd c => Sys2Proof.Machine.execDiscoveryWindowEnd c s
  | .classMapWrite q c space1 data => Sys2Proof.Machine.execClassMapWrite q c space1 data s
  | .hbmRefresh c delayed => Sys2Proof.Machine.execHbmRefresh c delayed s
  | .scrubRead c found => Sys2Proof.Machine.execScrubRead c found s
  | .cxlLinkLoss c => Sys2Proof.Machine.execCxlLinkLoss c s
  | .memCountersClear q c => Sys2Proof.Machine.execMemCountersClear q c s
  | .shardFetch c => Sys2Proof.Machine.execShardFetch c s
  | .shardResident c o => Sys2Proof.Machine.execShardResident c o s
  | .targetReconnect c target ok => Sys2Proof.Machine.execTargetReconnect c target ok s
  | .checkpointTargetFail c target => Sys2Proof.Machine.execCheckpointTargetFail c target s
  | .checkpointDone c target => Sys2Proof.Machine.execCheckpointDone c target s
  | .restart q c arg => Sys2Proof.Machine.execRestart q c arg s
  | .weightLoadOpen q c data => Sys2Proof.Machine.execWeightLoadOpen q c data s
  | .weightLoadClose q c arg => Sys2Proof.Machine.execWeightLoadClose q c arg s
  | .weightMeasureDone c => Sys2Proof.Machine.execWeightMeasureDone c s
  | .attestationNonce q nonce => Sys2Proof.Machine.execAttestationNonce q nonce s
  | .attestationSigned => Sys2Proof.Machine.execAttestationSigned s
  | .updateImage q image stored => Sys2Proof.Machine.execUpdateImage q image stored s
  | .activateMpFirmware q => Sys2Proof.Machine.execActivateMpFirmware q s
  | .activateChanterFirmware q => Sys2Proof.Machine.execActivateChanterFirmware q s
  | .activateEtudePack q => Sys2Proof.Machine.execActivateEtudePack q s
  | .mouthpieceReset q mask => Sys2Proof.Machine.execMouthpieceReset q mask s
  | .raiseMinSvn q arg sagAfter => Sys2Proof.Machine.execRaiseMinSvn q arg sagAfter s
  | .programOperatorSlot q digest interrupted => Sys2Proof.Machine.execProgramOperatorSlot q digest interrupted s
  | .mpWatchdog pclk => Sys2Proof.Machine.execMpWatchdog pclk s
  | .mpTrap pclk => Sys2Proof.Machine.execMpTrap pclk s
  | .errorFifoDrain c => Sys2Proof.Machine.execErrorFifoDrain c s
  | .haltResetTimer c => Sys2Proof.Machine.execHaltResetTimer c s
  | .logClear q arg => Sys2Proof.Machine.execLogClear q arg s
  | .etudeDue c r => Sys2Proof.Machine.execEtudeDue c r s
  | .rotationCopyDone c => Sys2Proof.Machine.execRotationCopyDone c s
  | .etudePhaseDone c o => Sys2Proof.Machine.execEtudePhaseDone c o s
  | .deferralDeadline c r => Sys2Proof.Machine.execDeferralDeadline c r s
  | .etudeWindowEnd c => Sys2Proof.Machine.execEtudeWindowEnd c s
  | .reinstate q arg => Sys2Proof.Machine.execReinstate q arg s
  | .reinstateAll q c => Sys2Proof.Machine.execReinstateAll q c s
  | .operatorSupplementWrite q data => Sys2Proof.Machine.execOperatorSupplementWrite q data s
  | .sagDetect psag vin => Sys2Proof.Machine.execSagDetect psag vin s
  | .channelSaveWritten c => Sys2Proof.Machine.execChannelSaveWritten c s
  | .saveComplete micros vmin => Sys2Proof.Machine.execSaveComplete micros vmin s
  | .resumeDecision vin micros => Sys2Proof.Machine.execResumeDecision vin micros s
  | .resumeStart c => Sys2Proof.Machine.execResumeStart c s
  | .powerOff vin => Sys2Proof.Machine.execPowerOff vin s
  | .ovEvent vin => Sys2Proof.Machine.execOvEvent vin s
  | .capCheck milliwatts channels => Sys2Proof.Machine.execCapCheck milliwatts channels s
  | .boardCapLevel level => Sys2Proof.Machine.execBoardCapLevel level s
  | .enterStandby q => Sys2Proof.Machine.execEnterStandby q s
  | .leaveStandby q => Sys2Proof.Machine.execLeaveStandby q s
  | .thermalSample c tj readouts => Sys2Proof.Machine.execThermalSample c tj readouts s
  | .thermN low => Sys2Proof.Machine.execThermN low s
  | .thermalTrip => Sys2Proof.Machine.execThermalTrip s
  | .refclkLLoss => Sys2Proof.Machine.execRefclkLLoss s
  | .refclkCLoss => Sys2Proof.Machine.execRefclkCLoss s
  | .declaredTimeWrite q arg => Sys2Proof.Machine.execDeclaredTimeWrite q arg s
  | .meterPoll linkUp => Sys2Proof.Machine.execMeterPoll linkUp s
  | .meterReadoutRequest q data => Sys2Proof.Machine.execMeterReadoutRequest q data s
  | .readoutComplete => Sys2Proof.Machine.execReadoutComplete s
  | .meterInterval input channels => Sys2Proof.Machine.execMeterInterval input channels s
  | .mtrPulseEnd => Sys2Proof.Machine.execMtrPulseEnd s
  | .sealLoopSample ohms => Sys2Proof.Machine.execSealLoopSample ohms s
  | .sealBroken => Sys2Proof.Machine.execSealBroken s
  | .sealed => Sys2Proof.Machine.execSealed s
  | .meterPowerUp wireIntact snapshotOk => Sys2Proof.Machine.execMeterPowerUp wireIntact snapshotOk s
  | .resetNRelease => Sys2Proof.Machine.execResetNRelease s
  | .refclkLReturn => Sys2Proof.Machine.execRefclkLReturn s
  | .lowInput vin => Sys2Proof.Machine.execLowInput vin s
  | .ovEpisodeEnd vin => Sys2Proof.Machine.execOvEpisodeEnd vin s
  | .ovAlertHoldEnd => Sys2Proof.Machine.execOvAlertHoldEnd s
  | .crystalStop => Sys2Proof.Machine.execCrystalStop s
  | .restartLoadDone c images => Sys2Proof.Machine.execRestartLoadDone c images s
  | .returnToP2 => Sys2Proof.Machine.execReturnToP2 s
  | .chordReloadDone c r upsets => Sys2Proof.Machine.execChordReloadDone c r upsets s

end Sys2Proof.Machine
end

