-- ==== Sys2Proof/Safety.lean ====
section
/-! DEFINITION. What the statements call a good state. -/

namespace Sys2Proof.Machine

open Sys2Proof

/-- The memories of a channel's memory system are in canonical form. -/
def Mem.canonical (m : Mem) : Prop := m.dram.wf = true ∧ m.chest.wf = true

/-- Every memory of a channel is in canonical form: HBM and far tier, wind chest, the SRAM of every Reed, and the routing and isolation
tables of its Bells. -/
def Channel.canonical (k : Channel) : Prop :=
  k.mem.canonical ∧ (∀ r, (k.reed r).sram.wf = true)
    ∧ (∀ w, w = k.shadow ∨ w = k.live → SMap.wf 0 w.routes = true ∧ SMap.wf false w.isolate = true)

/-- The state in which the session of a request is no longer idle. -/
def State.touch (s : State) (q : Req) : State := s.modSession q.session (fun x => { x with idle := 0 })

/-- A request that passes steps 1 to 6 of 14 R359 in an open session, for the first time: datagrams can be answered, the version is
1, the device has left INIT, the session is open, its TXID has not been answered, nothing of it is under way, and the stop exists
and admits the operation for the session. -/
def State.admits (s : State) (q : Req) (op index sub : Nat) (x : Session) : Prop :=
  s.canSend = true ∧ q.version = 1 ∧ s.dev ≠ 0 ∧ q.session ≠ 0 ∧ s.session? q.session = some x ∧ x.cached q.txid = none
    ∧ s.underway q = false ∧ engineering index = false ∧ s.accessCheck q x op index sub = 0

/-- A write that passes the checks of 14 R359 up to the state of the device: it is admitted, and its value has the stop's length and
range, the stop is not locked by a running channel, and the device is not in FAULT. `block` tells a value that came in segments. -/
def State.accepts (s : State) (q : Req) (block : Bool) (index sub : Nat) (d : List Byte) (x : Session) : Prop :=
  s.admits q (if block then 4 else 2) index sub x ∧ (block = true ∨ d.length ≤ 8192) ∧
    ∃ r, stopRow index sub = some r ∧ r.type.check d = 0 ∧ s.lengthBad index sub d.length = false
      ∧ s.valueBad index sub d = false ∧ (r.access = .rwl → s.locked index sub (some d) = false)
      ∧ s.faultForbids (if block then 4 else 2) index sub = false

/-- Between two states a response to the request has been sent, with an abort code and a payload (14 R356). -/
def State.replied (s t : State) (q : Req) (op index sub code : Nat) (payload : List Byte) : Prop :=
  ∃ n before after, t.mp.sent = s.mp.sent ++ before ++
    { session := q.session, txid := q.txid, op := op, index := index, sub := sub, abort := code, payload := payload, seq := n } :: after

/-- What a session keeps when a datagram of it is answered: all but its sequence number, its idle time and its recent responses. -/
def Session.kept (x : Session) : Session := { x with seqOut := 0, idle := 0, cache := [] }

/-- State `t` is state `u` after datagrams have been sent: it differs in the responses sent, the host port's counters, and in what
sessions keep of their responses. -/
def State.talked (u t : State) : Prop :=
  t = { u with mp := { u.mp with
      sessions := t.mp.sessions, sent := t.mp.sent, host := { u.mp.host with cnt := t.mp.host.cnt } } }
    ∧ t.mp.sessions.map Session.kept = u.mp.sessions.map Session.kept

/-- What a session keeps when it is notified of new log entries: all but its sequence number and its notification counter. -/
def Session.quiet (x : Session) : Session := { x with seqOut := 0, notifyCtr := 0 }

/-- State `t` is state `u` after subscribers have been told of log entries: it differs in the datagrams sent, the host port's counters,
and the counters of sessions. -/
def State.told (u t : State) : Prop :=
  t = { u with mp := { u.mp with
      sessions := t.mp.sessions, sent := t.mp.sent, host := { u.mp.host with cnt := t.mp.host.cnt } } }
    ∧ t.mp.sessions.map Session.quiet = u.mp.sessions.map Session.quiet

/-- A write is carried out with the effect that turns `s` into `u`: the response without an abort code is sent, and nothing else
changes. -/
def State.carried (s : State) (i : Instr) (q : Req) (op index sub : Nat) (u : State) : Prop :=
  ∃ t, exec i s = .next t ∧ u.talked t ∧ s.replied t q op index sub 0 []

/-- A write is carried out by an operation on the state: the session is no longer idle, the operation is applied, and the response
without an abort code is sent, with nothing else in between or after. -/
def State.carriedBy (s t : State) (i : Instr) (q : Req) (op index sub : Nat) (f : State → State) : Prop :=
  exec i s = .next t ∧ t = (f (s.touch q)).answer q op index sub {} ∧ s.replied t q op index sub 0 []

/-- A write is refused with an abort code, and nothing else changes. -/
def State.refusedWith (s : State) (i : Instr) (q : Req) (op index sub code : Nat) : Prop :=
  ∃ t, exec i s = .next t ∧ s.talked t ∧ s.replied t q op index sub code []

/-- The stops of a channel that hold a value and do nothing else, with n = 0, and their subindices. -/
def heldStops : List (Nat × Nat) :=
  [(0x2002, 0), (0x2003, 0), (0x2010, 3), (0x2010, 8), (0x2020, 0), (0x2030, 1), (0x2030, 2), (0x2030, 3), (0x2030, 4), (0x2030, 5)
   , (0x2030, 6), (0x2030, 8), (0x3000, 0), (0x3001, 0), (0x3002, 0), (0x3003, 0), (0x3004, 0), (0x3005, 0), (0x3007, 0), (0x3008, 0)
   , (0x3010, 1), (0x3010, 2), (0x3010, 3), (0x3010, 4), (0x3010, 5), (0x3020, 5), (0x3040, 1), (0x4002, 1), (0x4002, 2), (0x4005, 0)
   , (0x5000, 1), (0x5001, 2), (0x5010, 1), (0x5010, 2), (0x5010, 3), (0x5010, 4), (0x5010, 5), (0x5010, 6), (0x5010, 7)]
  ++ ((List.range 8).map (fun i => (0x5003, i + 1))) ++ (List.range 8).map (fun i => (0x5004, i + 1))

/-- The stops outside the channels that hold a value and do nothing else. -/
def heldDeviceStops : List (Nat × Nat) :=
  [(0x1040, 0), (0x1050, 4), (0x1060, 1), (0x1060, 2), (0x1060, 3), (0x1060, 4), (0x6002, 0), (0x6003, 5), (0x6004, 0), (0x6011, 0)
   , (0x6012, 0), (0x6013, 0), (0x6014, 0), (0x6015, 0), (0x6020, 0), (0x6030, 1), (0x7002, 0), (0x7004, 0), (0x7005, 0)]

/-! ### Memory -/

/-- A line of the write-combining buffer: on a line's boundary, its bytes inside the line and each named once. -/
def WcbLine.ok (l : WcbLine) : Prop :=
  l.addr % 256 = 0 ∧ (∀ b ∈ l.bytes, b.1 < 256) ∧ l.bytes.Pairwise (fun a b => a.1 < b.1)

/-- A memory as the machine keeps it: canonical, with one sound line per address in the write-combining buffer. -/
def Mem.sound (m : Mem) : Prop :=
  m.canonical ∧ (∀ l ∈ m.wcb, l.ok) ∧ m.wcb.Pairwise (fun a b => a.addr ≠ b.addr)

/-- The byte that a read of a tier address sees: from the write-combining buffer when it holds it (09 R250). -/
def Mem.byte (m : Mem) (a : Nat) : Byte :=
  match (m.line a).bind (fun l => l.bytes.find? (fun b => b.1 == a % 256)) with
  | some b => b.2
  | none => m.dram.rd a

/-- Between two memories, the bytes from logical address `addr` of a space on have been written, and every other byte is the same
(09 R231, R248 to R250). -/
def Mem.wrote (m m' : Mem) (space addr : Nat) (bs : List Byte) : Prop :=
  (∀ a, (∀ i q, i < bs.length → m.place space (addr + i) = some q → q.key ≠ a) → m'.byte a = m.byte a)
    ∧ ∀ i q, i < bs.length → m.place space (addr + i) = some q →
        (∀ j r, i < j → j < bs.length → m.place space (addr + j) = some r → r.key ≠ q.key) → some (m'.byte q.key) = bs[i]?

/-! ### Valve runs -/

/-- The run of a Valve is about to execute an instruction word with opcode `op`, and it is not the last of its program
(06 R140). -/
def State.atInstr (s : State) (c : ChanId) (r : ReedId) (op : Nat) (x : Run) (w : Nat) : Prop :=
  ((s.chan c).reed r).valve.run = some x ∧ x.abandoned = false ∧ x.failed = false ∧ x.step < x.desc.e
    ∧ w = x.prog.getD x.pc 0 ∧ wOp w = op ∧ x.pc + 1 < x.desc.n

/-- The same at the last word of the program, where the element step ends (06 R140). -/
def State.atLast (s : State) (c : ChanId) (r : ReedId) (op : Nat) (x : Run) (w : Nat) : Prop :=
  ((s.chan c).reed r).valve.run = some x ∧ x.abandoned = false ∧ x.failed = false ∧ x.step < x.desc.e
    ∧ w = x.prog.getD x.pc 0 ∧ wOp w = op ∧ x.desc.n ≤ x.pc + 1

/-- The Valve instructions of a Reed with their opcodes (06 R146). -/
def valveForms (c : ChanId) (r : ReedId) : List (Nat × Instr) :=
  [(0x00, .nop c r), (0x01, .add c r), (0x02, .sub c r), (0x03, .mul c r), (0x04, .fma c r), (0x05, .min c r), (0x06, .max c r)
   , (0x07, .cmp c r), (0x08, .sel c r), (0x09, .exp2 c r), (0x0A, .log2 c r), (0x0B, .rcp c r), (0x0C, .rsqrt c r), (0x0D, .tanh c r)
   , (0x0E, .sigm c r), (0x0F, .cvt c r), (0x10, .qnt c r), (0x11, .dq c r), (0x12, .perm c r), (0x13, .permx c r), (0x14, .shl c r)
   , (0x15, .shr c r), (0x16, .sar c r), (0x17, .and_ c r), (0x18, .or_ c r), (0x19, .xor_ c r), (0x1A, .mov c r), (0x1B, .in_ c r)
   , (0x1C, .out c r), (0x1D, .drn c r), (0x1E, .movi c r)]

/-- What lane `l` of a run reads for an instruction word: its operands, and eight random bits where it draws (06 R144, R147). -/
def State.laneIn (s : State) (c : ChanId) (r : ReedId) (x : Run) (w : Nat) (draw : Bool) (l : Nat) : LaneIn :=
  { lane := l, a := x.lane (wVa w) l, b := x.second w l, c := x.lane (wVc w) l
    r8 := if draw then (Lane.next8 (((s.chan c).reed r).valve.source (s.chan c).bind.seed c r l)).1 else 0
    free := Config.freeNat (s.freeCtr + l) }

/-- The vector register `v` of a run has a lane `l`. -/
def Run.hasLane (x : Run) (v l : Nat) : Prop := l < 256 ∧ l < (x.v.getD v []).length

/-- The predicate register `p` of a run has a lane `l`. -/
def Run.hasPred (x : Run) (p l : Nat) : Prop := l < 256 ∧ l < (x.pred.getD p []).length

/-- Some executing lane raises a flag. -/
def Run.raises (x : Run) (w : Nat) (flag : Nat → Bool) : Prop := ∃ l, l < 256 ∧ x.executes w l = true ∧ flag l = true

/-- A run after an instruction that makes lane `l` do `out l`: the next instruction of the same element step is up; the executing
lanes of VD and of predicate IMM[1:0] hold what the instruction writes; every other lane of every register is as it was; the
sticky flags and the lanes' exception registers and PB bits have gained what the executing lanes raised, V_UNF and V_INX in strict
mode only (06 R141, R144, R150, R152); and nothing else of the run changes. -/
def Run.laneStep (x x' : Run) (w : Nat) (out : Nat → LaneOut) : Prop :=
  x' = { x with pc := x.pc + 1, v := x'.v, pred := x'.pred, pb := x'.pb, xf := x'.xf, vInv := x'.vInv, vDz := x'.vDz, vOvf := x'.vOvf
                vUnf := x'.vUnf, vInx := x'.vInx, permOor := x'.permOor, oorLanes := x'.oorLanes }
    ∧ (∀ l, x.hasLane (wVd w) l →
        x'.lane (wVd w) l = if x.executes w l then (out l).bits.getD (x.lane (wVd w) l) else x.lane (wVd w) l)
    ∧ (∀ v l, v ≠ wVd w → x'.lane v l = x.lane v l)
    ∧ (∀ l, x.hasPred (wImm w % 4) l → x'.predAt (wImm w % 4) l =
        if x.executes w l then (out l).pred.getD (x.predAt (wImm w % 4) l) else x.predAt (wImm w % 4) l)
    ∧ (∀ p l, p ≠ wImm w % 4 → x'.predAt p l = x.predAt p l)
    ∧ (x'.vInv = true ↔ x.vInv = true ∨ x.raises w (fun l => (out l).fl.inv))
    ∧ (x'.vDz = true ↔ x.vDz = true ∨ x.raises w (fun l => (out l).fl.dz))
    ∧ (x'.vOvf = true ↔ x.vOvf = true ∨ x.raises w (fun l => (out l).fl.ovf))
    ∧ (x'.vUnf = true ↔ x.vUnf = true ∨ x.set.strict = true ∧ x.raises w (fun l => (out l).fl.unf))
    ∧ (x'.vInx = true ↔ x.vInx = true ∨ x.set.strict = true ∧ x.raises w (fun l => (out l).fl.inx))
    ∧ (x'.permOor = true ↔ x.permOor = true ∨ x.raises w (fun l => (out l).oor))
    ∧ (∀ l, l ∈ x'.oorLanes ↔ l ∈ x.oorLanes ∨ l < 256 ∧ x.executes w l = true ∧ (out l).oor = true)
    ∧ (∀ l, l < 256 → l < x.xf.length → x'.xf.getD l 0 = if x.executes w l then xfOr (x.xf.getD l 0) (out l).fl else x.xf.getD l 0)
    ∧ ∀ l, l < 256 → l < x.pb.length → x'.pb.getD l false = (x.pb.getD l false || (x.executes w l && (out l).pb))

/-! ### Frames -/

/-- Two states that differ in channel `c` only, and in how many free values have been drawn. -/
def State.onlyChan (c : ChanId) (s t : State) : Prop :=
  t = { s with ch := t.ch, freeCtr := t.freeCtr } ∧ ∀ d, d ≠ c → t.chan d = s.chan d

/-- Two states that differ in channel `c`, its part of the save store, the Mouthpiece, the meter, the device's state and the firmware
that channels have taken: no other channel, no pin, no fuse and nothing of the power changes. -/
def State.aroundChan (s : State) (c : ChanId) (t : State) : Prop :=
  t = { s with ch := t.ch, mp := t.mp, meter := t.meter, dev := t.dev, mram := { s.mram with chan := t.mram.chan, comps := t.mram.comps } }
    ∧ ∀ d, d ≠ c → t.chan d = s.chan d ∧ t.store d = s.store d

/-- Two channels that differ in memories, Reeds, errors and what the Tuner has observed only: what units do to data. -/
def Channel.dataFrame (k k' : Channel) : Prop := k' = { k with mem := k'.mem, reeds := k'.reeds, err := k'.err, tun := k'.tun }

/-- Two channels that differ in Reed `r` only. -/
def Channel.onlyReed (r : ReedId) (k k' : Channel) : Prop :=
  k' = { k with reeds := k'.reeds } ∧ ∀ q, q ≠ r → k'.reed q = k.reed q

/-- Two channels that differ in port `p` only. -/
def Channel.onlyPort (p : PortId) (k k' : Channel) : Prop :=
  k' = { k with ports := k'.ports } ∧ ∀ q, q ≠ p → k'.port q = k.port q

/-- Two states that differ in the run of one Valve only. Every memory, every other Valve and every other part of the device is the
same. -/
def State.onlyRun (c : ChanId) (r : ReedId) (s t : State) (x' : Run) : Prop :=
  s.onlyChan c t ∧ t.chan c = (s.chan c).modValve r (fun v => { v with run := some x' })

/-- A channel with the crushed and saturated elements of the lanes that execute an instruction counted, for the Reed and for the
layer (04 R104; 06 R152). -/
def Channel.countLanes (k : Channel) (r : ReedId) (x : Run) (w : Nat) (out : Nat → LaneOut) : Channel :=
  let n := fun (p : LaneOut → Bool) => ((List.range 256).filter (fun l => x.executes w l && p (out l))).length
  if n LaneOut.crushed = 0 ∧ n LaneOut.sat = 0 then k
  else k.countQuant r x.layer 9 { crushElem := n LaneOut.crushed, satElem := n LaneOut.sat }

/-- Two states that differ in the run of one Valve, in the random sources of the lanes that execute an instruction which draws, each
moved on by one draw (02 R48), and in the conversion counters of elements that the instruction crushed or saturated. Every memory,
every other Valve and every other part of the device is the same. -/
def State.onlyLanes (c : ChanId) (r : ReedId) (s t : State) (x : Run) (w : Nat) (draw : Bool) (out : Nat → LaneOut) (x' : Run) : Prop :=
  let v := ((s.chan c).reed r).valve
  s.onlyChan c t ∧ ∃ lfsr,
    t.chan c = ((s.chan c).modValve r (fun v => { v with run := some x', lfsr := lfsr })).countLanes r x w out
    ∧ (draw = false → lfsr = v.lfsr)
    ∧ ∀ l, l < 256 → SMap.get 0 lfsr l =
        if draw && x.executes w l then (Lane.next8 (v.source (s.chan c).bind.seed c r l)).2 else SMap.get 0 v.lfsr l

/-- What a pass of the tile on Reed `r` leaves alone: ports, score, what every memory but that Reed's SRAM holds, every other Reed, and
that Reed's Valve and output slots. -/
def Channel.passFrame (r : ReedId) (k k' : Channel) : Prop :=
  k'.ports = k.ports ∧ k'.score = k.score ∧ k'.mem.dram = k.mem.dram ∧ k'.mem.wcb = k.mem.wcb ∧ k'.mem.chest = k.mem.chest
    ∧ (∀ q, q ≠ r → k'.reed q = k.reed q) ∧ (k'.reed r).valve = (k.reed r).valve ∧ (k'.reed r).slots = (k.reed r).slots

/-- The tile of a Reed makes another pass: it is the same tile, with one more pass. -/
def TileRun.again (t t' : TileRun) : Prop :=
  t'.desc = t.desc ∧ t'.entry = t.entry ∧ t'.set = t.set ∧ t'.p = t.p ∧ t'.layer = t.layer ∧ t'.passes = t.passes + 1

/-- The action of score entry `i` has completed: it is in flight no longer, and the token it produces is set (07 R168). -/
def Channel.landed (k k' : Channel) (i : Nat) : Prop :=
  (∀ f ∈ k'.flights, f.entry ≠ i)
    ∧ ∀ f n, k.flights.find? (fun (g : Flight) => g.entry == i) = some f → f.token = some n →
        (k'.token n).set = true ∧ (k'.token n).flying = false

/-- A unit of the channel has written an error. -/
def Channel.wroteErr (k : Channel) (unit uidx : Nat) (cause : Cause) (cls : ErrClass) : Prop :=
  ∃ e, (e ∈ k.err.fifo ∨ e ∈ k.err.stalled) ∧ e.unit = unit ∧ e.uidx = uidx ∧ e.cause = cause ∧ e.cls = cls

/-- A lane-wise instruction completes: at every instruction word with its opcode that `ok` admits, the executing lanes do `out`, which
is all the run changes, and nothing but the run changes, save the random sources when the word draws and the conversion counters when a
lane crushes or saturates an element. -/
def State.laneResult (s : State) (i : Instr) (c : ChanId) (r : ReedId) (op : Nat) (draw : Nat → Bool) (ok : Run → Nat → Prop)
    (out : Run → Nat → Nat → LaneOut) : Prop :=
  ∀ x w, s.atInstr c r op x w → ok x w →
    ∃ t x', exec i s = .next t ∧ x.laneStep x' w (out x w) ∧ s.onlyLanes c r t x w (draw w) (out x w) x'

/-! ### What every step keeps -/

/-- The device-wide registers hold legal values: the state of the device (20 R463), the state kept through Last Breath, the fuses
(15 R374, R375), the three components of the firmware store, the meter's seal (16 R393), and per channel the bin floor (18 R437), the
binding epoch (09 R243), the health of 68 Reeds, and four storage targets (13 R335), in the save record too. -/
def State.legal (s : State) : Prop :=
  s.dev ≤ 5 ∧ (∀ b, s.power.lb = some b → b.before ≤ 5) ∧ s.fuses.minSvn ≤ 64 ∧ s.fuses.opSpent ≤ 2
    ∧ (s.fuses.opSlot.isSome = true → 1 ≤ s.fuses.opSpent) ∧ s.mram.comps.length = 3 ∧ s.meter.sealSt ≤ 2
    ∧ ∀ c, (s.store c).binFloor ≤ 15 ∧ (s.store c).epoch ≤ 0xFFFFFFFF ∧ (s.store c).health.length = 68
        ∧ (s.chan c).svc.targets.length = 4 ∧ ∀ r, (s.store c).record = some r → r.svc.targets.length = 4

/-- Every memory of every channel is in canonical form. -/
def State.canonical (s : State) : Prop := ∀ c, (s.chan c).canonical

/-- What only moves one way: a fuse is never undone, the meter's seal never heals, and report counter and binding epochs never fall
(15 R374, R375, R382; 16 R393, R394; 09 R243). -/
def State.onward (s t : State) : Prop :=
  t.fuses.prod = s.fuses.prod ∧ t.fuses.debugClosed = s.fuses.debugClosed ∧ s.fuses.minSvn ≤ t.fuses.minSvn
    ∧ s.fuses.opSpent ≤ t.fuses.opSpent ∧ (∀ d, s.fuses.opSlot = some d → t.fuses.opSlot = some d)
    ∧ s.meter.sealSt ≤ t.meter.sealSt ∧ s.mram.counter ≤ t.mram.counter ∧ ∀ c, (s.store c).epoch ≤ (t.store c).epoch

/-! ### Resets and boots -/

/-- State `t` is state `s` after a reset of the whole device (20 R467): every stop but the stored ones is at its default, every binding
epoch has risen, what HBM held is gone, no session, job, plan or score is left, and an interrupted hold-up is a power loss in the
hold-up record (19 R451). The device state, the channels' states and the pins are left to the statement. -/
def State.defaulted (s t : State) : Prop :=
  t.pins.phase = .strap ∧ t.pins.seenF = false ∧ t.power.lb = none ∧ t.power.standby = false ∧ t.power.swCap = 1800
    ∧ t.mp.running = false ∧ t.mp.sessions = [] ∧ t.mp.opens = [] ∧ t.mp.idleTimeout = 300 ∧ t.mp.detDepth = 8
    ∧ t.fuses = s.fuses ∧ t.pending = s.pending ∧ ((∀ c, (s.chan c).bind.bound = false) → t.meter = s.meter)
    ∧ t.mram = { s.mram with chan := t.mram.chan, comps := t.mram.comps, holdup := s.mram.holdup.lost s.power.lb }
    ∧ ∀ c, (t.chan c).bind = {} ∧ (t.chan c).score = none ∧ (t.chan c).paths = {} ∧ (t.chan c).svc = {}
        ∧ (t.chan c).mem = { epoch := (t.store c).epoch } ∧ (t.chan c).flights = [] ∧ (t.chan c).tokens = []
        ∧ (∀ r, (t.chan c).reed r = {}) ∧ (t.chan c).meas = measStart 0 (t.store c).epoch
        ∧ (t.store c).epoch = min ((s.store c).epoch + 1) 0xFFFFFFFF ∧ (t.store c).trims = (s.store c).trims
        ∧ (t.store c).autoRestart = (s.store c).autoRestart ∧ (t.store c).binFloor = (s.store c).binFloor
        ∧ (t.store c).record = (s.store c).record

/-- The boot ROM finds a component without an image that passes, or the key store fails its self-check (15 R372; 17 R412). -/
def State.romFails (s : State) (o : BootObs) : Prop :=
  o.keystoreBad = true ∨ ∃ i, i < 3 ∧ bootSlot s.fuses o.bad i (if i < 2 then (s.comp i).switch else s.comp i) = none

/-- Where a boot leaves the device: in INIT with every channel in INIT, or in FAULT with every channel HALTED when the ROM's checks fail
(15 R372; 17 R409; 20 R463). -/
def State.bootedTo (s t : State) (o : BootObs) : Prop :=
  (s.romFails o → t.dev = 5 ∧ ∀ c, (t.chan c).st = .halted) ∧ (¬ s.romFails o → t.dev = 0 ∧ ∀ c, (t.chan c).st = .init)

/-- The device is in INIT with every channel in INIT. -/
def State.inInit (t : State) : Prop := t.dev = 0 ∧ ∀ c, (t.chan c).st = .init

/-- Two states that differ in channel `c`, its part of the save store, what is reported of it, and the device's state (and in the Étude
pack, which a full run may activate): no other channel, no pin, no fuse and nothing of the power changes. -/
def State.nearChan (c : ChanId) (s t : State) : Prop :=
  t.pins = s.pins ∧ t.fuses = s.fuses ∧ t.power = s.power ∧ t.pending = s.pending
    ∧ t.mram = { s.mram with chan := t.mram.chan, comps := t.mram.comps } ∧ t.comp 0 = s.comp 0 ∧ t.comp 1 = s.comp 1
    ∧ (∀ d, d ≠ c → t.chan d = s.chan d) ∧ ∀ d, d ≠ c → t.store d = s.store d

end Sys2Proof.Machine
end

