-- ==== Sys2Proof/Certificates/Slice0/Obligations.lean ====
section
/-! DEFINITION. The statements about the model. -/

section

open Sys2Proof Sys2Proof.Machine Sys2Proof.Num

/-! ### The Valve -/

/-- The instructions that copy, mask or select bits complete with the results of 06 R146 and R147: NOP writes nothing, MOV copies
b, MOVI writes its immediate, SEL copies a or c unchanged by predicate IMM[1:0], and AND, OR and XOR act bit by bit. They raise no
flag, and nothing but the run changes. -/
def Obligations.ValveRawInstructions : Prop :=
  ∀ (s : State) (c : ChanId) (r : ReedId),
    s.laneResult (.nop c r) c r 0x00 (fun _ => false) (fun _ _ => True) (fun _ _ _ => {})
    ∧ s.laneResult (.mov c r) c r 0x1A (fun _ => false) (fun _ _ => True) (fun x w l => { bits := some (x.second w l) })
    ∧ s.laneResult (.movi c r) c r 0x1E (fun _ => false) (fun _ _ => True) (fun _ w _ => { bits := some (wImm w) })
    ∧ s.laneResult (.sel c r) c r 0x08 (fun _ => false) (fun _ _ => True) (fun x w l =>
        { bits := some (if x.predAt (wImm w % 4) l then x.lane (wVa w) l else x.lane (wVc w) l) })
    ∧ s.laneResult (.and_ c r) c r 0x17 (fun _ => false) (fun _ _ => True) (fun x w l => { bits := some (x.lane (wVa w) l &&& x.second w l) })
    ∧ s.laneResult (.or_ c r) c r 0x18 (fun _ => false) (fun _ _ => True) (fun x w l => { bits := some (x.lane (wVa w) l ||| x.second w l) })
    ∧ s.laneResult (.xor_ c r) c r 0x19 (fun _ => false) (fun _ _ => True) (fun x w l => { bits := some (x.lane (wVa w) l ^^^ x.second w l) })

/-- The shifts complete on the lane types that 06 R146 gives them: SHL of both integer types, SHR of UINT16 and SAR of INT16, by
the low four bits of b. On any other lane type they complete too, with a free value in each executing lane, which is the model's choice
(log 39). Nothing but the run changes. -/
def Obligations.ValveShifts : Prop :=
  ∀ (s : State) (c : ChanId) (r : ReedId),
    let a16 := fun (x : Run) (w l : Nat) => BitVec.ofNat 16 (x.lane (wVa w) l)
    let free := fun (x : Run) (w l : Nat) => LaneOut.open_ (s.laneIn c r x w false l)
    s.laneResult (.shl c r) c r 0x14 (fun _ => false) (fun _ _ => True) (fun x w l =>
      if 2 ≤ wTy w then { bits := some ((a16 x w l <<< (x.second w l % 16)).toNat) } else free x w l)
    ∧ s.laneResult (.shr c r) c r 0x15 (fun _ => false) (fun _ _ => True) (fun x w l =>
      if wTy w = 3 then { bits := some ((a16 x w l >>> (x.second w l % 16)).toNat) } else free x w l)
    ∧ s.laneResult (.sar c r) c r 0x16 (fun _ => false) (fun _ _ => True) (fun x w l =>
      if wTy w = 2 then { bits := some (((a16 x w l).sshiftRight (x.second w l % 16)).toNat) } else free x w l)

/-- CMP writes predicate IMM[1:0] of the executing lanes and nothing else (06 R146), by the relation that IMM[4:2] names, and orders
float values as 02 R53 sets out: NaN compares unordered with every value, itself included, so that equal and the four orders are
false and not-equal is true; and both zeros are equal. -/
def Obligations.ValveCompare : Prop :=
  (∀ (s : State) (c : ChanId) (r : ReedId),
    s.laneResult (.cmp c r) c r 0x07 (fun _ => false) (fun _ _ => True) (fun x w l =>
      { pred := some (Lane.relation (Lane.Ty.ofCode (wTy w)) (wImm w / 4 % 8) (x.lane (wVa w) l) (x.second w l)) }))
  ∧ (∀ ty a b, ty = Lane.Ty.bf16 ∨ ty = Lane.Ty.fp16 →
      Lane.fval ty a = .nan ∨ Lane.fval ty b = .nan →
      Lane.relation ty 0 a b = false ∧ Lane.relation ty 1 a b = true ∧ Lane.relation ty 2 a b = false
        ∧ Lane.relation ty 3 a b = false ∧ Lane.relation ty 4 a b = false ∧ Lane.relation ty 5 a b = false)
  ∧ (∀ ty a b, ty = Lane.Ty.bf16 ∨ ty = Lane.Ty.fp16 → a ∈ [0x0000, 0x8000] → b ∈ [0x0000, 0x8000] →
      Lane.relation ty 0 a b = true ∧ Lane.relation ty 1 a b = false)

/-- PERM and PERMX complete when every index lies below VL: each executing lane receives the lane of a that its index names, read
before the instruction (06 R146, R151). Where an index does not, a run in fast mode completes too, with +0 in that lane and the
sticky PERM_OOR flag set, and nothing but the run changes. In strict mode such an index raises VALVE_FAULT: the run ends, its status word
names the instruction and the first such lane, and an error of class S is written (06 R151, R154, R156). PERMX with IMM[15:8] not zero
completes with a free value in each executing lane, which is the model's choice (log 39). -/
def Obligations.ValvePermutes : Prop :=
  ∀ (s : State) (c : ChanId) (r : ReedId),
    let fetch := fun (ix : Nat → Nat) (x : Run) (w l : Nat) =>
      if ix l < x.desc.vl then { bits := some (x.lane (wVa w) (ix l)) } else ({ bits := some 0, oor := true } : LaneOut)
    let inside := fun (ix : Nat → Nat) (x : Run) (w : Nat) =>
      x.set.strict = false ∨ ∀ l, l < 256 → x.executes w l = true → ix l < x.desc.vl
    let ends := fun (i : Instr) (x : Run) (l : Nat) =>
      ∃ t, exec i s = .next t ∧ s.onlyChan c t ∧ ((t.chan c).reed r).valve.run = none
        ∧ ((t.chan c).reed r).valve.status = x.statusWord (some (x.pc, l)) ∧ (t.chan c).wroteErr 1 r.val .valveFault .S
    let first := fun (ix : Nat → Nat) (x : Run) (w l : Nat) =>
      l < 256 ∧ x.executes w l = true ∧ x.desc.vl ≤ ix l ∧ ∀ j, j < l → x.executes w j = true → ix j < x.desc.vl
    s.laneResult (.perm c r) c r 0x12 (fun _ => false) (fun x w => inside (x.second w) x w) (fun x w => fetch (x.second w) x w)
    ∧ s.laneResult (.permx c r) c r 0x13 (fun _ => false) (fun x w => 256 ≤ wImm w ∨ inside (fun l => l ^^^ wImm w) x w)
        (fun x w l => if 256 ≤ wImm w then LaneOut.open_ (s.laneIn c r x w false l) else fetch (fun l => l ^^^ wImm w) x w l)
    ∧ (∀ x w l, s.atInstr c r 0x12 x w → x.set.strict = true → first (x.second w) x w l → ends (.perm c r) x l)
    ∧ (∀ x w l, s.atInstr c r 0x13 x w → x.set.strict = true → wImm w < 256 → first (fun l => l ^^^ wImm w) x w l →
        ends (.permx c r) x l)

/-- ADD, SUB, MUL, FMA, MIN, MAX and CVT complete on every lane type, with the results and flags of the lane arithmetic, and nothing but
the run changes, save the random sources of lanes that round stochastically; FMA of an integer type, which 06 R146 does not give, has a
free value as its result, which is the model's choice (log 39). INT16 and UINT16 sums, differences and products saturate at the limits of their type, with V_OVF where the exact
result lies beyond them (06 R146, R149). -/
def Obligations.ValveArithmetic : Prop :=
  (∀ (s : State) (c : ChanId) (r : ReedId),
    let res := fun (draw : Nat → Bool) (g : Lane.Env → Lane.Ty → Rnd → LaneIn → Lane.Res) (x : Run) (w l : Nat) =>
      LaneOut.ofRes (g x.env (Lane.Ty.ofCode (wTy w)) (rndOf (wRnd w)) (s.laneIn c r x w (draw w) l))
    s.laneResult (.add c r) c r 0x01 drawsFloat (fun _ _ => True) (res drawsFloat (fun e ty m i => Lane.add2 e ty m i.a i.b i.r8))
    ∧ s.laneResult (.sub c r) c r 0x02 drawsFloat (fun _ _ => True) (res drawsFloat (fun e ty m i => Lane.sub2 e ty m i.a i.b i.r8))
    ∧ s.laneResult (.mul c r) c r 0x03 drawsFloat (fun _ _ => True) (res drawsFloat (fun e ty m i => Lane.mul2 e ty m i.a i.b i.r8))
    ∧ s.laneResult (.fma c r) c r 0x04 drawsFloat (fun _ _ => True) (fun x w l =>
        if wTy w < 2 then res drawsFloat (fun e ty m i => Lane.fma3 e ty m i.a i.b i.c i.r8) x w l
        else LaneOut.open_ (s.laneIn c r x w false l))
    ∧ s.laneResult (.min c r) c r 0x05 (fun _ => false) (fun _ _ => True) (res (fun _ => false) (fun e ty _ i => Lane.minmax e ty false i.a i.b))
    ∧ s.laneResult (.max c r) c r 0x06 (fun _ => false) (fun _ _ => True) (res (fun _ => false) (fun e ty _ i => Lane.minmax e ty true i.a i.b))
    ∧ s.laneResult (.cvt c r) c r 0x0F drawsCvt (fun _ _ => True) (fun x w l =>
        LaneOut.ofRes (Lane.cvt x.env (Lane.Ty.ofCode (wTy w)) (wImm w % 4) (rndOf (wRnd w))
          (s.laneIn c r x w (drawsCvt w) l).a (s.laneIn c r x w (drawsCvt w) l).r8)))
  ∧ (∀ (e : Lane.Env) (m : Rnd) (a b r8 : Nat),
      let A := (BitVec.ofNat 16 a).toInt
      let B := (BitVec.ofNat 16 b).toInt
      let sat := fun (z : Int) => (BitVec.ofInt 16 (max (-32768) (min 32767 z))).toNat
      let out := fun (z : Int) => decide (z < -32768 ∨ 32767 < z)
      ((Lane.add2 e .int16 m a b r8).bits = sat (A + B) ∧ (Lane.add2 e .int16 m a b r8).fl.ovf = out (A + B))
      ∧ ((Lane.sub2 e .int16 m a b r8).bits = sat (A - B) ∧ (Lane.sub2 e .int16 m a b r8).fl.ovf = out (A - B))
      ∧ ((Lane.mul2 e .int16 m a b r8).bits = sat (A * B) ∧ (Lane.mul2 e .int16 m a b r8).fl.ovf = out (A * B)))
  ∧ (∀ (e : Lane.Env) (m : Rnd) (a b r8 : Nat), a < 65536 → b < 65536 →
      (Lane.add2 e .uint16 m a b r8).bits = min 65535 (a + b)
      ∧ (Lane.sub2 e .uint16 m a b r8).bits = a - b
      ∧ (Lane.mul2 e .uint16 m a b r8).bits = min 65535 (a * b))

/-- MIN and MAX of float lanes by the mode, as 02 R54 sets out: a run latches the mode of its channel (0x3n00, RWP, fast at reset), and
each lane of the instruction takes the minimum or maximum of a and b under it. Of two numbers the lesser is the minimum and the greater
the maximum. Fast mode returns the operand that is not NaN, and the canonical NaN when both are; strict mode gives the canonical NaN when
either is, and orders −0 below +0. A −0 is still written as +0: neither a raw nor a quantising output stream writes a negative-zero
code. -/
def Obligations.ValveMinMax : Prop :=
  ((stopRow 0x3000 0).map (fun x => x.access) = some .rwp ∧ (∀ c, (State.reset.chan c).live.strict = false ∧ (State.reset.chan c).shadow.strict = false)
    ∧ (∀ k : Channel, k.live.latch.strict = k.live.strict) ∧ ∀ x : Run, x.env.strict = x.set.strict)
  ∧ (∀ (s : State) (c : ChanId) (r : ReedId),
    let res := fun (big : Bool) (x : Run) (w l : Nat) =>
      LaneOut.ofRes (Lane.minmax x.env (Lane.Ty.ofCode (wTy w)) big (x.lane (wVa w) l) (x.second w l))
    s.laneResult (.min c r) c r 0x05 (fun _ => false) (fun _ _ => True) (res false) ∧ s.laneResult (.max c r) c r 0x06 (fun _ => false) (fun _ _ => True) (res true))
  ∧ (∀ (e : Lane.Env) (ty : Lane.Ty) (big : Bool) (a b : Nat), ty = Lane.Ty.bf16 ∨ ty = Lane.Ty.fp16 →
    let nan := if ty = Lane.Ty.bf16 then 0x7FC0 else 0x7E00
    let pick := (Lane.minmax e ty big a b).bits
    (e.strict = false → Lane.fval ty a = .nan → Lane.fval ty b ≠ .nan → pick = b)
    ∧ (e.strict = false → Lane.fval ty a ≠ .nan → Lane.fval ty b = .nan → pick = a)
    ∧ (Lane.fval ty a = .nan → Lane.fval ty b = .nan → pick = nan)
    ∧ (e.strict = true → Lane.fval ty a = .nan ∨ Lane.fval ty b = .nan → pick = nan)
    ∧ (Lane.relation ty 2 a b = true → pick = if big then b else a)
    ∧ (Lane.relation ty 4 a b = true → pick = if big then a else b)
    ∧ (Lane.relation ty 0 a b = true → pick = a ∨ pick = b)
    ∧ (∀ i j, e.strict = true → Lane.fval ty a = .fin true 0 i → Lane.fval ty b = .fin false 0 j → pick = if big then b else a)
    ∧ (∀ i j, e.strict = true → Lane.fval ty a = .fin false 0 i → Lane.fval ty b = .fin true 0 j → pick = if big then a else b))
  ∧ (∀ t vl group free, Fmt.isInt (Score.fmtOf t.layout) = false →
    ∀ ch ∈ rawGroup t vl group free, ∀ v ∈ ch.codes, v ≠ 2 ^ (Fmt.bits (Score.fmtOf t.layout) - 1))
  ∧ (∀ (q : Quant.Cfg) code src, Fmt.isInt q.fmt = false → ∀ v ∈ (Quant.elementLoop q code src).1, v ≠ 2 ^ (Fmt.bits q.fmt - 1))

/-- EXP2, LOG2, RCP, RSQRT, TANH and SIGM complete on both float types, with the results and flags of the lane functions
(06 R146), and nothing but the run changes, save the random sources of lanes that round stochastically; on an integer type, which
06 R146 does not give, the result is a free value, which is the model's choice (log 39). Their special cases are those of 06 R149: a NaN operand gives the canonical NaN with no flag; the zeros
divide by zero in RCP, RSQRT and LOG2; a negative operand of LOG2 or RSQRT is invalid; and the infinities give the values of the
table, an entry of an infinity being the largest finite value in SAT mode. -/
def Obligations.ValveFunctions : Prop :=
  (∀ (s : State) (c : ChanId) (r : ReedId),
    let res := fun (g : Lane.Env → Lane.Ty → Rnd → LaneIn → Lane.Res) (x : Run) (w l : Nat) =>
      if wTy w < 2 then LaneOut.ofRes (g x.env (Lane.Ty.ofCode (wTy w)) (rndOf (wRnd w)) (s.laneIn c r x w (drawsFloat w) l))
      else LaneOut.open_ (s.laneIn c r x w false l)
    s.laneResult (.exp2 c r) c r 0x09 drawsFloat (fun _ _ => True) (res (fun e ty m i => Lane.exp2 e ty m i.a i.free i.r8))
    ∧ s.laneResult (.log2 c r) c r 0x0A drawsFloat (fun _ _ => True) (res (fun e ty m i => Lane.log2 e ty m i.a i.free i.r8))
    ∧ s.laneResult (.rcp c r) c r 0x0B drawsFloat (fun _ _ => True) (res (fun e ty m i => Lane.rcp e ty m i.a i.free i.r8))
    ∧ s.laneResult (.rsqrt c r) c r 0x0C drawsFloat (fun _ _ => True) (res (fun e ty m i => Lane.rsqrt e ty m i.a i.free i.r8))
    ∧ s.laneResult (.tanh c r) c r 0x0D drawsFloat (fun _ _ => True) (res (fun e ty m i => Lane.tanh e ty m i.a i.free i.r8))
    ∧ s.laneResult (.sigm c r) c r 0x0E drawsFloat (fun _ _ => True) (res (fun e ty m i => Lane.sigm e ty m i.a i.free i.r8)))
  ∧ (∀ (e : Lane.Env) (ty : Lane.Ty) (m : Rnd) (a free r8 : Nat), ty = Lane.Ty.bf16 ∨ ty = Lane.Ty.fp16 →
      let nan : Lane.Res := { bits := if ty = Lane.Ty.bf16 then 0x7FC0 else 0x7E00 }
      let bad : Lane.Res := { nan with fl := { inv := true } }
      let top := if ty = Lane.Ty.bf16 then (if e.ieee then 0x7F80 else 0x7F7F) else (if e.ieee then 0x7C00 else 0x7BFF)
      let one := if ty = Lane.Ty.bf16 then 0x3F80 else 0x3C00
      (Lane.fval ty a = .nan →
        Lane.exp2 e ty m a free r8 = nan ∧ Lane.log2 e ty m a free r8 = nan ∧ Lane.rcp e ty m a free r8 = nan
        ∧ Lane.rsqrt e ty m a free r8 = nan ∧ Lane.tanh e ty m a free r8 = nan ∧ Lane.sigm e ty m a free r8 = nan)
      ∧ (∀ n k, Lane.fval ty a = .fin true (n + 1) k → Lane.log2 e ty m a free r8 = bad ∧ Lane.rsqrt e ty m a free r8 = bad)
      ∧ (∀ n k, Lane.fval ty a = .fin n 0 k →
        Lane.rcp e ty m a free r8 = { bits := (if n then 0x8000 else 0) + top, fl := { dz := true } }
        ∧ Lane.rsqrt e ty m a free r8 = { bits := (if n then 0x8000 else 0) + top, fl := { dz := true } }
        ∧ Lane.log2 e ty m a free r8 = { bits := 0x8000 + top, fl := { dz := true } })
      ∧ (Lane.fval ty a = .inf true → (Lane.exp2 e ty m a free r8).bits = 0 ∧ (Lane.sigm e ty m a free r8).bits = 0
          ∧ (Lane.tanh e ty m a free r8).bits = 0x8000 + one ∧ Lane.log2 e ty m a free r8 = bad)
      ∧ (Lane.fval ty a = .inf false → (Lane.exp2 e ty m a free r8).bits = top ∧ (Lane.sigm e ty m a free r8).bits = one
          ∧ (Lane.tanh e ty m a free r8).bits = one ∧ (Lane.log2 e ty m a free r8).bits = top))

/-- QNT and DQ complete (06 R152). QNT of a float lane into a format of code 0 to 5, and DQ of every format to a float lane, give the
results of the element quantiser and decoder under the code in b[7:0], and QNT counts what it crushes or saturates; any other lane type
or format gives a free value, which is the model's choice (log 39). A NaN or infinity quantised to a format that has none writes 0 and
sets the lane's PB bit, and nothing else does; a finite value other than zero that becomes 0 counts as crushed; code 0xFF decodes to NaN,
and a zero of either sign to +0. -/
def Obligations.ValveQuantise : Prop :=
  (∀ (s : State) (c : ChanId) (r : ReedId),
    let i := fun (x : Run) (w l : Nat) => s.laneIn c r x w (drawsFloat w) l
    let free := fun (x : Run) (w l : Nat) => LaneOut.open_ (s.laneIn c r x w false l)
    s.laneResult (.qnt c r) c r 0x10 drawsFloat (fun _ _ => True) (fun x w l =>
      match Fmt.ofId? (wImm w % 16) with
      | some f =>
        let q := Lane.qnt x.env (Lane.Ty.ofCode (wTy w)) f (rndOf (wRnd w)) (i x w l).a ((i x w l).b % 256) (i x w l).r8
        if wTy w < 2 ∧ wImm w % 16 ≤ 5 then
          { bits := some q.bits, fl := { ovf := q.sat, unf := q.unf, inx := q.inx }, pb := q.pb, crushed := q.crushed, sat := q.sat }
        else free x w l
      | none => free x w l)
    ∧ s.laneResult (.dq c r) c r 0x11 drawsFloat (fun _ _ => True) (fun x w l =>
      match Fmt.ofId? (wImm w % 16) with
      | some f =>
        if wTy w < 2 then
          LaneOut.ofRes (Lane.dq x.env (Lane.Ty.ofCode (wTy w)) f (rndOf (wRnd w)) (i x w l).a ((i x w l).b % 256) (i x w l).r8)
        else free x w l
      | none => free x w l))
  ∧ (∀ (e : Lane.Env) (ty : Lane.Ty) (f : Fmt) (m : Rnd) (a b r8 : Nat),
      let q := Lane.qnt e ty f m a b r8
      (q.pb = true ↔ isFin (Lane.fval ty a) = false ∧ Fmt.hasNan f = false)
      ∧ (q.pb = true → q.bits = 0 ∧ q.crushed = false ∧ q.sat = false)
      ∧ (q.crushed = true ↔ isFin (Lane.fval ty a) = true ∧ isZero (Lane.fval ty a) = false ∧ q.bits = 0)
      ∧ (b = 0xFF → Lane.dq e ty f m a b r8 = { bits := Lane.nanBits ty })
      ∧ (b ≠ 0xFF → ∀ n k, decode f a = .fin n 0 k → Lane.dq e ty f m a b r8 = { bits := 0 }))

/-- IN, OUT and DRN complete (06 R146, R153, R157). IN of a raw stream gives each executing lane its element code, and IN of a
decoding stream the element rounded to the stream's type, whatever the stream reads from; nothing else changes but what reading the chord
changes. IN of a stream that the run does not have gives free values, which is the model's choice (log 39), and IN whose chord must first
be recovered leaves the run abandoned, or ended by an error (06 R161). OUT gathers the executing lanes of a for the stream IMM[0], and
DRN taps them into accumulator IMM[2:0] when it is configured; a tap of COUNT adds one to its group for each executing lane, up to
2^32 - 1 (06 R158). OUT and DRN change nothing but the run. -/
def Obligations.ValveStreamInstructions : Prop :=
  ∀ (s : State) (c : ChanId) (r : ReedId) (x : Run) (w : Nat),
    (s.atInstr c r 0x1B x w → ∀ st cr f ts k, x.desc.ins.getD (wImm w % 4) none = some st →
      (s.chan c).streamChord r x st = (cr, f, ts, true, k) →
      let u := s.setChan c k
      let draw := st.mode != 0 && rndOf st.rnd == .sr
      let out := fun (l : Nat) =>
        if st.mode = 0 then { bits := some ((match cr with | .good ch => ch.codes | _ => List.replicate 256 0).getD l 0) }
        else LaneOut.ofRes (toLane x.env (Lane.Ty.ofCode st.ty) (rndOf st.rnd)
          (plusZero ((Chord.readElements f ts cr).getD l (zero false))) (u.laneIn c r x w draw l).r8)
      ∃ t x', exec (.in_ c r) s = .next t ∧ x.laneStep x' w out ∧ u.onlyLanes c r t x w draw out x')
    ∧ (s.atInstr c r 0x1B x w → x.desc.ins.getD (wImm w % 4) none = none →
      let out := fun (l : Nat) => LaneOut.open_ (s.laneIn c r x w false l)
      ∃ t x', exec (.in_ c r) s = .next t ∧ x.laneStep x' w out ∧ s.onlyLanes c r t x w false out x')
    ∧ (s.atInstr c r 0x1B x w → ∀ st cr f ts k, x.desc.ins.getD (wImm w % 4) none = some st →
      (s.chan c).streamChord r x st = (cr, f, ts, false, k) →
      ∃ t x', exec (.in_ c r) s = .next t ∧ s.onlyChan c t ∧ t.chan c = k ∧ ((t.chan c).reed r).valve.run = some x'
        ∧ (x'.abandoned = true ∨ x'.failed = true))
    ∧ (s.atInstr c r 0x1C x w →
      ∃ t x', exec (.out c r) s = .next t ∧ s.onlyRun c r t x' ∧ x' = { x with pc := x.pc + 1, gather := x'.gather }
        ∧ (wImm w % 2 < x.gather.length → (∀ g, x.gather.getD (wImm w % 2) none = some g → g.2.length = 256) →
          ∃ g, x'.gather.getD (wImm w % 2) none = some (wTy w, g)
            ∧ ∀ l, l < 256 → x.executes w l = true → g.getD l 0 = x.lane (wVa w) l)
        ∧ ∀ j, j ≠ wImm w % 2 → x'.gather.getD j none = x.gather.getD j none)
    ∧ (s.atInstr c r 0x1D x w →
      let j := wImm w % 8
      let d := x.desc.drones.getD j {}
      let ty := Lane.Ty.ofCode (wTy w)
      let taps := (List.range 256).map (fun l => if x.executes w l then
        some (if wTy w < 2 then Lane.fval ty (x.lane (wVa w) l) else ofInt (Lane.ival ty (x.lane (wVa w) l)) 0) else none)
      ∃ t x', exec (.drn c r) s = .next t ∧ s.onlyRun c r t x' ∧ x' = { x with pc := x.pc + 1, drones := x'.drones }
        ∧ (d.opr ≠ 0 → j < x.drones.length → x'.drones.getD j {} = (x.drones.getD j {}).tap x.set.strict d taps)
        ∧ (d.opr = 5 → j < x.drones.length → ∀ g, g < (x.drones.getD j {}).groups.length →
          (((x'.drones.getD j {}).groups.getD g {}).count = Nat.min (((x.drones.getD j {}).groups.getD g {}).count
            + ((List.range 256).filter (fun l => l / groupLanes d.group == g && x.executes w l)).length) 0xFFFFFFFF))
        ∧ ∀ i, i ≠ j ∨ d.opr = 0 → x'.drones.getD i {} = x.drones.getD i {})

/-- The last instruction of a program, whichever it is, does what it does elsewhere and then ends the element step: the next one starts at the first instruction with the vector
and predicate registers and the scalars as they are, and with the exception registers, the PB bits and the gathered lanes cleared
(06 R140, R141, R150); what the streams and the Drone do at the step's end changes memories, Reeds, errors and what the Tuner observes. A
command that is not the instruction the run has reached does nothing.
VRUN_COMPLETE after the last element step ends the run: its status word is passed on, the token of its entry is set and no longer in
flight, the tile output it consumed leaves the output buffer, and PERM_OOR is mirrored into that tile's status word (06 R140, R154;
07 R168); before it, nothing happens. VALVE_RESTART of an abandoned run, once what it could not read has been recovered, starts it again
from its first element step with reset registers, empty Drone partials and the same program, settings and scalars; when the recovery
fails the run ends with an error of class S (06 R161). SCALAR_WRITE, to one Reed or to all, is queued behind the writes that wait for the
next beat boundary, and nothing else changes (06 R142). -/
def Obligations.ValveStepAndRunEnds : Prop :=
  (∀ (s : State) (c : ChanId) (r : ReedId) (x : Run) (w op : Nat) (i : Instr), (op, i) ∈ valveForms c r → s.atLast c r op x w →
    let y := { x with desc := { x.desc with n := x.pc + 2 } }
    let longer := s.setChan c ((s.chan c).modValve r (fun v => { v with run := some y }))
    ∀ t₁ x₁, exec i longer = .next t₁ → ((t₁.chan c).reed r).valve.run = some x₁ → x₁.abandoned = false → x₁.failed = false →
      ∃ t x', exec i s = .next t ∧ ((t.chan c).reed r).valve.run = some x' ∧ s.onlyChan c t ∧ (t₁.chan c).dataFrame (t.chan c)
        ∧ x' = { x₁ with desc := x.desc, step := x.step + 1, pc := 0, xf := x'.xf, pb := x'.pb, gather := x'.gather
                         oorLanes := [], drones := x'.drones, held := x'.held, written := x'.written, sums := x'.sums, qpsn := x'.qpsn }
        ∧ (∀ l, x'.xf.getD l 0 = 0) ∧ (∀ l, x'.pb.getD l false = false) ∧ ∀ j, x'.gather.getD j none = none)
  ∧ (∀ (s : State) (c : ChanId) (r : ReedId) (op : Nat) (i : Instr), (op, i) ∈ valveForms c r →
      (∀ x w, ¬ s.atInstr c r op x w ∧ ¬ s.atLast c r op x w) → exec i s = .next s)
  ∧ (∀ (s : State) (c : ChanId) (r : ReedId),
    let k := s.chan c
    let y := k.reed r
    (∀ x, y.valve.run = some x → x.abandoned = true ∨ x.failed = true ∨ x.step < x.desc.e → exec (.vrunComplete c r) s = .next s)
    ∧ (∀ x, y.valve.run = some x → x.abandoned = false → x.failed = false → x.desc.e ≤ x.step →
      ∃ t, exec (.vrunComplete c r) s = .next t ∧ s.onlyChan c t ∧ ((t.chan c).reed r).valve.run = none
        ∧ ((t.chan c).reed r).valve.status = x.statusWord none ∧ k.landed (t.chan c) x.entry
        ∧ k.dataFrame { t.chan c with flights := k.flights, tokens := k.tokens }
        ∧ (∀ o, x.src = some o →
          ((t.chan c).reed r).slots = y.slots.eraseP (fun z => z.tile.entry == o.tile.entry)
          ∧ (∀ w, y.words.find? (fun z => z.entry == o.tile.entry) = some w → ∃ w',
              ((t.chan c).reed r).words.find? (fun z => z.entry == o.tile.entry) = some w'
                ∧ (w.word < 2 ^ 32 → bitOf w'.word 16 = (bitOf w.word 16 || x.permOor))))
        ∧ (x.src = none → ((t.chan c).reed r).slots = y.slots ∧ ((t.chan c).reed r).words = y.words))
    ∧ ((∀ x, y.valve.run = some x → x.abandoned = false) → exec (.valveRestart c r) s = .next s)
    ∧ (∀ x, y.valve.run = some x → x.abandoned = true →
      (∀ k1, k.recoverAll r 1 r.val x.redo = .ok k1 →
        ∃ t x', exec (.valveRestart c r) s = .next t ∧ s.onlyChan c t ∧ ((t.chan c).reed r).valve.run = some x'
          ∧ x' = { entry := x.entry, layer := x.layer, prod := x.prod, desc := x.desc, token := x.token, set := x.set, prog := x.prog
                   scal := x.scal, scales := x.scales, src := x'.src, redone := x.redone ++ x.redo }
          ∧ (∀ v l, x'.lane v l = 0) ∧ (∀ p l, x'.predAt p l = false) ∧ (x.src = none ↔ x'.src = none)
          ∧ t.chan c = { k1 with reeds := (t.chan c).reeds, err := (t.chan c).err } ∧ ∀ q, q ≠ r → (t.chan c).reed q = k1.reed q)
      ∧ (∀ e, k.recoverAll r 1 r.val x.redo = .error e →
        ∃ t, exec (.valveRestart c r) s = .next t ∧ s.onlyChan c t
          ∧ t.chan c = (k.raise e).modRun r (fun x => { x with abandoned := false, failed := true }) ∧ e.cls = .S))
    ∧ ∀ q reg v, exec (.scalarWrite c q reg v) s
        = .next (s.setChan c { k with scalarQ := k.scalarQ ++ [(q, reg.val, v.toNat)] }))

/-! ### Requests -/

/-- The clear writes are carried out (05 R136, R137; 09 R259; 10 R286; 11 R315): each sets the counters it names to zero, or empties
the Tuner's log with its write index and lost count, and changes nothing else. The clear of the Tuner's counters clears those of the
Reeds, their Valves and quantisers, and the totals with them (03 R93; 04 R104; 06 R155).
LOG_CLEAR names logs by a mask, bits 0 to 3 the channels and bit 4 the Mouthpiece: each log named is emptied with its field of
0x1001 and its LOST bit, its SEQ continues, and the errors in handling go on (17 R415). Every other log, and everything else, is
unchanged. -/
def Obligations.ClearWrites : Prop :=
  (∀ (s : State) (q : Req) (c : ChanId) (x : Session),
    let k := s.chan c
    (∀ mask : BitVec 8, s.accepts q false (ofChan c 0x5020) 9 [mask] x →
      ∃ k', s.carried (.portCountersClear q c mask) q 2 (ofChan c 0x5020) 9 (s.setChan c k') ∧ k' = { k with ports := k'.ports }
        ∧ ∀ p : PortId, k'.port p = if mask.getLsbD p.val then { k.port p with cnt := {} } else k.port p)
    ∧ (s.accepts q false (ofChan c 0x5010) 9 [1#8] x →
      s.carried (.collCountersClear q c) q 2 (ofChan c 0x5010) 9 (s.setChan c { k with coll := { k.coll with cnt := {} } }))
    ∧ (s.accepts q false (ofChan c 0x4010) 2 [1#8] x →
      s.carried (.memCountersClear q c) q 2 (ofChan c 0x4010) 2
        (s.setChan c { k with mem := { k.mem with cnt := {}, farBytes := 0 } }))
    ∧ (s.accepts q false (ofChan c 0x3020) 4 [1#8] x →
      ∃ k', s.carried (.tunerClearCounters q c) q 2 (ofChan c 0x3020) 4 (s.setChan c k')
        ∧ k' = { k with reeds := k'.reeds, conv := {}, otherFaults := 0, otherQuant := {},
                        tun := { k.tun with cnt := {}, layerCnt := [], layerQ := [] } }
        ∧ ∀ r : ReedId, k'.reed r = { k.reed r with cnt := {}, qcnt := {}, valve := { (k.reed r).valve with cnt := {} } })
    ∧ (s.accepts q false (ofChan c 0x3020) 4 [2#8] x →
      s.carried (.tunerClearLog q c) q 2 (ofChan c 0x3020) 4
        (s.setChan c { k with tun := { k.tun with log := [], writeIx := 0, lost := 0, lostStep := 0 } })))
  ∧ (∀ (s : State) (q : Req) (x : Session) (mask : Byte), s.accepts q false 0x6001 0 [mask] x →
    ∃ u, s.carried (.logClear q [mask]) q 2 0x6001 0 u
      ∧ u = { s with ch := u.ch, mp := { s.mp with log := u.mp.log } }
      ∧ (∀ c : ChanId, u.chan c =
          if mask.getLsbD c.val then
            { s.chan c with err := { (s.chan c).err with
                log := { (s.chan c).err.log with ring := [], top := 0, lost := false, unread := 0 } } }
          else s.chan c)
      ∧ u.mp.log = if mask.getLsbD 4 then { s.mp.log with ring := [], top := 0, lost := false, unread := 0 } else s.mp.log)

/-- Score control (07 R185, R187, R188). LOAD_SCORE is carried out in READY and LOADED with a job bound and no load being checked, and
sets LOAD to 0x01 with the argument kept for the check; otherwise it is refused with 0x0608, and with a value in the argument's last
four bytes with 0x0606.
Start is carried out in LOADED, while LOAD is not 0x01 and nothing else forbids it (`startForbidden`: 07 R187, R188; 12 R324; 15 R380;
19 R442, R452), and refused with 0x0608 otherwise. From phrase 0 it makes the channel RUN at beat 0 of phrase 0 with no token set; from
the step it makes the channel RUN at beat 0 of the step's phrase with its tokens as they are. As at every channel start, a slot
whose Reed is not healthy may take a healthy Reed that no slot has, and the recorded column mappings come in use (01 R16; 18 R503). The
device is RUNNING (20 R463); the rest of the channel, every other channel, every pin and every fuse stays as it is.
STOP_AT_PHRASE_WRITE stores the index and changes nothing else. -/
def Obligations.ScoreControl : Prop :=
  ∀ (s : State) (q : Req) (c : ChanId) (x : Session),
    let k := s.chan c
    (∀ d, s.accepts q false (ofChan c 0x2010) 1 d x →
      ((k.st = .ready ∨ k.st = .loaded) ∧ k.bind.bound = true ∧ k.load ≠ 1 →
        s.carried (.loadScore q c d) q 2 (ofChan c 0x2010) 1
          (s.setChan c { k with load := 1, loading := some (fieldLe d 0 8, fieldLe d 8 4) }))
      ∧ (¬ ((k.st = .ready ∨ k.st = .loaded) ∧ k.bind.bound = true ∧ k.load ≠ 1) →
        s.refusedWith (.loadScore q c d) q 2 (ofChan c 0x2010) 1 0x0608))
    ∧ (∀ d, s.admits q 2 (ofChan c 0x2010) 1 x → d.length = 16 → fieldLe d 12 4 ≠ 0 →
      s.refusedWith (.loadScore q c d) q 2 (ofChan c 0x2010) 1 0x0606)
    ∧ (∀ mode, mode = 1 ∨ mode = 2 → s.accepts q false (ofChan c 0x2010) 2 [byteOf mode] x →
      let i := if mode = 1 then Instr.startFromPhrase0 q c else .startFromStep q c
      (s.startForbidden c mode = false → ∃ t,
        s.carriedBy t i q 2 (ofChan c 0x2010) 2 (fun u => if mode = 1 then u.startScore c else u.startStep c)
        ∧ (let k' := t.chan c
           k' = { k with
              st := .run, tokens := if mode = 1 then [] else k.tokens, scalarTok := if mode = 1 then false else k.scalarTok
              ww := { k.ww with phrase := if mode = 1 then 0 else k.ww.stepPhrase, beat := 0, boundaryDue := true, started := true
                                hold := none }
              slotMap := k'.slotMap, etude := { k.etude with queue := k'.etude.queue } }
           ∧ ∀ n, let r := k'.slotMap.getD n 0xFF
             r = k.slotMap.getD n 0xFF
               ∨ s.isHealthy c (k.slotMap.getD n 0xFF) = false ∧ s.isHealthy c r = true ∧ r ∉ k.slotMap)
        ∧ t.dev = 2
        ∧ (∀ d, d ≠ c → t.chan d = s.chan d ∧ t.store d = s.store d)
        ∧ t.store c = { s.store c with health := (t.store c).health }
        ∧ (∀ r, (t.health c r).state = (s.health c r).state ∧ (t.health c r).repair = (s.health c r).repair
            ∧ (r < 68 → (s.store c).health.length = 68 → (s.health c r).repair.isSome = true → (t.health c r).repairOn = true))
        ∧ t.pins = s.pins ∧ t.power = s.power ∧ t.fuses = s.fuses ∧ t.meter = s.meter ∧ t.pending = s.pending
        ∧ t.freeCtr = s.freeCtr ∧ t.mram = { s.mram with chan := t.mram.chan })
      ∧ (s.startForbidden c mode = true → s.refusedWith i q 2 (ofChan c 0x2010) 2 0x0608))
    ∧ (k.st ≠ .loaded ∨ k.load = 1 → s.startForbidden c 1 = true ∧ s.startForbidden c 2 = true)
    ∧ (∀ d, s.accepts q false (ofChan c 0x2010) 3 d x →
      s.carried (.stopAtPhraseWrite q c d) q 2 (ofChan c 0x2010) 3 (s.setChan c { k with ww := { k.ww with stopAt := ofLe d } }))

/-- A binding write binds a job in READY (21 R477): the binding holds JOB, SPAN and SEED as written with BOUND set, the step state
starts at step 0, nothing written to memory before can be read any more, and the binding epoch rises by one (09 R243, R244); active and
spare Reeds follow SPAN (01 R17), and the counters, the predicted-exponent table, the keys of the ports, the resident shards and the
checkpoint status of an earlier binding are gone, and the measured log starts anew (15 R377; 21 R484). It is refused with 0x0608 when the channel is bound, in every other state, and when 16 R386
or 18 R437 forbids it (`bindForbidden`); at the last epoch it is refused too, and the refusal is logged as class H (09 R243).
An unbinding write ends the binding in READY and LOADED (21 R477): BOUND reads 0, JOB, SPAN and SEED stay readable, the channel
is READY with no score, no path plan, no token and no action in flight, and the meter closes the channel's record. Where no job is
bound it changes nothing. It is refused with 0x0608 in every other state.
CHANNEL_RESET returns a channel to INIT with no job bound, no score and no action in flight, and keeps its error log and its Étude
result log when no error was in handling and no full run under way (20 R468); what was written to its memory is gone and its binding
epoch rises by one (09 R243), up to the largest (log 28). It is refused with 0x0608 in HOLDUP.
In all three no other channel changes, and no pin, no fuse and nothing of the power. -/
def Obligations.BindingWrites : Prop :=
  (∀ (s : State) (q : Req) (c : ChanId) (b : BindArg) (x : Session), s.accepts q false (ofChan c 0x2001) 0 (bindBytes b true) x →
    let k := s.chan c
    let v : Binding := { job := b.job % 4096, span := b.span % 65536, seed := b.seed % 2 ^ 64 }
    (k.st = .ready → k.bind.bound = false → s.bindForbidden c v = false → (s.store c).epoch < 0xFFFFFFFF →
      ∃ t, s.carriedBy t (.bind q c b) q 2 (ofChan c 0x2001) 0 (fun u => u.bindJob c v) ∧ s.aroundChan c t
        ∧ t.chan c = { k.bindTo { v with bound := true } (s.sparePolicy v.span) ((s.store c).epoch + 1) with
            slotMap := (t.chan c).slotMap }
        ∧ (t.chan c).bind = { v with bound := true } ∧ (t.chan c).st = .ready
        ∧ (t.chan c).step = 0 ∧ (t.chan c).attempt = 0 ∧ (t.store c).epoch = (s.store c).epoch + 1
        ∧ (t.chan c).active = (if s.mram.largeJob ≤ v.span then 60 else 64) ∧ (t.chan c).spares = (if s.mram.largeJob ≤ v.span then 8 else 4)
        ∧ (∀ i, (t.chan c).slotMap.getD i 0xFF = if i < 68 ∧ i < (t.chan c).active then (s.healthyReeds c).getD i 0xFF else 0xFF)
        ∧ (∀ a, (t.chan c).mem.dram.rd a = unwritten ∧ SMap.get {} (t.chan c).mem.cw a = {}) ∧ (t.chan c).mem.wcb = []
        ∧ (∀ a, (t.chan c).mem.chest.rd a = unwritten) ∧ (∀ r a, ((t.chan c).reed r).sram.rd a = unwritten)
        ∧ (t.chan c).mem.cnt = {} ∧ (t.chan c).coll.cnt = {} ∧ (∀ p, ((t.chan c).port p).cnt = {} ∧ ((t.chan c).port p).keys = [])
        ∧ (t.chan c).tun.layers = [] ∧ (t.chan c).tun.inForce = [] ∧ (t.chan c).meas = measStart v.job (t.store c).epoch
        ∧ (t.chan c).svc.resident = [] ∧ (t.store c).ckpts = [])
    ∧ (k.st ≠ .ready ∨ k.bind.bound = true ∨ s.bindForbidden c v = true →
      s.refusedWith (.bind q c b) q 2 (ofChan c 0x2001) 0 0x0608)
    ∧ (k.st = .ready → k.bind.bound = false → s.bindForbidden c v = false → (s.store c).epoch = 0xFFFFFFFF →
      ∃ t, exec (.bind q c b) s = .next t ∧ s.replied t q 2 (ofChan c 0x2001) 0 0x0608 []
        ∧ t = ((s.touch q).firmwareError c .epochExhausted .H 8 0 anyDetail).answer q 2 (ofChan c 0x2001) 0 (abort 0x0608)
        ∧ (t.chan c).st = .halted ∧ ∃ e ∈ (t.chan c).err.log.ring, e.cause = .epochExhausted ∧ e.cls = .H))
  ∧ (∀ (s : State) (q : Req) (c : ChanId) (b : BindArg) (x : Session), s.accepts q false (ofChan c 0x2001) 0 (bindBytes b false) x →
    let k := s.chan c
    (k.st = .ready ∨ k.st = .loaded → k.bind.bound = true →
      ∃ t, s.carriedBy t (.unbind q c b) q 2 (ofChan c 0x2001) 0 (fun u => u.unbindJob c) ∧ s.aroundChan c t
        ∧ t.chan c = ((s.abandonCkpt c).chan c).unbindJob (s.store c).epoch
        ∧ (t.chan c).bind = { k.bind with bound := false } ∧ (t.chan c).st = .ready
        ∧ (t.chan c).score = none ∧ (t.chan c).paths.plan = none ∧ (∀ n, ((t.chan c).token n).set = false) ∧ (t.chan c).flights = []
        ∧ (t.chan c).mem.cnt = {} ∧ (t.chan c).coll.cnt = {} ∧ (∀ p, ((t.chan c).port p).cnt = {})
        ∧ (s.mp.meterLink = true → s.meter.powered = true → ∀ r ∈ t.meter.records, r.chan = c.val → r.state ≠ 0))
    ∧ (k.st = .ready ∨ k.st = .loaded → k.bind.bound = false → s.carried (.unbind q c b) q 2 (ofChan c 0x2001) 0 s)
    ∧ (k.st ≠ .ready ∧ k.st ≠ .loaded → s.refusedWith (.unbind q c b) q 2 (ofChan c 0x2001) 0 0x0608))
  ∧ (∀ (s : State) (q : Req) (c : ChanId) (d : List Byte) (x : Session), s.accepts q false (ofChan c 0x2005) 0 d x →
    let k := s.chan c
    (k.st ≠ .holdup →
      ∃ t, s.carriedBy t (.channelReset q c d) q 2 (ofChan c 0x2005) 0 (fun u => u.channelReset c) ∧ s.aroundChan c t
        ∧ (t.chan c).st = .init ∧ (t.chan c).bind.bound = false ∧ (t.chan c).score = none ∧ (t.chan c).flights = []
        ∧ (∀ a, (t.chan c).mem.dram.rd a = unwritten) ∧ (t.store c).epoch = min ((s.store c).epoch + 1) 0xFFFFFFFF
        ∧ (k.err.handling = [] → (t.chan c).err.log = k.err.log)
        ∧ (k.etude.run = none → (t.chan c).etude.log = k.etude.log)
        ∧ (t.chan c).mem.cnt = {} ∧ (t.chan c).coll.cnt = {} ∧ (t.chan c).tun.cnt = {} ∧ (t.chan c).stalls = [])
    ∧ (k.st = .holdup → s.refusedWith (.channelReset q c d) q 2 (ofChan c 0x2005) 0 0x0608))

/-- STOP_LIST_RESTORE, while no channel has a job bound, is answered, returns the stored stops to their defaults, and then resets the
device as RESET_N does: every session is closed, and the ROM starts again, which leaves every channel in INIT, or HALTED when its
checks fail. It leaves fuses, firmware slots, the report counter, HSEQ with 0x7006, the bin floors and the meter as they are, the checkpoint
status of a channel that is not writing a checkpoint, and the health of the Reeds of a channel without a full run under way (20 R469);
every binding epoch rises by the reset (09 R243). It is refused with
0x0608 while a job is bound, and with any other value than 0x54534552 with 0x0606. -/
def Obligations.StopListRestoreWrite : Prop :=
  ∀ (s : State) (q : Req) (d : List Byte) (x : Session),
    (s.accepts q false 0x1012 0 d x → (∀ c, (s.chan c).bind.bound = false) →
      ∃ (u t : State), exec (.stopListRestore q d) s = .next t ∧ s.talked u ∧ s.replied u q 2 0x1012 0 0 []
        ∧ t = ({ u with mram := u.mram.restored }.deviceReset false).startBoot {} ∧ s.replied t q 2 0x1012 0 0 []
        ∧ (s.pins.resetHeld = false → s.pins.refclkL = true → s.bootedTo t {})
        ∧ (s.pins.resetHeld = true ∨ s.pins.refclkL = false → t.inInit)
        ∧ t.mp.sessions = [] ∧ t.mp.opens = [] ∧ t.mp.running = false
        ∧ t.mram.sagThreshold = 62000 ∧ t.mram.capacitance = 2200 ∧ t.mram.haltPolicy = 1 ∧ t.mram.largeJob = 1024
        ∧ t.mram.conf = false ∧ t.mram.clientKeys = List.replicate 15 {} ∧ t.mram.supplement = [] ∧ t.mram.pfc = ({} : Mram).pfc
        ∧ t.mram.endpoints = ({} : Mram).endpoints
        ∧ (∀ i, (t.comp i).slotA = (s.comp i).slotA ∧ (t.comp i).slotB = (s.comp i).slotB)
        ∧ t.fuses = s.fuses ∧ t.mram.counter = s.mram.counter ∧ t.mram.holdup = s.mram.holdup ∧ t.meter = s.meter
        ∧ ∀ c, (t.store c).binFloor = (s.store c).binFloor ∧ (t.store c).autoRestart = false
            ∧ (t.store c).trims = List.replicate 68 0 ∧ (t.store c).epoch = min ((s.store c).epoch + 1) 0xFFFFFFFF
            ∧ ((∀ y ∈ (s.store c).ckpts, y.state ≠ 1) → (t.store c).ckpts = (s.store c).ckpts)
            ∧ ((s.chan c).etude.run = none → (t.store c).health = (s.store c).health))
    ∧ (s.accepts q false 0x1012 0 d x → (∃ c, (s.chan c).bind.bound = true) → s.refusedWith (.stopListRestore q d) q 2 0x1012 0 0x0608)
    ∧ (s.admits q 2 0x1012 0 x → d.length = 4 → ofLe d ≠ 0x54534552 → s.refusedWith (.stopListRestore q d) q 2 0x1012 0 0x0606)

/-! ### Security, services and power requests -/

/-- RAISE_MIN_SVN raises MIN_SVN to the SVN of the active Mouthpiece image, and is refused with 0x0606 when that SVN does not exceed
MIN_SVN or exceeds 64; a sag after `n` fuses leaves it raised by `n` steps, no answer is given, and the failure stands in 0x8006.02; and
an inactive slot below the minimum is no fallback (15 R374). It is refused while V_IN is not above 66 V (15 R376). Nothing else changes.
PROGRAM_OPERATOR_SLOT programs the slot with the digest when it is unprogrammed and a copy of its fuses is left; an interrupted
programming spends a copy and leaves the slot unprogrammed, and the next uses the other copy; it is refused with 0x0608 when both copies
are spent without success; it is refused when the slot is programmed; and a programmed slot is never changed, by this command or any
other (15 R375). -/
def Obligations.FuseWrites : Prop :=
  ((∀ (s : State) (q : Req) (d : List Byte) (x : Session), s.accepts q false 0x8006 4 d x →
    let svn := (s.comp 0).active.svn
    (svn ≤ s.fuses.minSvn ∨ 64 < svn → ∀ o, s.refusedWith (.raiseMinSvn q d o) q 2 0x8006 4 0x0606)
    ∧ (s.fuses.minSvn < svn → svn ≤ 64 →
      (s.power.vin ≤ 66000 → ∀ o, ∃ n, n ≠ 0 ∧ s.refusedWith (.raiseMinSvn q d o) q 2 0x8006 4 n)
      ∧ (66000 < s.power.vin →
        s.carried (.raiseMinSvn q d none) q 2 0x8006 4 { s with fuses := { s.fuses with minSvn := svn } }
        ∧ ∀ n, ∃ t, exec (.raiseMinSvn q d (some n)) s = .next t
            ∧ t = { s.touch q with fuses := { s.fuses with minSvn := min svn (s.fuses.minSvn + n) },
                                   mram := { s.mram with comps := t.mram.comps } }
            ∧ t.comp 0 = { s.comp 0 with lastResult := (t.comp 0).lastResult } ∧ (∀ i, i ≠ 0 → t.comp i = s.comp i)
            ∧ (s.mram.comps.length = 3 → (t.comp 0).lastResult ≠ 0))))
  ∧ ∀ (f : Fuses) (bad : List (Nat × Bool)) (i : Nat) (x : Component), x.inactive.svn < f.minSvn → bootSlot f bad i x ≠ some (x.inactive, true))
  ∧ (∀ (s : State) (q : Req) (d : List Byte) (x : Session), s.accepts q false 0x8006 5 d x →
    (s.fuses.opSlot = none → s.fuses.opSpent < 2 → 66000 < s.power.vin →
      s.carried (.programOperatorSlot q d false) q 2 0x8006 5
        { s with fuses := { s.fuses with opSpent := s.fuses.opSpent + 1, opSlot := some d } }
      ∧ ∃ t, exec (.programOperatorSlot q d true) s = .next t
          ∧ t = { s.touch q with fuses := { s.fuses with opSpent := s.fuses.opSpent + 1 }, mram := { s.mram with comps := t.mram.comps } }
          ∧ t.comp 0 = { s.comp 0 with lastResult := (t.comp 0).lastResult } ∧ (∀ i, i ≠ 0 → t.comp i = s.comp i)
          ∧ (s.mram.comps.length = 3 → (t.comp 0).lastResult ≠ 0))
    ∧ (s.fuses.opSlot = none → 2 ≤ s.fuses.opSpent → ∀ o, s.refusedWith (.programOperatorSlot q d o) q 2 0x8006 5 0x0608)
    ∧ (s.fuses.opSlot.isSome = true ∨ s.power.vin ≤ 66000 →
      ∀ o, ∃ n, n ≠ 0 ∧ s.refusedWith (.programOperatorSlot q d o) q 2 0x8006 5 n))
  ∧ ∀ (s t : State) (i : Instr) (slot : List Byte), s.fuses.opSlot = some slot → exec i s = .next t → t.fuses.opSlot = some slot

/-- An image that passes the check of 15 R371 and is stored waits in the inactive slot of its component with result 0. One that passes
but is not stored leaves the component without a pending image, with result 0x09; it and one that does not pass are answered 0x0606, and
the result code is recorded where the image names a component (15 R373). Activation arms the pending slot of the component named: the
active slot does not change. A reset of the Mouthpiece is answered, arms the components named, ends every session and stops the
Mouthpiece's firmware, makes the pending Mouthpiece slot active when its component is named too, and gives up the checkpoints being
written (15 R373; 14 R355; 17 R411). -/
def Obligations.FirmwareWrites : Prop :=
  ∀ (s : State) (q : Req) (x : Session), s.mram.comps.length = 3 →
    (∀ b i stored, s.accepts q true 0x8006 1 b x → i < 3 → byteAt b 6 = i + 1 →
      let slot : Slot := { present := stored, factory := false, svn := byteAt b 7, digest := slice b 32 64, count := fieldLe b 134 2,
                            cosigner := imageCosigner b }
      let staged := fun (u : State) => u.comp i =
        { s.comp i with
          slotA := if (s.comp i).activeB then slot else (s.comp i).slotA, slotB := if (s.comp i).activeB then (s.comp i).slotB else slot
          pending := stored, armed := false, taken := [false, false, false, false], lastResult := if stored then 0 else 0x09 }
      (checkImage s.fuses b = 0 → stored = true →
        ∃ u, s.carried (.updateImage q b stored) q 4 0x8006 1 u ∧ u = { s with mram := { s.mram with comps := u.mram.comps } }
          ∧ staged u ∧ (u.comp i).active = (s.comp i).active ∧ (u.comp i).inactive = slot ∧ ∀ j, j ≠ i → u.comp j = s.comp j)
      ∧ (checkImage s.fuses b = 0 → stored = false →
        ∃ (u t : State), exec (.updateImage q b stored) s = .next t ∧ u.talked t ∧ s.replied t q 4 0x8006 1 0x0606 []
          ∧ u = { s with mram := { s.mram with comps := u.mram.comps } }
          ∧ staged u ∧ (u.comp i).active = (s.comp i).active ∧ ∀ j, j ≠ i → u.comp j = s.comp j)
      ∧ (checkImage s.fuses b ≠ 0 →
        ∃ (u t : State), exec (.updateImage q b stored) s = .next t ∧ u.talked t ∧ s.replied t q 4 0x8006 1 0x0606 []
          ∧ u = { s with mram := { s.mram with comps := u.mram.comps } }
          ∧ u.comp i = { s.comp i with lastResult := checkImage s.fuses b } ∧ ∀ j, j ≠ i → u.comp j = s.comp j))
    ∧ (∀ b stored, s.accepts q true 0x8006 1 b x → byteAt b 6 = 0 ∨ 3 < byteAt b 6 →
        s.refusedWith (.updateImage q b stored) q 4 0x8006 1 0x0606)
    ∧ (∀ i row mask, (i, row, mask) ∈ [(0, Instr.activateMpFirmware q, 1#8), (1, .activateChanterFirmware q, 2#8), (2, .activateEtudePack q, 4#8)] →
        s.accepts q false 0x8006 3 [mask] x →
      ∃ u, s.carried row q 2 0x8006 3 u ∧ u = { s with mram := { s.mram with comps := u.mram.comps } }
        ∧ u.comp i = { s.comp i with armed := (s.comp i).pending || (s.comp i).armed } ∧ ∀ j, j ≠ i → u.comp j = s.comp j)
    ∧ (∀ mask : BitVec 3, s.accepts q false 0x8006 3 [byteOf (128 + mask.toNat)] x →
      ∃ (u t : State), exec (.mouthpieceReset q mask) s = .next t ∧ s.replied t q 2 0x8006 3 0 []
        ∧ (∀ i, i < 3 → u.comp i = if mask.getLsbD i then { s.comp i with armed := (s.comp i).pending || (s.comp i).armed } else s.comp i)
        ∧ t.mp.running = false ∧ t.mp.sessions = [] ∧ t.mp.opens = [] ∧ t.mp.reports = [] ∧ t.mp.log = s.mp.log
        ∧ t.fuses = s.fuses ∧ t.meter = s.meter ∧ t.pins = s.pins ∧ t.power = s.power ∧ t.pending = s.pending
        ∧ t.comp 0 = (if mask.getLsbD 0 then (u.comp 0).switch else u.comp 0) ∧ t.comp 1 = u.comp 1 ∧ t.comp 2 = u.comp 2
        ∧ ∀ c, (t.chan c).svc.ckpt = none ∧ (t.chan c).mem = (s.chan c).mem ∧ (t.chan c).reeds = (s.chan c).reeds
            ∧ ((s.chan c).svc.ckpt = none → t.chan c = s.chan c ∧ t.store c = s.store c))

/-- Requests of the channel services, in their conditions (13 R343, R344; 15 R380): RESTART in READY with a job bound starts the restart
service; a weight load window opens over class W pages, with a job bound, no window open and the channel not running; the open window
closes, to be measured; and confidential mode is set while no job is bound. Each sets its state and nothing else; it is refused with
0x0608 in every other state, and a window whose range is misaligned, empty or not wholly in class W pages with 0x0606.
Standby and the declared time (19 R442; 16 R385). ENTER_STANDBY makes the enabled ports of every channel IDLE, with what they held
given up, and is refused with 0x0608 while a channel runs, a checkpoint is being written or an Étude run is in progress; HBM and every
other part of the channels stay as they are. LEAVE_STANDBY starts the return to P2, and out of standby changes nothing.
DECLARED_TIME_WRITE sets 0x1040, and the meter's copy where its link is up. -/
def Obligations.ServiceWrites : Prop :=
  (∀ (s : State) (q : Req) (c : ChanId) (x : Session),
    let k := s.chan c
    (∀ d, s.accepts q false (ofChan c 0x2030) 7 d x →
      (k.st = .ready → k.bind.bound = true →
        s.carried (.restart q c d) q 2 (ofChan c 0x2030) 7 (s.setChan c { k with svc := { k.svc with restart := some {} } }))
      ∧ (k.st ≠ .ready ∨ k.bind.bound = false → s.refusedWith (.restart q c d) q 2 (ofChan c 0x2030) 7 0x0608))
    ∧ (∀ d, s.accepts q false (ofChan c 0x2031) 1 d x →
      let a := fieldLe d 0 8
      let n := fieldLe d 8 8
      (k.bind.bound = true → k.running = false → k.meas.winState = 0 →
        (a + n ≤ logicalPages * pageBytes → k.mem.inClass 1 a n = true →
          s.carried (.weightLoadOpen q c d) q 2 (ofChan c 0x2031) 1
            (s.setChan c { k with meas := { k.meas with winState := 1, winAddr := a, winLen := n } }))
        ∧ (logicalPages * pageBytes < a + n ∨ k.mem.inClass 1 a n = false →
          s.refusedWith (.weightLoadOpen q c d) q 2 (ofChan c 0x2031) 1 0x0606))
      ∧ (k.bind.bound = false ∨ k.running = true ∨ k.meas.winState ≠ 0 →
        s.refusedWith (.weightLoadOpen q c d) q 2 (ofChan c 0x2031) 1 0x0608))
    ∧ (∀ d, s.admits q 2 (ofChan c 0x2031) 1 x → d.length = 16 →
      fieldLe d 0 8 % 32 ≠ 0 ∨ fieldLe d 8 8 % 32 ≠ 0 ∨ fieldLe d 8 8 = 0 →
        s.refusedWith (.weightLoadOpen q c d) q 2 (ofChan c 0x2031) 1 0x0606)
    ∧ (∀ d, s.accepts q false (ofChan c 0x2031) 2 d x →
      (k.meas.winState = 1 →
        s.carried (.weightLoadClose q c d) q 2 (ofChan c 0x2031) 2 (s.setChan c { k with meas := { k.meas with winState := 2 } }))
      ∧ (k.meas.winState ≠ 1 → s.refusedWith (.weightLoadClose q c d) q 2 (ofChan c 0x2031) 2 0x0608))
    ∧ (∀ d, s.accepts q false 0x8005 1 d x →
      ((∀ c, (s.chan c).bind.bound = false) →
        s.carried (.confidentialModeWrite q d) q 2 0x8005 1 { s with mram := { s.mram with conf := ofLe d == 1 } })
      ∧ ((∃ c, (s.chan c).bind.bound = true) → s.refusedWith (.confidentialModeWrite q d) q 2 0x8005 1 0x0608)))
  ∧ (∀ (s : State) (q : Req) (x : Session),
    (s.accepts q false 0x7007 2 [2#8] x →
      (s.anyRunning = false → (∀ c, (s.chan c).svc.ckpt = none ∧ (s.chan c).etude.run = none) →
        ∃ u, s.carried (.enterStandby q) q 2 0x7007 2 u
          ∧ u = { s with power := { s.power with standby := true, returning := false }, dev := u.dev, ch := u.ch }
          ∧ (∀ c, u.chan c = { s.chan c with ports := (u.chan c).ports })
          ∧ ∀ c p, (u.chan c).port p = if ((s.chan c).port p).st = .disabled then (s.chan c).port p
              else { ((s.chan c).port p).discard with st := .idle })
      ∧ (s.anyRunning = true ∨ (∃ c, (s.chan c).svc.ckpt.isSome = true ∨ (s.chan c).etude.run.isSome = true) →
        s.refusedWith (.enterStandby q) q 2 0x7007 2 0x0608))
    ∧ (s.accepts q false 0x7007 2 [0#8] x →
      (s.power.standby = true →
        s.carried (.leaveStandby q) q 2 0x7007 2 { s with power := { s.power with standby := false, returning := true } })
      ∧ (s.power.standby = false → s.carried (.leaveStandby q) q 2 0x7007 2 s))
    ∧ (∀ d, s.accepts q false 0x1040 0 d x →
      s.carried (.declaredTimeWrite q d) q 2 0x1040 0
        { s with mp := { s.mp with declTime := ofLe d }
                 meter := if s.mp.meterLink && s.meter.powered then { s.meter with decl := ofLe d } else s.meter }))

/-- The writes whose answer or product is made for the session (13 R345; 15 R381; 16 R397). An encapsulation key is answered with keys
of the session agreed for a channel that the session may access: their bytes are SHAKE256 of the shared secret, EVT4-BOUNCE and the
ciphertext, and 0x8005.03 holds the ciphertext, the channel and a signature over SHAKE256 of both keys and the ciphertext (what both keys are: log 49). A
nonce starts a report on the state at that moment, and is refused with 0x0608 while the session's report is being built. A read-out
request reaches the meter, a tenant's filter being its own job; it is refused with 0x0608 while the meter cannot be asked. Reports and
read-outs are not answered yet, and nothing else changes. -/
def Obligations.SessionProductWrites : Prop :=
  ∀ (s : State) (q : Req) (x : Session),
    let label : List Byte := [0x45#8, 0x56#8, 0x54#8, 0x34#8, 0x2D#8, 0x42#8, 0x4F#8, 0x55#8, 0x4E#8, 0x43#8, 0x45#8]
    (∀ d, s.accepts q false 0x8005 2 d x →
      ((∃ c, x.seesChannel (s.chan c) = true) →
        ∃ u c r, s.carried (.hostEncapKeyWrite q d) q 2 0x8005 2 u ∧ x.seesChannel (s.chan c) = true ∧ r = Config.freeNat (s.freeCtr + 1)
          ∧ (let ct := fitTo 1568 (Config.kemCiphertext d r)
             let keys := Hash.shake256 (Config.kemSecret d r ++ label ++ ct) 64
             let sig := fitTo 1280 (Config.identitySign (Hash.shake512 (d ++ fitTo 1793 Config.identityPub ++ ct)))
             u = { s.setChan c { s.chan c with svc := { (s.chan c).svc with
                     bounceKeys := some (keys.take 32, keys.drop 32), bounceSeq := none } } with
                   freeCtr := s.freeCtr + 2, mp := { s.mp with encapReply := ct ++ [byteOf c.val] ++ leBytes 2 1280 ++ sig } }))
      ∧ ((∀ c, x.seesChannel (s.chan c) = false) →
        ∃ t, exec (.hostEncapKeyWrite q d) s = .next t ∧ State.talked { s with freeCtr := t.freeCtr } t
          ∧ s.replied t q 2 0x8005 2 0x060C []))
    ∧ (∀ d, s.accepts q false 0x8001 0 d x →
      ((∀ r ∈ s.mp.reports, r.session ≠ q.session) →
        exec (.attestationNonce q d) s = .next { s.touch q with
          mp := { (s.touch q).mp with reports := s.mp.reports ++
            [{ session := q.session, txid := q.txid, op := 2, body := s.reportBody x d }] } })
      ∧ ((∃ r ∈ s.mp.reports, r.session = q.session) → s.refusedWith (.attestationNonce q d) q 2 0x8001 0 0x0608))
    ∧ (∀ d, s.accepts q false 0x9006 0 d x →
      (s.mp.meterLink = true → s.meter.powered = true →
        exec (.meterReadoutRequest q d) s = .next { s.touch q with
          meter := { s.meter with readouts := s.meter.readouts ++
            [{ session := q.session, txid := q.txid, op := 2, nonce := d.take 32
               filter := if x.role = .tenant then x.job else fieldLe d 32 2 }] } })
      ∧ (s.mp.meterLink = false ∨ s.meter.powered = false → s.refusedWith (.meterReadoutRequest q d) q 2 0x9006 0 0x0608))

/-- PATH_PLAN_WRITE sets the plan as read from its bytes, derives K_job (15 R367), and starts discovery anew: each idle port of a
channel that may train begins TRAINING, each port that was UP or in HELLO begins HELLO, and a port that is DISABLED, in TRAINING or DOWN
stays so; while the device stands by, every enabled port is IDLE (12 R320, R321; 19 R442). A plan out of range is refused with 0x0606.
CLASS_MAP_WRITE sets the map of its space, places its pages, and takes away the contents of every page that is not kept and of every
frame that a new page takes; every other frame keeps its contents. It is refused with 0x0608 while no job is bound or a weight window is
open, and with 0x0606 when it changes a page of the loaded score image, claims a far frame in use, or cannot be placed (09 R233). Each
changes its channel only. -/
def Obligations.PlanAndMapWrites : Prop :=
  ∀ (s : State) (q : Req) (c : ChanId) (x : Session),
    let k := s.chan c
    (∀ d, s.accepts q false (ofChan c 0x5001) 1 d x →
      ∃ k', s.carried (.pathPlanWrite q c d) q 2 (ofChan c 0x5001) 1 (s.setChan c k')
        ∧ (let kj := if (Plan.ofBytes d).job = 0 then none else some (jobKey (Plan.ofBytes d).job (Plan.ofBytes d).nonce)
           k' = { k with ports := k'.ports, paths := { k.paths with
             plan := some (Plan.ofBytes d), kjob := kj, disc := { status := 1, windowOpen := true } } })
        ∧ ∀ p, let st := (k.port p).st
          (k'.port p).st =
            if st = .disabled then .disabled
            else if s.power.standby || s.power.returning then .idle
            else if st = .training ∨ st = .down then st
            else if st = .idle then (if k.st = .init ∨ k.st = .halted ∨ k.st = .holdup then .idle else .training)
            else .hello)
    ∧ (∀ d, s.admits q 2 (ofChan c 0x5001) 1 x → d.length = 64 → k.planBad (s.self c) d = true →
      s.refusedWith (.pathPlanWrite q c d) q 2 (ofChan c 0x5001) 1 0x0606)
    ∧ ∀ (space1 : Bool) (d : List Byte),
      let sub := if space1 then 2 else 1
      let new0 := if space1 then k.mem.class0 else classMapOf d logicalPages
      let new1 := if space1 then classMapOf d (k.mem.cxlCap / pageBytes) else k.mem.class1
      let touched := k.mem.pages.any (fun (e : Nat × PageMap) => e.2.lock && !keptPage k.mem.class0 new0 e.1)
      let clash := k.mem.pages.any (fun (e : Nat × PageMap) =>
        e.2.valid && e.2.far && keptPage k.mem.class0 new0 e.1 && (SMap.get {} new1 e.2.frame).valid)
      s.accepts q true (ofChan c 0x4001) sub d x →
        (k.bind.bound = true → k.meas.winState = 0 → touched = false → clash = false →
          ∀ pages hbm far, k.mem.placeMap new0 new1 = some (pages, hbm, far) →
            ∃ k', s.carried (.classMapWrite q c space1 d) q 4 (ofChan c 0x4001) sub (s.setChan c k')
              ∧ k' = { k with mem := k'.mem }
              ∧ k'.mem = { k.mem with
                  class0 := new0, class1 := new1, pages := pages, checkHbm := hbm, checkFar := far, scrubAt := 0
                  dram := k'.mem.dram, cw := k'.mem.cw, wcb := k'.mem.wcb }
              ∧ (∀ e ∈ k.mem.pages, e.2.valid = true → keptPage k.mem.class0 new0 e.1 = false → frameKey e.2 ∈ k.mem.mapGone new0 new1 pages)
              ∧ (∀ f ∈ k.mem.mapGone new0 new1 pages, ∀ i, i < pageBytes → k'.mem.dram.rd (f + i) = unwritten)
              ∧ (k.mem.canonical → ∀ a, (∀ f ∈ k.mem.mapGone new0 new1 pages, a < f ∨ f + pageBytes ≤ a) → k'.mem.dram.rd a = k.mem.dram.rd a)
              ∧ k'.mem.wcb = k.mem.wcb.filter (fun (l : WcbLine) =>
                  (k.mem.mapGone new0 new1 pages).all (fun f => !(decide (f ≤ l.addr) && decide (l.addr < f + pageBytes)))))
        ∧ (k.bind.bound = true → k.meas.winState = 0 → touched = true ∨ clash = true ∨ k.mem.placeMap new0 new1 = none →
          s.refusedWith (.classMapWrite q c space1 d) q 4 (ofChan c 0x4001) sub 0x0606)
        ∧ (k.bind.bound = false ∨ k.meas.winState ≠ 0 →
          s.refusedWith (.classMapWrite q c space1 d) q 4 (ofChan c 0x4001) sub 0x0608)

/-- REINSTATE marks the named Reed suspect, or leaves it under test, and queues it for its test, which may start at once; with 0xFF it
does so for every Reed and clears the channel's bin floor, as REINSTATE_ALL does (18 R437). Each is refused with 0x0608 while the channel
runs, and with 0x0606 where it names no Reed or no channel; neither changes another channel. OPERATOR_SUPPLEMENT_WRITE keeps the
supplement when its key matches the operator slot and its signature verifies, and changes nothing else; it is refused with 0x0608 while
the slot is unprogrammed and with 0x0606 otherwise (18 R427). -/
def Obligations.EtudeWrites : Prop :=
  ∀ (s : State) (q : Req) (x : Session),
    (∀ (c : ChanId) (r : ReedId), s.accepts q false 0x6030 4 [byteOf r.val, byteOf c.val] x → (s.store c).health.length = 68 →
      let row := Instr.reinstate q [byteOf r.val, byteOf c.val]
      ((s.chan c).running = false →
        ∃ t, s.carriedBy t row q 2 0x6030 4 (fun u => u.reinstate c [r.val]) ∧ s.aroundChan c t
          ∧ ((t.health c r.val).state = 1 ∨ (t.health c r.val).state = 3)
          ∧ (∀ p : ReedId, p ≠ r → (t.health c p.val).state = (s.health c p.val).state ∨ (t.health c p.val).state = 3)
          ∧ ((t.chan c).etude.queue.contains r.val = true ∨ ∃ y, (t.chan c).etude.run = some y ∧ y.reed = r.val)
          ∧ (t.store c).binFloor = (s.store c).binFloor)
      ∧ ((s.chan c).running = true → s.refusedWith row q 2 0x6030 4 0x0608))
    ∧ (∀ (c : ChanId) (row : Instr), row = .reinstateAll q c ∨ row = .reinstate q [0xFF#8, byteOf c.val] →
      s.accepts q false 0x6030 4 [0xFF#8, byteOf c.val] x → (s.store c).health.length = 68 →
      ((s.chan c).running = true → s.refusedWith row q 2 0x6030 4 0x0608)
      ∧ ((s.chan c).running = false →
        ∃ t, s.carriedBy t row q 2 0x6030 4 (fun u =>
            ((u.modStore c (fun y => { y with binFloor := 0 })).reinstate c allReeds).retuneStopped c)
          ∧ s.aroundChan c t ∧ (t.store c).binFloor = 0
          ∧ (∀ r, r < 68 → (t.health c r).state = 1 ∨ (t.health c r).state = 3)
          ∧ ∀ r, r < 68 → (t.chan c).etude.queue.contains r = true ∨ ∃ y, (t.chan c).etude.run = some y ∧ y.reed = r))
    ∧ (∀ (r n : Byte), s.admits q 2 0x6030 4 x → (67 < r.toNat ∧ r ≠ 0xFF#8) ∨ 4 ≤ n.toNat →
      s.refusedWith (.reinstate q [r, n]) q 2 0x6030 4 0x0606)
    ∧ ∀ d, s.accepts q true 0x6010 2 d x →
      (s.fuses.opSlot = none → s.refusedWith (.operatorSupplementWrite q d) q 4 0x6010 2 0x0608)
      ∧ ∀ slot, s.fuses.opSlot = some slot →
        let n := d.length - 3075
        let good := Hash.shake512 (slice d n 1793) = slot ∧ signedBy (slice d n 1793) (slice d (n + 1793) 1282) (d.take n) = true
        (good → s.carried (.operatorSupplementWrite q d) q 4 0x6010 2 { s with mram := { s.mram with supplement := d } })
        ∧ (¬ good → s.refusedWith (.operatorSupplementWrite q d) q 4 0x6010 2 0x0606)

/-! ### The stop-protocol server -/

/-- The checks of a request in their order (14 R359, R360, R365), for a READ, a WRITE, the block operations and the subscriptions: a
wrong version is answered 0x060E; before INIT is left, all but an identity READ are answered 0x060A; a session that is not open is
answered 0x060D; a TXID that has been answered is answered again and not carried out, and one that is being carried out is not answered;
and a stop that does not exist, or that the session's role or the stop's access class does not admit, is answered with the code of steps
4 to 6, a request without a session like any other. A written value of the wrong length is answered 0x0605, one out of range 0x0606,
one for a stop that a running channel locks 0x0607, and one that FAULT forbids 0x0608. In each case nothing else changes. Where no
datagram can be sent, nothing happens (log 16).
The stops from 0xF000 to 0xFFFF refuse every request that passes steps 1 to 3 of 14 R359 with 0x0609 on parts with DEBUG_CLOSED
set; on other parts the model refuses an operator's request by name, since the manual does not describe the stops, and every other
session is refused with 0x0609 (21 R483; log 54). -/
def Obligations.RequestChecks : Prop :=
  (∀ (s : State) (q : Req) (index sub : Nat) (d : List Byte) (a b : Nat) (i : Instr) (op : Nat),
    (i, op) ∈ [(Instr.read q index sub, 1), (.stopWrite q index sub d, 2), (.readBlock q index sub a b, 3),
      (.writeBlock q index sub a b d, 4), (.subscribeCancel q index sub, 6), (.subscribeOnChange q index sub a, 6),
      (.subscribeEachEntry q index sub a, 6)] →
    (s.canSend = false → exec i s = .next s)
    ∧ (s.canSend = true →
      (q.version ≠ 1 → s.refusedWith i q op index sub 0x060E)
      ∧ (q.version = 1 →
        (s.dev = 0 → identityRead op index sub = false → s.refusedWith i q op index sub 0x060A)
        ∧ (s.dev ≠ 0 ∨ identityRead op index sub = true →
          (q.session ≠ 0 → s.session? q.session = none → s.refusedWith i q op index sub 0x060D)
          ∧ ∀ x, s.session? q.session = some x ∨ q.session = 0 ∧ s.session? 0 = none ∧ x = noSession →
            (∀ r, (s.session? q.session).isSome = true → x.cached q.txid = some r → ∃ t n, exec i s = .next t ∧ s.talked t
              ∧ t.mp.sent = s.mp.sent ++ [{ r with seq := n }])
            ∧ (x.cached q.txid = none → s.underway q = true → exec i s = .next (s.touch q))
            ∧ (x.cached q.txid = none → s.underway q = false → engineering index = false → s.accessCheck q x op index sub ≠ 0 →
              s.refusedWith i q op index sub (s.accessCheck q x op index sub))))))
  ∧ (∀ (s : State) (q : Req) (index sub : Nat) (d : List Byte) (x : Session) (r : StopRow),
    s.admits q 2 index sub x → stopRow index sub = some r →
    let i := Instr.stopWrite q index sub d
    let long := r.type.check d = 0x0605 ∨ s.lengthBad index sub d.length = true ∨ 8192 < d.length
    let range := r.type.check d ≠ 0 ∨ s.valueBad index sub d = true
    let lock := r.access = .rwl ∧ s.locked index sub (some d) = true
    (long → s.refusedWith i q 2 index sub 0x0605)
    ∧ (¬ long → range → s.refusedWith i q 2 index sub 0x0606)
    ∧ (¬ long → ¬ range → lock → s.refusedWith i q 2 index sub 0x0607)
    ∧ (¬ long → ¬ range → ¬ lock → s.faultForbids 2 index sub = true → s.refusedWith i q 2 index sub 0x0608))
  ∧ (∀ (s : State) (q : Req) (index sub : Nat) (d : List Byte) (a b : Nat) (i : Instr) (op : Nat) (x : Session),
    (i, op) ∈ [(Instr.read q index sub, 1), (.stopWrite q index sub d, 2), (.readBlock q index sub a b, 3),
      (.writeBlock q index sub a b d, 4), (.subscribeCancel q index sub, 6), (.subscribeOnChange q index sub a, 6),
      (.subscribeEachEntry q index sub a, 6)] →
    0xF000 ≤ index → index ≤ 0xFFFF → s.canSend = true → q.version = 1 → s.dev ≠ 0 →
    s.session? q.session = some x ∨ q.session = 0 ∧ s.session? 0 = none ∧ x = noSession →
    x.cached q.txid = none → s.underway q = false →
    (s.fuses.debugClosed = true → s.refusedWith i q op index sub 0x0609)
    ∧ (s.fuses.debugClosed = false → q.session = 0 ∨ x.role ≠ .operator → s.refusedWith i q op index sub 0x0609)
    ∧ (s.fuses.debugClosed = false → q.session ≠ 0 → x.role = .operator → exec i s = .refused .engineeringStop))

/-- READ returns the stop's value (14 R357, R359): of any stop but a BLOB too long for the session, which is refused with 0x0605, while
the device is not in FAULT and the value has been made, and otherwise with 0x0608; reading a log marks it as read (17 R414), and nothing
else changes. An identity stop is returned without a session in every state of the device (14 R353). -/
def Obligations.ReadReturnsValue : Prop :=
  (∀ (s : State) (q : Req) (index sub : Nat) (x : Session), s.admits q 1 index sub x →
    let v := (s.touch q).stopValue { x with idle := 0 } index sub
    let long := blobStop index sub = true ∧ (8192 < v.length ∨ x.cap < v.length)
    (¬ long → s.faultForbids 1 index sub = false → x.hasNoValue index = false →
      ∃ t, exec (.read q index sub) s = .next t ∧ s.replied t q 1 index sub 0 v
        ∧ ((s.touch q).markRead { x with idle := 0 } index sub).talked t ∧ (index ≠ 0x6000 → s.talked t))
    ∧ (long → s.refusedWith (.read q index sub) q 1 index sub 0x0605)
    ∧ (¬ long → s.faultForbids 1 index sub = true ∨ x.hasNoValue index = true → s.refusedWith (.read q index sub) q 1 index sub 0x0608))
  ∧ ∀ (s : State) (q : Req) (index sub : Nat), isIdentity index sub = true → s.canSend = true → q.version = 1 → q.session = 0 →
      s.session? 0 = none → s.underway q = false →
      ∃ t, exec (.read q index sub) s = .next t ∧ s.replied t q 1 index sub 0 (s.stopValue noSession index sub) ∧ s.talked t

/-- A STOP_WRITE that passes the checks is carried out, and the stop then reads as the bytes written (14 R351, R359), for each of the
stops that hold a value (0x1060.03 but for the parts' MAC fields); no other of these stops reads otherwise than before. A write of a
channel's stop leaves its score, memories, Reeds and binding alone, and everything of the other channels; a write of a stop outside the
channels changes no channel. A STOP_WRITE of a stop that has a command of its own is that command.
A write of a stop that takes effect at a phrase boundary goes into the shadow of a running channel, with SHADOW set, and into the shadow
and the live register of a channel that is not running (07 R189). -/
def Obligations.StopWriteReadsBack : Prop :=
  ((∀ (s : State) (q : Req) (c : ChanId) (base sub : Nat) (d : List Byte) (x : Session), (base, sub) ∈ heldStops →
    s.accepts q false (ofChan c base) sub d x → (s.chan c).canonical → (s.chan c).svc.targets.length = 4 →
      ∃ t, exec (.stopWrite q (ofChan c base) sub d) s = .next t ∧ s.replied t q 2 (ofChan c base) sub 0 []
        ∧ (∀ y, t.stopValue y (ofChan c base) sub = d)
        ∧ (∀ y b n, (b, n) ∈ heldStops → (b, n) ≠ (base, sub) → t.stopValue y (ofChan c b) n = s.stopValue y (ofChan c b) n)
        ∧ (∀ y i n, (i, n) ∈ heldDeviceStops → t.stopValue y i n = s.stopValue y i n)
        ∧ (t.chan c).score = (s.chan c).score ∧ (t.chan c).reeds = (s.chan c).reeds ∧ (t.chan c).bind = (s.chan c).bind
        ∧ (t.chan c).mem.dram = (s.chan c).mem.dram ∧ (t.chan c).mem.wcb = (s.chan c).mem.wcb
        ∧ (t.chan c).mem.chest = (s.chan c).mem.chest ∧ (t.chan c).st = (s.chan c).st ∧ (t.chan c).err = (s.chan c).err
        ∧ (∀ e, e ≠ c → t.chan e = s.chan e ∧ t.store e = s.store e) ∧ t.fuses = s.fuses ∧ t.meter = s.meter ∧ t.power = s.power)
  ∧ ∀ (s : State) (q : Req) (index sub : Nat) (d : List Byte) (x : Session), (index, sub) ∈ heldDeviceStops →
    s.accepts q false index sub d x →
      ∃ t, exec (.stopWrite q index sub d) s = .next t ∧ s.replied t q 2 index sub 0 []
        ∧ (∀ y, y.role ≠ .tenant ∨ index ≠ 0x6003 →
            if index = 0x1060 ∧ sub = 3 then ∀ i, i < 5 → slice (t.stopValue y index sub) (48 * i + 6) 42 = slice d (48 * i + 6) 42
            else t.stopValue y index sub = d)
        ∧ (∀ y i n, (i, n) ∈ heldDeviceStops → (i, n) ≠ (index, sub) → t.stopValue y i n = s.stopValue y i n)
        ∧ t.ch = s.ch ∧ t.mram.chan = s.mram.chan ∧ t.fuses = s.fuses ∧ t.pins = s.pins
        ∧ t.meter = { s.meter with decl := t.meter.decl })
  ∧ (∀ (s : State) (q : Req) (c : ChanId) (base : Nat) (d : List Byte) (x : Session),
    base ∈ [0x3000, 0x3001, 0x3002, 0x3003, 0x3004, 0x3005, 0x3007, 0x3008] → s.accepts q false (ofChan c base) 0 d x →
    let k := s.chan c
    s.carried (.stopWrite q (ofChan c base) 0 d) q 2 (ofChan c base) 0
      (s.setChan c { k with shadow := k.shadow.put base (ofLe d), shadowed := k.shadowed || k.running
                            live := if k.running then k.live else k.live.put base (ofLe d) }))
  ∧ ∀ (s : State) (q : Req) (c : ChanId) (d : List Byte) (b : BindArg) (m : BitVec 8) (i : Instr) (index sub : Nat) (v : List Byte),
    (i, index, sub, v) ∈ [(.bind q c b, ofChan c 0x2001, 0, bindBytes b true), (.unbind q c b, ofChan c 0x2001, 0, bindBytes b false),
      (.channelReset q c d, ofChan c 0x2005, 0, d), (.loadScore q c d, ofChan c 0x2010, 1, d),
      (.startFromPhrase0 q c, ofChan c 0x2010, 2, [1#8]), (.startFromStep q c, ofChan c 0x2010, 2, [2#8]),
      (.stopAtPhraseWrite q c d, ofChan c 0x2010, 3, d), (.restart q c d, ofChan c 0x2030, 7, d),
      (.weightLoadOpen q c d, ofChan c 0x2031, 1, d), (.weightLoadClose q c d, ofChan c 0x2031, 2, d),
      (.tunerClearCounters q c, ofChan c 0x3020, 4, [1#8]), (.tunerClearLog q c, ofChan c 0x3020, 4, [2#8]),
      (.memCountersClear q c, ofChan c 0x4010, 2, [1#8]), (.pathPlanWrite q c d, ofChan c 0x5001, 1, d),
      (.collCountersClear q c, ofChan c 0x5010, 9, [1#8]), (.portCountersClear q c m, ofChan c 0x5020, 9, [m]),
      (.stopListRestore q d, 0x1012, 0, d), (.declaredTimeWrite q d, 0x1040, 0, d), (.clientKeyListWrite q d, 0x1050, 2, d),
      (.closeSession q d, 0x1050, 3, d), (.logClear q d, 0x6001, 0, d), (.reinstate q d, 0x6030, 4, d),
      (.enterStandby q, 0x7007, 2, [2#8]), (.leaveStandby q, 0x7007, 2, [0#8]), (.attestationNonce q d, 0x8001, 0, d),
      (.confidentialModeWrite q d, 0x8005, 1, d), (.hostEncapKeyWrite q d, 0x8005, 2, d), (.activateMpFirmware q, 0x8006, 3, [1#8]),
      (.activateChanterFirmware q, 0x8006, 3, [2#8]), (.activateEtudePack q, 0x8006, 3, [4#8]), (.raiseMinSvn q d none, 0x8006, 4, d),
      (.programOperatorSlot q d false, 0x8006, 5, d), (.meterReadoutRequest q d, 0x9006, 0, d)] →
    exec (.stopWrite q index sub v) s = exec i s

/-- READ_BLOCK at offset 0 takes a snapshot of the BLOB and returns its length and first bytes; later segments come from the snapshot,
which is gone once its last byte has been read (14 R362). A request at another offset without a snapshot of the stop is refused with
0x0608, one beyond the snapshot's end with 0x0606, one for a stop that is no BLOB with 0x0605, and one in FAULT or for a value that has
not been made with 0x0608. A snapshot also ends when its time is over.
WRITE_BLOCK stages the segments of a BLOB in order, the stop unchanged, until the one that ends at the total, which does what a
write of the whole value does; a segment whose offset does not follow, or whose total is another, or that is too long for the stop, is
refused with 0x0605, a locked stop with 0x0607, and what the state forbids with 0x0608; each refusal discards what has been staged, and so
does the time without a segment (14 R361). Nothing else changes. -/
def Obligations.BlockTransfers : Prop :=
  ((∀ (s : State) (q : Req) (index sub offset maximum : Nat) (x : Session), s.admits q 3 index sub x →
    let i := Instr.readBlock q index sub offset maximum
    let now := (s.touch q).stopValue { x with idle := 0 } index sub
    let unfit := s.faultForbids 3 index sub = true ∨ offset = 0 ∧ x.hasNoValue index = true
    (blobStop index sub = false → s.refusedWith i q 3 index sub 0x0605)
    ∧ (blobStop index sub = true → unfit → s.refusedWith i q 3 index sub 0x0608)
    ∧ (blobStop index sub = true → ¬ unfit →
      (∀ v, offset = 0 ∧ v = now ∨ offset ≠ 0 ∧ x.snap = some { index := index, sub := sub, data := v } →
        (v.length < offset → s.refusedWith i q 3 index sub 0x0606)
        ∧ (offset ≤ v.length →
          let part := (v.drop offset).take (min maximum (x.cap - 4))
          let more := decide (offset + part.length < v.length)
          let seen := if offset = 0 then (s.touch q).markRead { x with idle := 0 } index sub else s
          ∃ t r, exec i s = .next t ∧ t.mp.sent = s.mp.sent ++ [r]
            ∧ (∃ n, r = { session := q.session, txid := q.txid, op := 3, index := index, sub := sub, abort := 0
                          payload := leBytes 4 v.length ++ part, more := more, seq := n })
            ∧ (seen.modSession q.session (fun y => { y with
                snap := if more then some { index := index, sub := sub, data := v } else none })).talked t))
      ∧ (offset ≠ 0 → (∀ p, x.snap = some p → p.index ≠ index ∨ p.sub ≠ sub) → s.refusedWith i q 3 index sub 0x0608)))
  ∧ ∀ (s : State) (h : Nat),
      let after := s.mp.sessions.map (fun (y : Session) => if y.handle = h then { y with snap := none } else y)
      exec (.readBlockSnapshotExpire h) s = .next { s with mp := { s.mp with sessions := after } })
  ∧ ((∀ (s : State) (q : Req) (index sub total offset : Nat) (d : List Byte) (x : Session) (r : StopRow), s.admits q 4 index sub x →
    stopRow index sub = some r →
    let i := Instr.writeBlock q index sub total offset d
    let discard := fun (y : Session) => { y with staged := none }
    let refused := fun (n : Nat) => ∃ t, exec i s = .next t ∧ (s.modSession q.session discard).talked t ∧ s.replied t q 4 index sub n []
    let fits := (r.type = .blob total ∨ ∃ n, r.type = .blobVar n ∧ total ≤ n) ∧ s.lengthBad index sub total = false
      ∧ total ≤ 2 ^ 20 ∧ d.length ≤ 8184 ∧ offset + d.length ≤ total
    let follows := fun (before : List Byte) => before.length = offset
      ∧ (offset = 0 ∨ x.staged = some { index := index, sub := sub, total := total, data := before })
    ((∀ before, ¬ follows before) → refused 0x0605)
    ∧ (∀ before, follows before →
      (¬ fits → refused 0x0605)
      ∧ (fits → offset + d.length < total →
        (r.access = .rwl → s.locked index sub none = true → refused 0x0607)
        ∧ ((r.access = .rwl → s.locked index sub none = false) →
          (s.faultForbids 4 index sub = true ∨ s.blockForbidden x index sub = true → refused 0x0608)
          ∧ (s.faultForbids 4 index sub = false → s.blockForbidden x index sub = false →
            ∃ t, exec i s = .next t ∧ s.replied t q 4 index sub 0 []
              ∧ (s.modSession q.session (fun y => { y with
                  staged := some { index := index, sub := sub, total := total, data := before ++ d } })).talked t)))
      ∧ (fits → offset + d.length = total →
        exec i s = .next (
          let w := writeBody q 4 true {} index sub (before ++ d) { x with idle := 0 } ((s.touch q).modSession q.session discard)
          w.2.answer q 4 index sub w.1))))
  ∧ ∀ (s : State) (h : Nat),
      let after := s.mp.sessions.map (fun (y : Session) => if y.handle = h then { y with staged := none } else y)
      exec (.writeBlockTimeout h) s = .next { s with mp := { s.mp with sessions := after } })

/-- The subscriptions (14 R363): a stop that admits the mode is subscribed in it, once per stop, its value kept in mode 1; mode 0
removes the subscription; the answer tells how many the session then has; and a mode that the stop does not admit, a 257th
subscription, or any in FAULT for a stop that FAULT closes, is refused with 0x0608. Nothing else changes. -/
def Obligations.Subscriptions : Prop :=
  ∀ (s : State) (q : Req) (index sub n : Nat) (x : Session), s.admits q 6 index sub x →
    let others := x.subs.filter (fun (u : Subscription) => !(u.index == index && u.sub == sub))
    let done := fun (i : Instr) (subs : List Subscription) =>
      ∃ t, exec i s = .next t ∧ s.replied t q 6 index sub 0 (leBytes 2 subs.length)
        ∧ (s.modSession q.session (fun y => { y with subs := subs })).talked t
    let refused := fun (i : Instr) => s.refusedWith i q 6 index sub 0x0608
    (s.faultForbids 6 index sub = false →
      done (.subscribeCancel q index sub) others
      ∧ (onChangeStop index sub = true → others.length < 256 →
        done (.subscribeOnChange q index sub n)
          (others ++ [{ index := index, sub := sub, mode := 1, interval := n
                        last := (s.touch q).stopValue { x with idle := 0 } index sub }]))
      ∧ (eachEntryStop index sub = true → others.length < 256 →
        done (.subscribeEachEntry q index sub n) (others ++ [{ index := index, sub := sub, mode := 2, interval := n, last := [] }])))
    ∧ (s.faultForbids 6 index sub = true → refused (.subscribeCancel q index sub))
    ∧ (s.faultForbids 6 index sub = true ∨ onChangeStop index sub = false ∨ 256 ≤ others.length → refused (.subscribeOnChange q index sub n))
    ∧ (s.faultForbids 6 index sub = true ∨ eachEntryStop index sub = false ∨ 256 ≤ others.length → refused (.subscribeEachEntry q index sub n))

/-- A session opens in two exchanges (14 R355, R358). OPEN with a key that the key list admits, below the session limits, is answered
with a handle that no session and no handshake has, the ciphertext, a nonce of 32 bytes and the signature over the transcript hash, and
keeps a handshake; any other key is answered 0x0609, a field of a wrong length 0x0605, a payload cap out of range 0x0606, and an OPEN
beyond the limits or in FAULT 0x0608. FINISH with a signature over the transcript hash that verifies opens the session of the handshake,
under the keys that 64 bytes of SHAKE256 give; any other is answered 0x060D and opens none, and in FAULT 0x0608. A wrong version is
answered 0x060E. Nothing else changes. -/
def Obligations.SessionOpening : Prop :=
  ∀ (s : State) (q : Req), s.canSend = true →
    (∀ f : OpenFrame,
      (q.version ≠ 1 → s.refusedWith (.sessionOpen q f) q 7 0 0 0x060E)
      ∧ (q.version = 1 → q.session ≠ 0 → s.session? q.session = none → s.refusedWith (.sessionOpen q f) q 7 0 0 0x060D)
      ∧ (q.version = 1 → q.session = 0 ∨ (s.session? q.session).isSome = true →
        let sized := f.nonce.length = 32 ∧ f.kemKey.length = 1568 ∧ f.pub.length = 1793
        let capped := 1024 ≤ f.cap ∧ f.cap ≤ 8192
        (s.keyEntry f = none → s.refusedWith (.sessionOpen q f) q 7 0 0 0x0609)
        ∧ ∀ e, s.keyEntry f = some e →
          (¬ sized → s.refusedWith (.sessionOpen q f) q 7 0 0 0x0605)
          ∧ (sized → ¬ capped → s.refusedWith (.sessionOpen q f) q 7 0 0 0x0606)
          ∧ (sized → capped → s.dev = 5 ∨ s.mp.full e = true → s.refusedWith (.sessionOpen q f) q 7 0 0 0x0608)
          ∧ (sized → capped → s.dev ≠ 5 → s.mp.full e = false →
            ∃ t o r nonce, exec (.sessionOpen q f) s = .next t ∧ nonce.length = 32
              ∧ State.talked { s with
                  freeCtr := t.freeCtr, mp := { s.mp with opens := s.mp.opens ++ [o], nextHandle := t.mp.nextHandle } } t
              ∧ (let head := [0x01#8] ++ leBytes 2 o.handle ++ fitTo 1568 (Config.kemCiphertext f.kemKey r) ++ nonce
                 let payload := head ++ fitTo 1280 (Config.identitySign (Hash.shake512 (openPayload f ++ head)))
                 s.replied t q 7 0 0 0 payload
                 ∧ o = { handle := o.handle, role := Role.ofCode f.role, keyEntry := e, job := if f.role = 2 then f.job else 0, cap := f.cap
                         secret := Config.kemSecret f.kemKey r, transcript := openPayload f ++ payload, pub := f.pub })
              ∧ o.handle ≠ 0 ∧ (∀ y ∈ s.mp.sessions, y.handle ≠ o.handle) ∧ ∀ y ∈ s.mp.opens, y.handle ≠ o.handle)))
    ∧ ∀ (h : Nat) (sig : List Byte),
      (q.version ≠ 1 → s.refusedWith (.sessionFinish q h sig) q 7 0 0 0x060E)
      ∧ (q.version = 1 → (∀ y ∈ s.mp.opens, y.handle ≠ h) → s.refusedWith (.sessionFinish q h sig) q 7 0 0 0x060D)
      ∧ ∀ o, q.version = 1 → s.mp.opens.find? (fun (y : Opening) => y.handle == h) = some o →
        (Config.falconVerify o.pub (Hash.shake512 o.transcript) sig = true → s.dev ≠ 5 →
          let label : List Byte := [0x45#8, 0x56#8, 0x54#8, 0x34#8, 0x2D#8, 0x53#8, 0x54#8, 0x4F#8, 0x50#8]
          let keys := Hash.shake256 (o.secret ++ label ++ Hash.shake512 o.transcript) 64
          ∃ t, exec (.sessionFinish q h sig) s = .next t ∧ s.replied t q 7 0 0 0 [0x02#8]
            ∧ State.talked { s with mp := { s.mp with
                opens := s.mp.opens.filter (fun (y : Opening) => y.handle != h)
                sessions := s.mp.sessions ++ [{ handle := o.handle, role := o.role, keyEntry := o.keyEntry, job := o.job, cap := o.cap
                                                keyIn := keys.take 32, keyOut := keys.drop 32 }] } } t)
        ∧ (Config.falconVerify o.pub (Hash.shake512 o.transcript) sig = true → s.dev = 5 →
          s.refusedWith (.sessionFinish q h sig) q 7 0 0 0x0608)
        ∧ (Config.falconVerify o.pub (Hash.shake512 o.transcript) sig = false →
          s.refusedWith (.sessionFinish q h sig) q 7 0 0 0x060D)

/-- A session closes (14 R354, R355, R358) with CLOSE, with its handle written by an operator, when it has been idle beyond the
timeout, and when its entry of the key list changes; a handshake that is not finished in time, or whose entry changes, is given up.
Every other session and handshake stays, and nothing outside the Mouthpiece's sessions changes but the key list written. A CLOSE is
answered 0x060E with a wrong version, 0x060D without an open session, and 0x0608 in FAULT; a handle that no session has, 0x0606. -/
def Obligations.SessionClosing : Prop :=
  ∀ (s : State) (q : Req),
    (s.canSend = true →
      (q.version ≠ 1 → s.refusedWith (.sessionClose q) q 7 0 0 0x060E)
      ∧ (q.version = 1 → s.session? q.session = none → s.refusedWith (.sessionClose q) q 7 0 0 0x060D)
      ∧ ∀ x, q.version = 1 → s.session? q.session = some x → x.cached q.txid = none →
        (s.dev = 5 → s.refusedWith (.sessionClose q) q 7 0 0 0x0608)
        ∧ (s.dev ≠ 5 →
          ∃ t, exec (.sessionClose q) s = .next t ∧ s.replied t q 7 0 0 0 [0x03#8]
            ∧ t = { s with mp := { s.mp with
                sessions := s.mp.sessions.filter (fun (y : Session) => y.handle != q.session)
                sent := t.mp.sent, host := { s.mp.host with cnt := t.mp.host.cnt } } }))
    ∧ (∀ d x, s.accepts q false 0x1050 3 d x →
      s.carried (.closeSession q d) q 2 0x1050 3
        { s with mp := { s.mp with sessions := s.mp.sessions.filter (fun (y : Session) => !(y.handle == ofLe d)) } })
    ∧ (∀ d x, s.admits q 2 0x1050 3 x → d.length = 2 → s.session? (ofLe d) = none → s.refusedWith (.closeSession q d) q 2 0x1050 3 0x0606)
    ∧ (∀ h idle,
      let gone := s.mp.sessions.filter (fun (y : Session) => y.handle != h)
      let stay := s.mp.sessions.map (fun (y : Session) => if y.handle = h then { y with idle := idle } else y)
      exec (.sessionIdleTimeout h idle) s
        = .next { s with mp := { s.mp with sessions := if s.mp.idleTimeout < idle then gone else stay } })
    ∧ (∀ h, exec (.sessionOpenExpire h) s
      = .next { s with mp := { s.mp with opens := s.mp.opens.filter (fun (o : Opening) => o.handle != h) } })
    ∧ ∀ d x, s.accepts q false 0x1050 2 d x →
      let new := (List.range 15).map (fun i => ClientKey.ofBytes (slice d (72 * (i + 1)) 72))
      let stays := fun (e : Nat) => e == 0 || (new.getD (e - 1) {}).bytes == (s.mram.clientKeys.getD (e - 1) {}).bytes
      s.carried (.clientKeyListWrite q d) q 2 0x1050 2
        { s with
          mram := { s.mram with clientKeys := new }
          mp := { s.mp with
            sessions := s.mp.sessions.filter (fun (y : Session) => stays y.keyEntry)
            opens := s.mp.opens.filter (fun (o : Opening) => stays o.keyEntry) } }

/-! ### Start-up, resets and power -/

/-- POWER_ON asserts PWR_GOOD (20 R462, R467): every stop but the stored ones takes its default, every epoch rises, HBM is lost, writing
and provisional checkpoints are discarded, an interrupted hold-up is a power loss, and the ROM checks the images. After a thermal trip it
cannot be asserted (22 R498), and once STRAP is over it is already (logs 2, 3). RESET_N resets the device at once; it waits for
save-complete in a Last Breath that has not reached it, and after it is a power loss (20 R470). The loss of REFCLK_L resets the device
too and is never deferred (22 R490). The release of RESET_N and the return of REFCLK_L start the boot. An edge that the pin has already
made changes nothing. -/
def Obligations.DeviceResets : Prop :=
  ∀ (s : State),
    (∀ o, s.power.tripped = false → s.pins.pwrGood = false ∨ s.pins.phase = .strap →
      ∃ t, exec (.powerOn o) s = .next t ∧ s.defaulted t ∧ t.pins.pwrGood = true ∧ t.meter = s.meter
        ∧ (∀ c, ∀ x ∈ (t.store c).ckpts, x.state ≠ 1 ∧ x.state ≠ 2)
        ∧ (s.pins.resetHeld = false → s.pins.refclkL = true → s.bootedTo t o)
        ∧ (s.pins.resetHeld = true ∨ s.pins.refclkL = false → t.inInit))
    ∧ (∀ o, s.power.tripped = true ∨ s.pins.pwrGood = true ∧ s.pins.phase ≠ .strap → exec (.powerOn o) s = .next s)
    ∧ (s.pins.pwrGood = false ∨ s.pins.resetHeld = true → exec .resetN s = .next s)
    ∧ (s.pins.pwrGood = true → s.pins.resetHeld = false →
      (s.power.lb.isNone = true ∨ (∃ b, s.power.lb = some b ∧ b.saved = true) →
        ∃ t, exec .resetN s = .next t ∧ s.defaulted t ∧ t.inInit ∧ t.pins.resetHeld = true ∧ t.pins.refclkL = s.pins.refclkL
          ∧ (s.power.lb.isSome = true → ∀ c, ∀ x ∈ (t.store c).ckpts, x.state ≠ 1 ∧ x.state ≠ 2))
      ∧ (∀ b, s.power.lb = some b → b.saved = false →
        exec .resetN s = .next { s with pins := { s.pins with resetHeld := true, resetDeferred := true } }))
    ∧ (s.pins.pwrGood = true → s.pins.refclkL = true →
      ∃ t, exec .refclkLLoss s = .next t ∧ s.defaulted t ∧ t.inInit ∧ t.pins.refclkL = false ∧ t.pins.resetHeld = s.pins.resetHeld
        ∧ (s.power.lb.isSome = true → ∀ c, ∀ x ∈ (t.store c).ckpts, x.state ≠ 1 ∧ x.state ≠ 2))
    ∧ (s.pins.pwrGood = false ∨ s.pins.refclkL = false →
      exec .refclkLLoss s = .next { s with pins := { s.pins with refclkL := false } })
    ∧ (∀ i p, i = .resetNRelease ∧ s.pins.resetHeld = true ∧ s.pins.resetDeferred = false ∧ p = { s.pins with resetHeld := false }
          ∨ i = .refclkLReturn ∧ s.pins.refclkL = false ∧ p = { s.pins with refclkL := true } →
      (p.pwrGood = true → p.resetHeld = false → p.refclkL = true →
        ∃ t, exec i s = .next t ∧ t = ({ s with pins := p } : State).bootRom {} ∧ t.pins = p ∧ t.fuses = s.fuses ∧ t.meter = s.meter
          ∧ (s.inInit → s.bootedTo t {}))
      ∧ (p.pwrGood = false ∨ p.resetHeld = true ∨ p.refclkL = false → exec i s = .next { s with pins := p }))
    ∧ (s.pins.resetHeld = true → s.pins.resetDeferred = true →
      exec .resetNRelease s = .next { s with pins := { s.pins with resetHeld := false } })
    ∧ (s.pins.resetHeld = false → exec .resetNRelease s = .next s) ∧ (s.pins.refclkL = true → exec .refclkLReturn s = .next s)

/-- The straps at the end of STRAP: each bit is set by a majority of its samples, a tie reads as 0, bit 15 of the raw straps is set when
the samples of some pin disagreed, and the device runs with the majority in either case (12 R317, R318; 20 R458). Nothing else
changes, and outside STRAP nothing at all. -/
def Obligations.Straps : Prop :=
  ∀ (s : State) (samples : List Nat),
    (s.released = false ∨ s.pins.phase ≠ .strap → exec (.strapEnd samples) s = .next s)
    ∧ (s.released = true → s.pins.phase = .strap → ∃ t, exec (.strapEnd samples) s = .next t ∧ t.pins.phase = .run
      ∧ t = { s with pins := { s.pins with phase := .run, straps := t.pins.straps, unstable := t.pins.unstable } }
      ∧ (∃ r, stopRow 0x1021 0 = some r ∧ r.access = .ro)
      ∧ ∀ x, ∃ v, t.stopValue x 0x1021 0 = leBytes 4 v
          ∧ (∀ i, i < 12 → (bitOf v i = true ↔ samples.length < 2 * (samples.filter (fun a => bitOf a i)).length))
          ∧ (bitOf v 15 = true ↔ ∃ i, i < 12 ∧ (∃ a ∈ samples, bitOf a i = true) ∧ ∃ a ∈ samples, bitOf a i = false)
          ∧ v < 2 ^ 16 ∧ ∀ i, 12 ≤ i → i < 15 → bitOf v i = false)

/-- The Mouthpiece's firmware starts and FNG[7:4] has shown 0xF (20 R461), and a channel's boot ends (20 R463): a pseudo-channel that
fails training halts the channel with HBM_TRAIN of class H (09 R229), with ESC set when the boot was the recovery of that error (17
R410); otherwise the channel is READY at its effective bin, which is the slowest of four (19 R446), its slots on healthy Reeds (18 R432).
When its save record and its auto-restart ask for it, the saved job is bound under a new epoch and the channel is LOADED with the saved
score and a restart under way; without a saved score, or when the binding is refused, RESTART_FAILED is logged as class J (19 R453). No
other channel changes. Neither event has an effect outside its conditions. -/
def Obligations.Boots : Prop :=
  ∀ (s : State),
    (let on := s.released = true ∧ s.pins.phase = .run ∧ s.mp.running = false ∧ s.mp.bootable = true ∧ s.power.lb = none
     (on →
      ∃ t, exec .mpFirmwareReady s = .next t ∧ t.mp = { s.mp with running := true } ∧ t.pins = { s.pins with seenF := true }
        ∧ t = { s with mp := t.mp, pins := t.pins, dev := t.dev }
        ∧ (s.dev = 5 → t.dev = 5)
        ∧ (s.dev ≠ 5 → (∀ c, (s.chan c).st ≠ .init ∧ (s.chan c).st ≠ .run ∧ (s.chan c).st ≠ .stopping) →
            s.power.standby = false → s.power.returning = false → t.dev = 1))
     ∧ (¬ on → exec .mpFirmwareReady s = .next s))
    ∧ ∀ (c : ChanId) (o : ChannelBootObs),
      let on := (s.chan c).st = .init ∧ s.awake = true ∧ s.pins.phase = .run
      let trained := s.setChan c { s.chan c with mem := (s.chan c).mem.trainCxl o.cxl, cxlPerst := false }
      (¬ on → exec (.channelReady c o) s = .next s)
      ∧ (∀ i, on → o.hbmFail = some i → (∀ h ∈ (s.chan c).err.handling, h.entry.seq ≠ (s.chan c).err.log.seq) →
        ∃ t e, exec (.channelReady c o) s = .next t ∧ s.nearChan c t ∧ (t.chan c).st = .halted
          ∧ (t.chan c).err.log.ring.getLast? = some e ∧ e.cause = .hbmTrain ∧ e.cls = .H ∧ e.detail = i % 2 ^ 32
          ∧ e.esc = o.resetFail)
      ∧ (on → o.hbmFail = none →
        let u := trained.bootChannel c o
        let start := ∃ r, (s.store c).record = some r ∧ s.mram.holdup.outcome = 2 ∧ (s.store c).autoRestart = true ∧ r.binding.bound = true
        ∃ t, exec (.channelReady c o) s = .next t ∧ t = (u.coldRestart c).settle ∧ s.nearChan c t
          ∧ (u.chan c).st = .ready ∧ (u.store c).record = (s.store c).record ∧ (u.store c).epoch = (s.store c).epoch
          ∧ (∀ i, (u.chan c).slotMap.getD i 0xFF ≠ 0xFF → u.isHealthy c ((u.chan c).slotMap.getD i 0xFF) = true
              ∨ ∃ y, (u.chan c).etude.run = some y ∧ y.reed = (u.chan c).slotMap.getD i 0xFF)
          ∧ (t.chan c).bins.now = max (max (s.chan c).bins.requested (u.store c).binFloor) (max (s.chan c).bins.cap (s.chan c).bins.thermal)
          ∧ (o.columns = [] → (u.store c).binFloor = (s.store c).binFloor) ∧ (t.store c).record = none
          ∧ (¬ start → (t.chan c).st = .ready ∧ t.chan c = u.chan c)
          ∧ (∀ r, (s.store c).record = some r → s.mram.holdup.outcome = 2 → (s.store c).autoRestart = true → r.binding.bound = true →
              let bad := u.bindForbidden c r.binding = true ∨ (s.store c).epoch = 0xFFFFFFFF
              (r.score = none ∨ bad → ∃ e ∈ (t.chan c).err.log.ring, e.cause = .restartFailed ∧ e.cls = .J)
              ∧ (∀ x, r.score = some x → ¬ bad → (s.store c).epoch < 0xFFFFFFFF →
                (t.chan c).st = .loaded ∧ (t.chan c).bind = { r.binding with bound := true } ∧ (t.chan c).score = some x
                  ∧ (t.chan c).svc.restart = some {} ∧ (t.store c).epoch = (s.store c).epoch + 1)))

/-- A Mouthpiece fault (17 R411): the restart is logged as class H with cause MP_RESTART, every session closes, a checkpoint in progress
is abandoned and logged as CKPT_TARGET, and the channels run on; a third restart within 600 s is class F and leaves the device in FAULT
with every channel halted (17 R409). Under halt policy 1 a halted channel whose log has been drained is reset, and no other channel changes (17 R408). Neither has an
effect outside its conditions. -/
def Obligations.MouthpieceFaults : Prop :=
  ∀ (s : State),
    (∀ i pclk, i = .mpWatchdog pclk ∨ i = .mpTrap pclk →
      s.mp.running = false ∨ s.released = false ∨ s.power.lb.isSome = true → exec i s = .next s)
    ∧ (∀ i pclk, i = .mpWatchdog pclk ∨ i = .mpTrap pclk → s.mp.running = true → s.released = true → s.power.lb = none →
      let recent := s.mp.restarts.filter (fun t => pclk < t + 600 * 1500000000)
      ∃ t, exec i s = .next t ∧ t.mp.running = false ∧ t.mp.sessions = [] ∧ t.mp.opens = [] ∧ t.mp.reports = []
        ∧ t.mp.restarts = pclk :: recent ∧ t.fuses = s.fuses ∧ t.power = s.power ∧ t.pins = s.pins ∧ t.meter = s.meter
        ∧ (recent.length < 2 → t.dev = s.dev ∧ (∃ e, t.mp.log.ring.getLast? = some e ∧ e.cause = .mpRestart ∧ e.cls = .H)
          ∧ ∀ c, ((s.chan c).svc.ckpt = none → t.chan c = s.chan c)
            ∧ ((s.chan c).svc.ckpt.isSome = true →
                t.chan c = { s.chan c with
                  err := { (s.chan c).err with log := (t.chan c).err.log }, ver := (t.chan c).ver
                  svc := { (s.chan c).svc with ckpt := none } }
                ∧ ∃ e, (t.chan c).err.log.ring.getLast? = some e ∧ e.cause = .ckptTarget ∧ e.cls = .S
                    ∧ ((s.chan c).st ≠ .holdup → e.outcome = 4)))
        ∧ (2 ≤ recent.length → t.dev = 5 ∧ (∀ c, (t.chan c).st = .halted)
          ∧ ∃ e, t.mp.log.ring.getLast? = some e ∧ e.cause = .mpRepeat ∧ e.cls = .F))
    ∧ ∀ c,
      let on := (s.chan c).st = .halted ∧ (s.chan c).err.haltTimer = true ∧ s.mram.haltPolicy = 1 ∧ s.dev ≠ 5 ∧ s.awake = true
      (¬ on → exec (.haltResetTimer c) s = .next s)
      ∧ (on → ∃ t, exec (.haltResetTimer c) s = .next t ∧ t = s.channelReset c ∧ s.aroundChan c t ∧ (t.chan c).st = .init ∧ (t.chan c).bind.bound = false
        ∧ (t.store c).epoch = min ((s.store c).epoch + 1) 0xFFFFFFFF ∧ (∀ a, (t.chan c).mem.dram.rd a = unwritten)
        ∧ ((s.chan c).err.handling = [] → (t.chan c).err.log = (s.chan c).err.log))

/-- Last Breath. A sag while the Mouthpiece's firmware has run starts it at t0 (19 R447, R448): the device and every channel are in
HOLDUP, ports are not UP, no action is in flight, HBM keeps its contents, and the hold-up record starts anew (19 R453); at any other time
it starts nothing. Each channel's save record, which holds the channel's state as 19 R450 lists it, is written with its acknowledge
(20 R460), and save-complete follows the last of them; a RESET_N that waited for it is then a power loss (20 R470). -/
def Obligations.LastBreathSteps : Prop :=
  ∀ (s : State),
    (∀ psag vin,
      let u : State := { s with pins := { s.pins with psagLow := psag }, power := { s.power with vin := vin } }
      (vin < s.mram.sagThreshold ∨ psag = true → s.awake = true → s.pins.seenF = true →
        ∃ t, exec (.sagDetect psag vin) s = .next t ∧ t.dev = 3 ∧ t.pins.phase = .hold ∧ t.fuses = s.fuses
          ∧ t.power = { u.power with lb := some { before := s.dev, saved := false } }
          ∧ t.mram.holdup = { hseq := (s.mram.holdup.hseq + 1) % 2 ^ 32
                              trig := bit (decide (vin < s.mram.sagThreshold)) + 2 * bit psag, outcome := 0, state := s.dev
                              vT0 := vin / 10, vMin := vin / 10, decl := s.mp.declTime }
          ∧ ∀ c, (t.chan c).st = .holdup ∧ (t.chan c).before = (s.chan c).st ∧ (t.chan c).mem = { (s.chan c).mem with wcb := [] }
              ∧ (t.chan c).score = (s.chan c).score ∧ (t.chan c).bind = (s.chan c).bind ∧ (t.chan c).step = (s.chan c).step
              ∧ (t.chan c).attempt = (s.chan c).attempt ∧ (t.chan c).tun = (s.chan c).tun ∧ (t.chan c).paths = (s.chan c).paths
              ∧ (∀ p, ((t.chan c).port p).st ≠ .up) ∧ (t.chan c).flights = [] ∧ (t.store c).record = none
              ∧ (t.pins.acked.getD c.val false = true ↔ (s.chan c).st = .init ∨ (s.chan c).st = .halted))
      ∧ (s.mram.sagThreshold ≤ vin ∧ psag = false ∨ s.awake = false ∨ s.pins.seenF = false →
        exec (.sagDetect psag vin) s = .next u))
    ∧ (∀ c, s.saving = true → s.pins.acked.getD c.val true = false →
      ∃ t r, exec (.channelSaveWritten c) s = .next t ∧ t = { s with pins := t.pins, mram := { s.mram with chan := t.mram.chan } }
        ∧ r = s.saveRecord c
        ∧ t.pins = { s.pins with acked := t.pins.acked } ∧ t.pins.acked.getD c.val false = true
        ∧ (∀ d, d ≠ c → t.store d = s.store d) ∧ t.store c = { s.store c with record := some r }
        ∧ r.hseq = s.mram.holdup.hseq ∧ r.step = (s.chan c).step ∧ r.attempt = (s.chan c).attempt ∧ r.binding = (s.chan c).bind
        ∧ r.plan = (s.chan c).paths.plan ∧ r.log = (s.chan c).err.log.ring ∧ r.fifo = (s.chan c).err.fifo ++ (s.chan c).err.stalled
        ∧ r.ver = (s.chan c).ver ∧ r.verSnap = (s.chan c).verSnap ∧ r.voidRun = (s.chan c).tun.voidRun ∧ r.shadow = (s.chan c).shadow
        ∧ r.beats = (s.chan c).ww.beats ∧ r.tun = (s.chan c).tun ∧ r.meas = (s.chan c).meas ∧ r.svc = (s.chan c).svc
        ∧ r.class0 = (s.chan c).mem.class0 ∧ r.class1 = (s.chan c).mem.class1 ∧ r.spill = (s.chan c).mem.spill ∧ r.coll = (s.chan c).coll
        ∧ (∀ x, (s.chan c).score = some x → x.length ≤ 6291456 →
            r.score = some x ∧ r.image = ((s.chan c).mem.load 0 x.addr x.length).1.bytes)
        ∧ (∀ x, (s.chan c).score = some x → 6291456 < x.length → r.score = none ∧ r.image = []))
    ∧ (∀ c, s.saving = false ∨ s.pins.acked.getD c.val true = true → exec (.channelSaveWritten c) s = .next s)
    ∧ (∀ micros vmin, s.saving = false ∨ s.pins.acked.all id = false → exec (.saveComplete micros vmin) s = .next s)
    ∧ (∀ micros vmin b, s.saving = true → s.power.lb = some b → s.pins.acked.all id = true →
      (s.pins.resetDeferred = false →
        ∃ t, exec (.saveComplete micros vmin) s = .next t ∧ t.power = { s.power with lb := some { b with saved := true } }
          ∧ t = { s with power := t.power, freeCtr := t.freeCtr, mram := { s.mram with holdup := t.mram.holdup, mpRecord := t.mram.mpRecord } }
          ∧ (∃ r, t.mram.mpRecord = some r ∧ r.log = s.mp.log.ring ∧ r.sessions = s.mp.sessions ∧ r.host = s.mp.host ∧ r.decl = s.mp.declTime)
          ∧ t.mram.holdup.outcome = s.mram.holdup.outcome ∧ t.mram.holdup.tSave = micros
          ∧ bitOf t.mram.holdup.saved 4 = true ∧ ∀ c : ChanId, bitOf t.mram.holdup.saved c.val = (s.store c).record.isSome)
      ∧ (s.pins.resetDeferred = true →
        ∃ t, exec (.saveComplete micros vmin) s = .next t ∧ t.mram.holdup.outcome = 2 ∧ t.power.lb = none ∧ t.mp.sessions = []
          ∧ ∀ c, (t.chan c).bind = {} ∧ ∀ a, (t.chan c).mem.dram.rd a = unwritten))

/-- The end of a hold. At the resume decision, once V_IN is above 66 V, a channel that was running is LOADED with RESUME set, and any
other is back in the state it had (19 R451, R452); HBM keeps its contents, and a link to the far tier that is found lost is handled as a
loss (09 R260). Before save-complete, or at 66 V and below, nothing happens. A channel with RESUME set starts again once discovery has
completed: the step is undone and waits at its phrase with its attempt raised, or asks for a rollback at the limit of repeats, and where
that rollback has been made already logs ROLLBACK_REPEAT of class J and waits for the host (05 R129; 11 R313, R316); after a short
discovery without fallback it waits for the host with the step undone (19 R452; 05 R132). The return from standby lets the ports of READY
and LOADED channels with a plan leave IDLE (12 R321; 19 R442). -/
def Obligations.Resumes : Prop :=
  ∀ (s : State),
    (∀ vin micros, s.power.lb = none ∨ (∃ b, s.power.lb = some b ∧ b.saved = false) ∨ vin ≤ 66000 → exec (.resumeDecision vin micros) s = .next s)
    ∧ (∀ vin micros b, s.power.lb = some b → b.saved = true → 66000 < vin → s.pins.pwrGood = true → s.pins.refclkL = true →
      ∃ t, exec (.resumeDecision vin micros) s = .next t ∧ t.fuses = s.fuses ∧ t.pending = s.pending
        ∧ t.power = { s.power with lb := none, vin := vin, standby := false, returning := false }
        ∧ t.pins = { s.pins with phase := .run, acked := [false, false, false, false] }
        ∧ t.mp = { s.mp with sessions := t.mp.sessions, sent := t.mp.sent, host := { s.mp.host with cnt := t.mp.host.cnt } }
        ∧ t.mram = { s.mram with holdup := { s.mram.holdup with outcome := 1, tHold := micros } }
        ∧ (∀ c, t.chan c = (s.chan c).resumeFrom ∧ (t.chan c).step = (s.chan c).step ∧ (t.chan c).bind = (s.chan c).bind
            ∧ (t.chan c).attempt = (s.chan c).attempt ∧ (t.chan c).score = (s.chan c).score ∧ (t.chan c).reeds = (s.chan c).reeds
            ∧ (t.chan c).mem = { (s.chan c).mem with cxlFatal := (t.chan c).mem.cxlFatal }
            ∧ ((s.chan c).before = .run ∨ (s.chan c).before = .stopping → (t.chan c).st = .loaded ∧ (t.chan c).resume = true)
            ∧ ((s.chan c).before = .ready ∨ (s.chan c).before = .halted ∨ (s.chan c).before = .init →
                (t.chan c).st = (s.chan c).before ∧ (t.chan c).resume = false)
            ∧ ((s.chan c).before = .loaded → (t.chan c).st = .loaded ∧ (t.chan c).resume = (s.chan c).resume))
        ∧ (b.before ≠ 5 → (∀ c, (t.chan c).st ≠ .init) → t.dev = 1))
    ∧ (∀ c, let k := s.chan c
      let on := k.st = .loaded ∧ k.resume = true ∧ k.ww.resumed = false ∧ s.awake = true ∧ (k.paths.plan = none ∨ k.paths.disc.status = 2)
      (¬ on → exec (.resumeStart c) s = .next s)
      ∧ (on → k.paths.disc.short = true → k.paths.disc.fallback = false →
        exec (.resumeStart c) s = .next (s.setChan c { k.endStep none with
          resume := false, ww := { (k.endStep none).ww with boundaryDue := false } }))
      ∧ (on → k.paths.disc.short = false ∨ k.paths.disc.fallback = true →
        ∃ t, exec (.resumeStart c) s = .next t ∧ s.nearChan c t ∧ (t.chan c).st = .loaded ∧ (t.chan c).attempt = k.attempt + 1
          ∧ (t.chan c).ww.phrase = k.ww.stepPhrase ∧ (t.chan c).ww.beat = 0 ∧ (t.chan c).mem = k.mem ∧ (t.chan c).bind = k.bind
          ∧ (k.attempt + 1 < k.coll.repeats →
              t.chan c = { k.endStep none with
                ww := { (k.endStep none).ww with resumed := true }
                slotMap := (t.chan c).slotMap, etude := { k.etude with queue := (t.chan c).etude.queue } })
          ∧ (k.coll.repeats ≤ k.attempt + 1 →
              (∃ e ∈ (t.chan c).err.log.ring, e.cause = .repeatLimit ∧ e.cls = .J)
              ∧ ((∀ n, k.tun.lastRollback = some n → n < k.step) →
                (t.chan c).ww.rollbackDue = true ∧ (t.chan c).tun.lastRollback = some k.step ∧ (t.chan c).resume = true)
              ∧ (∀ n, k.tun.lastRollback = some n → k.step ≤ n →
                (t.chan c).resume = false ∧ (t.chan c).tun.lastRollback = some n
                  ∧ ∃ e ∈ (t.chan c).err.log.ring, e.cause = .rollbackRepeat ∧ e.cls = .J))))
    ∧ (s.power.returning = false ∨ s.awake = false → exec .returnToP2 s = .next s)
    ∧ (s.power.returning = true → s.awake = true →
      ∃ t, exec .returnToP2 s = .next t ∧ t = { s with ch := t.ch, power := { s.power with returning := false }, dev := t.dev }
        ∧ ∀ c, let on := (s.chan c).paths.plan.isSome = true ∧ ((s.chan c).st = .ready ∨ (s.chan c).st = .loaded)
          (on → t.chan c = (s.chan c).startDiscovery ∧ (t.chan c).paths.disc = { status := 1, windowOpen := true }
              ∧ ∀ p, ((t.chan c).port p).st ≠ .idle)
          ∧ (¬ on → t.chan c = s.chan c))

/-- The input voltage and the board's pins (19 R440, R444; 20 R461; 22 R486). Above 80 V the over-voltage mark is set and its count rises
once per episode, and above 100 V the machine is outside its absolute maximum; the mark goes at the episode's end and the alert 1 s
later. LOWV is set from the sag threshold to 64 V. Below 48 V the module is off. The board cap is 1,800 W less 80 W for each level, and
the effective cap the lower of the two; a level is not read before FNG[7:4] has shown 0xF, in the hold phase, or while the Mouthpiece's
firmware does not run. -/
def Obligations.InputVoltage : Prop :=
  ∀ (s : State),
    (∀ vin, 100000 < vin → exec (.ovEvent vin) s = .fault .absoluteMaximum)
    ∧ (∀ vin, vin ≤ 80000 ∨ vin ≤ 100000 ∧ s.pins.pwrGood = false → exec (.ovEvent vin) s = .next s)
    ∧ (∀ vin, 80000 < vin ∨ s.power.ov = false → exec (.ovEpisodeEnd vin) s = .next s)
    ∧ (∀ vin, s.pins.pwrGood = false → exec (.lowInput vin) s = .next s)
    ∧ (∀ vin, 80000 < vin → vin ≤ 100000 → s.pins.pwrGood = true →
      ∃ n, exec (.ovEvent vin) s = .next { s with power := { s.power with vin := vin, ov := true, ovEvents := n } }
        ∧ (s.power.ov = true → n = s.power.ovEvents) ∧ (s.power.ov = false → n = min (s.power.ovEvents + 1) 0xFFFF))
    ∧ (∀ vin, vin ≤ 80000 → s.power.ov = true →
      exec (.ovEpisodeEnd vin) s = .next { s with power := { s.power with vin := vin, ov := false, ovHold := true } })
    ∧ exec .ovAlertHoldEnd s = .next { s with power := { s.power with ovHold := false } }
    ∧ (∀ vin, s.pins.pwrGood = true →
      ∃ t, exec (.lowInput vin) s = .next t ∧ t = { s with power := { s.power with vin := vin, lowv := t.power.lowv } }
        ∧ (t.power.lowv = true ↔ s.mram.sagThreshold ≤ vin ∧ vin < 64000))
    ∧ (∀ vin, 48000 ≤ vin → exec (.powerOff vin) s = .next s)
    ∧ (∀ vin, vin < 48000 → s.pins.pwrGood = true →
      ∃ t, exec (.powerOff vin) s = .next t ∧ t.pins.pwrGood = false ∧ t.power.tripped = false ∧ t.meter = { s.meter with powered := false }
        ∧ t.mp.running = false ∧ t.mp.sessions = [] ∧ t.fuses = s.fuses ∧ (∀ c, t.chan c = {})
        ∧ t.mram = { s.mram with chan := t.mram.chan, holdup := t.mram.holdup }
        ∧ (s.power.lb = none → t.mram.holdup = s.mram.holdup)
        ∧ ∀ c, (t.store c).record = (s.store c).record ∧ (t.store c).epoch = (s.store c).epoch)
    ∧ (∀ vin, vin < 48000 → s.pins.pwrGood = false →
      ∃ t, exec (.powerOff vin) s = .next t ∧ t = { s with
        power := { s.power with tripped := false, vin := vin }, mram := { s.mram with holdup := t.mram.holdup } })
    ∧ (∀ level, s.pins.seenF = false ∨ s.mp.running = false ∨ s.awake = false ∨ s.pins.phase ≠ .run →
      exec (.boardCapLevel level) s = .next s)
    ∧ (∀ level : Fin 16, s.pins.seenF = true → s.mp.running = true → s.awake = true → s.pins.phase = .run →
      ∃ t, exec (.boardCapLevel level) s = .next t ∧ t = { s with power := { s.power with boardLevel := level.val } }
        ∧ t.cap = Nat.min s.power.swCap (1800 - 80 * level.val))

/-- A junction at 112 °C turns conversion off (22 R498): PWR_GOOD is deasserted, no Last Breath starts and nothing is saved or logged.
The input stage stays off until V_IN has fallen below 48 V; the boot that follows is a cold power-up, which discards writing and
provisional checkpoints. -/
def Obligations.ThermalTrip : Prop :=
  ∀ (s : State), (s.pins.pwrGood = false → exec .thermalTrip s = .next s) ∧ (s.pins.pwrGood = true →
    ∃ t, exec .thermalTrip s = .next t ∧ t.pins.pwrGood = false ∧ t.power.lb = s.power.lb ∧ t.mram.holdup = s.mram.holdup
      ∧ t.mram.mpRecord = s.mram.mpRecord ∧ (∀ c, (t.store c).record = (s.store c).record ∧ (t.chan c).err.log = {}) ∧ t.mp.log = {}
      ∧ t.fuses = s.fuses ∧ (∀ o, exec (.powerOn o) t = .next t) ∧ (∀ vin, 48000 ≤ vin → exec (.powerOff vin) t = .next t)
      ∧ ∀ vin o, vin < 48000 → ∃ u w, exec (.powerOff vin) t = .next u ∧ exec (.powerOn o) u = .next w ∧ w.pins.pwrGood = true
          ∧ u.defaulted w ∧ ∀ c, ∀ x ∈ (w.store c).ckpts, x.state ≠ 1 ∧ x.state ≠ 2)

/-- The cap bins and the thermal bins. A comparison above the effective cap less 20 W raises by one the cap bin of the running channel
with the highest power that is below bin 15 and has no change outstanding; the fiftieth in a row below the cap less 120 W lowers by one
the highest cap bin, that of the lowest channel on a tie; at most one cap bin moves; and CAP_UNMET tells that every running channel is at
bin 15 with the cap still exceeded (19 R445, R446). A thermal sample moves the channel's thermal bin by one, and THERM_N sets all to 15
(22 R497). Nothing else changes. A sleeping device, or for the cap one whose Mouthpiece firmware does not run, changes no bin. -/
def Obligations.BinControl : Prop :=
  ∀ (s : State),
    (∀ mw powers, s.mp.running = false ∨ s.awake = false → exec (.capCheck mw powers) s = .next s)
    ∧ (∀ mw (powers : List Nat), s.mp.running = true → s.awake = true →
      let runs := fun (c : ChanId) => (s.chan c).st = .run ∨ (s.chan c).st = .stopping
      let free := fun (c : ChanId) => runs c ∧ (s.chan c).bins.change = none ∧ (s.chan c).bins.now = s.effBin c
      let cap := fun (c : ChanId) => (s.chan c).bins.cap
      let up := fun (c : ChanId) => free c ∧ cap c < 15
      let down := fun (c : ChanId) => free c ∧ 0 < cap c
      ∃ t, exec (.capCheck mw powers) s = .next t
        ∧ t = { s with ch := t.ch, power := { s.power with input := mw, capUnmet := t.power.capUnmet, lowFor := t.power.lowFor } }
        ∧ (∀ c, t.chan c = { s.chan c with bins := { (s.chan c).bins with cap := (t.chan c).bins.cap } })
        ∧ (∀ c d, (t.chan c).bins.cap ≠ cap c → (t.chan d).bins.cap ≠ cap d → c = d)
        ∧ (1000 * s.cap < mw + 20000 → (∃ c, up c) →
            ∃ c, up c ∧ (∀ d, up d → powers.getD d.val 0 ≤ powers.getD c.val 0) ∧ (t.chan c).bins.cap = cap c + 1)
        ∧ (mw + 120000 < 1000 * s.cap → 49 ≤ s.power.lowFor → (∃ c, down c) →
            ∃ c, down c ∧ (∀ d, down d → cap d ≤ cap c) ∧ (∀ d, down d → d < c → cap d < cap c) ∧ (t.chan c).bins.cap = cap c - 1)
        ∧ (mw + 20000 ≤ 1000 * s.cap → s.power.lowFor < 49 ∨ 1000 * s.cap ≤ mw + 120000 → ∀ c, (t.chan c).bins.cap = cap c)
        ∧ (1000 * s.cap < mw + 20000 → (∀ c, ¬ up c) → ∀ c, (t.chan c).bins.cap = cap c)
        ∧ (mw + 120000 < 1000 * s.cap → (∀ c, ¬ down c) → ∀ c, (t.chan c).bins.cap = cap c)
        ∧ t.power.lowFor = (if mw + 120000 < 1000 * s.cap ∧ s.power.lowFor < 49 then s.power.lowFor + 1 else 0)
        ∧ (t.power.capUnmet = true ↔ (∃ c, runs c) ∧ (∀ c, runs c → (s.chan c).bins.now = 15) ∧ 1000 * s.cap < mw))
    ∧ (∀ c tj readouts, s.awake = false → exec (.thermalSample c tj readouts) s = .next s)
    ∧ (s.awake = false → exec (.thermN true) s = .next { s with pins := { s.pins with thermLow := true } })
    ∧ (∀ (c : ChanId) tj (readouts : List Nat), s.awake = true →
      let b := (s.chan c).bins
      let hot := 100 ≤ tj ∨ ∃ x ∈ readouts, 95 ≤ x
      let cool := tj < 97 ∧ ∀ x ∈ readouts, x < 92
      ∃ b', exec (.thermalSample c tj readouts) s = .next (s.setChan c { s.chan c with bins := b' })
        ∧ b' = { b with thermal := b'.thermal, sinceRise := b'.sinceRise, coolFor := b'.coolFor, sinceFall := b'.sinceFall }
        ∧ (s.pins.thermLow = true → b'.thermal = 15)
        ∧ (s.pins.thermLow = false →
          (hot → 100 ≤ b.sinceRise → b.thermal < 15 → b'.thermal = b.thermal + 1)
          ∧ (hot → b.sinceRise < 100 → b'.thermal = b.thermal)
          ∧ (cool → 999 ≤ b.coolFor → 1000 ≤ b.sinceFall → 0 < b.thermal → b'.thermal = b.thermal - 1)
          ∧ (¬ hot → ¬ cool → b'.thermal = b.thermal)))
    ∧ (exec (.thermN false) s = .next { s with pins := { s.pins with thermLow := false } })
    ∧ (s.awake = true → ∃ t, exec (.thermN true) s = .next t ∧ t = { s with ch := t.ch, pins := { s.pins with thermLow := true } }
        ∧ ∀ c, t.chan c = { s.chan c with bins := { (s.chan c).bins with thermal := 15, coolFor := 0 } })

/-! ### The sealed meter -/

/-- An interval of the meter (16 R387 to R390, R396): the input energy enters the legal total, each channel's energy its own register,
and the shared energy, which may be negative, is allocated in proportion with the residue to the largest, so that what is allocated sums
to it exactly; an open record takes the parts of its channel; a pulse is owed for each 360,000 mJ of the legal total, and one that is
owed starts when the output is high. The end of a pulse returns the output to high.
A crystal that stops closes the open records with STATE 3 at the meter's present values, after its CLOCK_FAULT event (16 R392, R395).
Nothing else of the machine changes but what subscribers are told, and an unpowered meter does none of this. -/
def Obligations.MeterIntervals : Prop :=
  ∀ (s : State),
    (s.meter.powered = true →
      (∀ (input : Nat) (ech : List Nat),
        let m := s.meter
        let e := fun (n : Nat) => if n < 4 then ech.getD n 0 else 0
        let tot := e 0 + e 1 + e 2 + e 3
        let shared : Int := (input : Int) - (tot : Int)
        let w := fun (n : Nat) => if tot = 0 then 1 else e n
        let div : Int := if tot = 0 then 4 else (tot : Int)
        ∃ m', exec (.meterInterval input ech) s = .next { s with meter := m' }
          ∧ (let part := fun (n : Nat) => if n < 4 then m'.regs.alloc.getD n 0 - m.regs.alloc.getD n 0 else 0
            m' = { m with regs := m'.regs, intervals := m.intervals + 1, records := m'.records, pulsesDue := m'.pulsesDue
                          pulseLow := m'.pulseLow }
            ∧ m'.regs.ein = m.regs.ein + input ∧ m'.regs.shared = m.regs.shared + shared
            ∧ (∀ n, n < 4 → m'.regs.meas.getD n 0 = m.regs.meas.getD n 0 + e n)
            ∧ part 0 + part 1 + part 2 + part 3 = shared
            ∧ (∀ big, big < 4 → (∀ n, n < 4 → w n ≤ w big) → (∀ n, n < big → w n < w big) →
                ∀ n, n < 4 → n ≠ big → part n = Int.fdiv (shared * (w n : Int)) div)
            ∧ m'.records = m.records.map (fun (r : JobRecord) =>
                if r.state = 0 then { r with meas := r.meas + e r.chan, alloc := r.alloc + part r.chan } else r)
            ∧ (let due := m.pulsesDue + (m'.regs.ein / 360000000 - m.regs.ein / 360000000)
              (m.pulseLow = true ∨ due = 0 → m'.pulseLow = m.pulseLow ∧ m'.pulsesDue = due)
              ∧ (m.pulseLow = false → due ≠ 0 → m'.pulseLow = true ∧ m'.pulsesDue + 1 = due))))
      ∧ exec .mtrPulseEnd s = .next { s with meter := { s.meter with pulseLow := false } }
      ∧ (s.meter.clockOk = true →
        ∃ t, exec .crystalStop s = .next t
          ∧ State.told { s with meter := { s.meter.event 0x0B 0 with
              clockOk := false, records := s.meter.records.map (fun (r : JobRecord) => if r.state = 0 then s.meter.close 3 r else r) } } t)
      ∧ (s.meter.clockOk = false → exec .crystalStop s = .next s))
    ∧ (s.meter.powered = false →
      (∀ input ech, exec (.meterInterval input ech) s = .next s) ∧ exec .mtrPulseEnd s = .next s ∧ exec .crystalStop s = .next s)

/-- The seals (16 R393, R394). The loop opens after 10 ms of high readings or 1 s of readings that are not low, closes after 10 ms of low
readings, takes its state at power-up from the first ten readings, and is otherwise unchanged; each change is logged and marks every
open record, and never moves the seal state. A broken wire sets seal state 2, is logged once and marks every open record, and stays. The
authority seals an unsealed meter once. An unpowered meter sees none of these.
The meter's link and its power-up. A poll by running firmware renews the mirror while the link is up (16 R385). A read-out reaches its
session, whose write is answered OK (16 R397, R398); one whose session has closed is dropped, and none arrives while the link is down or
the device holds up. At power-up of the device the power-up number rises and no record stays open: from the signed snapshot with
STATE 2, with STATE 3 when its signature fails, which is logged; a broken wire sets seal state 2 (16 R394, R401). -/
def Obligations.MeterSealsAndLink : Prop :=
  (∀ (s : State), s.meter.powered = true →
    let m := s.meter
    (∀ ohms,
      let low := decide (ohms ≤ 100)
      let high := decide (10000 < ohms)
      let m₁ : Meter := { m with
        highMs := if high then m.highMs + 1 else 0, nonLowMs := if low then 0 else m.nonLowMs + 1
        lowMs := if low then m.lowMs + 1 else 0, firstMs := min 10 (m.firstMs + 1)
        firstLow := if m.firstMs < 10 then m.firstLow && low else m.firstLow }
      let is := fun (loop : Bool) => if m.loopOpen = loop then exec (.sealLoopSample ohms) s = .next { s with meter := m₁ } else
        ∃ t, exec (.sealLoopSample ohms) s = .next t
          ∧ State.told { s with meter := Meter.event { m₁ with loopOpen := loop } (if loop then 3 else 4) 0 } t
      (m.firstMs < 9 → is m.loopOpen)
      ∧ (m.firstMs = 9 → is (!m₁.firstLow))
      ∧ (10 ≤ m.firstMs →
        (10000 < ohms → 9 ≤ m.highMs → is true)
        ∧ (100 < ohms → 999 ≤ m.nonLowMs → is true)
        ∧ (ohms ≤ 100 → 9 ≤ m.lowMs → is false)
        ∧ (100 < ohms → ohms ≤ 10000 ∨ m.highMs < 9 → m.nonLowMs < 999 → is m.loopOpen)
        ∧ (ohms ≤ 100 → m.lowMs < 9 → is m.loopOpen)))
    ∧ (m.sealSt = 2 → exec .sealBroken s = .next s)
    ∧ (m.sealSt ≠ 2 → ∃ t, exec .sealBroken s = .next t ∧ State.told { s with meter := Meter.event { m with sealSt := 2 } 5 0 } t)
    ∧ (m.sealSt = 0 → ∃ t, exec .sealed s = .next t ∧ State.told { s with meter := Meter.event { m.event 7 0 with sealSt := 1 } 6 0 } t)
    ∧ (m.sealSt ≠ 0 → exec .sealed s = .next s)
    ∧ (∀ code value, (3 ≤ code ∧ code ≤ 6 → (m.event code value).records =
          m.records.map (fun (r : JobRecord) => if r.state = 0 then { r with sealEvent := true } else r))
        ∧ (m.event code value).sealSt = m.sealSt ∧ (m.event code value).regs = m.regs
        ∧ ∃ e, (m.event code value).ring.getLast? = some e ∧ e.code = code ∧ e.value = value ∧ e.eseq = m.nextEseq ∧ e.pup = m.pup
          ∧ (3 ≤ code ∧ code ≤ 6 → m.seals.length < 64 → (m.event code value).seals = m.seals ++ [e])))
  ∧ (∀ (s : State), s.meter.powered = false →
    (∀ ohms, exec (.sealLoopSample ohms) s = .next s) ∧ exec .sealBroken s = .next s ∧ exec .sealed s = .next s)
  ∧ (∀ (s : State),
    (∀ up, s.mp.running = true →
      ∃ p, exec (.meterPoll up) s = .next { s with mp := p } ∧ p = { s.mp with meterLink := p.meterLink, mirror := p.mirror }
        ∧ (p.meterLink = true ↔ up = true ∧ s.meter.powered = true)
        ∧ (p.meterLink = true → p.mirror = s.meter) ∧ (p.meterLink = false → p.mirror = s.mp.mirror))
    ∧ (∀ up, s.mp.running = false → exec (.meterPoll up) s = .next s)
    ∧ (s.mp.meterLink = false ∨ s.mp.running = false ∨ s.power.lb.isSome = true ∨ s.meter.readouts = [] →
        exec .readoutComplete s = .next s)
    ∧ (∀ (r : Readout) rest, s.mp.meterLink = true → s.mp.running = true → s.power.lb = none → s.meter.readouts = r :: rest →
      let u : State := { s with meter := { s.meter with readouts := rest } }
      (s.session? r.session = none → exec .readoutComplete s = .next u)
      ∧ ((s.session? r.session).isSome = true →
        ∃ t, exec .readoutComplete s = .next t
          ∧ (u.modSession r.session (fun x => { x with readout := some (s.meter.readOut r.nonce r.filter) })).talked t
          ∧ (s.mp.host.up = true → s.replied t { session := r.session, txid := r.txid } r.op 0x9006 0 0 [])))
    ∧ (∀ wire good, s.meter.powered = true ∨ s.power.on = false → exec (.meterPowerUp wire good) s = .next s)
    ∧ (∀ wire good, s.meter.powered = false → s.power.on = true →
      let m := s.meter
      let bad := m.snap.isSome = true ∧ good = false
      ∃ t, exec (.meterPowerUp wire good) s = .next t ∧ State.told { s with meter := t.meter } t
        ∧ t.meter = { m with
            regs := t.meter.regs, records := t.meter.records, nextEseq := t.meter.nextEseq, ring := t.meter.ring, seals := t.meter.seals
            powered := true, pup := m.pup + 1, intervals := 0, decl := 0, readouts := [], clockOk := true, snap := none
            highMs := 0, nonLowMs := 0, lowMs := 0, firstMs := 0, firstLow := true, pulseLow := false
            sealSt := if wire then m.sealSt else 2 }
        ∧ (∀ x, m.snap = some x → good = true → t.meter.regs = x.regs)
        ∧ (m.snap = none ∨ good = false → t.meter.regs = m.regs)
        ∧ t.meter.records.length = m.records.length
        ∧ (∀ (i : Nat) (r r' : JobRecord), m.records[i]? = some r → t.meter.records[i]? = some r' →
            (r.state ≠ 0 → r' = r)
            ∧ (r.state = 0 → (bad → r'.state = 3) ∧ (¬ bad → r'.state = 2) ∧ r'.einClose = t.meter.total
              ∧ (∀ x y, m.snap = some x → good = true → x.opens.find? (fun (y : JobRecord) => y.rseq == r.rseq) = some y →
                  r'.meas = y.meas ∧ r'.alloc = y.alloc)
              ∧ (m.snap = none ∨ good = false → r'.meas = r.meas ∧ r'.alloc = r.alloc)))
        ∧ (∃ e : MeterEvent, e ∈ t.meter.ring ∧ e.code = 1 ∧ e.pup = m.pup + 1)
        ∧ (bad → ∃ e : MeterEvent, e ∈ t.meter.ring ∧ e.code = 0x0C ∧ e.pup = m.pup + 1)
        ∧ (wire = false → m.sealSt ≠ 2 → ∃ e : MeterEvent, e ∈ t.meter.ring ∧ e.code = 5 ∧ e.pup = m.pup + 1)))
/-! ### The host port -/

/-- Frames at the host port and its link (13 R332 to R334, R502; 20 R465, R466). A frame of a channel to another endpoint of the device
is dropped and counted for that channel, and any other frame of a channel is sent. A frame received is counted, and is a pause frame, a
congestion notification, a frame for no endpoint, or one for an endpoint: that one enters the endpoint's receive buffer, from which what
has been taken meanwhile is gone, unless the buffer is full, when it is dropped and counted for the endpoint. A datagram that the
Mouthpiece endpoint has taken is served, in INIT at the cost of a token, and dropped and counted while there is none. A pause frame goes
out when the ingress of the channels that run passes three quarters of 16 MiB. A counter saturates, and counting one moves no other.
While the device cannot send, nothing comes in.
When the link goes down every target is disconnected and its queue pair is free, a checkpoint being written fails on each of its targets,
as CHECKPOINT_TARGET_FAIL says, and nothing else changes: training goes on (13 R348). When the link comes up the lanes that lock are
shown; it does not come up while the device is asleep (20 R462). A connection request takes a queue pair of the channel's pool, and is
counted and refused until the channel is READY. -/
def Obligations.HostFrames : Prop :=
  (∀ (h : HostPort) (i n : Nat), i < h.cnt.length →
    h.count i n = { h with cnt := (h.count i n).cnt } ∧ (h.count i n).cnt.getD i 0 = Nat.min (h.cnt.getD i 0 + n) 0xFFFFFFFFFFFFFFFF
      ∧ ∀ j, j ≠ i → (h.count i n).cnt.getD j 0 = h.cnt.getD j 0)
  ∧ (∀ s : State,
    let full := 12582912 < s.ingress ∧ s.mram.pfc ≠ 0
    (full → s.mp.host.pausing = true → s.pause = s)
    ∧ (full → s.mp.host.pausing = false →
      s.pause = { s with mp := { s.mp with host := { (s.mp.host.count 8 1).count 0 1 with pausing := true } } })
    ∧ (¬ full → s.pause = { s with mp := { s.mp with host := { s.mp.host with pausing := false } } })
    ∧ ((∀ c, (s.chan c).st = .halted ∨ (s.chan c).st = .init ∨ (s.chan c).st = .holdup ∨ (s.chan c).ww.hold.isSome = true) →
        s.ingress = s.mp.host.fill.getD 0 0))
  ∧ (∀ s : State, s.canSend = false → (∀ f, exec (.hostFrameReceive f) s = .next s) ∧ ∀ c, exec (.cmRequest c) s = .next s)
  ∧ (∀ s : State, s.canSend = true →
    (∀ f, ∃ u₀ : State, u₀ = { s with mp := { s.mp with host := { s.mp.host with fill := u₀.mp.host.fill } } }
      ∧ (∀ e, u₀.mp.host.fill.getD e 0 = s.mp.host.fill.getD e 0 - f.drained.getD e 0)
      ∧ (let u := u₀.pause
        let counted := fun (v : State) (i : Nat) => ({ v with mp := { v.mp with host := v.mp.host.count i 1 } } : State)
        let v := counted u 1
        let goes := fun (t : State) => exec (.hostFrameReceive f) s = .next t
        (∀ c, f.src = some c →
          ((c < 4 ∧ ∃ e, f.dst = some e ∧ e ≤ 4 ∧ e ≠ c + 1) → goes (counted u (4 + c)))
          ∧ (¬ (c < 4 ∧ ∃ e, f.dst = some e ∧ e ≤ 4 ∧ e ≠ c + 1) → goes (counted u 0)))
        ∧ (f.src = none → f.pause = true → goes (counted v 9))
        ∧ (f.src = none → f.pause = false → f.cnp = true → goes (counted v 11))
        ∧ (f.src = none → f.pause = false → f.cnp = false → (f.dst = none ∨ ∃ e, f.dst = some e ∧ 4 < e) → goes (counted v 2))
        ∧ ∀ e, f.src = none → f.pause = false → f.cnp = false → f.dst = some e → e ≤ 4 →
          let held := u.mp.host.fill.getD e 0
          (4194304 < held + f.len → goes (counted v (3 + e)))
          ∧ (held + f.len ≤ 4194304 → ∃ w₀ : State,
            w₀ = { v with mp := { v.mp with host := { v.mp.host with fill := w₀.mp.host.fill } } }
            ∧ w₀.mp.host.fill = v.mp.host.fill.set e (held + f.len)
            ∧ (let w := w₀.pause
              (e ≠ 0 ∨ f.dgram = none → goes w)
              ∧ ∀ b, e = 0 → f.dgram = some b →
                (s.dev ≠ 0 → exec (.hostFrameReceive f) s = w.datagram b)
                ∧ (s.dev = 0 →
                  let bucket := Nat.min 256000000 (s.pins.bucket + 4096 * (f.now - s.pins.bucketAt))
                  let p := { s.pins with bucketAt := Nat.max f.now s.pins.bucketAt }
                  (bucket < 1000000 → goes { w with pins := { p with
                    bucket := bucket, initDrops := Nat.min (s.pins.initDrops + 1) 0xFFFFFFFF } })
                  ∧ (1000000 ≤ bucket → exec (.hostFrameReceive f) s
                      = ({ w with pins := { p with bucket := bucket - 1000000 } } : State).datagram b))))))
    ∧ ∀ c,
      let k := s.chan c
      ((k.st = .init ∨ k.st = .halted) → exec (.cmRequest c) s
        = .next { s with mp := { s.mp with host := s.mp.host.count (12 + c.val) 1 } })
      ∧ (k.st ≠ .init → k.st ≠ .halted → k.svc.qps < s.mp.host.pools.getD c.val 0 →
          exec (.cmRequest c) s = .next (s.setChan c { k with svc := { k.svc with qps := k.svc.qps + 1 } }))
      ∧ (k.st ≠ .init → k.st ≠ .halted → s.mp.host.pools.getD c.val 0 ≤ k.svc.qps → exec (.cmRequest c) s = .next s))
  ∧ ∀ s : State,
    (s.mp.host.up = false → exec .hostLinkDown s = .next s)
    ∧ (s.mp.host.up = true →
      let down := fun (h : HostPort) => { h with up := false, lanes := 0 }
      exec .hostLinkDown s = .next (chans.foldl State.loseTargets { s with mp := { s.mp with host := down s.mp.host } })
      ∧ ((∀ c, (s.chan c).svc.ckpt = none) → ∃ t, exec .hostLinkDown s = .next t
          ∧ t = { s with ch := t.ch, mp := { s.mp with host := down s.mp.host } }
          ∧ ∀ c, t.chan c = { s.chan c with svc := { (s.chan c).svc with
              targets := (s.chan c).svc.targets.map (fun (g : Target) => { g with connected := false })
              qps := (s.chan c).svc.qps - ((s.chan c).svc.targets.filter (fun (g : Target) => g.connected)).length } }))
    ∧ (∀ c r, (s.chan c).svc.ckpt = some r →
        s.loseTargets c = (let u := r.targets.foldl (fun (u : State) g => u.targetFail c g) s
          u.setChan c { u.chan c with svc := { (u.chan c).svc with
            targets := (u.chan c).svc.targets.map (fun (g : Target) => { g with connected := false })
            qps := (u.chan c).svc.qps - ((u.chan c).svc.targets.filter (fun (g : Target) => g.connected)).length } })
        ∧ ∀ g : Fin 4, exec (.checkpointTargetFail c g) s = .next (s.targetFail c g.val))
    ∧ (∀ lanes, s.awake = true →
        exec (.hostLinkUp lanes) s = .next { s with mp := { s.mp with host := { s.mp.host with up := true, lanes := lanes % 256 } } })
    ∧ ∀ lanes, s.awake = false → exec (.hostLinkUp lanes) s = .next s

/-- Writes by host peers. Outside confidential mode a write to mapped pages of space 0 writes its bytes and no other; class W pages of a
bound job are open only inside the weight load window, and another write to them is refused, flagged and logged as MEAS_REFUSED
(15 R379); a write to pages that are not mapped is an address fault (09 R231). In confidential mode a plain write is refused, counted and
logged as CONF_REFUSED, and so is a record that is not valid; a record with a good tag and a rising sequence number reaches its buffer
and no other (13 R344, R346). Nothing arrives while the port is down or the channel is in INIT or HALTED. -/
def Obligations.HostWrites : Prop :=
  ∀ (s : State) (c : ChanId),
    let k := s.chan c
    let shut := s.mp.running = false ∨ s.mp.host.up = false ∨ s.awake = false ∨ k.st = .init ∨ k.st = .halted
    let refused := fun (i : Instr) (cause : Cause) (k' : Channel) => ∃ (t : State) (e : ErrEntry), exec i s = .next t
      ∧ State.told { s.setChan c { k' with err := { k.err with log := (t.chan c).err.log } } with freeCtr := t.freeCtr } t
      ∧ (t.chan c).err.log.ring.getLast? = some e ∧ e.cause = cause ∧ e.cls = .S
    (shut → (∀ addr data, exec (.hostRdmaWrite c addr data) s = .next s) ∧ ∀ record, exec (.bounceRecordReceive c record) s = .next s)
    ∧ (∀ addr, exec (.hostRdmaWrite c addr []) s = .next s)
    ∧ (s.mram.conf = false → ∀ record, exec (.bounceRecordReceive c record) s = .next s)
    ∧ (¬ shut → ∀ addr (data : List Byte), data ≠ [] →
      let n := data.length
      let i := Instr.hostRdmaWrite c addr data
      let window := k.meas.winState = 1 ∧ k.meas.winAddr ≤ addr ∧ addr + n ≤ k.meas.winAddr + k.meas.winLen
      let closed := k.bind.bound = true ∧ k.mem.touchesW addr n = true ∧ ¬ window
      (s.mram.conf = false → ¬ closed → k.mem.mapped true 0 addr n = true → k.mem.sound →
        ∃ m', exec i s = .next (s.setChan c { k with mem := m' }) ∧ k.mem.wrote m' 0 addr data)
      ∧ (s.mram.conf = false → ¬ closed → k.mem.mapped true 0 addr n = false →
        ∃ e, exec i s = .next (s.setChan c
            { k with mem := { k.mem with cnt := { k.mem.cnt with addrFault := Nat.min (k.mem.cnt.addrFault + 1) 0xFFFFFFFF } }
                     err := k.err.push e })
          ∧ e.cause = .addrFault ∧ e.cls = .S ∧ e.detail = addr / 2097152)
      ∧ (s.mram.conf = false → closed → refused i .measRefused { k with meas := { k.meas with refused := true } })
      ∧ (s.mram.conf = true → refused i .confRefused { k with svc := { k.svc with bounceRefused := k.svc.bounceRefused + 1 } }))
    ∧ (¬ shut → s.mram.conf = true → ∀ record : List Byte,
      let seq := fieldLe record 0 8
      let len := fieldLe record 8 4
      let index := fieldLe record 12 4
      let body := (record.drop 16).take (record.length - 32)
      let tag := record.drop (record.length - 16)
      let good := fun (d : List Byte) => 32 ≤ record.length ∧ len = body.length ∧ len ≤ 1048576 ∧ (∀ m, k.svc.bounceSeq = some m → m < seq)
        ∧ ∃ keys, k.svc.bounceKeys = some keys
          ∧ Hash.gcmOpen keys.1 (List.replicate 4 0#8 ++ leBytes 8 seq) (record.take 16) body tag = some d
      (∀ d, good d →
        ∃ v, exec (.bounceRecordReceive c record) s = .next (s.setChan c { k with svc := v })
          ∧ v = { k.svc with bounceSeq := some seq, bounce := v.bounce } ∧ SMap.get [] v.bounce index = d
          ∧ ∀ i, i ≠ index → SMap.get [] v.bounce i = SMap.get [] k.svc.bounce i)
      ∧ ((∀ d, ¬ good d) → refused (.bounceRecordReceive c record) .confRefused
          { k with svc := { k.svc with bounceRefused := k.svc.bounceRefused + 1 } }))
/-! ### The Windway -/

/-- A beat test. At a boundary that is due, pending shadows take effect, written lines leave the write-combining buffer, and the Windway
stands at beat 0 of the phrase, or is STOPPING when the phrase that has ended is the stop index (07 R177, R188; 09 R249). A beat whose
entries miss nothing issues: pending scalar writes take effect, the beat count rises by one, a step that begins keeps the version state
and takes the scalar token back, and each entry that a mover works on is in flight on its unit with the token it produces (06 R142;
07 R166, R167; 08 R215). A beat that misses something launches nothing: it is one held beat, and at its first test one hold event, under
the lowest cause that is missing; when the hold in progress waits only for scalar tokens, pending scalar writes take effect (07 R171,
R173, R175). Outside RUN and a resume the command does nothing. -/
def Obligations.BeatTests : Prop :=
  ∀ (s : State) (c : ChanId) (o : BeatObs),
    (s.mayTest c = false → exec (.beatTest c o) s = .next s)
    ∧ (s.mayTest c = true →
      let u := s.beatState c o
      let k := u.chan c
      (let k0 := s.chan c
        let ended := k0.phrase.len ≤ k0.ww.beat
        k0.ww.boundaryDue = true →
          k.live = k0.shadow ∧ k.mem.wcb = [] ∧ k.ww.beat = 0 ∧ k.ww.boundaryDue = false
          ∧ (ended → k.ww.phrase = k0.phrase.next) ∧ (¬ ended → k.ww.phrase = k0.ww.phrase)
          ∧ (ended → k0.ww.stopAt = k0.ww.phrase ∨ k0.ww.stopAt = 0xFFFE → k.st = .stopping)
          ∧ (¬ ended ∨ (k0.ww.stopAt ≠ k0.ww.phrase ∧ k0.ww.stopAt ≠ 0xFFFE) → k.st = k0.st))
      ∧ (u.mayTest c = false → exec (.beatTest c o) s = .next u)
      ∧ (u.mayTest c = true →
        (k.missing o.starved = [] →
          ∃ t, exec (.beatTest c o) s = .next t ∧ t = u.issue c ∧ (∀ d, d ≠ c → t.chan d = u.chan d)
            ∧ (t.chan c).ww.beats = (k.ww.beats + 1) % 2 ^ 64 ∧ (t.chan c).ww.held = k.ww.held
            ∧ ((∀ x ∈ k.beatEntries, x.2.action ≠ 8 ∧ x.2.action ≠ 9 ∧ x.2.action ≠ 0x0A) →
                (t.chan c).ww.hold = none ∧ (t.chan c).ww.beat = k.ww.beat + 1 ∧ (t.chan c).scalarQ = []
                ∧ ((t.chan c).ww.boundaryDue = true ↔ k.phrase.len ≤ k.ww.beat + 1)
                ∧ (k.ww.beat = 0 → k.phrase.stepStart = true → (t.chan c).st = .run ∧ (t.chan c).resume = false
                  ∧ (t.chan c).verSnap = some k.ver ∧ (t.chan c).scalarTok = false ∧ (t.chan c).ww.stepPhrase = k.ww.phrase)
                ∧ (k.st = .run ∨ (k.ww.beat = 0 ∧ k.phrase.stepStart = true) → ∀ x ∈ k.beatEntries, 3 ≤ x.2.action → x.2.action ≤ 6 →
                    ∃ f ∈ (t.chan c).flights, f.entry = x.1 ∧ f.unit = x.2.unit ∧ f.token = x.2.sets)))
        ∧ (k.missing o.starved ≠ [] →
          ∃ w h, h ∈ k.missing o.starved ∧ (∀ g ∈ k.missing o.starved, HoldCause.code h ≤ HoldCause.code g)
            ∧ (let scalarOnly := k.ww.hold.isSome = true ∧ ∀ g ∈ k.missing o.starved, g = .scalar
              (scalarOnly → exec (.beatTest c o) s = .next (u.setChan c { k.applyScalars with ww := w }))
              ∧ (¬ scalarOnly → exec (.beatTest c o) s = .next (u.setChan c { k with ww := w })))
            ∧ w = { k.ww with held := Nat.min (k.ww.held + 1) 0xFFFFFFFFFFFFFFFF, hold := some h
                              causeBeats := w.causeBeats, causeEvents := w.causeEvents }
            ∧ (k.ww.causeBeats.length = 8 → k.ww.causeEvents.length = 8 → ∀ i,
                w.causeBeats.getD i 0 =
                  (if i = HoldCause.code h then Nat.min (k.ww.causeBeats.getD i 0 + 1) 0xFFFFFFFFFFFFFFFF else k.ww.causeBeats.getD i 0)
                ∧ w.causeEvents.getD i 0 =
                  (if i = HoldCause.code h ∧ k.ww.hold = none then Nat.min (k.ww.causeEvents.getD i 0 + 1) 0xFFFFFFFF
                   else k.ww.causeEvents.getD i 0)))))

/-- Other events of a channel's Windway. The end of a score check accepts the image, which makes the channel LOADED and locks its pages,
or leaves the code of the first violation in LOAD, logs it and keeps the old score; one that a halt or a sag has overtaken leaves
nothing (07 R185, R186; 09 R234; 17 R408). A stop is complete once no action is in flight (07 R188). A hold watchdog that runs out, be
it on beat 0 of a resume, is a class S error, which ends the step: it is made again from its STEP_START phrase (07 R174; 11 R311). A
bin change takes effect (01 R21), and a crossing with room again stalls no source (01 R24). -/
def Obligations.WindwayEvents : Prop :=
  ∀ (s : State) (c : ChanId),
    let k := s.chan c
    (k.loading = none → exec (.scoreCheckDone c) s = .next s)
    ∧ (∀ addr len, k.loading = some (addr, len) → k.st ≠ .ready → k.st ≠ .loaded →
        exec (.scoreCheckDone c) s = .next (s.setChan c { k with load := 0, loading := none }))
    ∧ (∀ addr len, k.loading = some (addr, len) → k.st = .ready ∨ k.st = .loaded → s.power.lb = none →
      let outside := len ≠ 0 ∧ (logicalPages * pageBytes < addr + len ∨ k.mem.inClass 2 addr len = false)
      let image := (k.mem.load 0 addr len).1
      let held := fun (k' : Channel) => k'.mem.dram = k.mem.dram ∧ k'.mem.wcb = k.mem.wcb ∧ k'.mem.chest = k.mem.chest
      let refused := fun (code : Nat) => ∃ (k' : Channel) (t : State), exec (.scoreCheckDone c) s = .next t
        ∧ k' = { k with mem := k'.mem, err := k'.err } ∧ held k' ∧ t = (s.setChan c k').refuseScore c code
        ∧ (k.inStep = false →
          State.told { s.setChan c { k' with load := code, loading := none, err := (t.chan c).err } with freeCtr := t.freeCtr } t
          ∧ ∃ e : ErrEntry, (t.chan c).err.log.ring.getLast? = some e ∧ e.cause = .scoreRefused ∧ e.cls = .S ∧ e.detail = code)
      (outside → refused 0x19)
      ∧ (¬ outside → image.bad = false → ∀ code, code < 256 →
          Score.check image.bytes { job := k.bind.job, active := k.active } addr len = .inl code → refused code)
      ∧ (¬ outside → image.bad = true → ∃ t, exec (.scoreCheckDone c) s = .next t ∧ s.aroundChan c { t with freeCtr := s.freeCtr }
          ∧ (t.chan c).st = .halted ∧ (t.chan c).loading = none ∧ (t.chan c).score = k.score)
      ∧ (¬ outside → image.bad = false → ∀ x,
          Score.check image.bytes { job := k.bind.job, active := k.active } addr len = .inr x → k.svc.restart = none →
          ∃ k', exec (.scoreCheckDone c) s = .next (s.setChan c (k'.acceptScore x)) ∧ k' = { k with mem := k'.mem, err := k'.err } ∧ held k'
            ∧ (let a := k'.acceptScore x
              a.st = .loaded ∧ a.load = 2 ∧ a.loading = none ∧ a.score = some x ∧ a.tokens = [] ∧ a.scalarTok = false ∧ a.ww.phrase = 0
              ∧ (x.length ≠ 0 → ∀ p, x.addr / pageBytes ≤ p → p ≤ (x.addr + x.length - 1) / pageBytes →
                (SMap.get {} a.mem.pages p).lock = true))))
    ∧ (k.st = .stopping → k.flights = [] →
      ∃ t, exec (.stopComplete c) s = .next t ∧ s.aroundChan c { t with freeCtr := s.freeCtr } ∧ (t.chan c).st = .loaded
        ∧ (t.chan c).ww = { k.ww with stopAt := 0xFFFF, hold := none } ∧ (t.chan c).score = k.score ∧ (t.chan c).tokens = k.tokens
        ∧ (t.chan c).live = k.live ∧ (t.chan c).mem = k.mem)
    ∧ (k.st ≠ .stopping ∨ k.flights ≠ [] → exec (.stopComplete c) s = .next s)
    ∧ (let holding := k.ww.hold.isSome = true ∧ (k.st = .run ∨ (k.st = .loaded ∧ k.resume = true))
      (¬ holding → exec (.holdTimeout c) s = .next s)
      ∧ (holding → exec (.holdTimeout c) s = .next (s.firmwareError c .holdTimeout .S 7 0 anyDetail))
      ∧ (holding → (k.st = .run ∨ k.ww.resumed = true) → s.power.lb = none → k.attempt + 1 < k.coll.repeats →
        ∃ t, exec (.holdTimeout c) s = .next t ∧ s.aroundChan c { t with freeCtr := s.freeCtr } ∧ (t.chan c).st = k.st
          ∧ (t.chan c).attempt = k.attempt + 1 ∧ (t.chan c).ww.phrase = k.ww.stepPhrase ∧ (t.chan c).ww.beat = 0
          ∧ (t.chan c).ww.boundaryDue = true ∧ (t.chan c).ww.hold = none ∧ (t.chan c).flights = []
          ∧ (∀ n, ((t.chan c).token n).set = false) ∧ (t.chan c).mem = k.mem
          ∧ (∀ v, k.verSnap = some v → (t.chan c).ver = { v with ckref0 := (t.chan c).ver.ckref0, ckref1 := (t.chan c).ver.ckref1 })
          ∧ ∃ e ∈ (t.chan c).err.log.ring, e.cause = .holdTimeout ∧ e.cls = .S))
    ∧ (k.bins.change = none → exec (.aclkBinChangeDone c) s = .next s)
    ∧ (∀ b, k.bins.change = some b →
      ∃ x, exec (.aclkBinChangeDone c) s = .next (s.setChan c { k with bins := { k.bins with now := b, change := x } })
        ∧ (k.running = true ∨ k.st = .init ∨ b = s.effBin c → x = none)
        ∧ (k.running = false → k.st ≠ .init → b ≠ s.effBin c → x = some (s.effBin c)))
    ∧ ∀ n, ∃ l, exec (.crossingFifoSpace c n) s = .next (s.setChan c { k with stalls := l }) ∧ l = k.stalls.filter (fun x => x.1 ≠ n)
/-! ### Tiles -/

/-- Extra passes of a tile. An overflow with retries left recomputes the tile with the exponent of the overflowing slabs raised by 4, and
counts it (03 R73). The underflow pass waits for the other output slot, keeps the first pass, and lowers the exponent of the slabs with
an all-underflow block by 4 (03 R74). The first checksum mismatch recomputes the tile and the second also marks the Reed suspect and puts
it at the head of the Étude queue; the third poisons the tile, is class S, and asks for the Reed's slot to be given away at the next
boundary (03 R79, R84, R85). A version reload ends with the pass made again, and so does the recovery of chords, unless it fails or a
ninth pass would follow, which is class S; bits disturbed while the recovery ran are met by what follows (03 R86 to R88). Every recompute is the same tile at the same predicted exponent, and leaves
ports, score, memories and other Reeds alone. A command that finds no tile in the state it speaks of does nothing. -/
def Obligations.TilePasses : Prop :=
  ∀ (s : State) (c : ChanId) (r : ReedId),
    let k := s.chan c
    let up := fun (n : Nat) => Nat.min (n + 1) 0xFFFFFFFF
    (k.tileIn r .running = none → exec (.overflowRetry c r) s = .next s ∧ exec (.checksumMismatch c r) s = .next s)
    ∧ (k.tileIn r .slotWait = none → exec (.underflowPass c r) s = .next s)
    ∧ (k.tileIn r .versionReload = none → exec (.versionReloadDone c r) s = .next s)
    ∧ (∀ us : List Upset,
      let ends := fun (t : State) => exec (.chordReloadDone c r us) s = .next t
      (k.tileIn r .chordReload = none → ends (s.setChan c (k.disturbed us)))
      ∧ ∀ t : TileRun, (k.reed r).tile = some t → t.phase = .chordReload →
        (∀ e, k.recoverAll r 0 r.val t.redo = .error e → ends (s.setChan c ((k.disturbed us).failTile r e)) ∧ e.cls = .S)
        ∧ ∀ k', k.recoverAll r 0 r.val t.redo = .ok k' →
          (8 ≤ t.passes → ends (s.setChan c ((k.disturbed us).failTile r ((t.redo.headD {}).failure 0 r.val))))
          ∧ (t.passes < 8 → ∃ u, ends u ∧ s.onlyChan c u ∧ (k'.disturbed us).passFrame r (u.chan c)
              ∧ ∀ t₁, ((k'.disturbed us).reed r).tile = some t₁ → ∃ t', ((u.chan c).reed r).tile = some t' ∧ t₁.again t'
                ∧ t'.redone = t₁.redone ++ t₁.redo ∧ (t'.parRecovered = (t₁.parRecovered || t₁.redo.any Redo.parity))))
    ∧ ∀ t : TileRun, (k.reed r).tile = some t →
      let retries := t.set.strict = false ∧ t.kind ≠ .underflow ∧ t.ovfRc < t.set.retries ∧ t.desc.prod ≠ 3
      (∀ g slabs, t.phase = .running → retries → t.cur.pass.ovf = some (g, slabs) →
        ∃ u t', exec (.overflowRetry c r) s = .next u ∧ s.onlyChan c u ∧ k.passFrame r (u.chan c)
          ∧ ((u.chan c).reed r).tile = some t' ∧ t.again t' ∧ t'.ovfRc = t.ovfRc + 1 ∧ t'.kind = .overflow
          ∧ t'.ps.length = t.ps.length ∧ (∀ i, i < t.ps.length → t'.ps.getD i 0 = t.ps.getD i 0 + (if i ∈ slabs then 4 else 0))
          ∧ ((u.chan c).reed r).cnt.recompOvf = up (k.reed r).cnt.recompOvf)
      ∧ (t.phase = .running → ¬ retries ∨ t.cur.pass.ovf = none → exec (.overflowRetry c r) s = .next s)
      ∧ (t.phase = .slotWait → (k.reed r).slots = [] → (k.reed r).waiting = none →
        ∃ u t', exec (.underflowPass c r) s = .next u ∧ s.onlyChan c u ∧ k.passFrame r (u.chan c)
          ∧ ((u.chan c).reed r).tile = some t' ∧ t.again t' ∧ t'.uzDone = true ∧ t'.kind = .underflow ∧ t'.firstPass = some t.cur
          ∧ (∀ i, i < t.ps.length → t'.ps.getD i 0 = t.ps.getD i 0 - (if i ∈ t.cur.out.uzSlabs then 4 else 0))
          ∧ ((u.chan c).reed r).cnt.recompUz = up (k.reed r).cnt.recompUz)
      ∧ ((k.reed r).slots ≠ [] ∨ (k.reed r).waiting ≠ none → exec (.underflowPass c r) s = .next s)
      ∧ (t.phase = .running → t.chkRc = 0 →
        ∃ u t', exec (.checksumMismatch c r) s = .next u ∧ s.onlyChan c u ∧ k.passFrame r (u.chan c)
          ∧ ((u.chan c).reed r).tile = some t' ∧ t.again t' ∧ t'.chkRc = 1 ∧ (t'.ps = t.ps ∨ t'.ovfRc = t.ovfRc + 1)
          ∧ ((u.chan c).reed r).cnt.chkMismatch = up (k.reed r).cnt.chkMismatch ∧ (u.chan c).wroteErr 0 r.val .chkMismatch .D)
      ∧ (t.phase = .running → t.chkRc = 1 → (s.store c).health.length = 68 →
        ∃ u t', exec (.checksumMismatch c r) s = .next u ∧ s.aroundChan c { u with freeCtr := s.freeCtr }
          ∧ u.mp = s.mp ∧ u.meter = s.meter ∧ u.dev = s.dev ∧ k.passFrame r (u.chan c)
          ∧ ((u.chan c).reed r).tile = some t' ∧ t.again t' ∧ t'.chkRc = 2 ∧ t'.suspect = true ∧ (t'.ps = t.ps ∨ t'.ovfRc = t.ovfRc + 1)
          ∧ (∀ q, u.health c q = if q = r.val then { s.health c q with state := 1 } else s.health c q)
          ∧ (u.chan c).etude.queue = r.val :: k.etude.queue.filter (fun q => q != r.val)
          ∧ ((u.chan c).reed r).cnt.chkMismatch = up (k.reed r).cnt.chkMismatch ∧ (u.chan c).wroteErr 0 r.val .chkSuspect .D)
      ∧ (t.phase = .running → 2 ≤ t.chkRc →
        ∃ u, exec (.checksumMismatch c r) s = .next u ∧ s.onlyChan c u ∧ k.passFrame r (u.chan c) ∧ (u.chan c).mem = k.mem
          ∧ ((u.chan c).reed r).tile = some { t with poisonAll := true, phase := .clean }
          ∧ (u.chan c).etude = { k.etude with replace := k.etude.replace ++ [r.val] }
          ∧ ((u.chan c).reed r).cnt.chkMismatch = up (k.reed r).cnt.chkMismatch ∧ (u.chan c).wroteErr 0 r.val .chkFail .S)
      ∧ (t.phase = .versionReload →
        ∃ u t', exec (.versionReloadDone c r) s = .next u ∧ s.onlyChan c u ∧ (u.chan c).score = k.score ∧ (u.chan c).ports = k.ports
          ∧ ((u.chan c).reed r).tile = some t' ∧ t'.versionRetry = 1 ∧ t'.phase ≠ .versionReload
          ∧ t'.desc = t.desc ∧ t'.entry = t.entry ∧ t'.set = t.set ∧ t'.p = t.p ∧ t'.passes = t.passes)
      ∧ ∀ e, ((k.failTile r e).reed r).tile = some { t with phase := .failed }
        ∧ (k.failTile r e).wroteErr 0 r.val e.cause e.cls

/-- The end of a pass and the release of a tile. A pass that has run to its end with no retry due is made again when an accumulator has a
parity error, class D, once, and is then class S (03 R86); else it makes a ladder pass when an operand may climb, waits for a slot when
more than 512 blocks underflowed, and otherwise leaves the tile clean; a climb that a ceiling refuses is counted and logged as
LADDER_CAP; an underflow pass that overflowed gives the first pass back (03 R64, R74, R80; 04 R113; 05 R126). A released tile leaves its
slot of the output buffer free: its chords, all poisoned after a third checksum mismatch, go to the Valve's slot, to the SRAM of its Reed
or to the wind chest, and no other byte of these changes; its status word says what happened to it and is kept with its identity, its
token is set, and no other Reed changes (03 R76, R85, R92). -/
def Obligations.TileEnds : Prop :=
  ∀ (s : State) (c : ChanId) (r : ReedId),
    let k := s.chan c
    (k.tileIn r .running = none → exec (.tilePassEnd c r) s = .next s)
    ∧ (∀ t : TileRun, (k.reed r).tile = some t → t.phase = .running →
      let done := fun (t' : TileRun) => { t' with parityRetry := false }
      let reedIs := fun (u : State) (t' : TileRun) => (u.chan c).reed r = { k.reed r with tile := some (done t') }
      (t.retrySlabs ≠ none → exec (.tilePassEnd c r) s = .next s)
      ∧ (t.retrySlabs = none → t.accParity = true →
        ∃ u t', exec (.tilePassEnd c r) s = .next u ∧ s.onlyChan c u ∧ k.passFrame r (u.chan c) ∧ ((u.chan c).reed r).tile = some t'
          ∧ ((u.chan c).reed r).cnt.parErr = Nat.min ((k.reed r).cnt.parErr + 1) 0xFFFFFFFF
          ∧ (t.parityRetry = true ∨ 8 ≤ t.passes → t' = { t with phase := .failed } ∧ (u.chan c).wroteErr 0 r.val .parity .S)
          ∧ (t.parityRetry = false → t.passes < 8 → t.again t' ∧ t'.ps = t.ps ∧ t'.parityRetry = true ∧ t'.parRecovered = true
              ∧ (u.chan c).wroteErr 0 r.val .parity .D))
      ∧ (t.retrySlabs = none → t.accParity = false → t.kind = .underflow →
        ∃ u, exec (.tilePassEnd c r) s = .next u ∧ u = s.setChan c { k with reeds := (u.chan c).reeds }
          ∧ (∀ q, q ≠ r → (u.chan c).reed q = k.reed q)
          ∧ (∀ f, t.cur.pass.ovf.isSome = true → t.firstPass = some f →
              reedIs u { t with cur := f, ps := f.ps, phase := .clean, firstPass := none })
          ∧ (t.cur.pass.ovf = none ∨ t.firstPass = none → reedIs u { t with uzKept := true, phase := .clean, firstPass := none }))
      ∧ (t.retrySlabs = none → t.accParity = false → t.kind ≠ .underflow →
        let may := t.set.strict = false ∧ t.ladder = false
        let up := t.ladderOf (fun o => Score.fmtOf (k.tensor o.tensor).layout)
        let climbs := may ∧ (up.1 = true ∨ up.2.1 = true)
        let under := may ∧ 512 < t.cur.out.uzBlocks ∧ t.ovfRc = 0 ∧ t.uzDone = false
        ∃ u, exec (.tilePassEnd c r) s = .next u ∧ s.aroundChan c { u with freeCtr := s.freeCtr } ∧ k.passFrame r (u.chan c)
          ∧ (may → (u.chan c).tun.cnt.ladderCap = Nat.min (k.tun.cnt.ladderCap + up.2.2.length) 0xFFFFFFFF
            ∧ ∀ n ∈ up.2.2, ∃ e ∈ (u.chan c).tun.log, e.event = 0x0B ∧ e.layer = t.layer ∧ e.prod = t.desc.prod ∧ e.opnd = n)
          ∧ (¬ may ∨ up.2.2 = [] → s.onlyChan c u ∧ (u.chan c).tun.log = k.tun.log)
          ∧ (climbs → ∃ t', ((u.chan c).reed r).tile = some t' ∧ t.again t' ∧ t'.ladder = true ∧ t'.kind = .ladder
              ∧ t'.climbA = up.1 ∧ t'.climbB = up.2.1
              ∧ ((u.chan c).reed r).cnt.recompLadder = Nat.min ((k.reed r).cnt.recompLadder + 1) 0xFFFFFFFF)
          ∧ (¬ climbs → (u.chan c).mem = k.mem ∧ reedIs u { t with phase := if under then .slotWait else .clean })))
    ∧ (k.finished r = none → exec (.tileRelease c r) s = .next s)
    ∧ (∀ t, k.finished r = some t → t.outParity = true →
      ∃ u t', exec (.tileRelease c r) s = .next u ∧ s.onlyChan c u ∧ k.passFrame r (u.chan c) ∧ ((u.chan c).reed r).tile = some t'
        ∧ ((k.reed r).waiting = some t → t.phase = .clean → ((u.chan c).reed r).waiting = (k.reed r).tile)
        ∧ ((∀ w, (k.reed r).waiting = some w → w.phase ≠ .clean) → ((u.chan c).reed r).waiting = (k.reed r).waiting)
        ∧ (t.parityRetry = true ∨ 8 ≤ t.passes → t'.phase = .failed ∧ (u.chan c).wroteErr 0 r.val .parity .S)
        ∧ (t.parityRetry = false → t.passes < 8 → t.again t' ∧ t'.ps = t.ps ∧ (u.chan c).wroteErr 0 r.val .parity .D))
    ∧ ∀ t, k.finished r = some t → t.outParity = false →
      let o := k.outCfg t
      let f := if t.desc.prod = 3 then rungFmt (Score.fmtOf t.desc.olayout) t.rungA else o.q.fmt
      let chords := t.released { o with q := { o.q with fmt := f } }
      let bytes := (chords.map (Chord.toBytes f)).flatten
      ∃ u w, exec (.tileRelease c r) s = .next u ∧ s.onlyChan c u ∧ k.landed (u.chan c) t.entry
        ∧ (∀ q, q ≠ r → (u.chan c).reed q = k.reed q) ∧ (u.chan c).mem.dram = k.mem.dram ∧ (u.chan c).ports = k.ports
        ∧ (let x := k.reed r
          let x' := (u.chan c).reed r
          (x.waiting = none → x'.tile = none ∧ x'.waiting = none)
          ∧ (x.waiting = some t → x'.tile = x.tile ∧ x'.waiting = none)
          ∧ (∀ y, x.waiting = some y → y.phase ≠ .clean → x'.tile = some y ∧ x'.waiting = none)
          ∧ x'.words = ({ entry := t.entry, layer := t.layer, prod := t.desc.prod, m0 := t.desc.m0, n0 := t.desc.n0, word := w } :: x.words).take 4
          ∧ x'.valve = x.valve
          ∧ bitOf w 0 = true ∧ bitsOf w 25 20 = Nat.min t.obOvf 63 ∧ bitOf w 1 = t.inv ∧ bitsOf w 5 4 = Nat.min t.ovfRc 3
          ∧ bitOf w 6 = t.uzDone ∧ bitOf w 7 = t.uzKept ∧ bitsOf w 9 8 = Nat.min t.chkRc 2 ∧ bitOf w 10 = t.suspect
          ∧ bitOf w 11 = t.ladder ∧ bitOf w 12 = t.parRecovered ∧ bitOf w 13 = t.psnIn ∧ bitOf w 15 = t.fmtFault ∧ bitOf w 16 = false
          ∧ (t.poisonAll = true → ∀ ch ∈ chords, ∃ d b, ch = Chord.poisoned f d b)
          ∧ (t.poisonAll = false → chords = t.cur.out.chords)
          ∧ (t.desc.odest = 0 → x'.slots = x.slots ++
              [{ tile := t, layer := t.layer, prod := t.desc.prod, otensor := t.desc.otensor, chords := chords, fmt := f }]
            ∧ (u.chan c).mem = k.mem ∧ x'.sram = x.sram)
          ∧ (t.desc.odest ≠ 0 → x'.slots = x.slots)
          ∧ (t.desc.odest = 1 → x.sram.wf = true → t.desc.oaddr + bytes.length ≤ 1048576 →
            (u.chan c).mem = k.mem ∧ (∀ i, i < bytes.length → some (x'.sram.rd (t.desc.oaddr + i)) = bytes[i]?)
            ∧ ∀ a, a < t.desc.oaddr ∨ t.desc.oaddr + bytes.length ≤ a → x'.sram.rd a = x.sram.rd a)
          ∧ (t.desc.odest = 2 → k.mem.chest.wf = true → t.desc.oaddr + bytes.length ≤ 33554432 →
            x'.sram = x.sram
            ∧ (∀ i, i < bytes.length → some ((u.chan c).mem.chest.rd (t.desc.oaddr + i)) = bytes[i]?)
            ∧ ∀ a, a < t.desc.oaddr ∨ t.desc.oaddr + bytes.length ≤ a → (u.chan c).mem.chest.rd a = k.mem.chest.rd a))
/-! ### Movers and the Tuner -/

/-- Data movers at the end of their action (07 R166, R171, R184; 09 R238, R251). What could not be read is recovered and the action is
tried again, under ERROR_RETRY, until it is done, when it lands and its token is set, or an error of class S or above ends it; a mover
without that action does nothing. A program load puts its words into the Valve's program memory and no other word changes, and waits
while their slot runs (06 R143). A move copies COUNT whole chords unchanged and in order (07 R184). A gather places each entry's bytes at
its stride, refuses a class A page with zeros and an error, and lands zeros for a reserved entry (09 R234, R246, R247). An MX import
writes the tensor's chords in order, counting INT8 blocks below code 6 as shifted; type 2 is refused with FMT_UNSUPPORTED, and so is an
export of a chord on the wrong axis, with other blocks or two-level, with nothing written (02 R56 to R58; the axis is the model's
choice, log 66). A write to the wind chest, to a Reed's SRAM or to mapped pages stores its bytes and no other. -/
def Obligations.Movers : Prop :=
  (∀ (s : State) (c : ChanId) (m : Fin 32),
    let k := s.chan c
    let unit := 0x200 + m.val
    let ends := fun (i : Instr) (action : Nat) (reed : Entry → ReedId) (work : List Redo → Nat → Entry → Channel → MoverEnd × Channel) =>
      let goes := fun (k' : Channel) => exec i s = .next (s.setChan c k')
      (k.moverEntry m.val action = none → exec i s = .next s)
      ∧ ∀ f j e, k.flight unit = some f → k.moverEntry m.val action = some (j, e) → (action = 3 → k.ploadWaits m.val = false) →
        (f.failed = true → exec i s = .next s)
        ∧ (f.failed = false →
          (∀ err, k.recoverAll (reed e) 2 m.val f.redo = .error err →
            goes ((k.raise err).modFlight unit (fun f => { f with failed := true, redo := [] })) ∧ err.cls = .S)
          ∧ ∀ k1 k2, k.recoverAll (reed e) 2 m.val f.redo = .ok k1 →
            let done := f.redone ++ f.redo
            (work done j e k1 = (.done, k2) → ∃ k', goes k' ∧ k2.landed k' j
              ∧ k' = { k2 with flights := k'.flights, tokens := k'.tokens, err := k'.err })
            ∧ (∀ x, work done j e k1 = (.again x, k2) →
              goes ((k2.tagEntry j .errorRetry).modFlight unit (fun f => { f with redo := [x], redone := done })))
            ∧ (work done j e k1 = (.lost, k2) → goes (k2.modFlight unit (fun f => { f with failed := true, redo := [], redone := done }))))
    ends (.ploadComplete c m) 3 (fun e => k.slotOr0 (Score.ploadAt k.pool e.desc).slot) (fun done _ e k => k.pload m.val done e)
    ∧ (k.ploadWaits m.val = true → exec (.ploadComplete c m) s = .next s)
    ∧ ends (.moveComplete c m) 4 (fun e => k.slotOr0 (Score.moveAt k.pool e.desc).sslot) (fun done i e k => k.moveChords m.val done i e)
    ∧ ends (.pickComplete c m) 5 (fun _ => 0) (fun done i e k => k.pick m.val done i e)
    ∧ ends (.mxioComplete c m) 6 (fun _ => 0) (fun done i e k =>
        let d := Score.mxioAt k.pool e.desc
        if d.mxtype = 2 then (.done, k.raise { cause := .fmtUnsupported, cls := .S, unit := 2, uidx := m.val })
        else if d.export_ then k.mxExport m.val done i e d else k.mxImport m.val done i e d))
  ∧ (∀ (k k1 k2 : Channel) (m : Nat) (done : List Redo) (i : Nat) (e : Entry),
    (let d := Score.ploadAt k.pool e.desc
      let r := k.slotOr0 d.slot
      ∀ bs, k.readRaw m r done d.space d.addr (8 * d.count) = (.ok bs, k1) → SMap.wf 0 (k1.reed r).valve.words = true →
        ∃ w, k.pload m done e = (.done, k1.modValve r (fun v => { v with words := w }))
          ∧ (∀ j, j < d.count → SMap.get 0 w (64 * d.pslot + j) = fieldLe bs (8 * j) 8)
          ∧ ∀ n, (n < 64 * d.pslot ∨ 64 * d.pslot + d.count ≤ n) → SMap.get 0 w n = SMap.get 0 (k1.reed r).valve.words n)
    ∧ (let d := Score.moveAt k.pool e.desc
      ∀ six want, k.readTensor e.mb d.srct false = some (six, want) →
        let src := k.storedTensor d.srct six
        let dst := k.storedTensor d.dstt (k.writeTensor d.dstt).1
        ∀ ks : Nat → Channel, ks 0 = k → (∀ j, j < d.count →
          let (x, k') := (ks j).readChord 2 m (k.slotOr0 d.sslot) src (d.sfirst + j) done
          x.lost = false ∧ x.redo = none ∧ wrongTag e want (Chord.ofBytes (Score.fmtOf src.layout) x.bytes) = false
          ∧ ks (j + 1) = k'.writeBytes 2 m (k'.slotOr0 d.dslot) i dst.space (Score.chordAddr dst (d.dfirst + j))
              (if x.poisoned then poisonBytes src else x.bytes)) →
        k.moveChords m done i e = (.done, ks d.count))
    ∧ (let d := Score.pickAt k.pool e.desc
      ∀ list, k.readRaw m (k.slotOr0 d.slot) done d.listSpace d.list (8 * d.count) = (.ok list, k1) →
        ∀ ks : Nat → Channel, ks 0 = k1 → (∀ j, j < d.count → ∃ bs k', (ks j).pickOne m done d (fieldLe list (8 * j) 8) = (.ok bs, k')
          ∧ ks (j + 1) = k'.writeBytes 2 m (k.slotOr0 d.slot) i d.destSpace (d.dest + (if d.chord then 544 else 32) * j) bs) →
        k.pick m done i e = (.done, ks d.count))
    ∧ (∀ (d : PickDesc) (v : Nat),
      let addr := v / 32 % 2 ^ 55 * 32
      let space := v / 2 ^ 60
      (d.chord = false → v % 32 = 0 → space ≤ 1 → ∀ q, k.mem.place space addr = some q →
        (q.cls = 0 → ∃ k', k.pickOne m done d v = (.ok (List.replicate 32 0#8), k') ∧ k'.wroteErr 2 m .pickRefused .S
          ∧ k' = { k with err := k'.err, mem := { k.mem with cnt := { k.mem.cnt with
              pickRefused := Nat.min (k.mem.cnt.pickRefused + 1) 0xFFFFFFFF } } })
        ∧ (∀ res, q.cls ≠ 0 → k.readBytes 2 m 0 space addr 32 = (res, k1) → res.err = .none → k.pickOne m done d v = (.ok res.bytes, k1)))
      ∧ ((d.chord = false ∧ v % 32 ≠ 0) ∨ 1 < space ∨ (d.chord = true ∧ v % 32 ∉ [5, 7, 9, 17]) →
          k.pickOne m done d v = (.ok (List.replicate 32 0#8), k.addrFault 2 m addr)))
    ∧ (∀ d : MxioDesc, let t := k.tensor (k.writeTensor d.tensor).1
      let f := Score.fmtOf t.layout
      let gc := Score.gridCols t
      ∀ el sc, k.readRaw m 0 done d.elemSpace d.elem (4 * Fmt.bits f * d.blocks) = (.ok el, k1) →
        k1.readRaw m 0 done d.scaleSpace d.scale d.blocks = (.ok sc, k2) →
        ∀ ks : Nat → Channel, ks 0 = k2 → (∀ n, n < gc * Score.gridRows t → ks (n + 1) = (ks n).writeBytes 2 m 0 i t.space (Score.chordAddr t n)
            (Chord.toBytes f (importChord t f d.colAxis (ks n).live.crush el sc (n / gc) (n % gc) (k.writeTensor d.tensor).2))) →
        ∃ k', k.mxImport m done i e d = (.done, k') ∧ (let z := ks (gc * Score.gridRows t)
          let low := if f = .int8 then (sc.filter (fun b => b.toNat < 6)).length else 0
          k' = { z with conv := k'.conv, otherQuant := k'.otherQuant, tun := { z.tun with layerQ := k'.tun.layerQ } }
          ∧ k'.conv = { z.conv with shifted := Nat.min (z.conv.shifted + low) 0xFFFFFFFF }))
    ∧ (∀ (d : MxioDesc) ix want, k.readTensor e.mb d.tensor false = some (ix, want) →
      ∀ chs, k.exportChords m done e want (k.tensor ix) (Score.gridCols (k.tensor ix) * Score.gridRows (k.tensor ix)) = (.done, chs, k1) →
        (∃ ch, some ch ∈ chs ∧ (ch.side.dir ≠ bit d.colAxis ∨ ch.side.blk ≠ 2 ∨ ch.side.scl = true)) →
        ∃ k', k.mxExport m done i e d = (.done, k') ∧ k' = { k1 with err := k'.err } ∧ k'.wroteErr 2 m .fmtUnsupported .S))
  ∧ ∀ (k : Channel) (unit uidx : Nat) (r : ReedId) (i a : Nat) (bs : List Byte),
    (k.mem.chest.wf = true → a + bs.length ≤ 33554432 →
      let k' := k.writeBytes unit uidx r i 2 a bs
      k' = { k with mem := { k.mem with chest := k'.mem.chest, badChest := k'.mem.badChest, chestWriter := k'.mem.chestWriter } }
      ∧ (∀ j, j < bs.length → some (k'.mem.chest.rd (a + j)) = bs[j]?)
      ∧ ∀ b, b < a ∨ a + bs.length ≤ b → k'.mem.chest.rd b = k.mem.chest.rd b)
    ∧ ((k.reed r).sram.wf = true → a + bs.length ≤ 1048576 →
      let k' := k.writeBytes unit uidx r i 3 a bs
      k.onlyReed r k' ∧ k'.reed r = { k.reed r with sram := (k'.reed r).sram, badParity := (k'.reed r).badParity }
      ∧ (∀ j, j < bs.length → some ((k'.reed r).sram.rd (a + j)) = bs[j]?)
      ∧ ∀ b, b < a ∨ a + bs.length ≤ b → (k'.reed r).sram.rd b = (k.reed r).sram.rd b)
    ∧ ∀ space, space ≤ 1 → k.mem.sound → k.mem.mapped true space a bs.length = true →
      let k' := k.writeBytes unit uidx r i space a bs
      k' = { k with mem := k'.mem, err := k'.err } ∧ k.mem.wrote k'.mem space a bs ∧ k'.mem.chest = k.mem.chest

/-- Chanter requests that wait, and a rollback. OPEN completes once no reader is left on the buffer of version CUR + 1 (08 R208; 13 R340).
A verdict is agreed once the exchange over its COLL descriptor has brought every record, or at once with the channel's own where the job
runs on it alone; bits that the surroundings show as disturbed are so first (05 R131). When every scalar write has taken effect the scalar token is granted (06 R142). A rollback gives up the step,
clears the reference counts, discards checkpoints that are not yet clean, and starts the restart service (05 R128; 17 R407). Without its
request none of these does anything. -/
def Obligations.ChanterEvents : Prop :=
  ∀ (s : State) (c : ChanId),
    let k := s.chan c
    let unread := if (k.ver.cur + 1) % 2 = 0 then k.ver.ref0 = 0 ∧ k.ver.ckref0 = 0 else k.ver.ref1 = 0 ∧ k.ver.ckref1 = 0
    (k.chntFlight 3 = none → exec (.openGranted c) s = .next s)
    ∧ (∀ f, k.chntFlight 3 = some f →
      (k.ver.opened = false → unread → ∃ k', exec (.openGranted c) s = .next (s.setChan c k')
        ∧ k' = { k with ver := { k.ver with opened := true }, verRungs := k'.verRungs, flights := k'.flights, tokens := k'.tokens }
        ∧ k.landed k' f.entry)
      ∧ (k.ver.opened = true ∨ ¬ unread → exec (.openGranted c) s = .next s))
    ∧ (∀ us : List Upset,
      let ends := fun (t : State) => exec (.verdictAgreed c us) s = .next t
      let s := s.disturbed c us
      let k := s.chan c
      (k.chntFlight 4 = none ∨ k.tun.agreed ≠ none → ends s)
      ∧ ∀ f, k.chntFlight 4 = some f → k.tun.agreed = none →
      (∀ a, k.agreedRecord f.entry = some a → ∃ k', ends (s.setChan c k')
        ∧ k' = { k with tun := { k.tun with agreed := some a }, coll := { k.coll with verdict := none }, flights := k'.flights
                        tokens := k'.tokens }
        ∧ k.landed k' f.entry)
      ∧ (k.agreedRecord f.entry = none → ends s)
      ∧ (k.verdictDesc (k.entry f.entry).desc = none → k.agreedRecord f.entry = k.tun.verdict)
      ∧ (∀ x y z, k.verdictDesc (k.entry f.entry).desc ≠ none → k.coll.verdict = some x → x.xch = some (y, z) →
          k.agreedRecord f.entry = if z.complete then some z.verdict else none))
    ∧ (k.chntFlight 5 = none ∨ k.scalarQ ≠ [] → exec (.scalarsDone c) s = .next s)
    ∧ (∀ f, k.chntFlight 5 = some f → k.scalarQ = [] → ∃ k', exec (.scalarsDone c) s = .next (s.setChan c k')
        ∧ k' = { k with scalarTok := true, flights := k'.flights, tokens := k'.tokens } ∧ k.landed k' f.entry)
    ∧ (let rolls := k.ww.rollbackDue = true ∧ (k.st = .run ∨ k.st = .stopping ∨ (k.st = .loaded ∧ k.resume = true))
      (¬ rolls → exec (.rollback c) s = .next s)
      ∧ (rolls → ∃ u, exec (.rollback c) s = .next u ∧ s.aroundChan c u ∧ u.mp = s.mp ∧ u.meter = s.meter
        ∧ (u.chan c).st = .loaded ∧ (u.chan c).resume = false ∧ (u.chan c).ww.rollbackDue = false ∧ (u.chan c).flights = []
        ∧ (∀ n, ((u.chan c).token n).set = false) ∧ (u.chan c).svc.restart = some {}
        ∧ (u.chan c).ver.ref0 = 0 ∧ (u.chan c).ver.ref1 = 0 ∧ (u.chan c).ver.ckref0 = 0 ∧ (u.chan c).ver.ckref1 = 0
        ∧ (u.chan c).ver.cur = k.ver.cur ∧ (u.chan c).mem = k.mem ∧ (u.chan c).step = k.step ∧ (u.chan c).err = k.err
        ∧ ∀ x ∈ (u.store c).ckpts, x.state ≠ 1 ∧ x.state ≠ 2))
/-! ### Links -/

/-- What a port receives. A port whose lanes are not aligned receives nothing; on any other the FEC's work is counted (10 R286). A flit
that the FEC or its CRC finds bad is dropped and counted, and a sequenced one is answered with a NAK for E, once per 4 us (10 R266). A
sequenced flit is accepted only at E, which then rises by one modulo 2^24; a type on another VC is counted and dropped (10 R265, R266);
what is buffered is then worked off. A derived key enters the cache (10 R277). An ACK and a NAK acknowledge every flit before E, and a
NAK starts a replay from E unless one that started at or before E is in progress; the ninth takes the port DOWN (10 R267, R268). A CREDIT
sets the freed counts (10 R271). A HELLO that is none counts as a bad type; one that matches the plan takes a DATA port and a
spare in use UP, leaves a spare and a port that has failed DARK, and one that does not match leaves the port DARK; on an UP port a HELLO that says something else than before takes it to DARK
(10 R284; 12 R322, R323, R325). Nothing but the port, the discovery result and an error of its own changes. -/
def Obligations.LinkReceives : Prop :=
  (∀ (s : State) (c : ChanId) (p : PortId) (flit : List Byte) (fc fu : Nat),
    let k := s.chan c
    let q := k.port p
    let f := Flit.ofBytes flit
    let up := fun (n : Nat) => Nat.min (n + 1) 0xFFFFFFFF
    let put := fun (i : Instr) (q' : Port) => exec i s = .next (s.setChan c (k.modPort p (fun _ => q')))
    let b : Port := { q with cnt := { q.cnt with fecCorr := Nat.min (q.cnt.fecCorr + fc) 0xFFFFFFFF
                                                 fecUncorr := Nat.min (q.cnt.fecUncorr + fu) 0xFFFFFFFF } }
    let rx : Port := { b with cnt := { b.cnt with flitsRx := Nat.min (q.cnt.flitsRx + 1) 0xFFFFFFFFFFFFFFFF } }
    let bad := fu ≠ 0 ∨ flitGood flit = false
    let aligned := q.st = .hello ∨ q.st = .up ∨ q.st = .dark
    let locals : List (Nat × Instr) :=
      [(6, .ackReceive c p ⟨flit, fc, fu⟩), (6, .nakReceive c p ⟨flit, fc, fu⟩), (5, .creditReceive c p ⟨flit, fc, fu⟩), (4, .helloReceive c p ⟨flit, fc, fu⟩)]
    (∀ now, (¬ aligned → exec (.sequencedFlitReceive c p flit now fc fu) s = .next s)
      ∧ (q.st = .hello ∨ q.st = .dark → put (.sequencedFlitReceive c p flit now fc fu) b)
      ∧ (q.st = .up → bad →
        (let d : Port := { b with cnt := { b.cnt with crcFail := up q.cnt.crcFail } };
          ((∃ tm, q.lastNak = some (q.e, tm) ∧ now < tm + 4000) → put (.sequencedFlitReceive c p flit now fc fu) d)
          ∧ ((∀ tm, q.lastNak = some (q.e, tm) → tm + 4000 ≤ now) →
            put (.sequencedFlitReceive c p flit now fc fu) { d with
              ackReady := some { typ := 6, payload := leBytes 3 q.e ++ [1#8] ++ List.replicate 236 0#8 }, lastNak := some (q.e, now), unacked := 0 })))
      ∧ (q.st = .up → ¬ bad → 4 ≤ f.typ → f.typ ≤ 6 → f.vc = 0 → put (.sequencedFlitReceive c p flit now fc fu) b)
      ∧ (q.st = .up → ¬ bad → ¬ (4 ≤ f.typ ∧ f.typ ≤ 6 ∧ f.vc = 0) → q.rxBuf.length = 4 →
        ∃ q', exec (.sequencedFlitReceive c p flit now fc fu) s
              = .next (State.servicePort c p 600 (s.setChan c (k.modPort p (fun _ => q'))))
          ∧ q' = { rx with e := q'.e, unacked := q'.unacked, rxBuf := q'.rxBuf, rxFreed := q'.rxFreed, rxFreedSince := q'.rxFreedSince,
                           ackReady := q'.ackReady, creditReady := q'.creditReady, cnt := q'.cnt }
          ∧ q'.cnt = { rx.cnt with badType := if vcOfType f.typ = some f.vc then q.cnt.badType else up q.cnt.badType }
          ∧ (f.seq ≠ q.e → q'.e = q.e ∧ q'.rxBuf = q.rxBuf ∧ q'.unacked = q.unacked ∧ q'.ackReady = q.ackReady)
          ∧ (f.seq = q.e → q'.e = (q.e + 1) % 2 ^ 24
            ∧ (q.unacked < 31 → q'.unacked = q.unacked + 1 ∧ q'.ackReady = q.ackReady)
            ∧ (31 ≤ q.unacked → q'.unacked = 0
              ∧ q'.ackReady = some { typ := 6, payload := leBytes 3 ((q.e + 1) % 2 ^ 24) ++ [0#8] ++ List.replicate 236 0#8 })
            ∧ (vcOfType f.typ = some f.vc → q'.rxBuf.getD f.vc [] = q.rxBuf.getD f.vc [] ++ [f]
              ∧ ∀ v, v ≠ f.vc → q'.rxBuf.getD v [] = q.rxBuf.getD v [])
            ∧ (vcOfType f.typ ≠ some f.vc → q'.rxBuf = q.rxBuf))))
    ∧ (q.keyWait = none ∨ k.paths.kjob = none → exec (.keyDerived c p) s = .next s)
    ∧ (∀ v src epoch kj, q.keyWait = some (v, src, epoch) → k.paths.kjob = some kj →
      ∃ keys, exec (.keyDerived c p) s
          = .next (State.servicePort c p 600 (s.setChan c (k.modPort p (fun _ => { q with keyWait := none, keys := keys }))))
        ∧ keys.getLast? = some { src := src, epoch := epoch, key := senderKey kj src epoch })
    ∧ (∀ x ∈ locals,
      (¬ aligned → exec x.2 s = .next s)
      ∧ (aligned → bad → put x.2 { b with cnt := { b.cnt with crcFail := up q.cnt.crcFail } })
      ∧ (aligned → ¬ bad → vcOfType f.typ ≠ some f.vc → put x.2 { rx with cnt := { rx.cnt with badType := up q.cnt.badType } })
      ∧ (aligned → ¬ bad → vcOfType f.typ = some f.vc → f.typ ≠ x.1 → put x.2 rx)
      ∧ (aligned → ¬ bad → vcOfType f.typ = some f.vc → f.typ = x.1 → q.st ≠ .up → x.1 ≠ 4 → put x.2 rx))
    ∧ (q.st = .up → ¬ bad → f.vc = 0 → f.typ = 6 →
      let e := fieldLe f.payload 0 3
      let left := q.replayBuf.filter (fun (x : Flit) => !seqBefore x.seq e)
      let passed := ∃ start, q.replayFrom = some start ∧ seqBefore start e = true
      ∃ a : Port, a = { rx with replayBuf := left, replay := a.replay, retry := a.retry, replayFrom := a.replayFrom }
        ∧ (passed → a.retry = 0 ∧ a.replayFrom = none) ∧ (¬ passed → a.retry = q.retry ∧ a.replayFrom = q.replayFrom)
        ∧ a.replay = q.replay.map (fun r => (r.1, r.2.filter (fun (x : Flit) => !seqBefore x.seq e)))
        ∧ put (.ackReceive c p ⟨flit, fc, fu⟩) a
        ∧ (let n : Port := { a with cnt := { a.cnt with nakRx := up q.cnt.nakRx } }
          let going := ∃ start rest, q.replay = some (start, rest) ∧ seqBefore e start = false
          (going → put (.nakReceive c p ⟨flit, fc, fu⟩) n)
          ∧ (¬ going → n.retry < 8 → put (.nakReceive c p ⟨flit, fc, fu⟩)
              { n with replay := some (e, left), retry := n.retry + 1, replayFrom := some e, cnt := { n.cnt with replays := up q.cnt.replays } })
          ∧ (¬ going → 8 ≤ n.retry →
              exec (.nakReceive c p ⟨flit, fc, fu⟩) s = .next (s.setChan c ((k.modPort p (fun _ => n)).portDown p)))))
    ∧ (q.st = .up → ¬ bad → f.typ = 5 → f.vc = 0 → put (.creditReceive c p ⟨flit, fc, fu⟩)
        { rx with freed := [fieldLe f.payload 0 4, fieldLe f.payload 4 4, fieldLe f.payload 8 4, fieldLe f.payload 12 4] })
    ∧ (aligned → ¬ bad → f.typ = 4 → f.vc = 0 →
      let h := f.payload
      let i := Instr.helloReceive c p ⟨flit, fc, fu⟩
      (fieldLe h 0 4 ≠ 0x4F4C4548 ∨ byteAt h 4 ≠ 1 → put i { rx with cnt := { rx.cnt with badType := up q.cnt.badType } })
      ∧ (fieldLe h 0 4 = 0x4F4C4548 → byteAt h 4 = 1 →
        let partner := fieldLe h 6 2 % 16384 + 16384 * (byteAt h 8 % 8)
        let k₁ := k.modPort p (fun _ => { rx with seenPartner := true, seenSeen := q.seenSeen || bitOf (byteAt h 5) 0, lastHello := h
                                                  partner := partner })
        let ends := fun (k' : Channel) => ∃ t, exec i s = .next t ∧ State.told (s.setChan c k'.settleDiscovery) t
        let same := q.lastHello = [] ∨ patch q.lastHello 5 [0#8] = patch h 5 [0#8]
        (q.st = .hello ∨ (q.st = .dark ∧ q.wasDown = false ∧ (k.result p = 4 ∨ k.result p = 3)) → ends (k₁.judge (s.self c) p h))
        ∧ (q.st = .dark → q.wasDown = true ∨ (k.result p ≠ 4 ∧ k.result p ≠ 3) → ends k₁)
        ∧ (q.st = .up → same → ends k₁)
        ∧ (q.st = .up → ¬ same → k.paths.disc.results.length = 8 → ∃ k', ends k' ∧ (k'.port p).st = .dark ∧ (k'.port p).replayBuf = []
            ∧ k'.result p = 4 ∧ k'.paths.disc.mismatch = true ∧ (∀ r, r ≠ p → k'.port r = k.port r) ∧ k'.mem = k.mem
            ∧ ((k.planPort p).role = roleData → k'.wroteErr 3 p.val .portDown .S)))))
  ∧ ∀ (k : Channel) (w : Self) (p : PortId) (h : List Byte), k.paths.disc.results.length = 8 →
    let k' := k.judge w p h
    let role := (k.planPort p).role
    let goes := fun (st : PortState) (result : Nat) => (k'.port p).st = st ∧ k'.result p = result
    let replaced := ∃ q, (p.val, q) ∈ k.paths.disc.subst
    let serves := ∃ q, (q, p.val) ∈ k.paths.disc.subst
    let late := (k.port p).wasDown = true ∨ k.st = .run ∨ k.st = .stopping
    k' = { k with ports := k'.ports, paths := { k.paths with disc := k'.paths.disc } } ∧ (∀ r, r ≠ p → k'.port r = k.port r ∧ k'.result r = k.result r)
    ∧ (role = roleUnused → goes .dark 3 ∧ k'.paths.disc.extra = true)
    ∧ (role ≠ roleUnused → k.mismatch w p h ≠ 0 → goes .dark 4 ∧ k'.paths.disc.mismatch = true)
    ∧ (role ≠ roleUnused → k.mismatch w p h = 0 →
      (serves → ¬ late → goes .up 6)
      ∧ (¬ serves ∨ late → role = roleSpare ∨ replaced ∨ (k.port p).wasDown = true → goes .dark 5)
      ∧ (role ≠ roleSpare → ¬ replaced → ¬ (k.port p).wasDown = true → late → goes .dark (k.result p))
      ∧ (role ≠ roleSpare → ¬ replaced → ¬ serves → ¬ late → goes .up 1))

/-- The transmitter and the timers of a port. A flit slot carries the first that is ready of ACK or NAK, CREDIT, HELLO, a replay, and new
flits with a credit: of VC0, of VC1, and of VC2 and VC3 packet by packet in turn, and on one VC forwarded and local packets in turn (12
R328). A new flit takes the next sequence number and stays in
the replay buffer; a slot lost to a full replay buffer or for want of a credit is counted (10 R269, R270, R272). Timers make an ACK, a
CREDIT or a HELLO ready, or start a replay from the oldest unacknowledged flit; the ninth takes the port DOWN (10 R267, R268, R271;
12 R321). A lost lane takes an UP or DARK port DOWN, and one in HELLO back to TRAINING (10 R283); a DOWN port trains again when it may
(10 R282), and a trained one is in HELLO. The end of the discovery window names the absent ports and ends discovery (12 R323). In any
other state of the port nothing happens. -/
def Obligations.LinkTimers : Prop :=
  ∀ (s : State) (c : ChanId) (p : PortId),
    let k := s.chan c
    let q := k.port p
    let up := fun (n : Nat) => Nat.min (n + 1) 0xFFFFFFFF
    let up64 := fun (n : Nat) => Nat.min (n + 1) 0xFFFFFFFFFFFFFFFF
    let aligned := q.st = .hello ∨ q.st = .up ∨ q.st = .dark
    let idle := q.ackReady = none ∧ q.creditReady = none ∧ q.helloReady = none
    let put := fun (i : Instr) (q' : Port) => exec i s = .next (s.setChan c (k.modPort p (fun _ => q')))
    let tx := fun (n : PortCnt) => { n with flitsTx := up64 q.cnt.flitsTx }
    let slot := put (.flitSlot c p)
    let waits := fun (v : Nat) => q.txq.getD v [] ≠ []
    let ready := fun (v : Nat) => waits v ∧ 0 < q.credits v
    let new := q.st = .up ∧ idle ∧ (∀ b f more, q.replay ≠ some (b, f :: more))
    let sends := fun (v : Nat) => ∀ f more owner rest, q.txq.getD v [] = { owner := owner, flits := f :: more } :: rest →
      q.txq.length = 4 → q.consumed.length = 4 →
      ∃ t, slot t ∧ t.sent = some { f with seq := q.nextSeq } ∧ t.nextSeq = (q.nextSeq + 1) % 2 ^ 24 ∧ t.replay = none
        ∧ t.replayBuf = q.replayBuf ++ [{ f with seq := q.nextSeq }] ∧ t.consumed.getD v 0 = (q.consumed.getD v 0 + 1) % 2 ^ 32
        ∧ t.txq.getD v [] = (if more = [] then alternate f.routed rest else { owner := owner, flits := more } :: rest)
        ∧ (∀ u, u ≠ v → t.txq.getD u [] = q.txq.getD u [] ∧ t.consumed.getD u 0 = q.consumed.getD u 0)
        ∧ (v < 2 → t.bulkBusy = q.bulkBusy ∧ t.bulkNext = q.bulkNext)
        ∧ (2 ≤ v → t.bulkBusy = (if more = [] then none else some v) ∧ t.bulkNext = 5 - v)
        ∧ t = { q with sent := t.sent, sentLocal := none, nextSeq := t.nextSeq, replay := none, replayBuf := t.replayBuf
                       consumed := t.consumed, txq := t.txq, bulkBusy := t.bulkBusy, bulkNext := t.bulkNext, sends := t.sends, cnt := tx q.cnt }
    (¬ aligned → exec (.flitSlot c p) s = .next s ∧ exec (.helloTimer c p) s = .next s)
    ∧ (q.st ≠ .up → exec (.ackTimer c p) s = .next s ∧ exec (.replayTimeout c p) s = .next s ∧ exec (.creditTimer c p) s = .next s)
    ∧ (q.st ≠ .down → exec (.downIdleEnd c p) s = .next s)
    ∧ (q.st ≠ .training → exec (.trainingDone c p) s = .next s)
    ∧ (q.st = .disabled ∨ q.st = .idle ∨ q.st = .down → exec (.laneLockLoss c p) s = .next s)
    ∧ (k.paths.disc.status ≠ 1 → exec (.discoveryWindowEnd c) s = .next s)
    ∧ (aligned →
      (∀ a, q.ackReady = some a → slot { q with ackReady := none, sentLocal := some a, sent := none, cnt := { tx q.cnt with
          nakTx := Nat.min (q.cnt.nakTx + byteAt a.payload 3 % 2) 0xFFFFFFFF } })
      ∧ (∀ a, q.ackReady = none → q.creditReady = some a → slot { q with creditReady := none, sentLocal := some a, sent := none, cnt := tx q.cnt })
      ∧ (∀ a, q.ackReady = none → q.creditReady = none → q.helloReady = some a →
          slot { q with helloReady := none, sentLocal := some a, sent := none, cnt := tx q.cnt })
      ∧ (idle → q.st ≠ .up → slot { q with sent := none, sentLocal := none }))
    ∧ (q.st = .up → idle → ∀ b f more, q.replay = some (b, f :: more) →
        slot { q with sent := some f, sentLocal := none, replay := if more = [] then none else some (b, more),
                      cnt := { tx q.cnt with replayFlits := up q.cnt.replayFlits } })
    ∧ (new → (∀ v, v < 4 → ¬ waits v) → slot { q with replay := none, sent := none, sentLocal := none })
    ∧ (new → (∃ v, v < 4 ∧ waits v) →
      (512 ≤ q.replayBuf.length → slot { q with replay := none, sent := none, sentLocal := none,
                                                 cnt := { q.cnt with replayFull := up q.cnt.replayFull } })
      ∧ (q.replayBuf.length < 512 →
        (ready 0 → sends 0) ∧ (¬ ready 0 → ready 1 → sends 1)
        ∧ (¬ ready 0 → ¬ ready 1 →
          (∀ v, q.bulkBusy = some v → 2 ≤ v → v ≤ 3 → 0 < q.credits v → sends v)
          ∧ (q.bulkBusy = none → q.bulkNext = 2 ∨ q.bulkNext = 3 →
            (ready q.bulkNext → sends q.bulkNext) ∧ (¬ ready q.bulkNext → ready (5 - q.bulkNext) → sends (5 - q.bulkNext)))
          ∧ ((∀ v, q.bulkBusy = some v → q.credits v = 0) → (q.bulkBusy = none → ¬ ready 2 ∧ ¬ ready 3) → q.bulkNext = 2 ∨ q.bulkNext = 3 →
              slot { q with replay := none, sent := none, sentLocal := none, cnt := { q.cnt with creditStall := up q.cnt.creditStall } }))))
    ∧ (q.st = .up → q.unacked ≠ 0 → put (.ackTimer c p)
        { q with ackReady := some { typ := 6, payload := leBytes 3 q.e ++ [0#8] ++ List.replicate 236 0#8 }, unacked := 0 })
    ∧ (q.st = .up → q.unacked = 0 → exec (.ackTimer c p) s = .next s)
    ∧ (q.replay ≠ none ∨ q.replayBuf = [] → exec (.replayTimeout c p) s = .next s)
    ∧ (∀ f rest, q.st = .up → q.replay = none → q.replayBuf = f :: rest →
      (q.retry < 8 → put (.replayTimeout c p) { q with
          replay := some (f.seq, q.replayBuf.filter (fun (x : Flit) => !seqBefore x.seq f.seq)), retry := q.retry + 1, replayFrom := some f.seq
          cnt := { q.cnt with replayTimeout := up q.cnt.replayTimeout, replays := up q.cnt.replays } })
      ∧ (8 ≤ q.retry → exec (.replayTimeout c p) s = .next (s.setChan c (k.portDown p))))
    ∧ (q.st = .up → ∃ a, put (.creditTimer c p) { q with creditReady := some a, rxFreedSince := [0, 0, 0, 0] } ∧ a.typ = 5
        ∧ ∀ v, v < 4 → fieldLe a.payload (4 * v) 4 = q.rxFreed.getD v 0 % 2 ^ 32)
    ∧ (aligned → ∃ a, put (.helloTimer c p) { q with helloReady := some a } ∧ a.typ = 4
        ∧ fieldLe a.payload 0 4 = 0x4F4C4548 ∧ byteAt a.payload 4 = 1 ∧ fieldLe a.payload 6 2 = s.pins.straps % 4096 + 4096 * c.val)
    ∧ (q.st = .up ∨ q.st = .dark → ∃ u, exec (.laneLockLoss c p) s = .next u
        ∧ State.told (s.setChan c ((k.modPort p (fun q => { q with cnt := { q.cnt with lockLoss := up q.cnt.lockLoss } })).portDown p)) u)
    ∧ (q.st = .training ∨ q.st = .hello →
        put (.laneLockLoss c p) { q with st := .training, cnt := { q.cnt with lockLoss := up q.cnt.lockLoss } })
    ∧ (q.st = .up ∨ q.st = .dark → k.paths.disc.results.length = 8 → ∃ k', k.portDown p = k'
        ∧ k'.port p = { q.discard with st := .down, wasDown := true, cnt := { q.cnt with down := up q.cnt.down } }
        ∧ (∀ r, r ≠ p → k'.port r = k.port r ∧ k'.result r = k.result r) ∧ ((k.planPort p).role ≠ roleUnused → k'.result p = 7)
        ∧ k' = { k with ports := k'.ports, paths := { k.paths with disc := { k.paths.disc with results := k'.paths.disc.results } }, err := k'.err }
        ∧ ((q.st = .up ∧ (k.planPort p).role = roleData) ∨ k.portBusy p = true → k'.wroteErr 3 p.val .portDown .S))
    ∧ (q.st = .down → put (.downIdleEnd c p)
        { q with st := if k.paths.plan.isSome && k.st != .init && k.st != .halted && k.st != .holdup then .training else .idle })
    ∧ (q.st = .training → put (.trainingDone c p) { q.discard with st := .hello, recvs := q.recvs })
    ∧ (k.paths.disc.status = 1 → k.paths.disc.results.length = 8 →
        ∃ u, exec (.discoveryWindowEnd c) s = .next u ∧ (∃ k', State.told (s.setChan c k') u
          ∧ k' = { k with paths := { k.paths with disc := k'.paths.disc } }
          ∧ k'.paths.disc.status = 2 ∧ k'.paths.disc.windowOpen = false
          ∧ (∀ r, (k.planPort r).role ≠ roleUnused → k.result r = 0 → k'.result r = 2)
          ∧ (∀ r, k.result r ≠ 0 ∨ (k.planPort r).role = roleUnused → k'.result r = k.result r)
          ∧ (k'.paths.disc.short = true ↔ ∃ r, (k.planPort r).role = roleData ∧ k.result r ≠ 1 ∧ k.result r ≠ 6)))

/-! ### SEND and collectives -/

/-- SEND_COMPLETE completes each SEND of the port whose last flit the link has acknowledged: it waits no longer, its action is in flight
no longer and its token is set; no other SEND, action or token changes (10 R280). COLL_MAIN_PASS_DONE marks the end of a main pass whose
result blocks are all in, and the collective goes on at once as far as it can; of any other collective it does nothing. What a complete
pass leads to: a block still flagged after the third repair pass or at code 0xFE is poisoned and counted; when no other block is flagged
the digest starts; otherwise the flagged blocks, in bucket order, are reduced again in a repair pass under their codes plus the repair
raise, at most 0xFE, and counted (11 R303, R304). COLL_DELIVERED delivers a collective whose checks have passed: the result is written,
its context closes, its token is set, it is counted, its next codes are kept, and when its final result holds poisoned blocks they are
counted, the poison policy is applied and a POISON event of layer 0xFFFF is logged; a P = 1 collective whose result read back differs
counts DIGEST_MISMATCH, raises the error and stays open (11 R291, R302, R305, R307); bits that the surroundings show as disturbed are so
first. COLL_TIMEOUT of an open collective, or with no CSEQ
of the verdict reduction, counts a timeout and raises the error; otherwise it does nothing (11 R310). No other channel changes. -/
def Obligations.CollectiveEvents : Prop :=
  (∀ (s : State) (c : ChanId),
    let k := s.chan c
    let sat1 := fun (n : Nat) => sat32 n 1
    (∀ p : PortId,
      let q := k.port p
      let acked := fun (x : Sending) => ∃ n, x.lastSeq = some n ∧ ∀ f ∈ q.replayBuf, f.seq ≠ n
      let ended := fun (e : Nat) => ∃ x ∈ q.sends, acked x ∧ x.entry = e
      ∃ (t : State) (left : List Sending), exec (.sendComplete c p) s = .next t ∧ s.onlyChan c t
        ∧ k.onlyPort p { t.chan c with flights := k.flights, tokens := k.tokens } ∧ (t.chan c).port p = { q with sends := left }
        ∧ left.Sublist q.sends ∧ (∀ x ∈ q.sends, x ∈ left ↔ ¬ acked x)
        ∧ (∀ e, ended e → k.landed (t.chan c) e) ∧ (∀ f ∈ k.flights, ¬ ended f.entry → f ∈ (t.chan c).flights)
        ∧ ∀ n, (∀ f ∈ k.flights, ended f.entry → f.token ≠ some n) → (t.chan c).token n = k.token n)
    ∧ (∀ cseq,
      let ends := fun (x : Coll) => x.launched = true ∧ x.mainDone = false ∧ x.codes ≠ [] ∧ x.flow.complete = true
      ((∀ x, k.coll? cseq = some x → ¬ ends x) → exec (.collMainPassDone c cseq) s = .next s)
      ∧ ∀ x, k.coll? cseq = some x → ends x →
        exec (.collMainPassDone c cseq) s = .next (s.setChan c (k.advanceColl (s.self c) { x with mainDone := true })))
    ∧ (∀ (cseq : Nat) (us : List Upset),
      let ends := fun (t : State) => exec (.collDelivered c cseq us) s = .next t
      let s := s.disturbed c us
      let k := s.chan c
      ((∀ x, k.coll? cseq = some x → x.ready = false) → ends s)
      ∧ ∀ x, k.coll? cseq = some x → x.ready = true →
        let after := fun (k' : Channel) => ends ((s.setChan c k').serviceAll c)
        let closed := fun (b : Channel) =>
          let b := { b with coll := { b.coll with active := b.coll.active.filter (fun (y : Coll) => y.cseq != x.cseq) } }.landEntry x.entry
          { b with coll := { b.coll with cnt := { b.coll.cnt with collDone := sat1 b.coll.cnt.collDone } } }
        let wrote := (k.writeResult x).2
        let base := if x.desc.p ≤ 1 then (wrote.localCheck x).2 else wrote
        let good := 1 < x.desc.p ∨ (wrote.localCheck x).1 = true
        let n := (x.result.filter (fun (b : I8A) => b.code == 0xFF)).length
        let fin := closed base
        let kept := { fin with coll := { fin.coll with done := fin.coll.done ++ [(x.desc.stab, x.nextCodes)],
                                                       cnt := { fin.coll.cnt with poisonBlocks := sat32 fin.coll.cnt.poisonBlocks n } } }
        (x.desc.kind = 3 → after (closed (k.gatherResult x)))
        ∧ (x.desc.kind ≠ 3 → (k.writeResult x).1 = false → after (wrote.setColl { x with failed := true }))
        ∧ (x.desc.kind ≠ 3 → (k.writeResult x).1 = true → ¬ good →
          ∃ k' : Channel, after k' ∧ k' = { base with err := k'.err, coll := k'.coll } ∧ k'.wroteErr 4 x.port .digestMismatch .S
            ∧ k'.coll = { base.coll with active := k'.coll.active,
                                         cnt := { base.coll.cnt with digestMismatch := sat1 base.coll.cnt.digestMismatch } }
            ∧ k'.coll.active = base.coll.active.map (fun (y : Coll) => if y.cseq == x.cseq then { x with failed := true } else y))
        ∧ (x.desc.kind ≠ 3 → (k.writeResult x).1 = true → good → n = 0 → after kept)
        ∧ (x.desc.kind ≠ 3 → (k.writeResult x).1 = true → good → n ≠ 0 →
          let rung := if k.coll.policy = 0 then max kept.tun.policyRung 4 else if k.coll.policy = 2 then max kept.tun.policyRung 5
            else kept.tun.policyRung
          ∃ (u : State) (e : TunerEv), ends (u.serviceAll c)
            ∧ (s.setChan c { kept with tun := { kept.tun with policyRung := rung }.append e }).told u
            ∧ e.layer = 0xFFFF ∧ e.event = 0xC ∧ e.step = k.step ∧ e.decl = s.mp.declTime
            ∧ e.value = Num.toBf16 false (.fin false n 0)))
    ∧ ∀ cseq,
      let open_ := if cseq = noCseq then k.tun.verdict.isSome = true ∧ k.tun.agreed = none ∧ k.running = true
        else ∃ x, k.coll? cseq = some x ∧ x.launched = true
      let port := ((k.coll? cseq).map Coll.port).getD 0
      (¬ open_ → exec (.collTimeout c cseq) s = .next s)
      ∧ (open_ → ∃ k' : Channel, exec (.collTimeout c cseq) s = .next (s.setChan c k') ∧ k'.wroteErr 4 port .collTimeout .S
        ∧ k' = { k with err := k'.err, coll := { k.coll with cnt := { k.coll.cnt with timeouts := sat1 k.coll.cnt.timeouts } } }))
  ∧ ∀ (k : Channel) (w : Self) (x : Coll) (states : List Nat),
    let got := x.passBlocks states
    let again := fun (b : Nat) (r : I8A) => (b, r) ∈ got ∧ r.ovf = true ∧ r.code ≠ 0xFF ∧ ¬ (3 ≤ x.pass ∨ x.codes.getD b 0 = 0xFE)
    let y := (k.passTaken w x states).1
    let k' := (k.passTaken w x states).2
    (got.map Prod.fst).Nodup → (∀ b r, (b, r) ∈ got → b < x.result.length ∧ b < x.codes.length) →
    (∀ b r, (b, r) ∈ got → blockAt y.result b = if r.ovf = true ∧ (3 ≤ x.pass ∨ x.codes.getD b 0 = 0xFE) then I8A.poison else r)
    ∧ (∀ b, b ∉ got.map Prod.fst → blockAt y.result b = blockAt x.result b)
    ∧ k'.coll.cnt.repairExhausted = sat32 k.coll.cnt.repairExhausted (got.filter (fun (g : Nat × I8A) =>
        g.2.ovf && (decide (3 ≤ x.pass) || x.codes.getD g.1 0 == 0xFE))).length
    ∧ ((∀ b r, ¬ again b r) → y.passesDone = true ∧ y.pass = x.pass ∧ y.codes = x.codes ∧ y.dig.isSome = true
      ∧ (x.desc.kind ≠ 2 ∨ x.desc.p ≤ 1 → y.nextCodes = y.codesHere k.coll.margin ∧ y.xch = x.xch))
    ∧ ((∃ b r, again b r) →
      let retry := got.filter (fun (g : Nat × I8A) => g.2.ovf && g.2.code != 0xFF && x.codes.getD g.1 0 != 0xFE)
      y.failed = true ∨ (y.pass = x.pass + 1 ∧ y.flagged = retry.map Prod.fst ∧ y.passesDone = x.passesDone
        ∧ (∀ b, b < x.codes.length → y.codes.getD b 0 = if b ∈ retry.map Prod.fst then min 0xFE (x.codes.getD b 0 + k.coll.raise) else x.codes.getD b 0)
        ∧ k'.coll.cnt.repairPasses = sat32 k.coll.cnt.repairPasses 1
        ∧ k'.coll.cnt.repairBlocks = sat32 k.coll.cnt.repairBlocks retry.length))

/-! ### Memory events -/

/-- HBM_REFRESH counts a collision for each transfer it delays, and tags HBM_REFRESH each that carries no tag yet or the far tier's, with
its token; no other tag changes (09 R230). SCRUB_READ reads the next codeword of the round, a pending write to it going first: one wrong
symbol is corrected, written back and counted, also towards its frame's 16; what cannot be corrected is counted, logged and left as it
is; on-die and poison indications are counted; no byte that a read sees changes, and at the end of the round the pass is counted (09 R239,
R240, R241, R260). With the scrub off, the channel stopped, or the device
asleep or in standby it does nothing. CXL_LINK_LOSS takes a trained link down
and raises a class H error and sets FATAL when a far-tier frame is valid, and a class C error otherwise (09 R255), and REFCLK_C_LOSS does
so in every channel whose link is trained (22 R490). -/
def Obligations.MemoryEvents : Prop :=
  ∀ (s : State) (c : ChanId),
    let k := s.chan c
    let lost := fun (k k' : Channel) =>
      let trained := k.mem.cxlPresent = true ∧ k.mem.cxlRate ≠ 3
      (¬ trained → k' = k)
      ∧ (trained → k'.wroteErr 6 0 .cxlLink (if k.mem.farValid then .H else .C)
        ∧ k' = { k with err := k'.err, mem := { k.mem with
            cxlUp := false, cxlRate := 3, cxlWidth := 0, cxlDegraded := true, cxlFatal := k.mem.cxlFatal || k.mem.farValid
            cnt := { k.mem.cnt with cxlLink := sat32 k.mem.cnt.cxlLink 1 } } })
    (∀ delayed : List Nat,
      let hit := fun (f : Flight) => f.unit ∈ delayed ∧ (f.tag = none ∨ f.tag = some .farTier)
      ∃ t : State, exec (.hbmRefresh c delayed) s = .next t ∧ s.onlyChan c t
        ∧ t.chan c = { k with flights := (t.chan c).flights, tokens := (t.chan c).tokens, mem := { k.mem with cnt := { k.mem.cnt with
            refreshColl := (delayed.filter (fun u => (k.flight u).isSome)).foldl (fun n _ => sat32 n 1) k.mem.cnt.refreshColl } } }
        ∧ (t.chan c).flights.map (fun (f : Flight) => (f.unit, f.entry, f.token)) = k.flights.map (fun (f : Flight) => (f.unit, f.entry, f.token))
        ∧ (∀ u f, k.flight u = some f → ∃ g, (t.chan c).flight u = some g
            ∧ (hit f → g = { f with tag := some .hbmRefresh } ∧ ∀ n, f.token = some n →
                (t.chan c).token n = { k.token n with tag := some .hbmRefresh })
            ∧ (¬ hit f → g = f))
        ∧ ∀ n, (∀ u f, k.flight u = some f → hit f → f.token ≠ some n) → (t.chan c).token n = k.token n)
    ∧ (∀ found : Option Upset,
      let i := Instr.scrubRead c found
      let idle := k.st = .init ∨ k.st = .halted ∨ k.st = .holdup ∨ k.mem.scrubRate = 0 ∨ s.awake = false ∨ s.power.standby = true
      (idle → exec i s = .next s)
      ∧ (¬ idle → ∃ t : State, exec i s = .next t ∧ s.onlyChan c t
        ∧ (k.mem.sound → ∀ a, (t.chan c).mem.byte a = k.mem.byte a)
        ∧ (k.mem.scrubNext k.mem.scrubAt = none → t.chan c = if k.mem.scrubAt = 0 then k
            else { k with mem := { k.mem with scrubAt := 0, scrubPasses := wrap32 (k.mem.scrubPasses + 1) } })
        ∧ (∀ pos, k.mem.scrubNext k.mem.scrubAt = some pos → k.mem.scrubKey pos = none → t.chan c = k)
        ∧ ∀ pos q, k.mem.scrubNext k.mem.scrubAt = some pos → k.mem.scrubKey pos = some q →
          let k₀ := match found with | some u => k.upset { u with addr := q.key } | none => k
          let cwi := q.key / 64
          let m := k₀.mem.writeFirst cwi
          let w := m.codeword cwi
          let bad := ¬ (w.written = true ∧ w.achk = achkOf cwi m.epoch) ∨ 2 ≤ w.wrong ∨ w.poison = true
          let frame := SMap.get 0 m.corrections (cwi / 32768) + 1
          let seen := { m with
            scrubAt := pos + 1, hits := [], farBytes := if farBase ≤ q.key then m.farBytes + 64 else m.farBytes
            cnt := { m.cnt with odUncorr := sat32 m.cnt.odUncorr (bit w.onDie), cxlPoison := sat32 m.cnt.cxlPoison (bit w.poison) } }
          (k.mem.writePending cwi = false → found = none → m = k.mem)
          ∧ m.writePending cwi = false
          ∧ (bad → (t.chan c).wroteErr 5 0 .memUncorr .C ∧ t.chan c = { k₀ with
              err := (t.chan c).err, mem := { seen with cnt := { seen.cnt with scrubUncorr := sat32 m.cnt.scrubUncorr 1 } } })
          ∧ (¬ bad → w.wrong = 1 → (frame = 16 → (t.chan c).wroteErr 5 0 .eccFrame .C) ∧ t.chan c = { k₀ with
              err := (t.chan c).err, mem := { seen with
                cw := SMap.set {} m.cw cwi { written := true, achk := achkOf cwi m.epoch }
                corrections := SMap.set 0 m.corrections (cwi / 32768) frame
                farBytes := if farBase ≤ 64 * cwi then seen.farBytes + 64 else seen.farBytes
                cnt := { seen.cnt with scrubCorr := sat32 m.cnt.scrubCorr 1 } } })
          ∧ (¬ bad → w.wrong ≠ 1 → t.chan c = { k₀ with err := (t.chan c).err, mem := seen })))
    ∧ (∃ t : State, exec (.cxlLinkLoss c) s = .next t ∧ s.onlyChan c t ∧ lost k (t.chan c))
    ∧ ∃ t : State, exec .refclkCLoss s = .next t ∧ t = { s with ch := t.ch, pins := { s.pins with refclkC := false } }
        ∧ ∀ d, lost (s.chan d) (t.chan d)

/-! ### Services -/

/-- The storage events of a channel, which do nothing while storage traffic cannot move (but for a target's failure). SHARD_FETCH begins
the fetch of the next shard whose slot is free, and SHARD_RESIDENT puts its data, opened with the job's storage key in confidential mode,
into slot s mod SLOTS and makes it resident (13 R336, R347); with no data, or data that does not open, it is a class J error (13 R337).
TARGET_RECONNECT connects a target while the channel's pool has a queue pair left, and otherwise counts an error (13 R335).
CHECKPOINT_DONE leaves objects and manifest on its target, and ends the checkpoint with its last target: its entry is provisional, or
clean when its step is D steps back, and a checkpoint that waits starts (13 R341, R348; 17 R421). CHECKPOINT_TARGET_FAIL loses the
connection to the target, with its queue pair, and completes a dual checkpoint on the other target in MODE 3 and abandons any other
(13 R342). No other channel changes. -/
def Obligations.StorageEvents : Prop :=
  ∀ (s : State) (c : ChanId),
    let k := s.chan c
    let v := k.svc
    let source := v.targets.any (fun (t : Target) => t.connected && bitOf t.role 0)
    let fetches := s.storageUp c = true ∧ v.hasShards = true ∧ source = true
    (¬ fetches ∨ k.nextShard = none → exec (.shardFetch c) s = .next s)
    ∧ (∀ n, fetches → k.nextShard = some n →
      exec (.shardFetch c) s = .next (s.setChan c { k with svc := { v with fetching := v.fetching ++ [n] } }))
    ∧ (∀ o : ShardObs,
      let i := Instr.shardResident c o
      let lands := v.fetching.contains o.step = true ∧ s.storageUp c = true
      let rest := v.fetching.filter (fun n => n != o.step)
      let opened := o.data.bind (unsealStored s.mram.conf k.storageKey)
      (¬ lands → exec i s = .next s)
      ∧ (lands → opened = none → exec i s
        = .next ((s.setChan c { k with svc := { v with fetching := rest } }).firmwareError c .shardFail .J 9 v.plan.src anyDetail))
      ∧ ∀ bytes, lands → opened = some bytes →
        let d := bytes.take v.plan.slotLen
        let start := v.plan.ring + o.step % v.plan.slots * v.plan.slotLen
        ∃ m, exec i s = .next (s.setChan c { k with mem := m, svc := { v with
              fetching := rest, resident := v.resident ++ [o.step], lastShard := o.step % v.plan.shards } })
          ∧ (k.mem.mapped true 0 start d.length = false → m = k.mem)
          ∧ (k.mem.mapped true 0 start d.length = true → k.mem.sound → k.mem.wrote m 0 start d))
    ∧ (∀ (target : Fin 4) (ok : Bool),
      let i := Instr.targetReconnect c target ok
      let x := v.target target.val
      let tries := s.storageUp c = true ∧ x.connected = false ∧ x.role ≠ 0
      (¬ tries → exec i s = .next s)
      ∧ (tries → ok = true → v.qps < s.mp.host.pools.getD c.val 0 →
        exec i s = .next (s.setChan c { k with svc := { v with
          qps := v.qps + 1, targets := modAt v.targets target.val (fun (y : Target) => { y with connected := true }) } }))
      ∧ (tries → ok = false ∨ s.mp.host.pools.getD c.val 0 ≤ v.qps →
        exec i s = .next (s.setChan c { k with svc := { v with
          targets := modAt v.targets target.val (fun (y : Target) => { y with errors := y.errors + 1 }) } })))
    ∧ ∀ target : Fin 4,
      let done := Instr.checkpointDone c target
      let fail := Instr.checkpointTargetFail c target
      let ends := fun (i : Instr) (q : State → Prop) => ∃ t : State, exec i s = .next t ∧ (∀ d, d ≠ c → t.chan d = s.chan d) ∧ q t
      let held := fun (st : State) (e : Ckpt) (state : Nat) => ∃ x ∈ (st.store c).ckpts, x.step = e.step ∧ x.wver = e.wver ∧ x.state = state
      let starts := fun (t : State) => ∃ r', (t.chan c).svc.ckpt = some r' ∧ r'.version = k.ver.cur ∧ r'.failed = [] ∧ (t.chan c).svc.ckptWaiting = false
      let lost := fun (t : State) => (t.chan c).svc.qps = v.qps - bit (v.target target.val).connected
        ∧ (t.chan c).svc.targets = modAt v.targets target.val (fun (y : Target) => { y with connected := false, errors := y.errors + 1 })
      ((∀ r, v.ckpt = some r → r.targets.contains target.val = false) → exec done s = .next s ∧ exec fail s = .next s)
      ∧ ∀ r e, v.ckpt = some r → r.targets.contains target.val = true →
          (s.store c).ckpts.find? (fun (x : Ckpt) => x.state == 1) = some e →
        let rest := r.targets.erase target.val
        let final := if e.cleanAt ≤ (match k.lastEnd with | some y => y.1 | none => 0) then 3 else 2
        (s.storageUp c = false → exec done s = .next s)
        ∧ (s.storageUp c = true → ends done (fun t =>
          (target.val < v.targets.length → ((t.chan c).svc.target target.val).written = some (s.ckptWritten c r target.val))
          ∧ (rest ≠ [] → (t.chan c).svc.ckpt = some { r with targets := rest })
          ∧ (rest = [] → v.ckptWaiting = false → (t.chan c).svc.ckpt = none ∧ held t e final)
          ∧ (rest = [] → v.ckptWaiting = true → starts t)))
        ∧ (r.mode = 2 → r.failed = [] → rest ≠ [] →
          ends fail (fun t => (t.chan c).svc.ckpt = some { r with targets := rest, failed := [target.val] } ∧ lost t))
        ∧ (r.mode = 2 → r.failed = [] → rest = [] → v.ckptWaiting = false →
          ends fail (fun t => (t.chan c).svc.ckpt = none ∧ held t e final ∧ lost t))
        ∧ (r.mode ≠ 2 ∨ r.failed ≠ [] → v.ckptWaiting = false → ends fail (fun t => (t.chan c).svc.ckpt = none ∧ held t e 5))

/-- RESTART_LOAD_DONE (13 R343; 17 R407, R422): the candidates are the images, on checkpoint targets, of clean checkpoints of the
channel's own job and number, newest first. The first whose objects verify is loaded, so that the channel is at the step after it, at
attempt 0, with its weight version; with a score in place its objects go to their places and the score starts, and otherwise they wait
for the score (log 48). When none verifies, RESTART_FAILED is reported. It does nothing when no restart waits for its checkpoint. No
other channel changes. -/
def Obligations.Restarts : Prop :=
  ∀ (s : State) (c : ChanId) (images : List CkptImage),
    let k := s.chan c
    let i := Instr.restartLoadDone c images
    let verified := fun (p : Manifest × CkptImage) => p.1.opened s.mram.conf k.storageKey p.2.objects
    (∀ p ∈ s.candidates c images, p.2 ∈ images ∧ Manifest.ofBytes p.2.manifest = some p.1 ∧ p.1.job = k.bind.job ∧ p.1.chan = c.val
      ∧ bitOf (k.svc.target p.2.target).role 1 = true ∧ s.cleanManifest c p.1 = true)
    ∧ (s.candidates c images).Pairwise (fun a b => b.1.step ≤ a.1.step)
    ∧ (∀ p os, verified p = some os → p.1.holds p.2.objects = true ∧ os.map Prod.fst = p.1.objects.map (fun o => o.1))
    ∧ ((∀ x, k.svc.restart = some x → x.ready = true ∨ s.storageUp c = false) → exec i s = .next s)
    ∧ ∀ x, k.svc.restart = some x → x.ready = false → s.storageUp c = true →
      ((∀ p ∈ s.candidates c images, verified p = none) → exec i s
        = .next ((s.setChan c { k with svc := { k.svc with restart := none } }).firmwareError c .restartFailed .J 9 0 anyDetail))
      ∧ ∀ before m img after os, s.candidates c images = before ++ (m, img) :: after → (∀ p ∈ before, verified p = none) →
          verified (m, img) = some os →
        ∃ t : State, exec i s = .next t ∧ (∀ d, d ≠ c → t.chan d = s.chan d)
          ∧ (t.chan c).step = wrap64 (m.step + 1) ∧ (t.chan c).attempt = 0 ∧ (t.chan c).ver.cur = m.wver
          ∧ (k.score = none → (t.chan c).svc.restart = some { ready := true, objects := os } ∧ (t.chan c).st = k.st
            ∧ (t.chan c).mem = k.mem)
          ∧ (∀ sc, k.score = some sc → (t.chan c).svc.restart = none ∧ (t.chan c).st = .run ∧ (t.chan c).ww.beat = 0
            ∧ ((∀ e ∈ sc.entries, ¬ (e.action = 1 ∧ (Score.tileAt k.pool e.desc).prod = 3)) →
              (t.chan c).mem = (k.putObjects m.wver os).mem))
/-! ### Security and error events -/

/-- WEIGHT_MEASURE_DONE closes a load window that is being measured with a TYPE 2 entry of the digest of what was read back, or, when
that cannot be corrected, with a class S error and no entry; of the channel's data it changes nothing (15 R378, R380). ATTESTATION_SIGNED
signs the first report that waits with the counter raised by one, keeps it for its session, answers the session's write, and changes
nothing else; of a session that has closed it keeps nothing (15 R381, R383). With no window measured, and with no report waiting or the
Mouthpiece down, they do nothing. -/
def Obligations.SecurityEvents : Prop :=
  ∀ s : State,
    (∀ c : ChanId,
      let k := s.chan c
      let got := (k.mem.load 0 k.meas.winAddr k.meas.winLen).1
      let closed := fun (t : State) (meas : Measured) => s.onlyChan c t ∧ t.chan c = { k with
        err := (t.chan c).err, meas := { meas with winState := 0 }
        mem := { k.mem with cw := (t.chan c).mem.cw, cnt := (t.chan c).mem.cnt, corrections := (t.chan c).mem.corrections
                            hits := (t.chan c).mem.hits, farBytes := (t.chan c).mem.farBytes } }
      (k.meas.winState ≠ 2 → exec (.weightMeasureDone c) s = .next s)
      ∧ (k.meas.winState = 2 → got.bad = false →
        ∃ t : State, exec (.weightMeasureDone c) s = .next t ∧ closed t (k.meas.add 2 0 k.meas.winLen (Hash.shake512 got.bytes)))
      ∧ (k.meas.winState = 2 → got.bad = true →
        ∃ u : State, exec (.weightMeasureDone c) s = .next (u.firmwareError c .memUncorr .S 2 0 (k.meas.winAddr / pageBytes))
          ∧ closed u k.meas))
    ∧ (s.mp.running = false ∨ s.power.lb.isSome = true ∨ s.mp.reports = [] → exec .attestationSigned s = .next s)
    ∧ ∀ r rest, s.mp.running = true → s.power.lb = none → s.mp.reports = r :: rest →
      let body := patch r.body 64 (leBytes 8 (s.mram.counter + 1)) ++ leBytes 2 1280
      let u : State := { s with mp := { s.mp with reports := rest }, mram := { s.mram with counter := s.mram.counter + 1 } }
      let kept := u.modSession r.session (fun x => { x with report := some (body ++ fitTo 1280 (Config.identitySign body)) })
      (s.session? r.session = none → exec .attestationSigned s = .next u)
      ∧ ∀ x, s.session? r.session = some x →
        ∃ t : State, exec .attestationSigned s = .next t ∧ kept.talked t
          ∧ (s.canSend = true → ∀ q : Req, q.session = r.session → q.txid = r.txid → s.replied t q r.op 0x8001 0 0 [])

/-- ERROR_FIFO_DRAIN takes the oldest entry of a channel's hardware error FIFO, lets a stalled unit's entry in, and completes and logs the
entry (17 R413); then its class acts (17 R403 to R409): class C is handled and class D is in handling; class S aborts the step that the
channel is in, so that it is at the start of the step again with the attempt one higher and nothing in flight; class J requests a rollback,
and after the verdict point aborts the step as well, or, where its cause waits for the host, a running channel is to stop at the end of the
step; class H halts the channel with its ports down; and class F leaves the device in FAULT with every channel halted. An entry whose
handling has ended already, and any in Last Breath or hold-up, is only logged (17 R416, R424). A halted channel with nothing left to drain
starts its halt timer (17 R408). With nothing to drain, nothing happens. (That the new entry stands in the ring of 256 after the action is said of a
channel with at most 200 errors in handling.) -/
def Obligations.ErrorHandling : Prop :=
  ∀ (s : State) (c : ChanId),
    let k := s.chan c
    let saving := ∃ b, s.power.lb = some b ∧ b.saved = false ∧ s.pins.pwrGood = true ∧ s.pins.refclkL = true
    let recorded := fun (t : State) (x : RawErr) (q : ErrEntry → Prop) => ∃ e ∈ (t.chan c).err.log.ring, e.seq = k.err.log.seq
      ∧ e.cause = x.cause ∧ e.cls = x.cls ∧ e.unit = x.unit ∧ (x.unit ≠ 5 → e.uidx = x.uidx) ∧ (x.detail ≠ anyDetail → e.detail = x.detail % 2 ^ 32)
      ∧ e.chan = c.val ∧ e.beat = k.ww.beats ∧ e.decl = s.mp.declTime ∧ e.job = k.bind.job ∧ e.attempt = k.attempt % 16
      ∧ e.step = (if k.bind.bound then k.step else 2 ^ 64 - 1) ∧ q e
    let logged := fun (t : State) (x : RawErr) (outcome : Nat) => recorded t x (fun e => e.outcome = outcome)
    let only := fun (t : State) (x : RawErr) (rest : List RawErr) (outcome : Nat) => logged t x outcome
      ∧ t.chan c = { k with err := (t.chan c).err } ∧ (∀ d, d ≠ c → t.chan d = s.chan d)
      ∧ (t.chan c).err.fifo = rest ++ k.err.stalled.take 1 ∧ (t.chan c).err.stalled = k.err.stalled.drop 1
    let atStart := fun (t : State) => (t.chan c).attempt = k.attempt + 1 ∧ (t.chan c).flights = [] ∧ (∀ n, ((t.chan c).token n).set = false)
      ∧ (∀ r, ((t.chan c).reed r).tile = none ∧ ((t.chan c).reed r).waiting = none ∧ ((t.chan c).reed r).valve.run = none)
      ∧ (t.chan c).coll.active = [] ∧ (t.chan c).ww.phrase = k.ww.stepPhrase ∧ (t.chan c).ww.beat = 0
      ∧ (∀ v, k.verSnap = some v → (t.chan c).ver.cur = v.cur) ∧ (t.chan c).step = k.step
    let i := Instr.errorFifoDrain c
    (k.st = .init ∨ (s.awake = false ∧ ¬ saving) ∨ k.err.fifo = [] → exec i s = .next s)
    ∧ ∀ x rest, k.st ≠ .init → s.awake = true ∨ saving → k.err.fifo = x :: rest →
      ∃ t : State, exec i s = .next t
        ∧ (x.cls ≠ .F → ∀ d, d ≠ c → t.chan d = s.chan d)
        ∧ ((t.chan c).st = .halted → (t.chan c).err.fifo = [] → (t.chan c).err.stalled = [] → t.dev ≠ 5 → (t.chan c).err.haltTimer = true)
        ∧ (k.err.handling.length ≤ 200 → recorded t x (fun _ => True))
        ∧ (∀ o, x.ended = some o → only t x rest o)
        ∧ (x.ended = none → saving ∨ k.st = .holdup → only t x rest 5)
        ∧ (x.ended = none → s.awake = true → k.st ≠ .holdup →
          (x.cls = .C → only t x rest 1)
          ∧ (x.cls = .D → only t x rest 0 ∧ ∃ h ∈ (t.chan c).err.handling, h.entry.cause = x.cause ∧ h.entry.unit = x.unit)
          ∧ (x.cls = .S → k.inStep = false ∨ isOutside x.cause = true → only t x rest 4)
          ∧ (x.cls = .S → k.inStep = true → isOutside x.cause = false → atStart t)
          ∧ (x.cls = .J → waitsForHost x.cause = false → (t.chan c).tun.rollbackPending = true
            ∧ (k.tun.verdict.isSome = true → k.running = true → atStart t)
            ∧ (k.tun.verdict = none ∨ k.running = false → (t.chan c).attempt = k.attempt ∧ (t.chan c).flights = k.flights))
          ∧ (x.cls = .J → waitsForHost x.cause = true → (t.chan c).tun.rollbackPending = k.tun.rollbackPending
            ∧ (t.chan c).flights = k.flights ∧ (t.chan c).st = k.st ∧ (k.running = true → (t.chan c).err.waitStop = true))
          ∧ (x.cls = .H → (t.chan c).st = .halted
            ∧ (k.st ≠ .halted → (t.chan c).flights = [] ∧ ∀ p, ((t.chan c).port p).st = .down ∨ ((t.chan c).port p).st = .disabled))
          ∧ (x.cls = .F → t.dev = 5 ∧ ∀ d, (t.chan d).st = .halted))

/-! ### Études -/

/-- The events of a channel's Études (18 R431 to R437). ETUDE_DUE queues a Reed that is due, or tests it at once; DEFERRAL_DEADLINE marks
a queued Reed that holds a slot; ROTATION_COPY_DONE gives the spare the displaced Reed's SRAM and starts the displaced Reed's run, once
its actions are done; ETUDE_WINDOW_END ends the pause, or lets the test under way complete. ETUDE_PHASE_DONE isolates an idle Reed and
clears its SRAM for the operating pass, then goes to heating and the stress pass, each at the effective bin as it begins (18 R439); a Reed that passes that is healthy with age 0 and its
SRAM cleared. One that fails its operating pass by a failed column takes its repair column, which is in use from the next channel start
(01 R16; log 70), and otherwise is retired; one that fails under stress gets one more trim raise while raises are left and then is retired.
A retirement that would leave too few healthy Reeds raises the bin floor and tests the Reed again instead, up to bin 15, where a Reed that
fails only under stress stays in service (18 R436, R437). A Reed that is queued again meanwhile may start its next run at once. No other
channel changes. -/
def Obligations.EtudeEvents : Prop :=
  ∀ (s : State) (c : ChanId), (s.store c).health.length = 68 →
    let k := s.chan c
    let e := k.etude
    let testing := fun (r : ReedId) => ∃ x, e.run = some x ∧ x.reed = r.val
    (∀ r : ReedId,
      let due := ¬ testing r ∧ e.queue.contains r.val = false ∧ (s.health c r.val).state ≠ 2 ∧ k.st ≠ .init ∧ k.st ≠ .halted
      (¬ due → exec (.etudeDue c r) s = .next s)
      ∧ (due → ∃ t : State, exec (.etudeDue c r) s = .next t ∧ (∀ d, d ≠ c → t.chan d = s.chan d ∧ t.store d = s.store d)
        ∧ (t.health c r.val).age = max (s.health c r.val).age s.mp.testInterval
        ∧ ((t.chan c).etude.queue.contains r.val = true ∨ ∃ x, (t.chan c).etude.run = some x ∧ x.reed = r.val ∧ x.phase = .isolate))
      ∧ (let late := e.queue.contains r.val = true ∧ k.slotMap.contains r.val = true ∧ e.overdue.contains r.val = false
        exec (.deferralDeadline c r) s = .next (s.setChan c { k with etude := { e with
          overdue := if late then e.overdue ++ [r.val] else e.overdue } })))
    ∧ (e.copy = none → exec (.rotationCopyDone c) s = .next s)
    ∧ (∀ a b : ReedId, e.copy = some (a.val, b.val) →
      let busy := (k.reed a).tile.isSome = true ∨ (k.reed a).waiting.isSome = true ∨ (k.reed a).valve.run.isSome = true
      (busy → exec (.rotationCopyDone c) s = .next s)
      ∧ (¬ busy → ∃ t : State, exec (.rotationCopyDone c) s = .next t ∧ (∀ d, d ≠ c → t.chan d = s.chan d)
        ∧ (t.chan c).reed b = { k.reed b with sram := (k.reed a).sram, badParity := (k.reed a).badParity }
        ∧ (∀ r, r ≠ b → (t.chan c).reed r = k.reed r) ∧ (t.chan c).etude.copy = none
        ∧ (e.queue.contains a.val = false → (t.chan c).etude = { e with copy := none } ∧ t.store c = s.store c)
        ∧ (e.queue.contains a.val = true → (t.health c a.val).state = 3 ∧ (t.chan c).etude.queue = e.queue.filter (fun n => n != a.val)
          ∧ ∃ x, (t.chan c).etude.run = some x ∧ x.reed = a.val ∧ x.phase = .isolate)))
    ∧ (e.window = false ∨ e.untilTests = true → exec (.etudeWindowEnd c) s = .next s)
    ∧ (e.window = true → e.untilTests = false →
      exec (.etudeWindowEnd c) s = .next (s.setChan c { k with etude :=
        if e.run.isNone then { e with window := false, late := false, untilTests := false } else { e with late := true } }))
    ∧ (∀ o, e.run = none → exec (.etudePhaseDone c o) s = .next s)
    ∧ ∀ (o : EtudeObs) (x : EtudeRun) (r : ReedId), e.run = some x → x.reed = r.val →
      let i := Instr.etudePhaseDone c o
      let ends := fun (q : State → Prop) => ∃ t : State, exec i s = .next t ∧ (∀ d, d ≠ c → t.chan d = s.chan d) ∧ q t
      let idle := (k.reed r).tile = none ∧ (k.reed r).waiting = none ∧ (k.reed r).valve.run = none
      let h := s.health c r.val
      let short := (s.healthyReeds c).length < k.active
      let back := fun (t : State) (state : Nat) => ((t.chan c).reed r).sram = []
        ∧ (e.queue.contains r.val = false → (t.health c r.val).state = state ∧ ∀ y, (t.chan c).etude.run = some y → y.reed ≠ r.val)
      let retires := fun (opFail : Bool) (t : State) =>
        (¬ short → back t 2 ∧ (t.health c r.val).stressOk = false)
        ∧ (short → (s.store c).binFloor < 15 → (t.store c).binFloor = (s.store c).binFloor + 1 ∧ (t.health c r.val).state = h.state
          ∧ ∃ y, (t.chan c).etude.run = some y ∧ y.reed = x.reed ∧ y.phase = .binRetest ∧ y.bin = t.effBin c ∧ y.opFail = opFail)
        ∧ (short → 15 ≤ (s.store c).binFloor → back t (if opFail then 2 else 0) ∧ (t.health c r.val).stressOk = false)
      (x.phase = .isolate → ¬ idle → exec i s = .next s)
      ∧ (x.phase = .isolate → idle → exec i s = .next (s.setChan c { (k.modReed r (fun y => { y.quiet with sram := [], badParity := [] })) with
          etude := { e with run := some { x with phase := .operating, bin := s.effBin c } } }))
      ∧ (x.phase = .heat → exec i s
        = .next (s.setChan c { k with etude := { e with run := some { x with phase := .stress, bin := s.effBin c, heatShort := o.heatShort } } }))
      ∧ (x.phase = .operating → o.pass = true → ends (fun t =>
        t.chan c = { k with etude := { e with run := some { x with phase := .heat, bin := s.effBin c }, log := (t.chan c).etude.log } }))
      ∧ (x.phase = .stress ∨ x.phase = .retry ∨ x.phase = .binRetest → o.pass = true →
        ends (fun t => back t 0 ∧ (t.health c r.val).age = 0
          ∧ ((t.health c r.val).stressOk = true ↔ x.phase ≠ .binRetest ∨ x.opFail = false)))
      ∧ (x.phase = .operating → o.pass = false →
        (∀ n, o.column = some n → h.repair = none ∨ (h.repair = some n ∧ h.repairOn = false) →
          ends (fun t => back t 1 ∧ (t.health c r.val).repair = some n ∧ (t.health c r.val).repairOn = h.repairOn
            ∧ (t.health c r.val).stressOk = false))
        ∧ ((∀ n, o.column = some n → h.repair ≠ none ∧ (h.repair = some n → h.repairOn = true)) → ends (retires true)))
      ∧ (x.phase = .stress ∨ x.phase = .retry → o.pass = false →
        (h.raises < s.mp.suspectSteps → ends (fun t => (t.health c r.val).raises = h.raises + 1 ∧ (t.chan c).reed r = k.reed r
          ∧ (t.chan c).etude.run = some { x with phase := .retry, bin := s.effBin c, was := 1 }))
        ∧ (s.mp.suspectSteps ≤ h.raises → ends (retires x.opFail)))
      ∧ (x.phase = .binRetest → o.pass = false → ends (retires x.opFail))
/-! ### The machine as a whole -/

/-- A step takes the command at the front of the queue and executes it on the state with the queue's rest. With none waiting it only
lets sessions hear of the stops that changed (log 1): it changes nothing but what sessions keep of their subscriptions and what has
been sent, and nothing at all where no datagram can be sent. -/
def Obligations.StepRunsFront : Prop :=
  ∀ s : State,
    (∀ (i : Instr) (rest : List Instr), s.pending = i :: rest → step s = exec i { s with pending := rest })
    ∧ (s.pending = [] → ∃ t : State, step s = .next t ∧ (s.canSend = false → t = s)
      ∧ t = { s with mp := { s.mp with
          sessions := t.mp.sessions, sent := t.mp.sent, host := { s.mp.host with cnt := t.mp.host.cnt } } }
      ∧ t.mp.sessions.map Session.handle = s.mp.sessions.map Session.handle)

/-- At reset the device and every channel are in INIT with no job bound, no score, no command waiting and nothing written in any memory;
the stops stand at the defaults that the stop tables give them (11, collective stops; 14 R354; 17 R408, R419; 18 R433 to R435; 19 R444,
R447; 21, stop reference); and the invariants that every step keeps hold. Which state reset is, and what unwritten memory reads as, are the
model's choices (logs 2, 6). -/
def Obligations.ResetState : Prop :=
  let s := State.reset
  s.dev = 0 ∧ s.pending = [] ∧ s.mp.sessions = [] ∧ s.legal ∧ s.canonical
    ∧ (∀ c, (s.chan c).st = .init ∧ (s.chan c).bind.bound = false ∧ (s.chan c).score = none ∧ (s.chan c).flights = []
      ∧ (∀ a, (s.chan c).mem.dram.rd a = unwritten) ∧ (∀ a, (s.chan c).mem.chest.rd a = unwritten)
      ∧ (∀ r a, ((s.chan c).reed r).sram.rd a = unwritten) ∧ (∀ p, ((s.chan c).port p).cnt = {}) ∧ (s.chan c).mem.cnt = {}
      ∧ (s.chan c).coll.floor = 5000 ∧ (s.chan c).coll.interval = 64 ∧ (s.chan c).coll.raise = 4 ∧ (s.chan c).coll.repeats = 3)
    ∧ s.mp.idleTimeout = 300 ∧ s.mp.detDepth = 8 ∧ s.mram.haltPolicy = 1 ∧ s.mp.testInterval = 86400 ∧ s.mp.deferral = 240
    ∧ s.mp.winInterval = 0 ∧ s.mp.winLength = 4000 ∧ s.mp.suspectSteps = 3 ∧ s.power.swCap = 1800
    ∧ s.mram.sagThreshold = 62000 ∧ s.mram.capacitance = 2200

/-- The registers of the device stay legal: from every state in which they are, in every step. -/
def Obligations.StepKeepsLegal : Prop := ∀ s t : State, s.legal → step s = .next t → t.legal

/-- Every memory stays in canonical form, in every step. -/
def Obligations.StepKeepsMemories : Prop := ∀ s t : State, s.canonical → step s = .next t → t.canonical

/-- In every step what only moves one way moves that way: fuses, the meter's seal, the report counter and the binding epochs; and the
queue loses its front command and nothing else. -/
def Obligations.StepMovesOnward : Prop :=
  ∀ s t : State, s.legal → step s = .next t → s.onward t ∧ t.pending = s.pending.tail

end
end

