-- ==== Sys2Proof/Laws/Memory.lean ====
section
/-! SUPPORT. Sparse maps and memories: a read after a write, and every operation keeps the canonical form. -/

namespace Sys2Proof

variable {V : Type}

/-- Every key of a map lies above a bound. -/
def SMap.above (n : Nat) (m : SMap V) : Prop := ∀ e ∈ m, n < e.1

/-- The canonical form as a proposition by recursion on the entries. -/
theorem SMap.wf_cons [DecidableEq V] (dflt : V) (k : Nat) (v : V) (m : SMap V) :
    SMap.wf dflt ((k, v) :: m) = true ↔ v ≠ dflt ∧ SMap.above k m ∧ SMap.wf dflt m = true := by
  induction m generalizing k v with
  | nil => simp [SMap.wf, SMap.above]
  | cons e m ih =>
    obtain ⟨k', v'⟩ := e
    have h := ih k' v'
    constructor
    · intro hw
      simp only [SMap.wf, Bool.and_eq_true, decide_eq_true_eq] at hw
      refine ⟨hw.1.1, ?_, ?_⟩
      · have hm : SMap.wf dflt ((k', v') :: m) = true := by simp [SMap.wf, hw.2]
        intro e he
        rcases List.mem_cons.mp he with rfl | he
        · exact hw.1.2
        · exact lt_trans hw.1.2 ((h.mp hm).2.1 e he)
      · simp [SMap.wf, hw.2]
    · rintro ⟨h1, h2, h3⟩
      have := h2 (k', v') (by simp)
      simp only [SMap.wf, Bool.and_eq_true, decide_eq_true_eq] at h3 ⊢
      exact ⟨⟨h1, this⟩, h3⟩

theorem SMap.wf_nil [DecidableEq V] (dflt : V) : SMap.wf dflt ([] : SMap V) = true := rfl

theorem SMap.above_mono {n k : Nat} {m : SMap V} (h : n ≤ k) (ha : SMap.above k m) : SMap.above n m :=
  fun e he => lt_of_le_of_lt h (ha e he)

/-- An unlisted key reads as the default. -/
theorem SMap.get_of_above (dflt : V) {n k : Nat} {m : SMap V} (h : SMap.above n m) (hk : k ≤ n) : SMap.get dflt m k = dflt := by
  cases m with
  | nil => rfl
  | cons e m =>
    have := h e (by simp)
    obtain ⟨k', v'⟩ := e
    simp only [SMap.get]
    rw [if_neg (by simp at this; omega), if_pos (by simp at this; omega)]

theorem SMap.above_put {n k : Nat} {v : V} {m : SMap V} (h : SMap.above n m) (hk : n < k) : SMap.above n (SMap.put m k v) := by
  induction m with
  | nil => intro e he; simp [SMap.put] at he; simp [he, hk]
  | cons e m ih =>
    obtain ⟨k', v'⟩ := e
    have h' : n < k' := h (k', v') (by simp)
    have hm : SMap.above n m := fun e he => h e (by simp [he])
    intro e he
    simp only [SMap.put] at he
    split at he
    · rcases List.mem_cons.mp he with rfl | he
      · exact hk
      · exact hm e he
    · split at he
      · rcases List.mem_cons.mp he with rfl | he
        · exact hk
        · exact h e he
      · rcases List.mem_cons.mp he with rfl | he
        · exact h'
        · exact ih hm e he

theorem SMap.above_drop {n k : Nat} {m : SMap V} (h : SMap.above n m) : SMap.above n (SMap.drop m k) := by
  induction m with
  | nil => exact h
  | cons e m ih =>
    obtain ⟨k', v'⟩ := e
    have hm : SMap.above n m := fun e he => h e (by simp [he])
    simp only [SMap.drop]
    split
    · exact hm
    · split
      · exact h
      · intro e he
        rcases List.mem_cons.mp he with rfl | he
        · exact h _ (by simp)
        · exact ih hm e he

theorem SMap.wf_put [DecidableEq V] (dflt : V) {m : SMap V} {k : Nat} {v : V} (h : SMap.wf dflt m = true) (hv : v ≠ dflt) :
    SMap.wf dflt (SMap.put m k v) = true := by
  induction m with
  | nil => simp [SMap.put, SMap.wf, hv]
  | cons e m ih =>
    obtain ⟨k', v'⟩ := e
    obtain ⟨h1, h2, h3⟩ := (SMap.wf_cons dflt k' v' m).mp h
    simp only [SMap.put]
    split
    · next e => subst e; exact (SMap.wf_cons dflt k v m).mpr ⟨hv, h2, h3⟩
    · split
      · next hlt =>
        refine (SMap.wf_cons dflt k v _).mpr ⟨hv, ?_, h⟩
        intro e he
        rcases List.mem_cons.mp he with rfl | he
        · exact hlt
        · exact lt_trans hlt (h2 e he)
      · exact (SMap.wf_cons dflt k' v' _).mpr ⟨h1, SMap.above_put h2 (by omega), ih h3⟩

theorem SMap.wf_drop [DecidableEq V] (dflt : V) {m : SMap V} {k : Nat} (h : SMap.wf dflt m = true) :
    SMap.wf dflt (SMap.drop m k) = true := by
  induction m with
  | nil => exact h
  | cons e m ih =>
    obtain ⟨k', v'⟩ := e
    obtain ⟨h1, h2, h3⟩ := (SMap.wf_cons dflt k' v' m).mp h
    simp only [SMap.drop]
    split
    · exact h3
    · split
      · exact h
      · exact (SMap.wf_cons dflt k' v' _).mpr ⟨h1, SMap.above_drop h2, ih h3⟩

/-- A write keeps the canonical form. -/
theorem SMap.wf_set [DecidableEq V] (dflt : V) {m : SMap V} (k : Nat) (v : V) (h : SMap.wf dflt m = true) :
    SMap.wf dflt (SMap.set dflt m k v) = true := by
  simp only [SMap.set]
  split
  · exact SMap.wf_drop dflt h
  · next hv => exact SMap.wf_put dflt h hv

/-- Keeping some of the entries keeps the canonical form. -/
theorem SMap.wf_filter [DecidableEq V] (dflt : V) {m : SMap V} (p : Nat × V → Bool) (h : SMap.wf dflt m = true) :
    SMap.wf dflt (m.filter p) = true := by
  induction m with
  | nil => exact h
  | cons e m ih =>
    obtain ⟨k, v⟩ := e
    obtain ⟨h1, h2, h3⟩ := (SMap.wf_cons dflt k v m).mp h
    simp only [List.filter]
    split
    · exact (SMap.wf_cons dflt k v _).mpr ⟨h1, fun e he => h2 e (List.mem_of_mem_filter he), ih h3⟩
    · exact ih h3

theorem SMap.wf_clear [DecidableEq V] (dflt : V) {m : SMap V} (lo hi : Nat) (h : SMap.wf dflt m = true) :
    SMap.wf dflt (SMap.clear m lo hi) = true := SMap.wf_filter dflt _ h

theorem SMap.get_put_self (dflt : V) (m : SMap V) (k : Nat) (v : V) : SMap.get dflt (SMap.put m k v) k = v := by
  induction m with
  | nil => simp [SMap.put, SMap.get]
  | cons e m ih =>
    obtain ⟨k', v'⟩ := e
    simp only [SMap.put]
    split
    · simp [SMap.get]
    · split
      · simp [SMap.get]
      · next h1 h2 => simp [SMap.get, h1, h2, ih]

theorem SMap.get_put_ne (dflt : V) (m : SMap V) {k j : Nat} (v : V) (h : j ≠ k) (hm : SMap.get dflt m j = SMap.get dflt m j) :
    SMap.get dflt (SMap.put m k v) j = SMap.get dflt m j := by
  induction m with
  | nil =>
    simp only [SMap.put, SMap.get]
    split
    · contradiction
    · split <;> rfl
  | cons e m ih =>
    obtain ⟨k', v'⟩ := e
    simp only [SMap.put]
    split
    · next e => subst e; simp [SMap.get, h]
    · split
      · simp only [SMap.get]
        rw [if_neg h]
        split
        · next hlt => rw [if_neg (by omega), if_pos (by omega)]
        · rfl
      · simp only [SMap.get]
        split
        · rfl
        · split
          · rfl
          · exact ih rfl

theorem SMap.get_drop_self [DecidableEq V] (dflt : V) {m : SMap V} (k : Nat) (h : SMap.wf dflt m = true) :
    SMap.get dflt (SMap.drop m k) k = dflt := by
  induction m with
  | nil => rfl
  | cons e m ih =>
    obtain ⟨k', v'⟩ := e
    obtain ⟨_, h2, h3⟩ := (SMap.wf_cons dflt k' v' m).mp h
    simp only [SMap.drop]
    split
    · next e => subst e; exact SMap.get_of_above dflt h2 (le_refl _)
    · split
      · next h1 hlt => simp [SMap.get, h1, hlt]
      · next h1 hlt => simp [SMap.get, h1, hlt, ih h3]

theorem SMap.get_drop_ne [DecidableEq V] (dflt : V) {m : SMap V} {k j : Nat} (hj : j ≠ k) (h : SMap.wf dflt m = true) :
    SMap.get dflt (SMap.drop m k) j = SMap.get dflt m j := by
  induction m with
  | nil => rfl
  | cons e m ih =>
    obtain ⟨k', v'⟩ := e
    obtain ⟨_, h2, h3⟩ := (SMap.wf_cons dflt k' v' m).mp h
    simp only [SMap.drop]
    split
    · next e =>
      subst e
      simp only [SMap.get]
      rw [if_neg hj]
      split
      · next hlt => exact SMap.get_of_above dflt h2 (le_of_lt hlt)
      · rfl
    · split
      · rfl
      · simp only [SMap.get]
        rw [ih h3]

/-- A read after a write to the same key gives the value written. -/
theorem SMap.get_set_self [DecidableEq V] (dflt : V) {m : SMap V} (k : Nat) (v : V) (h : SMap.wf dflt m = true) :
    SMap.get dflt (SMap.set dflt m k v) k = v := by
  simp only [SMap.set]
  split
  · next e => rw [SMap.get_drop_self dflt k h, e]
  · exact SMap.get_put_self dflt m k v

/-- A write leaves every other key alone. -/
theorem SMap.get_set_ne [DecidableEq V] (dflt : V) {m : SMap V} {k j : Nat} (v : V) (hj : j ≠ k) (h : SMap.wf dflt m = true) :
    SMap.get dflt (SMap.set dflt m k v) j = SMap.get dflt m j := by
  simp only [SMap.set]
  split
  · exact SMap.get_drop_ne dflt hj h
  · exact SMap.get_put_ne dflt m v hj rfl

/-! ### Memories -/

theorem Memory.wf_wr {m : Memory} (a : Nat) (b : Byte) (h : m.wf = true) : (m.wr a b).wf = true := SMap.wf_set unwritten a b h

theorem Memory.rd_wr_self {m : Memory} (a : Nat) (b : Byte) (h : m.wf = true) : (m.wr a b).rd a = b :=
  SMap.get_set_self unwritten a b h

theorem Memory.rd_wr_ne {m : Memory} {a j : Nat} (b : Byte) (hj : j ≠ a) (h : m.wf = true) : (m.wr a b).rd j = m.rd j :=
  SMap.get_set_ne unwritten b hj h

theorem Memory.wf_write {m : Memory} (a : Nat) (bs : List Byte) (h : m.wf = true) : (Memory.write m a bs).wf = true := by
  induction bs generalizing m a with
  | nil => exact h
  | cons b bs ih => exact ih (a + 1) (Memory.wf_wr a b h)

/-- Every byte outside the bytes written reads as before. -/
theorem Memory.rd_write_outside {m : Memory} (a : Nat) (bs : List Byte) {j : Nat} (h : m.wf = true)
    (hj : j < a ∨ a + bs.length ≤ j) : (Memory.write m a bs).rd j = m.rd j := by
  induction bs generalizing m a with
  | nil => rfl
  | cons b bs ih =>
    simp only [List.length_cons] at hj
    simp only [Memory.write]
    rw [ih (a + 1) (Memory.wf_wr a b h) (by omega)]
    exact Memory.rd_wr_ne b (by omega) h

/-- Every byte written reads as written. -/
theorem Memory.rd_write_inside {m : Memory} (a : Nat) (bs : List Byte) (i : Nat) (h : m.wf = true) (hi : i < bs.length) :
    (Memory.write m a bs).rd (a + i) = bs[i] := by
  induction bs generalizing m a i with
  | nil => simp at hi
  | cons b bs ih =>
    simp only [Memory.write]
    cases i with
    | zero =>
      rw [Memory.rd_write_outside (a + 1) bs (Memory.wf_wr a b h) (by omega)]
      simpa using Memory.rd_wr_self a b h
    | succ i =>
      have := ih (a + 1) i (Memory.wf_wr a b h) (by simpa using hi)
      simpa [Nat.add_assoc, Nat.add_comm 1 i] using this

theorem Memory.wf_zeroRange {m : Memory} (a n : Nat) (h : m.wf = true) : (m.zeroRange a n).wf = true :=
  SMap.wf_clear unwritten a (a + n) h

namespace Machine

/-! ### The memory of a channel: only `dram` and `chest` are memories, and every operation keeps their form -/

theorem Mem.canonical_of_eq {m m' : Mem} (h : m.canonical) (hd : m'.dram = m.dram) (hc : m'.chest = m.chest) : m'.canonical := by
  rw [Mem.canonical, hd, hc]; exact h

theorem Memory.wf_foldl_wr {β : Type} (l : List β) (f : β → Nat) (g : β → Byte) {m : Memory} (h : m.wf = true) :
    (l.foldl (fun (d : Memory) x => d.wr (f x) (g x)) m).wf = true := by
  induction l generalizing m with
  | nil => exact h
  | cons x l ih => exact ih (Memory.wf_wr (f x) (g x) h)

/-- A fold over operations that keep a property keeps it. -/
theorem foldl_keeps {α β : Type} {P : α → Prop} {f : α → β → α} (hf : ∀ a b, P a → P (f a b)) (l : List β) {a : α} (h : P a) :
    P (l.foldl f a) := by
  induction l generalizing a with
  | nil => exact h
  | cons x l ih => exact ih (hf a x h)

/-! What a codeword's protection state costs changes no byte: each of these keeps `dram` and `chest`. -/

@[simp] theorem Mem.setCodeword_dram (m : Mem) (c : Nat) (w : Codeword) : (m.setCodeword c w).dram = m.dram := rfl
@[simp] theorem Mem.setCodeword_chest (m : Mem) (c : Nat) (w : Codeword) : (m.setCodeword c w).chest = m.chest := rfl
@[simp] theorem Mem.indications_dram (m : Mem) (w : Codeword) : (m.indications w).dram = m.dram := rfl
@[simp] theorem Mem.indications_chest (m : Mem) (w : Codeword) : (m.indications w).chest = m.chest := rfl
@[simp] theorem Mem.corrected_dram (m : Mem) (c : Nat) : (m.corrected c).dram = m.dram := rfl
@[simp] theorem Mem.corrected_chest (m : Mem) (c : Nat) : (m.corrected c).chest = m.chest := rfl

@[simp] theorem Mem.moved_dram (m : Mem) (key n : Nat) : (m.moved key n).dram = m.dram := by
  unfold Mem.moved; split <;> rfl

@[simp] theorem Mem.moved_chest (m : Mem) (key n : Nat) : (m.moved key n).chest = m.chest := by
  unfold Mem.moved; split <;> rfl

@[simp] theorem Mem.writeBack_dram (m : Mem) (c : Nat) : (m.writeBack c).dram = m.dram := by
  unfold Mem.writeBack; split <;> simp

@[simp] theorem Mem.writeBack_chest (m : Mem) (c : Nat) : (m.writeBack c).chest = m.chest := by
  unfold Mem.writeBack; split <;> simp

@[simp] theorem Mem.checkCodeword_dram (m : Mem) (cls c : Nat) : (m.checkCodeword cls c).2.dram = m.dram := by
  simp only [Mem.checkCodeword]
  split
  · simp
  · split
    · simp
    · split <;> simp

@[simp] theorem Mem.checkCodeword_chest (m : Mem) (cls c : Nat) : (m.checkCodeword cls c).2.chest = m.chest := by
  simp only [Mem.checkCodeword]
  split
  · simp
  · split
    · simp
    · split <;> simp

theorem Mem.writeCodeword_canonical {m : Mem} (l : WcbLine) (i : Nat) (h : m.canonical) : (m.writeCodeword l i).canonical := by
  have hd := fun (bs : SMap Byte) => Memory.wf_foldl_wr bs (fun b => l.addr + b.1) (fun b => b.2) h.1
  simp only [Mem.writeCodeword]
  split
  · exact h
  · split
    · exact ⟨by simpa using hd _, by simpa using h.2⟩
    · split
      · constructor
        · simp only [Mem.moved_dram, Mem.setCodeword_dram]
          split <;> exact hd _
        · simp only [Mem.moved_chest, Mem.setCodeword_chest]
          split <;> exact h.2
      · exact ⟨by simpa using hd _, by simpa using h.2⟩

theorem Mem.writeLine_canonical {m : Mem} (l : WcbLine) (h : m.canonical) : (m.writeLine l).canonical :=
  foldl_keeps (fun _ i ha => Mem.writeCodeword_canonical l i ha) _ h

theorem Mem.flush_canonical {m : Mem} (h : m.canonical) : m.flush.canonical := by
  have := foldl_keeps (P := Mem.canonical) (fun _ i ha => Mem.writeLine_canonical i ha) m.wcb h
  exact Mem.canonical_of_eq this rfl rfl

theorem Mem.wcbWrite_canonical {m : Mem} (q : Place) (bs : List Byte) (h : m.canonical) : (m.wcbWrite q bs).canonical := by
  have key : ∀ (m1 : Mem), m1.canonical → ∀ (rest : List WcbLine) (fresh : Bool),
      (match fresh && decide (256 ≤ rest.length), rest with
        | true, v :: more => { (m1.writeLine v) with wcb := more, cnt := { (m1.writeLine v).cnt with wcbEvict := sat32 m1.cnt.wcbEvict 1 } }
        | _, _ => m1 : Mem).canonical := by
    intro m1 h1 rest fresh
    split
    · exact Mem.canonical_of_eq (Mem.writeLine_canonical _ h1) rfl rfl
    · exact h1
  have h' : ∀ w, ({ m with wcb := w } : Mem).canonical := fun _ => h
  simp only [Mem.wcbWrite]
  split
  · apply Mem.writeLine_canonical
    exact key _ (h' _) _ _
  · refine Mem.canonical_of_eq (key _ (h' _) _ _) rfl rfl

theorem Mem.store_canonical {m : Mem} (space addr : Nat) (bs : List Byte) (h : m.canonical) : (m.store space addr bs).canonical := by
  refine foldl_keeps (P := Mem.canonical) (fun a p ha => ?_) _ h
  split
  · exact Mem.wcbWrite_canonical _ _ ha
  · exact ha

theorem Mem.readPiece_memories (m : Mem) (q : Place) (n : Nat) (acc : Found) :
    (m.readPiece q n acc).2.dram = m.dram ∧ (m.readPiece q n acc).2.chest = m.chest := by
  simp only [Mem.readPiece]
  exact foldl_keeps (P := fun (s : Found × Mem) => s.2.dram = m.dram ∧ s.2.chest = m.chest)
    (fun s c hs => ⟨by simpa using hs.1, by simpa using hs.2⟩) _ ⟨rfl, rfl⟩

/-- A read changes no byte of memory. -/
theorem Mem.load_memories (m : Mem) (space addr n : Nat) :
    (m.load space addr n).2.dram = m.dram ∧ (m.load space addr n).2.chest = m.chest := by
  refine foldl_keeps (P := fun (s : Found × Mem) => s.2.dram = m.dram ∧ s.2.chest = m.chest) (fun s p hs => ?_) _ ⟨rfl, rfl⟩
  split
  · have := Mem.readPiece_memories s.2 (by assumption) p.2 s.1
    exact ⟨this.1.trans hs.1, this.2.trans hs.2⟩
  · exact hs

theorem Mem.forgetFrame_canonical {m : Mem} (key : Nat) (h : m.canonical) : (m.forgetFrame key).canonical :=
  ⟨Memory.wf_zeroRange _ _ h.1, h.2⟩

theorem Mem.newEpoch_canonical {m : Mem} (epoch : Nat) (h : m.canonical) : (m.newEpoch epoch).canonical := ⟨rfl, h.2⟩

theorem Channel.canonical_of_eq {k k' : Channel} (h : k.canonical) (hm : k'.mem = k.mem) (hr : k'.reeds = k.reeds)
    (hs : k'.shadow = k.shadow) (hl : k'.live = k.live) : k'.canonical := by
  refine ⟨hm ▸ h.1, fun r => ?_, fun w hw => h.2.2 w ?_⟩
  · simpa [Channel.reed, hr] using h.2.1 r
  · simpa [hs, hl] using hw

end Machine

end Sys2Proof
end

