-- ==== Sys2Proof/Laws/State.lean ====
section
/-! SUPPORT. The small lemmas of the named updates: what each leaves of every field, and what a read sees after it. -/

namespace Sys2Proof.Machine

open Sys2Proof

/-! ### The four channels -/

theorem vector_get_set_self {α : Type} {n : Nat} (v : Vector α n) (i : Fin n) (x : α) : (v.set i.val x i.isLt).get i = x := by
  rw [Vector.get_eq_getElem]; exact Vector.getElem_set_self i.isLt

theorem vector_get_set_ne {α : Type} {n : Nat} (v : Vector α n) {i j : Fin n} (x : α) (h : j ≠ i) :
    (v.set i.val x i.isLt).get j = v.get j := by
  rw [Vector.get_eq_getElem, Vector.get_eq_getElem]
  exact Vector.getElem_set_ne i.isLt j.isLt (fun e => h (Fin.ext e.symm))

@[simp] theorem State.chan_setChan_self (s : State) (c : ChanId) (k : Channel) : (s.setChan c k).chan c = k :=
  vector_get_set_self s.ch c k

@[simp] theorem State.chan_setChan_ne (s : State) (k : Channel) {c d : ChanId} (h : d ≠ c) :
    (s.setChan c k).chan d = s.chan d := vector_get_set_ne s.ch k h

@[simp] theorem State.chan_modChan_self (s : State) (c : ChanId) (f : Channel → Channel) :
    (s.modChan c f).chan c = f (s.chan c) := State.chan_setChan_self s c _

@[simp] theorem State.chan_modChan_ne (s : State) (f : Channel → Channel) {c d : ChanId} (h : d ≠ c) :
    (s.modChan c f).chan d = s.chan d := State.chan_setChan_ne s _ h

@[simp] theorem State.store_modStore_self (s : State) (c : ChanId) (f : ChanStore → ChanStore) :
    (s.modStore c f).store c = f (s.store c) := vector_get_set_self s.mram.chan c _

@[simp] theorem State.store_modStore_ne (s : State) (f : ChanStore → ChanStore) {c d : ChanId} (h : d ≠ c) :
    (s.modStore c f).store d = s.store d := vector_get_set_ne s.mram.chan _ h

/-! ### Reeds and ports of a channel -/

@[simp] theorem Channel.reed_modReed_self (k : Channel) (r : ReedId) (f : Reed → Reed) :
    (k.modReed r f).reed r = f (k.reed r) := vector_get_set_self k.reeds r _

@[simp] theorem Channel.reed_modReed_ne (k : Channel) (f : Reed → Reed) {r q : ReedId} (h : q ≠ r) :
    (k.modReed r f).reed q = k.reed q := vector_get_set_ne k.reeds _ h

@[simp] theorem Channel.reed_modValve_self (k : Channel) (r : ReedId) (f : Valve → Valve) :
    (k.modValve r f).reed r = { k.reed r with valve := f (k.reed r).valve } := Channel.reed_modReed_self k r _

@[simp] theorem Channel.reed_modValve_ne (k : Channel) (f : Valve → Valve) {r q : ReedId} (h : q ≠ r) :
    (k.modValve r f).reed q = k.reed q := Channel.reed_modReed_ne k _ h

@[simp] theorem Channel.port_modPort_self (k : Channel) (p : PortId) (f : Port → Port) :
    (k.modPort p f).port p = f (k.port p) := vector_get_set_self k.ports p _

@[simp] theorem Channel.port_modPort_ne (k : Channel) (f : Port → Port) {p q : PortId} (h : q ≠ p) :
    (k.modPort p f).port q = k.port q := vector_get_set_ne k.ports _ h

/-! ### setChan -/

@[simp] theorem State.setChan_pins (s : State) (c : ChanId) (k : Channel) : (s.setChan c k).pins = s.pins := rfl
@[simp] theorem State.setChan_power (s : State) (c : ChanId) (k : Channel) : (s.setChan c k).power = s.power := rfl
@[simp] theorem State.setChan_dev (s : State) (c : ChanId) (k : Channel) : (s.setChan c k).dev = s.dev := rfl
@[simp] theorem State.setChan_mp (s : State) (c : ChanId) (k : Channel) : (s.setChan c k).mp = s.mp := rfl
@[simp] theorem State.setChan_mram (s : State) (c : ChanId) (k : Channel) : (s.setChan c k).mram = s.mram := rfl
@[simp] theorem State.setChan_fuses (s : State) (c : ChanId) (k : Channel) : (s.setChan c k).fuses = s.fuses := rfl
@[simp] theorem State.setChan_meter (s : State) (c : ChanId) (k : Channel) : (s.setChan c k).meter = s.meter := rfl
@[simp] theorem State.setChan_pending (s : State) (c : ChanId) (k : Channel) : (s.setChan c k).pending = s.pending := rfl
@[simp] theorem State.setChan_freeCtr (s : State) (c : ChanId) (k : Channel) : (s.setChan c k).freeCtr = s.freeCtr := rfl

/-! ### modChan -/

@[simp] theorem State.modChan_pins (s : State) (c : ChanId) (f : Channel → Channel) : (s.modChan c f).pins = s.pins := rfl
@[simp] theorem State.modChan_power (s : State) (c : ChanId) (f : Channel → Channel) : (s.modChan c f).power = s.power := rfl
@[simp] theorem State.modChan_dev (s : State) (c : ChanId) (f : Channel → Channel) : (s.modChan c f).dev = s.dev := rfl
@[simp] theorem State.modChan_mp (s : State) (c : ChanId) (f : Channel → Channel) : (s.modChan c f).mp = s.mp := rfl
@[simp] theorem State.modChan_mram (s : State) (c : ChanId) (f : Channel → Channel) : (s.modChan c f).mram = s.mram := rfl
@[simp] theorem State.modChan_fuses (s : State) (c : ChanId) (f : Channel → Channel) : (s.modChan c f).fuses = s.fuses := rfl
@[simp] theorem State.modChan_meter (s : State) (c : ChanId) (f : Channel → Channel) : (s.modChan c f).meter = s.meter := rfl
@[simp] theorem State.modChan_pending (s : State) (c : ChanId) (f : Channel → Channel) : (s.modChan c f).pending = s.pending := rfl
@[simp] theorem State.modChan_freeCtr (s : State) (c : ChanId) (f : Channel → Channel) : (s.modChan c f).freeCtr = s.freeCtr := rfl

/-! ### modStore -/

@[simp] theorem State.modStore_pins (s : State) (c : ChanId) (f : ChanStore → ChanStore) : (s.modStore c f).pins = s.pins := rfl
@[simp] theorem State.modStore_power (s : State) (c : ChanId) (f : ChanStore → ChanStore) : (s.modStore c f).power = s.power := rfl
@[simp] theorem State.modStore_dev (s : State) (c : ChanId) (f : ChanStore → ChanStore) : (s.modStore c f).dev = s.dev := rfl
@[simp] theorem State.modStore_mp (s : State) (c : ChanId) (f : ChanStore → ChanStore) : (s.modStore c f).mp = s.mp := rfl
@[simp] theorem State.modStore_fuses (s : State) (c : ChanId) (f : ChanStore → ChanStore) : (s.modStore c f).fuses = s.fuses := rfl
@[simp] theorem State.modStore_meter (s : State) (c : ChanId) (f : ChanStore → ChanStore) : (s.modStore c f).meter = s.meter := rfl
@[simp] theorem State.modStore_ch (s : State) (c : ChanId) (f : ChanStore → ChanStore) : (s.modStore c f).ch = s.ch := rfl
@[simp] theorem State.modStore_pending (s : State) (c : ChanId) (f : ChanStore → ChanStore) : (s.modStore c f).pending = s.pending := rfl
@[simp] theorem State.modStore_freeCtr (s : State) (c : ChanId) (f : ChanStore → ChanStore) : (s.modStore c f).freeCtr = s.freeCtr := rfl

/-! ### modComp -/

@[simp] theorem State.modComp_pins (s : State) (i : Nat) (f : Component → Component) : (s.modComp i f).pins = s.pins := rfl
@[simp] theorem State.modComp_power (s : State) (i : Nat) (f : Component → Component) : (s.modComp i f).power = s.power := rfl
@[simp] theorem State.modComp_dev (s : State) (i : Nat) (f : Component → Component) : (s.modComp i f).dev = s.dev := rfl
@[simp] theorem State.modComp_mp (s : State) (i : Nat) (f : Component → Component) : (s.modComp i f).mp = s.mp := rfl
@[simp] theorem State.modComp_fuses (s : State) (i : Nat) (f : Component → Component) : (s.modComp i f).fuses = s.fuses := rfl
@[simp] theorem State.modComp_meter (s : State) (i : Nat) (f : Component → Component) : (s.modComp i f).meter = s.meter := rfl
@[simp] theorem State.modComp_ch (s : State) (i : Nat) (f : Component → Component) : (s.modComp i f).ch = s.ch := rfl
@[simp] theorem State.modComp_pending (s : State) (i : Nat) (f : Component → Component) : (s.modComp i f).pending = s.pending := rfl
@[simp] theorem State.modComp_freeCtr (s : State) (i : Nat) (f : Component → Component) : (s.modComp i f).freeCtr = s.freeCtr := rfl

/-! ### modMp -/

@[simp] theorem State.modMp_pins (s : State) (f : Mouthpiece → Mouthpiece) : (s.modMp f).pins = s.pins := rfl
@[simp] theorem State.modMp_power (s : State) (f : Mouthpiece → Mouthpiece) : (s.modMp f).power = s.power := rfl
@[simp] theorem State.modMp_dev (s : State) (f : Mouthpiece → Mouthpiece) : (s.modMp f).dev = s.dev := rfl
@[simp] theorem State.modMp_mram (s : State) (f : Mouthpiece → Mouthpiece) : (s.modMp f).mram = s.mram := rfl
@[simp] theorem State.modMp_fuses (s : State) (f : Mouthpiece → Mouthpiece) : (s.modMp f).fuses = s.fuses := rfl
@[simp] theorem State.modMp_meter (s : State) (f : Mouthpiece → Mouthpiece) : (s.modMp f).meter = s.meter := rfl
@[simp] theorem State.modMp_ch (s : State) (f : Mouthpiece → Mouthpiece) : (s.modMp f).ch = s.ch := rfl
@[simp] theorem State.modMp_pending (s : State) (f : Mouthpiece → Mouthpiece) : (s.modMp f).pending = s.pending := rfl
@[simp] theorem State.modMp_freeCtr (s : State) (f : Mouthpiece → Mouthpiece) : (s.modMp f).freeCtr = s.freeCtr := rfl

@[simp] theorem State.modMp_mp (s : State) (f : Mouthpiece → Mouthpiece) : (s.modMp f).mp = f s.mp := rfl

/-! ### modMeter -/

@[simp] theorem State.modMeter_pins (s : State) (f : Meter → Meter) : (s.modMeter f).pins = s.pins := rfl
@[simp] theorem State.modMeter_power (s : State) (f : Meter → Meter) : (s.modMeter f).power = s.power := rfl
@[simp] theorem State.modMeter_dev (s : State) (f : Meter → Meter) : (s.modMeter f).dev = s.dev := rfl
@[simp] theorem State.modMeter_mp (s : State) (f : Meter → Meter) : (s.modMeter f).mp = s.mp := rfl
@[simp] theorem State.modMeter_mram (s : State) (f : Meter → Meter) : (s.modMeter f).mram = s.mram := rfl
@[simp] theorem State.modMeter_fuses (s : State) (f : Meter → Meter) : (s.modMeter f).fuses = s.fuses := rfl
@[simp] theorem State.modMeter_ch (s : State) (f : Meter → Meter) : (s.modMeter f).ch = s.ch := rfl
@[simp] theorem State.modMeter_pending (s : State) (f : Meter → Meter) : (s.modMeter f).pending = s.pending := rfl
@[simp] theorem State.modMeter_freeCtr (s : State) (f : Meter → Meter) : (s.modMeter f).freeCtr = s.freeCtr := rfl

@[simp] theorem State.modMeter_meter (s : State) (f : Meter → Meter) : (s.modMeter f).meter = f s.meter := rfl

/-! ### modSession -/

@[simp] theorem State.modSession_pins (s : State) (h : Nat) (f : Session → Session) : (s.modSession h f).pins = s.pins := rfl
@[simp] theorem State.modSession_power (s : State) (h : Nat) (f : Session → Session) : (s.modSession h f).power = s.power := rfl
@[simp] theorem State.modSession_dev (s : State) (h : Nat) (f : Session → Session) : (s.modSession h f).dev = s.dev := rfl
@[simp] theorem State.modSession_mram (s : State) (h : Nat) (f : Session → Session) : (s.modSession h f).mram = s.mram := rfl
@[simp] theorem State.modSession_fuses (s : State) (h : Nat) (f : Session → Session) : (s.modSession h f).fuses = s.fuses := rfl
@[simp] theorem State.modSession_meter (s : State) (h : Nat) (f : Session → Session) : (s.modSession h f).meter = s.meter := rfl
@[simp] theorem State.modSession_ch (s : State) (h : Nat) (f : Session → Session) : (s.modSession h f).ch = s.ch := rfl
@[simp] theorem State.modSession_pending (s : State) (h : Nat) (f : Session → Session) : (s.modSession h f).pending = s.pending := rfl
@[simp] theorem State.modSession_freeCtr (s : State) (h : Nat) (f : Session → Session) : (s.modSession h f).freeCtr = s.freeCtr := rfl

/-! ### drew -/

@[simp] theorem State.drew_pins (s : State) (n : Nat) : (s.drew n).pins = s.pins := rfl
@[simp] theorem State.drew_power (s : State) (n : Nat) : (s.drew n).power = s.power := rfl
@[simp] theorem State.drew_dev (s : State) (n : Nat) : (s.drew n).dev = s.dev := rfl
@[simp] theorem State.drew_mp (s : State) (n : Nat) : (s.drew n).mp = s.mp := rfl
@[simp] theorem State.drew_mram (s : State) (n : Nat) : (s.drew n).mram = s.mram := rfl
@[simp] theorem State.drew_fuses (s : State) (n : Nat) : (s.drew n).fuses = s.fuses := rfl
@[simp] theorem State.drew_meter (s : State) (n : Nat) : (s.drew n).meter = s.meter := rfl
@[simp] theorem State.drew_ch (s : State) (n : Nat) : (s.drew n).ch = s.ch := rfl
@[simp] theorem State.drew_pending (s : State) (n : Nat) : (s.drew n).pending = s.pending := rfl

/-! ### draw -/

@[simp] theorem State.draw_pins (s : State) (n : Nat) : ((s.draw n).2).pins = s.pins := rfl
@[simp] theorem State.draw_power (s : State) (n : Nat) : ((s.draw n).2).power = s.power := rfl
@[simp] theorem State.draw_dev (s : State) (n : Nat) : ((s.draw n).2).dev = s.dev := rfl
@[simp] theorem State.draw_mp (s : State) (n : Nat) : ((s.draw n).2).mp = s.mp := rfl
@[simp] theorem State.draw_mram (s : State) (n : Nat) : ((s.draw n).2).mram = s.mram := rfl
@[simp] theorem State.draw_fuses (s : State) (n : Nat) : ((s.draw n).2).fuses = s.fuses := rfl
@[simp] theorem State.draw_meter (s : State) (n : Nat) : ((s.draw n).2).meter = s.meter := rfl
@[simp] theorem State.draw_ch (s : State) (n : Nat) : ((s.draw n).2).ch = s.ch := rfl
@[simp] theorem State.draw_pending (s : State) (n : Nat) : ((s.draw n).2).pending = s.pending := rfl

/-! ### Reads of a channel, of its part of the save store and of a component -/

@[simp] theorem State.chan_modMp (s : State) (f : Mouthpiece → Mouthpiece) (c : ChanId) : (s.modMp f).chan c = s.chan c := rfl
@[simp] theorem State.store_modMp (s : State) (f : Mouthpiece → Mouthpiece) (c : ChanId) : (s.modMp f).store c = s.store c := rfl
@[simp] theorem State.chan_modMeter (s : State) (f : Meter → Meter) (c : ChanId) : (s.modMeter f).chan c = s.chan c := rfl
@[simp] theorem State.store_modMeter (s : State) (f : Meter → Meter) (c : ChanId) : (s.modMeter f).store c = s.store c := rfl
@[simp] theorem State.chan_modSession (s : State) (h : Nat) (f : Session → Session) (c : ChanId) : (s.modSession h f).chan c = s.chan c := rfl
@[simp] theorem State.store_modSession (s : State) (h : Nat) (f : Session → Session) (c : ChanId) : (s.modSession h f).store c = s.store c := rfl
@[simp] theorem State.chan_drew (s : State) (n : Nat) (c : ChanId) : (s.drew n).chan c = s.chan c := rfl
@[simp] theorem State.store_drew (s : State) (n : Nat) (c : ChanId) : (s.drew n).store c = s.store c := rfl
@[simp] theorem State.chan_modComp (s : State) (i : Nat) (f : Component → Component) (c : ChanId) : (s.modComp i f).chan c = s.chan c := rfl
@[simp] theorem State.store_modComp (s : State) (i : Nat) (f : Component → Component) (c : ChanId) : (s.modComp i f).store c = s.store c := rfl
@[simp] theorem State.chan_modStore (s : State) (d : ChanId) (f : ChanStore → ChanStore) (c : ChanId) : (s.modStore d f).chan c = s.chan c := rfl
@[simp] theorem State.store_setChan (s : State) (d : ChanId) (k : Channel) (c : ChanId) : (s.setChan d k).store c = s.store c := rfl
@[simp] theorem State.store_modChan (s : State) (d : ChanId) (f : Channel → Channel) (c : ChanId) : (s.modChan d f).store c = s.store c := rfl

/-! ### modReed -/

@[simp] theorem Channel.modReed_st (k : Channel) (r : ReedId) (f : Reed → Reed) : (k.modReed r f).st = k.st := rfl
@[simp] theorem Channel.modReed_before (k : Channel) (r : ReedId) (f : Reed → Reed) : (k.modReed r f).before = k.before := rfl
@[simp] theorem Channel.modReed_load (k : Channel) (r : ReedId) (f : Reed → Reed) : (k.modReed r f).load = k.load := rfl
@[simp] theorem Channel.modReed_resume (k : Channel) (r : ReedId) (f : Reed → Reed) : (k.modReed r f).resume = k.resume := rfl
@[simp] theorem Channel.modReed_bind (k : Channel) (r : ReedId) (f : Reed → Reed) : (k.modReed r f).bind = k.bind := rfl
@[simp] theorem Channel.modReed_bins (k : Channel) (r : ReedId) (f : Reed → Reed) : (k.modReed r f).bins = k.bins := rfl
@[simp] theorem Channel.modReed_active (k : Channel) (r : ReedId) (f : Reed → Reed) : (k.modReed r f).active = k.active := rfl
@[simp] theorem Channel.modReed_spares (k : Channel) (r : ReedId) (f : Reed → Reed) : (k.modReed r f).spares = k.spares := rfl
@[simp] theorem Channel.modReed_slotMap (k : Channel) (r : ReedId) (f : Reed → Reed) : (k.modReed r f).slotMap = k.slotMap := rfl
@[simp] theorem Channel.modReed_live (k : Channel) (r : ReedId) (f : Reed → Reed) : (k.modReed r f).live = k.live := rfl
@[simp] theorem Channel.modReed_shadow (k : Channel) (r : ReedId) (f : Reed → Reed) : (k.modReed r f).shadow = k.shadow := rfl
@[simp] theorem Channel.modReed_shadowed (k : Channel) (r : ReedId) (f : Reed → Reed) : (k.modReed r f).shadowed = k.shadowed := rfl
@[simp] theorem Channel.modReed_signs (k : Channel) (r : ReedId) (f : Reed → Reed) : (k.modReed r f).signs = k.signs := rfl
@[simp] theorem Channel.modReed_score (k : Channel) (r : ReedId) (f : Reed → Reed) : (k.modReed r f).score = k.score := rfl
@[simp] theorem Channel.modReed_loading (k : Channel) (r : ReedId) (f : Reed → Reed) : (k.modReed r f).loading = k.loading := rfl
@[simp] theorem Channel.modReed_ww (k : Channel) (r : ReedId) (f : Reed → Reed) : (k.modReed r f).ww = k.ww := rfl
@[simp] theorem Channel.modReed_tokens (k : Channel) (r : ReedId) (f : Reed → Reed) : (k.modReed r f).tokens = k.tokens := rfl
@[simp] theorem Channel.modReed_scalarTok (k : Channel) (r : ReedId) (f : Reed → Reed) : (k.modReed r f).scalarTok = k.scalarTok := rfl
@[simp] theorem Channel.modReed_shardTok (k : Channel) (r : ReedId) (f : Reed → Reed) : (k.modReed r f).shardTok = k.shardTok := rfl
@[simp] theorem Channel.modReed_flights (k : Channel) (r : ReedId) (f : Reed → Reed) : (k.modReed r f).flights = k.flights := rfl
@[simp] theorem Channel.modReed_scalarQ (k : Channel) (r : ReedId) (f : Reed → Reed) : (k.modReed r f).scalarQ = k.scalarQ := rfl
@[simp] theorem Channel.modReed_stalls (k : Channel) (r : ReedId) (f : Reed → Reed) : (k.modReed r f).stalls = k.stalls := rfl
@[simp] theorem Channel.modReed_step (k : Channel) (r : ReedId) (f : Reed → Reed) : (k.modReed r f).step = k.step := rfl
@[simp] theorem Channel.modReed_attempt (k : Channel) (r : ReedId) (f : Reed → Reed) : (k.modReed r f).attempt = k.attempt := rfl
@[simp] theorem Channel.modReed_lastEnd (k : Channel) (r : ReedId) (f : Reed → Reed) : (k.modReed r f).lastEnd = k.lastEnd := rfl
@[simp] theorem Channel.modReed_ver (k : Channel) (r : ReedId) (f : Reed → Reed) : (k.modReed r f).ver = k.ver := rfl
@[simp] theorem Channel.modReed_verSnap (k : Channel) (r : ReedId) (f : Reed → Reed) : (k.modReed r f).verSnap = k.verSnap := rfl
@[simp] theorem Channel.modReed_verRungs (k : Channel) (r : ReedId) (f : Reed → Reed) : (k.modReed r f).verRungs = k.verRungs := rfl
@[simp] theorem Channel.modReed_tun (k : Channel) (r : ReedId) (f : Reed → Reed) : (k.modReed r f).tun = k.tun := rfl
@[simp] theorem Channel.modReed_conv (k : Channel) (r : ReedId) (f : Reed → Reed) : (k.modReed r f).conv = k.conv := rfl
@[simp] theorem Channel.modReed_otherFaults (k : Channel) (r : ReedId) (f : Reed → Reed) : (k.modReed r f).otherFaults = k.otherFaults := rfl
@[simp] theorem Channel.modReed_otherQuant (k : Channel) (r : ReedId) (f : Reed → Reed) : (k.modReed r f).otherQuant = k.otherQuant := rfl
@[simp] theorem Channel.modReed_mem (k : Channel) (r : ReedId) (f : Reed → Reed) : (k.modReed r f).mem = k.mem := rfl
@[simp] theorem Channel.modReed_ports (k : Channel) (r : ReedId) (f : Reed → Reed) : (k.modReed r f).ports = k.ports := rfl
@[simp] theorem Channel.modReed_paths (k : Channel) (r : ReedId) (f : Reed → Reed) : (k.modReed r f).paths = k.paths := rfl
@[simp] theorem Channel.modReed_coll (k : Channel) (r : ReedId) (f : Reed → Reed) : (k.modReed r f).coll = k.coll := rfl
@[simp] theorem Channel.modReed_svc (k : Channel) (r : ReedId) (f : Reed → Reed) : (k.modReed r f).svc = k.svc := rfl
@[simp] theorem Channel.modReed_meas (k : Channel) (r : ReedId) (f : Reed → Reed) : (k.modReed r f).meas = k.meas := rfl
@[simp] theorem Channel.modReed_err (k : Channel) (r : ReedId) (f : Reed → Reed) : (k.modReed r f).err = k.err := rfl
@[simp] theorem Channel.modReed_etude (k : Channel) (r : ReedId) (f : Reed → Reed) : (k.modReed r f).etude = k.etude := rfl
@[simp] theorem Channel.modReed_cxlPerst (k : Channel) (r : ReedId) (f : Reed → Reed) : (k.modReed r f).cxlPerst = k.cxlPerst := rfl

/-! ### modValve -/

@[simp] theorem Channel.modValve_st (k : Channel) (r : ReedId) (f : Valve → Valve) : (k.modValve r f).st = k.st := rfl
@[simp] theorem Channel.modValve_before (k : Channel) (r : ReedId) (f : Valve → Valve) : (k.modValve r f).before = k.before := rfl
@[simp] theorem Channel.modValve_load (k : Channel) (r : ReedId) (f : Valve → Valve) : (k.modValve r f).load = k.load := rfl
@[simp] theorem Channel.modValve_resume (k : Channel) (r : ReedId) (f : Valve → Valve) : (k.modValve r f).resume = k.resume := rfl
@[simp] theorem Channel.modValve_bind (k : Channel) (r : ReedId) (f : Valve → Valve) : (k.modValve r f).bind = k.bind := rfl
@[simp] theorem Channel.modValve_bins (k : Channel) (r : ReedId) (f : Valve → Valve) : (k.modValve r f).bins = k.bins := rfl
@[simp] theorem Channel.modValve_active (k : Channel) (r : ReedId) (f : Valve → Valve) : (k.modValve r f).active = k.active := rfl
@[simp] theorem Channel.modValve_spares (k : Channel) (r : ReedId) (f : Valve → Valve) : (k.modValve r f).spares = k.spares := rfl
@[simp] theorem Channel.modValve_slotMap (k : Channel) (r : ReedId) (f : Valve → Valve) : (k.modValve r f).slotMap = k.slotMap := rfl
@[simp] theorem Channel.modValve_live (k : Channel) (r : ReedId) (f : Valve → Valve) : (k.modValve r f).live = k.live := rfl
@[simp] theorem Channel.modValve_shadow (k : Channel) (r : ReedId) (f : Valve → Valve) : (k.modValve r f).shadow = k.shadow := rfl
@[simp] theorem Channel.modValve_shadowed (k : Channel) (r : ReedId) (f : Valve → Valve) : (k.modValve r f).shadowed = k.shadowed := rfl
@[simp] theorem Channel.modValve_signs (k : Channel) (r : ReedId) (f : Valve → Valve) : (k.modValve r f).signs = k.signs := rfl
@[simp] theorem Channel.modValve_score (k : Channel) (r : ReedId) (f : Valve → Valve) : (k.modValve r f).score = k.score := rfl
@[simp] theorem Channel.modValve_loading (k : Channel) (r : ReedId) (f : Valve → Valve) : (k.modValve r f).loading = k.loading := rfl
@[simp] theorem Channel.modValve_ww (k : Channel) (r : ReedId) (f : Valve → Valve) : (k.modValve r f).ww = k.ww := rfl
@[simp] theorem Channel.modValve_tokens (k : Channel) (r : ReedId) (f : Valve → Valve) : (k.modValve r f).tokens = k.tokens := rfl
@[simp] theorem Channel.modValve_scalarTok (k : Channel) (r : ReedId) (f : Valve → Valve) : (k.modValve r f).scalarTok = k.scalarTok := rfl
@[simp] theorem Channel.modValve_shardTok (k : Channel) (r : ReedId) (f : Valve → Valve) : (k.modValve r f).shardTok = k.shardTok := rfl
@[simp] theorem Channel.modValve_flights (k : Channel) (r : ReedId) (f : Valve → Valve) : (k.modValve r f).flights = k.flights := rfl
@[simp] theorem Channel.modValve_scalarQ (k : Channel) (r : ReedId) (f : Valve → Valve) : (k.modValve r f).scalarQ = k.scalarQ := rfl
@[simp] theorem Channel.modValve_stalls (k : Channel) (r : ReedId) (f : Valve → Valve) : (k.modValve r f).stalls = k.stalls := rfl
@[simp] theorem Channel.modValve_step (k : Channel) (r : ReedId) (f : Valve → Valve) : (k.modValve r f).step = k.step := rfl
@[simp] theorem Channel.modValve_attempt (k : Channel) (r : ReedId) (f : Valve → Valve) : (k.modValve r f).attempt = k.attempt := rfl
@[simp] theorem Channel.modValve_lastEnd (k : Channel) (r : ReedId) (f : Valve → Valve) : (k.modValve r f).lastEnd = k.lastEnd := rfl
@[simp] theorem Channel.modValve_ver (k : Channel) (r : ReedId) (f : Valve → Valve) : (k.modValve r f).ver = k.ver := rfl
@[simp] theorem Channel.modValve_verSnap (k : Channel) (r : ReedId) (f : Valve → Valve) : (k.modValve r f).verSnap = k.verSnap := rfl
@[simp] theorem Channel.modValve_verRungs (k : Channel) (r : ReedId) (f : Valve → Valve) : (k.modValve r f).verRungs = k.verRungs := rfl
@[simp] theorem Channel.modValve_tun (k : Channel) (r : ReedId) (f : Valve → Valve) : (k.modValve r f).tun = k.tun := rfl
@[simp] theorem Channel.modValve_conv (k : Channel) (r : ReedId) (f : Valve → Valve) : (k.modValve r f).conv = k.conv := rfl
@[simp] theorem Channel.modValve_otherFaults (k : Channel) (r : ReedId) (f : Valve → Valve) : (k.modValve r f).otherFaults = k.otherFaults := rfl
@[simp] theorem Channel.modValve_otherQuant (k : Channel) (r : ReedId) (f : Valve → Valve) : (k.modValve r f).otherQuant = k.otherQuant := rfl
@[simp] theorem Channel.modValve_mem (k : Channel) (r : ReedId) (f : Valve → Valve) : (k.modValve r f).mem = k.mem := rfl
@[simp] theorem Channel.modValve_ports (k : Channel) (r : ReedId) (f : Valve → Valve) : (k.modValve r f).ports = k.ports := rfl
@[simp] theorem Channel.modValve_paths (k : Channel) (r : ReedId) (f : Valve → Valve) : (k.modValve r f).paths = k.paths := rfl
@[simp] theorem Channel.modValve_coll (k : Channel) (r : ReedId) (f : Valve → Valve) : (k.modValve r f).coll = k.coll := rfl
@[simp] theorem Channel.modValve_svc (k : Channel) (r : ReedId) (f : Valve → Valve) : (k.modValve r f).svc = k.svc := rfl
@[simp] theorem Channel.modValve_meas (k : Channel) (r : ReedId) (f : Valve → Valve) : (k.modValve r f).meas = k.meas := rfl
@[simp] theorem Channel.modValve_err (k : Channel) (r : ReedId) (f : Valve → Valve) : (k.modValve r f).err = k.err := rfl
@[simp] theorem Channel.modValve_etude (k : Channel) (r : ReedId) (f : Valve → Valve) : (k.modValve r f).etude = k.etude := rfl
@[simp] theorem Channel.modValve_cxlPerst (k : Channel) (r : ReedId) (f : Valve → Valve) : (k.modValve r f).cxlPerst = k.cxlPerst := rfl

/-! ### modPort -/

@[simp] theorem Channel.modPort_st (k : Channel) (p : PortId) (f : Port → Port) : (k.modPort p f).st = k.st := rfl
@[simp] theorem Channel.modPort_before (k : Channel) (p : PortId) (f : Port → Port) : (k.modPort p f).before = k.before := rfl
@[simp] theorem Channel.modPort_load (k : Channel) (p : PortId) (f : Port → Port) : (k.modPort p f).load = k.load := rfl
@[simp] theorem Channel.modPort_resume (k : Channel) (p : PortId) (f : Port → Port) : (k.modPort p f).resume = k.resume := rfl
@[simp] theorem Channel.modPort_bind (k : Channel) (p : PortId) (f : Port → Port) : (k.modPort p f).bind = k.bind := rfl
@[simp] theorem Channel.modPort_bins (k : Channel) (p : PortId) (f : Port → Port) : (k.modPort p f).bins = k.bins := rfl
@[simp] theorem Channel.modPort_active (k : Channel) (p : PortId) (f : Port → Port) : (k.modPort p f).active = k.active := rfl
@[simp] theorem Channel.modPort_spares (k : Channel) (p : PortId) (f : Port → Port) : (k.modPort p f).spares = k.spares := rfl
@[simp] theorem Channel.modPort_slotMap (k : Channel) (p : PortId) (f : Port → Port) : (k.modPort p f).slotMap = k.slotMap := rfl
@[simp] theorem Channel.modPort_live (k : Channel) (p : PortId) (f : Port → Port) : (k.modPort p f).live = k.live := rfl
@[simp] theorem Channel.modPort_shadow (k : Channel) (p : PortId) (f : Port → Port) : (k.modPort p f).shadow = k.shadow := rfl
@[simp] theorem Channel.modPort_shadowed (k : Channel) (p : PortId) (f : Port → Port) : (k.modPort p f).shadowed = k.shadowed := rfl
@[simp] theorem Channel.modPort_signs (k : Channel) (p : PortId) (f : Port → Port) : (k.modPort p f).signs = k.signs := rfl
@[simp] theorem Channel.modPort_score (k : Channel) (p : PortId) (f : Port → Port) : (k.modPort p f).score = k.score := rfl
@[simp] theorem Channel.modPort_loading (k : Channel) (p : PortId) (f : Port → Port) : (k.modPort p f).loading = k.loading := rfl
@[simp] theorem Channel.modPort_ww (k : Channel) (p : PortId) (f : Port → Port) : (k.modPort p f).ww = k.ww := rfl
@[simp] theorem Channel.modPort_tokens (k : Channel) (p : PortId) (f : Port → Port) : (k.modPort p f).tokens = k.tokens := rfl
@[simp] theorem Channel.modPort_scalarTok (k : Channel) (p : PortId) (f : Port → Port) : (k.modPort p f).scalarTok = k.scalarTok := rfl
@[simp] theorem Channel.modPort_shardTok (k : Channel) (p : PortId) (f : Port → Port) : (k.modPort p f).shardTok = k.shardTok := rfl
@[simp] theorem Channel.modPort_flights (k : Channel) (p : PortId) (f : Port → Port) : (k.modPort p f).flights = k.flights := rfl
@[simp] theorem Channel.modPort_scalarQ (k : Channel) (p : PortId) (f : Port → Port) : (k.modPort p f).scalarQ = k.scalarQ := rfl
@[simp] theorem Channel.modPort_stalls (k : Channel) (p : PortId) (f : Port → Port) : (k.modPort p f).stalls = k.stalls := rfl
@[simp] theorem Channel.modPort_step (k : Channel) (p : PortId) (f : Port → Port) : (k.modPort p f).step = k.step := rfl
@[simp] theorem Channel.modPort_attempt (k : Channel) (p : PortId) (f : Port → Port) : (k.modPort p f).attempt = k.attempt := rfl
@[simp] theorem Channel.modPort_lastEnd (k : Channel) (p : PortId) (f : Port → Port) : (k.modPort p f).lastEnd = k.lastEnd := rfl
@[simp] theorem Channel.modPort_ver (k : Channel) (p : PortId) (f : Port → Port) : (k.modPort p f).ver = k.ver := rfl
@[simp] theorem Channel.modPort_verSnap (k : Channel) (p : PortId) (f : Port → Port) : (k.modPort p f).verSnap = k.verSnap := rfl
@[simp] theorem Channel.modPort_verRungs (k : Channel) (p : PortId) (f : Port → Port) : (k.modPort p f).verRungs = k.verRungs := rfl
@[simp] theorem Channel.modPort_tun (k : Channel) (p : PortId) (f : Port → Port) : (k.modPort p f).tun = k.tun := rfl
@[simp] theorem Channel.modPort_reeds (k : Channel) (p : PortId) (f : Port → Port) : (k.modPort p f).reeds = k.reeds := rfl
@[simp] theorem Channel.modPort_conv (k : Channel) (p : PortId) (f : Port → Port) : (k.modPort p f).conv = k.conv := rfl
@[simp] theorem Channel.modPort_otherFaults (k : Channel) (p : PortId) (f : Port → Port) : (k.modPort p f).otherFaults = k.otherFaults := rfl
@[simp] theorem Channel.modPort_otherQuant (k : Channel) (p : PortId) (f : Port → Port) : (k.modPort p f).otherQuant = k.otherQuant := rfl
@[simp] theorem Channel.modPort_mem (k : Channel) (p : PortId) (f : Port → Port) : (k.modPort p f).mem = k.mem := rfl
@[simp] theorem Channel.modPort_paths (k : Channel) (p : PortId) (f : Port → Port) : (k.modPort p f).paths = k.paths := rfl
@[simp] theorem Channel.modPort_coll (k : Channel) (p : PortId) (f : Port → Port) : (k.modPort p f).coll = k.coll := rfl
@[simp] theorem Channel.modPort_svc (k : Channel) (p : PortId) (f : Port → Port) : (k.modPort p f).svc = k.svc := rfl
@[simp] theorem Channel.modPort_meas (k : Channel) (p : PortId) (f : Port → Port) : (k.modPort p f).meas = k.meas := rfl
@[simp] theorem Channel.modPort_err (k : Channel) (p : PortId) (f : Port → Port) : (k.modPort p f).err = k.err := rfl
@[simp] theorem Channel.modPort_etude (k : Channel) (p : PortId) (f : Port → Port) : (k.modPort p f).etude = k.etude := rfl
@[simp] theorem Channel.modPort_cxlPerst (k : Channel) (p : PortId) (f : Port → Port) : (k.modPort p f).cxlPerst = k.cxlPerst := rfl

/-! ### modToken -/

@[simp] theorem Channel.modToken_st (k : Channel) (t : Nat) (f : Token → Token) : (k.modToken t f).st = k.st := rfl
@[simp] theorem Channel.modToken_before (k : Channel) (t : Nat) (f : Token → Token) : (k.modToken t f).before = k.before := rfl
@[simp] theorem Channel.modToken_load (k : Channel) (t : Nat) (f : Token → Token) : (k.modToken t f).load = k.load := rfl
@[simp] theorem Channel.modToken_resume (k : Channel) (t : Nat) (f : Token → Token) : (k.modToken t f).resume = k.resume := rfl
@[simp] theorem Channel.modToken_bind (k : Channel) (t : Nat) (f : Token → Token) : (k.modToken t f).bind = k.bind := rfl
@[simp] theorem Channel.modToken_bins (k : Channel) (t : Nat) (f : Token → Token) : (k.modToken t f).bins = k.bins := rfl
@[simp] theorem Channel.modToken_active (k : Channel) (t : Nat) (f : Token → Token) : (k.modToken t f).active = k.active := rfl
@[simp] theorem Channel.modToken_spares (k : Channel) (t : Nat) (f : Token → Token) : (k.modToken t f).spares = k.spares := rfl
@[simp] theorem Channel.modToken_slotMap (k : Channel) (t : Nat) (f : Token → Token) : (k.modToken t f).slotMap = k.slotMap := rfl
@[simp] theorem Channel.modToken_live (k : Channel) (t : Nat) (f : Token → Token) : (k.modToken t f).live = k.live := rfl
@[simp] theorem Channel.modToken_shadow (k : Channel) (t : Nat) (f : Token → Token) : (k.modToken t f).shadow = k.shadow := rfl
@[simp] theorem Channel.modToken_shadowed (k : Channel) (t : Nat) (f : Token → Token) : (k.modToken t f).shadowed = k.shadowed := rfl
@[simp] theorem Channel.modToken_signs (k : Channel) (t : Nat) (f : Token → Token) : (k.modToken t f).signs = k.signs := rfl
@[simp] theorem Channel.modToken_score (k : Channel) (t : Nat) (f : Token → Token) : (k.modToken t f).score = k.score := rfl
@[simp] theorem Channel.modToken_loading (k : Channel) (t : Nat) (f : Token → Token) : (k.modToken t f).loading = k.loading := rfl
@[simp] theorem Channel.modToken_ww (k : Channel) (t : Nat) (f : Token → Token) : (k.modToken t f).ww = k.ww := rfl
@[simp] theorem Channel.modToken_scalarTok (k : Channel) (t : Nat) (f : Token → Token) : (k.modToken t f).scalarTok = k.scalarTok := rfl
@[simp] theorem Channel.modToken_shardTok (k : Channel) (t : Nat) (f : Token → Token) : (k.modToken t f).shardTok = k.shardTok := rfl
@[simp] theorem Channel.modToken_flights (k : Channel) (t : Nat) (f : Token → Token) : (k.modToken t f).flights = k.flights := rfl
@[simp] theorem Channel.modToken_scalarQ (k : Channel) (t : Nat) (f : Token → Token) : (k.modToken t f).scalarQ = k.scalarQ := rfl
@[simp] theorem Channel.modToken_stalls (k : Channel) (t : Nat) (f : Token → Token) : (k.modToken t f).stalls = k.stalls := rfl
@[simp] theorem Channel.modToken_step (k : Channel) (t : Nat) (f : Token → Token) : (k.modToken t f).step = k.step := rfl
@[simp] theorem Channel.modToken_attempt (k : Channel) (t : Nat) (f : Token → Token) : (k.modToken t f).attempt = k.attempt := rfl
@[simp] theorem Channel.modToken_lastEnd (k : Channel) (t : Nat) (f : Token → Token) : (k.modToken t f).lastEnd = k.lastEnd := rfl
@[simp] theorem Channel.modToken_ver (k : Channel) (t : Nat) (f : Token → Token) : (k.modToken t f).ver = k.ver := rfl
@[simp] theorem Channel.modToken_verSnap (k : Channel) (t : Nat) (f : Token → Token) : (k.modToken t f).verSnap = k.verSnap := rfl
@[simp] theorem Channel.modToken_verRungs (k : Channel) (t : Nat) (f : Token → Token) : (k.modToken t f).verRungs = k.verRungs := rfl
@[simp] theorem Channel.modToken_tun (k : Channel) (t : Nat) (f : Token → Token) : (k.modToken t f).tun = k.tun := rfl
@[simp] theorem Channel.modToken_reeds (k : Channel) (t : Nat) (f : Token → Token) : (k.modToken t f).reeds = k.reeds := rfl
@[simp] theorem Channel.modToken_conv (k : Channel) (t : Nat) (f : Token → Token) : (k.modToken t f).conv = k.conv := rfl
@[simp] theorem Channel.modToken_otherFaults (k : Channel) (t : Nat) (f : Token → Token) : (k.modToken t f).otherFaults = k.otherFaults := rfl
@[simp] theorem Channel.modToken_otherQuant (k : Channel) (t : Nat) (f : Token → Token) : (k.modToken t f).otherQuant = k.otherQuant := rfl
@[simp] theorem Channel.modToken_mem (k : Channel) (t : Nat) (f : Token → Token) : (k.modToken t f).mem = k.mem := rfl
@[simp] theorem Channel.modToken_ports (k : Channel) (t : Nat) (f : Token → Token) : (k.modToken t f).ports = k.ports := rfl
@[simp] theorem Channel.modToken_paths (k : Channel) (t : Nat) (f : Token → Token) : (k.modToken t f).paths = k.paths := rfl
@[simp] theorem Channel.modToken_coll (k : Channel) (t : Nat) (f : Token → Token) : (k.modToken t f).coll = k.coll := rfl
@[simp] theorem Channel.modToken_svc (k : Channel) (t : Nat) (f : Token → Token) : (k.modToken t f).svc = k.svc := rfl
@[simp] theorem Channel.modToken_meas (k : Channel) (t : Nat) (f : Token → Token) : (k.modToken t f).meas = k.meas := rfl
@[simp] theorem Channel.modToken_err (k : Channel) (t : Nat) (f : Token → Token) : (k.modToken t f).err = k.err := rfl
@[simp] theorem Channel.modToken_etude (k : Channel) (t : Nat) (f : Token → Token) : (k.modToken t f).etude = k.etude := rfl
@[simp] theorem Channel.modToken_cxlPerst (k : Channel) (t : Nat) (f : Token → Token) : (k.modToken t f).cxlPerst = k.cxlPerst := rfl

/-! ### raise -/

@[simp] theorem Channel.raise_st (k : Channel) (x : RawErr) : (k.raise x).st = k.st := rfl
@[simp] theorem Channel.raise_before (k : Channel) (x : RawErr) : (k.raise x).before = k.before := rfl
@[simp] theorem Channel.raise_load (k : Channel) (x : RawErr) : (k.raise x).load = k.load := rfl
@[simp] theorem Channel.raise_resume (k : Channel) (x : RawErr) : (k.raise x).resume = k.resume := rfl
@[simp] theorem Channel.raise_bind (k : Channel) (x : RawErr) : (k.raise x).bind = k.bind := rfl
@[simp] theorem Channel.raise_bins (k : Channel) (x : RawErr) : (k.raise x).bins = k.bins := rfl
@[simp] theorem Channel.raise_active (k : Channel) (x : RawErr) : (k.raise x).active = k.active := rfl
@[simp] theorem Channel.raise_spares (k : Channel) (x : RawErr) : (k.raise x).spares = k.spares := rfl
@[simp] theorem Channel.raise_slotMap (k : Channel) (x : RawErr) : (k.raise x).slotMap = k.slotMap := rfl
@[simp] theorem Channel.raise_live (k : Channel) (x : RawErr) : (k.raise x).live = k.live := rfl
@[simp] theorem Channel.raise_shadow (k : Channel) (x : RawErr) : (k.raise x).shadow = k.shadow := rfl
@[simp] theorem Channel.raise_shadowed (k : Channel) (x : RawErr) : (k.raise x).shadowed = k.shadowed := rfl
@[simp] theorem Channel.raise_signs (k : Channel) (x : RawErr) : (k.raise x).signs = k.signs := rfl
@[simp] theorem Channel.raise_score (k : Channel) (x : RawErr) : (k.raise x).score = k.score := rfl
@[simp] theorem Channel.raise_loading (k : Channel) (x : RawErr) : (k.raise x).loading = k.loading := rfl
@[simp] theorem Channel.raise_ww (k : Channel) (x : RawErr) : (k.raise x).ww = k.ww := rfl
@[simp] theorem Channel.raise_tokens (k : Channel) (x : RawErr) : (k.raise x).tokens = k.tokens := rfl
@[simp] theorem Channel.raise_scalarTok (k : Channel) (x : RawErr) : (k.raise x).scalarTok = k.scalarTok := rfl
@[simp] theorem Channel.raise_shardTok (k : Channel) (x : RawErr) : (k.raise x).shardTok = k.shardTok := rfl
@[simp] theorem Channel.raise_flights (k : Channel) (x : RawErr) : (k.raise x).flights = k.flights := rfl
@[simp] theorem Channel.raise_scalarQ (k : Channel) (x : RawErr) : (k.raise x).scalarQ = k.scalarQ := rfl
@[simp] theorem Channel.raise_stalls (k : Channel) (x : RawErr) : (k.raise x).stalls = k.stalls := rfl
@[simp] theorem Channel.raise_step (k : Channel) (x : RawErr) : (k.raise x).step = k.step := rfl
@[simp] theorem Channel.raise_attempt (k : Channel) (x : RawErr) : (k.raise x).attempt = k.attempt := rfl
@[simp] theorem Channel.raise_lastEnd (k : Channel) (x : RawErr) : (k.raise x).lastEnd = k.lastEnd := rfl
@[simp] theorem Channel.raise_ver (k : Channel) (x : RawErr) : (k.raise x).ver = k.ver := rfl
@[simp] theorem Channel.raise_verSnap (k : Channel) (x : RawErr) : (k.raise x).verSnap = k.verSnap := rfl
@[simp] theorem Channel.raise_verRungs (k : Channel) (x : RawErr) : (k.raise x).verRungs = k.verRungs := rfl
@[simp] theorem Channel.raise_tun (k : Channel) (x : RawErr) : (k.raise x).tun = k.tun := rfl
@[simp] theorem Channel.raise_reeds (k : Channel) (x : RawErr) : (k.raise x).reeds = k.reeds := rfl
@[simp] theorem Channel.raise_conv (k : Channel) (x : RawErr) : (k.raise x).conv = k.conv := rfl
@[simp] theorem Channel.raise_otherFaults (k : Channel) (x : RawErr) : (k.raise x).otherFaults = k.otherFaults := rfl
@[simp] theorem Channel.raise_otherQuant (k : Channel) (x : RawErr) : (k.raise x).otherQuant = k.otherQuant := rfl
@[simp] theorem Channel.raise_mem (k : Channel) (x : RawErr) : (k.raise x).mem = k.mem := rfl
@[simp] theorem Channel.raise_ports (k : Channel) (x : RawErr) : (k.raise x).ports = k.ports := rfl
@[simp] theorem Channel.raise_paths (k : Channel) (x : RawErr) : (k.raise x).paths = k.paths := rfl
@[simp] theorem Channel.raise_coll (k : Channel) (x : RawErr) : (k.raise x).coll = k.coll := rfl
@[simp] theorem Channel.raise_svc (k : Channel) (x : RawErr) : (k.raise x).svc = k.svc := rfl
@[simp] theorem Channel.raise_meas (k : Channel) (x : RawErr) : (k.raise x).meas = k.meas := rfl
@[simp] theorem Channel.raise_etude (k : Channel) (x : RawErr) : (k.raise x).etude = k.etude := rfl
@[simp] theorem Channel.raise_cxlPerst (k : Channel) (x : RawErr) : (k.raise x).cxlPerst = k.cxlPerst := rfl

/-! ### Reeds and ports through the other updates -/

@[simp] theorem Channel.reed_modPort (k : Channel) (p : PortId) (f : Port → Port) (r : ReedId) : (k.modPort p f).reed r = k.reed r := rfl
@[simp] theorem Channel.reed_modToken (k : Channel) (t : Nat) (f : Token → Token) (r : ReedId) : (k.modToken t f).reed r = k.reed r := rfl
@[simp] theorem Channel.reed_raise (k : Channel) (x : RawErr) (r : ReedId) : (k.raise x).reed r = k.reed r := rfl
@[simp] theorem Channel.port_modReed (k : Channel) (r : ReedId) (f : Reed → Reed) (p : PortId) : (k.modReed r f).port p = k.port p := rfl
@[simp] theorem Channel.port_modToken (k : Channel) (t : Nat) (f : Token → Token) (p : PortId) : (k.modToken t f).port p = k.port p := rfl
@[simp] theorem Channel.port_raise (k : Channel) (x : RawErr) (p : PortId) : (k.raise x).port p = k.port p := rfl

end Sys2Proof.Machine
end

