-- ==== Sys2Proof/Laws/Server.lean ====
section
/-! SUPPORT. What sending a datagram leaves unchanged, and what the server does with a request it admits. -/

namespace Sys2Proof.Machine

open Sys2Proof

/-! ### Sending changes the Mouthpiece only -/

/-- Two states that differ in the Mouthpiece only. -/
def State.onlyMp (s t : State) : Prop := t = { s with mp := t.mp }

theorem State.onlyMp_refl (s : State) : s.onlyMp s := rfl

theorem State.onlyMp_trans {s t u : State} (h : s.onlyMp t) (h' : t.onlyMp u) : s.onlyMp u := by
  unfold State.onlyMp at *; rw [h', h]

theorem State.onlyMp_modMp (s : State) (f : Mouthpiece → Mouthpiece) : s.onlyMp (s.modMp f) := rfl

theorem State.onlyMp_modSession (s : State) (h : Nat) (f : Session → Session) : s.onlyMp (s.modSession h f) := rfl

theorem State.onlyMp_send (s : State) (r : Reply) : s.onlyMp (s.send r) := by
  unfold State.send; split <;> rfl

theorem State.onlyMp_respond (s : State) (r : Reply) : s.onlyMp (s.respond r) :=
  State.onlyMp_trans (State.onlyMp_modSession s _ _) (State.onlyMp_send _ r)

theorem State.onlyMp_answer (s : State) (q : Req) (op index sub : Nat) (a : Answer) : s.onlyMp (s.answer q op index sub a) := by
  unfold State.answer; split
  · exact State.onlyMp_refl s
  · exact State.onlyMp_respond s _

theorem State.onlyMp_notifyOne (s : State) (h : Nat) (sees : Session → Bool) (index sub : Nat) (payload : Session → List Byte) :
    s.onlyMp (s.notifyOne h sees index sub payload) := by
  unfold State.notifyOne
  split
  · exact State.onlyMp_refl s
  · dsimp only
    split
    · exact State.onlyMp_trans (State.onlyMp_modSession s _ _) (State.onlyMp_send _ _)
    · exact State.onlyMp_modSession s _ _

theorem State.onlyMp_foldl {β : Type} {f : State → β → State} (hf : ∀ (s : State) b, s.onlyMp (f s b)) (l : List β) (s : State) :
    s.onlyMp (l.foldl f s) := by
  induction l generalizing s with
  | nil => exact State.onlyMp_refl s
  | cons b l ih => exact State.onlyMp_trans (hf s b) (ih (f s b))

theorem State.onlyMp_notify (s : State) (index sub : Nat) (sees : Session → Bool) (payload : Session → List Byte) :
    s.onlyMp (s.notify index sub sees payload) :=
  State.onlyMp_foldl (fun s (x : Session) => State.onlyMp_notifyOne s x.handle sees index sub payload) _ s

theorem State.onlyMp.pins {s t : State} (h : s.onlyMp t) : t.pins = s.pins := by rw [h]
theorem State.onlyMp.power {s t : State} (h : s.onlyMp t) : t.power = s.power := by rw [h]
theorem State.onlyMp.dev {s t : State} (h : s.onlyMp t) : t.dev = s.dev := by rw [h]
theorem State.onlyMp.mram {s t : State} (h : s.onlyMp t) : t.mram = s.mram := by rw [h]
theorem State.onlyMp.fuses {s t : State} (h : s.onlyMp t) : t.fuses = s.fuses := by rw [h]
theorem State.onlyMp.meter {s t : State} (h : s.onlyMp t) : t.meter = s.meter := by rw [h]
theorem State.onlyMp.ch {s t : State} (h : s.onlyMp t) : t.ch = s.ch := by rw [h]
theorem State.onlyMp.pending {s t : State} (h : s.onlyMp t) : t.pending = s.pending := by rw [h]
theorem State.onlyMp.freeCtr {s t : State} (h : s.onlyMp t) : t.freeCtr = s.freeCtr := by rw [h]
theorem State.onlyMp.chan {s t : State} (h : s.onlyMp t) (c : ChanId) : t.chan c = s.chan c := by rw [h]; rfl
theorem State.onlyMp.store {s t : State} (h : s.onlyMp t) (c : ChanId) : t.store c = s.store c := by rw [h]; rfl

@[simp] theorem State.send_pins (s : State) (r : Reply) : (s.send r).pins = s.pins := (State.onlyMp_send s r).pins
@[simp] theorem State.send_power (s : State) (r : Reply) : (s.send r).power = s.power := (State.onlyMp_send s r).power
@[simp] theorem State.send_dev (s : State) (r : Reply) : (s.send r).dev = s.dev := (State.onlyMp_send s r).dev
@[simp] theorem State.send_mram (s : State) (r : Reply) : (s.send r).mram = s.mram := (State.onlyMp_send s r).mram
@[simp] theorem State.send_fuses (s : State) (r : Reply) : (s.send r).fuses = s.fuses := (State.onlyMp_send s r).fuses
@[simp] theorem State.send_meter (s : State) (r : Reply) : (s.send r).meter = s.meter := (State.onlyMp_send s r).meter
@[simp] theorem State.send_ch (s : State) (r : Reply) : (s.send r).ch = s.ch := (State.onlyMp_send s r).ch
@[simp] theorem State.send_pending (s : State) (r : Reply) : (s.send r).pending = s.pending := (State.onlyMp_send s r).pending
@[simp] theorem State.send_freeCtr (s : State) (r : Reply) : (s.send r).freeCtr = s.freeCtr := (State.onlyMp_send s r).freeCtr
@[simp] theorem State.chan_send (s : State) (r : Reply) (c : ChanId) : (s.send r).chan c = s.chan c := (State.onlyMp_send s r).chan c
@[simp] theorem State.store_send (s : State) (r : Reply) (c : ChanId) : (s.send r).store c = s.store c := (State.onlyMp_send s r).store c

@[simp] theorem State.respond_pins (s : State) (r : Reply) : (s.respond r).pins = s.pins := (State.onlyMp_respond s r).pins
@[simp] theorem State.respond_power (s : State) (r : Reply) : (s.respond r).power = s.power := (State.onlyMp_respond s r).power
@[simp] theorem State.respond_dev (s : State) (r : Reply) : (s.respond r).dev = s.dev := (State.onlyMp_respond s r).dev
@[simp] theorem State.respond_mram (s : State) (r : Reply) : (s.respond r).mram = s.mram := (State.onlyMp_respond s r).mram
@[simp] theorem State.respond_fuses (s : State) (r : Reply) : (s.respond r).fuses = s.fuses := (State.onlyMp_respond s r).fuses
@[simp] theorem State.respond_meter (s : State) (r : Reply) : (s.respond r).meter = s.meter := (State.onlyMp_respond s r).meter
@[simp] theorem State.respond_ch (s : State) (r : Reply) : (s.respond r).ch = s.ch := (State.onlyMp_respond s r).ch
@[simp] theorem State.respond_pending (s : State) (r : Reply) : (s.respond r).pending = s.pending := (State.onlyMp_respond s r).pending
@[simp] theorem State.respond_freeCtr (s : State) (r : Reply) : (s.respond r).freeCtr = s.freeCtr := (State.onlyMp_respond s r).freeCtr
@[simp] theorem State.chan_respond (s : State) (r : Reply) (c : ChanId) : (s.respond r).chan c = s.chan c := (State.onlyMp_respond s r).chan c
@[simp] theorem State.store_respond (s : State) (r : Reply) (c : ChanId) : (s.respond r).store c = s.store c := (State.onlyMp_respond s r).store c

@[simp] theorem State.answer_pins (s : State) (q : Req) (op index sub : Nat) (a : Answer) : (s.answer q op index sub a).pins = s.pins := (State.onlyMp_answer s q op index sub a).pins
@[simp] theorem State.answer_power (s : State) (q : Req) (op index sub : Nat) (a : Answer) : (s.answer q op index sub a).power = s.power := (State.onlyMp_answer s q op index sub a).power
@[simp] theorem State.answer_dev (s : State) (q : Req) (op index sub : Nat) (a : Answer) : (s.answer q op index sub a).dev = s.dev := (State.onlyMp_answer s q op index sub a).dev
@[simp] theorem State.answer_mram (s : State) (q : Req) (op index sub : Nat) (a : Answer) : (s.answer q op index sub a).mram = s.mram := (State.onlyMp_answer s q op index sub a).mram
@[simp] theorem State.answer_fuses (s : State) (q : Req) (op index sub : Nat) (a : Answer) : (s.answer q op index sub a).fuses = s.fuses := (State.onlyMp_answer s q op index sub a).fuses
@[simp] theorem State.answer_meter (s : State) (q : Req) (op index sub : Nat) (a : Answer) : (s.answer q op index sub a).meter = s.meter := (State.onlyMp_answer s q op index sub a).meter
@[simp] theorem State.answer_ch (s : State) (q : Req) (op index sub : Nat) (a : Answer) : (s.answer q op index sub a).ch = s.ch := (State.onlyMp_answer s q op index sub a).ch
@[simp] theorem State.answer_pending (s : State) (q : Req) (op index sub : Nat) (a : Answer) : (s.answer q op index sub a).pending = s.pending := (State.onlyMp_answer s q op index sub a).pending
@[simp] theorem State.answer_freeCtr (s : State) (q : Req) (op index sub : Nat) (a : Answer) : (s.answer q op index sub a).freeCtr = s.freeCtr := (State.onlyMp_answer s q op index sub a).freeCtr
@[simp] theorem State.chan_answer (s : State) (q : Req) (op index sub : Nat) (a : Answer) (c : ChanId) : (s.answer q op index sub a).chan c = s.chan c := (State.onlyMp_answer s q op index sub a).chan c
@[simp] theorem State.store_answer (s : State) (q : Req) (op index sub : Nat) (a : Answer) (c : ChanId) : (s.answer q op index sub a).store c = s.store c := (State.onlyMp_answer s q op index sub a).store c

@[simp] theorem State.notify_pins (s : State) (index sub : Nat) (sees : Session → Bool) (payload : Session → List Byte) : (s.notify index sub sees payload).pins = s.pins := (State.onlyMp_notify s index sub sees payload).pins
@[simp] theorem State.notify_power (s : State) (index sub : Nat) (sees : Session → Bool) (payload : Session → List Byte) : (s.notify index sub sees payload).power = s.power := (State.onlyMp_notify s index sub sees payload).power
@[simp] theorem State.notify_dev (s : State) (index sub : Nat) (sees : Session → Bool) (payload : Session → List Byte) : (s.notify index sub sees payload).dev = s.dev := (State.onlyMp_notify s index sub sees payload).dev
@[simp] theorem State.notify_mram (s : State) (index sub : Nat) (sees : Session → Bool) (payload : Session → List Byte) : (s.notify index sub sees payload).mram = s.mram := (State.onlyMp_notify s index sub sees payload).mram
@[simp] theorem State.notify_fuses (s : State) (index sub : Nat) (sees : Session → Bool) (payload : Session → List Byte) : (s.notify index sub sees payload).fuses = s.fuses := (State.onlyMp_notify s index sub sees payload).fuses
@[simp] theorem State.notify_meter (s : State) (index sub : Nat) (sees : Session → Bool) (payload : Session → List Byte) : (s.notify index sub sees payload).meter = s.meter := (State.onlyMp_notify s index sub sees payload).meter
@[simp] theorem State.notify_ch (s : State) (index sub : Nat) (sees : Session → Bool) (payload : Session → List Byte) : (s.notify index sub sees payload).ch = s.ch := (State.onlyMp_notify s index sub sees payload).ch
@[simp] theorem State.notify_pending (s : State) (index sub : Nat) (sees : Session → Bool) (payload : Session → List Byte) : (s.notify index sub sees payload).pending = s.pending := (State.onlyMp_notify s index sub sees payload).pending
@[simp] theorem State.notify_freeCtr (s : State) (index sub : Nat) (sees : Session → Bool) (payload : Session → List Byte) : (s.notify index sub sees payload).freeCtr = s.freeCtr := (State.onlyMp_notify s index sub sees payload).freeCtr
@[simp] theorem State.chan_notify (s : State) (index sub : Nat) (sees : Session → Bool) (payload : Session → List Byte) (c : ChanId) : (s.notify index sub sees payload).chan c = s.chan c := (State.onlyMp_notify s index sub sees payload).chan c
@[simp] theorem State.store_notify (s : State) (index sub : Nat) (sees : Session → Bool) (payload : Session → List Byte) (c : ChanId) : (s.notify index sub sees payload).store c = s.store c := (State.onlyMp_notify s index sub sees payload).store c

/-! ### Sessions -/

@[simp] theorem State.mp_modSession_running (s : State) (h : Nat) (f : Session → Session) : (s.modSession h f).mp.running = s.mp.running := rfl
@[simp] theorem State.mp_modSession_host (s : State) (h : Nat) (f : Session → Session) : (s.modSession h f).mp.host = s.mp.host := rfl
@[simp] theorem State.mp_modSession_sent (s : State) (h : Nat) (f : Session → Session) : (s.modSession h f).mp.sent = s.mp.sent := rfl
@[simp] theorem State.canSend_modSession (s : State) (h : Nat) (f : Session → Session) : (s.modSession h f).canSend = s.canSend := rfl

/-- A session that is found has the handle asked for. -/
theorem State.session?_handle {s : State} {h : Nat} {x : Session} (hx : s.session? h = some x) : x.handle = h := by
  have := List.find?_some hx
  simpa using this

/-- A session that is changed without its handle is found changed. -/
theorem State.session?_modSession_self (s : State) (h : Nat) (f : Session → Session) (hf : ∀ x, (f x).handle = x.handle) :
    (s.modSession h f).session? h = (s.session? h).map f := by
  simp only [State.session?, State.modSession]
  induction s.mp.sessions with
  | nil => rfl
  | cons x l ih =>
    by_cases hx : x.handle = h
    · simp [hx, hf]
    · have hb : (x.handle == h) = false := by simp [hx]
      simp [hx, hb, ih]

/-- A datagram that can be sent is the last one sent. -/
theorem State.send_sent {s : State} (h : s.canSend = true) (r : Reply) :
    (s.send r).mp.sent = s.mp.sent ++ [{ r with seq := (match s.session? r.session with | some x => x.seqOut | none => 0) }] := by
  simp only [State.send, h, State.modMp]; first | done | rfl

theorem State.respond_sent {s : State} (h : s.canSend = true) (r : Reply) :
    ∃ n, (s.respond r).mp.sent = s.mp.sent ++ [{ r with seq := n }] :=
  ⟨_, State.send_sent (s := s.modSession r.session _) h r⟩

/-! ### A request that is admitted -/

/-- A request's session is no longer idle. -/
theorem State.session?_touch {s : State} {q : Req} {x : Session} (h : s.session? q.session = some x) :
    (s.touch q).session? q.session = some { x with idle := 0 } := by
  rw [State.touch, State.session?_modSession_self s q.session (fun x => { x with idle := 0 }) (fun _ => rfl), h]; rfl

@[simp] theorem State.underway_touch (s : State) (q p : Req) : (s.touch q).underway p = s.underway p := rfl

theorem State.accessCheck_touch (s : State) (q p : Req) (x : Session) (op index sub : Nat) :
    (s.touch q).accessCheck p { x with idle := 0 } op index sub = s.accessCheck p x op index sub := rfl

/-- What the server does with a request that passes steps 1 to 6 of R359: its body runs on the state in which the session is no
longer idle, the answer is sent, and what follows a request carried out comes last. -/
theorem State.serve_admitted {s : State} {q : Req} {op index sub : Nat} {x : Session} (h : s.admits q op index sub x)
    (body : Session → State → Answer × State) (post : State → State) :
    s.serve q op index sub body post =
      let r := body { x with idle := 0 } (s.touch q)
      let t := r.2.answer q op index sub r.1
      .next (if r.1.code = some 0 then post t else t) := by
  obtain ⟨h1, h2, h3, h4, h5, h6, h7, h8, h9⟩ := h
  have hx := State.session?_touch h5
  have hd : (s.touch q).dev = s.dev := rfl
  have hx' : (s.modSession q.session (fun x => { x with idle := 0 })).session? q.session = some { x with idle := 0 } := hx
  have hu : (s.modSession q.session (fun x => { x with idle := 0 })).underway q = false := h7
  have hd' : (s.modSession q.session (fun x => { x with idle := 0 })).dev = s.dev := rfl
  have ha : (s.modSession q.session (fun x => { x with idle := 0 })).accessCheck q { x with idle := 0 } op index sub = 0 := h9
  have hc : Session.cached { x with idle := 0 } q.txid = none := h6
  unfold State.serve
  simp only [h1, hx', hd', hu, ha, h2, h8, Option.bind, hc, Option.getD_some]
  simp [h3, h4]
  rfl

end Sys2Proof.Machine
end

