-- ==== Sys2Proof/Laws/Requests.lean ====
section
/-! SUPPORT. What an accepted or refused write does, said once for every stop. -/

namespace Sys2Proof.Machine

open Sys2Proof

theorem State.talked_refl (u : State) : u.talked u := ⟨rfl, rfl⟩

theorem State.talked_trans {a b c : State} (h : a.talked b) (h' : b.talked c) : a.talked c := by
  obtain ⟨h1, h2⟩ := h
  obtain ⟨h3, h4⟩ := h'
  refine ⟨?_, h4.trans h2⟩
  rw [h3, h1]

theorem State.talked_modSession (u : State) (h : Nat) (f : Session → Session) (hf : ∀ x, (f x).kept = x.kept) :
    u.talked (u.modSession h f) := by
  refine ⟨rfl, ?_⟩
  simp only [State.modSession, List.map_map]
  apply List.map_congr_left
  intro x _
  simp only [Function.comp]
  split <;> simp [hf]

theorem State.talked_touch (u : State) (q : Req) : u.talked (u.touch q) := State.talked_modSession u _ _ (fun _ => rfl)

theorem State.talked_send (u : State) (r : Reply) : u.talked (u.send r) := by
  unfold State.send
  split
  · exact State.talked_refl u
  · exact State.talked_trans (State.talked_modSession u r.session (fun x => { x with seqOut := x.seqOut + 1 }) (fun _ => rfl)) ⟨rfl, rfl⟩

theorem State.talked_respond (u : State) (r : Reply) : u.talked (u.respond r) :=
  State.talked_trans (State.talked_modSession u r.session
    (fun x => { x with cache := (if x.cache.length < 32 then x.cache else x.cache.drop 1) ++ [r] }) (fun _ => rfl))
    (State.talked_send _ r)

theorem State.talked_answer (u : State) (q : Req) (op index sub : Nat) (a : Answer) : u.talked (u.answer q op index sub a) := by
  unfold State.answer
  split
  · exact State.talked_refl u
  · exact State.talked_respond u _

/-- An answer that is given now is the next datagram sent. -/
theorem State.replied_answer {u : State} (h : u.canSend = true) (q : Req) (op index sub n : Nat) (payload : List Byte)
    (hm : n ≠ 0 → payload = []) :
    u.replied (u.answer q op index sub { code := some n, payload := payload }) q op index sub n payload := by
  have hp : (if n = 0 then payload else []) = payload := by
    by_cases hn : n = 0
    · simp [hn]
    · simp [hn, hm hn]
  obtain ⟨k, hk⟩ := State.respond_sent h { session := q.session, txid := q.txid, op := op, index := index, sub := sub, abort := n
                                           payload := payload }
  refine ⟨k, [], [], ?_⟩
  simp only [State.answer, hp, Bool.and_false, List.append_nil]
  exact hk

/-- The same sessions are open after a request has come. -/
theorem State.session?_isNone_touch (s : State) (q : Req) (h : Nat) : ((s.touch q).session? h).isNone = (s.session? h).isNone := by
  simp only [State.touch, State.session?, State.modSession]
  induction s.mp.sessions with
  | nil => rfl
  | cons y l ih =>
    simp only [List.map_cons, List.find?_cons]
    have : (if y.handle = q.session then { y with idle := 0 } else y).handle = y.handle := by split <;> rfl
    rw [this]
    split
    · rfl
    · exact ih

/-- What the server does with a write that passes every check but the stop's own: it is applied, answered, and followed up. -/
theorem State.writeStop_accepted {s : State} {q : Req} {block : Bool} {index sub : Nat} {d : List Byte} {x : Session}
    (h : s.accepts q block index sub d x) (o : WriteObs) :
    s.writeStop q block o index sub d =
      let op := if block then 4 else 2
      let r := (s.touch q).applyStop { x with idle := 0 } q.txid op index sub d o
      let t := r.2.answer q op index sub { code := r.1 }
      .next (if r.1 = some 0 then t.afterWrite index sub d else t) := by
  obtain ⟨h1, h2, r, h3, h4, h5, h6, h7, h8⟩ := h
  unfold State.writeStop
  rw [State.serve_admitted h1]
  have hl : (s.touch q).lengthBad index sub d.length = false := h5
  have hv : (s.touch q).valueBad index sub d = false := by
    rw [← h6]
    unfold State.valueBad
    split
    · rfl
    · split <;> try rfl
      exact State.session?_isNone_touch s q _
  have hk : r.access = .rwl → (s.touch q).locked index sub (some d) = false := h7
  have hf : (s.touch q).faultForbids (if block then 4 else 2) index sub = false := h8
  have hb : (!block && decide (8192 < d.length)) = false := by
    rcases h2 with h2 | h2
    · simp [h2]
    · simp; intro; omega
  have hw : writeBody q (if block then 4 else 2) block o index sub d { x with idle := 0 } (s.touch q)
      = ({ code := ((s.touch q).applyStop { x with idle := 0 } q.txid (if block then 4 else 2) index sub d o).1 },
         ((s.touch q).applyStop { x with idle := 0 } q.txid (if block then 4 else 2) index sub d o).2) := by
    unfold writeBody
    rw [h3]
    simp only [h4, hl, hv, hb, hf]
    by_cases ha : r.access = .rwl
    · simp [ha, hk ha]
    · have : (r.access == .rwl) = false := by simpa using ha
      simp [this]
  rw [hw]

/-- A write whose effect is `u`, answered at once and not followed up, is carried out. -/
theorem State.carried_of {s u : State} {i : Instr} {q : Req} {block : Bool} {index sub : Nat} {d : List Byte} {x : Session} {o : WriteObs}
    (h : s.accepts q block index sub d x) (hi : exec i s = s.writeStop q block o index sub d)
    (hu : (s.touch q).applyStop { x with idle := 0 } q.txid (if block then 4 else 2) index sub d o = (some 0, u.touch q))
    (hs : u.canSend = true) (hm : u.mp.sent = s.mp.sent) (ha : ∀ t : State, t.afterWrite index sub d = t) :
    s.carried i q (if block then 4 else 2) index sub u := by
  refine ⟨_, hi.trans (State.writeStop_accepted h o), ?_, ?_⟩
  · simp only [hu, ha, if_true]
    exact State.talked_trans (State.talked_touch u q) (State.talked_answer _ _ _ _ _ _)
  · simp only [hu, ha, if_true]
    obtain ⟨n, b, a, hr⟩ := State.replied_answer (u := u.touch q) hs q (if block then 4 else 2) index sub 0 [] (fun _ => rfl)
    refine ⟨n, b, a, ?_⟩
    rw [hr]
    show u.mp.sent ++ b ++ _ = _
    rw [hm]

/-- A write that its stop refuses changes nothing but what the answer does. -/
theorem State.refusedWith_of {s : State} {i : Instr} {q : Req} {block : Bool} {index sub n : Nat} {d : List Byte} {x : Session}
    {o : WriteObs} (h : s.accepts q block index sub d x) (hi : exec i s = s.writeStop q block o index sub d) (hn : n ≠ 0)
    (hu : (s.touch q).applyStop { x with idle := 0 } q.txid (if block then 4 else 2) index sub d o = (some n, s.touch q)) :
    s.refusedWith i q (if block then 4 else 2) index sub n := by
  refine ⟨_, hi.trans (State.writeStop_accepted h o), ?_, ?_⟩
  · simp only [hu, Option.some.injEq, hn, if_false]
    exact State.talked_trans (State.talked_touch s q) (State.talked_answer _ _ _ _ _ _)
  · simp only [hu, Option.some.injEq, hn, if_false]
    have hs : (s.touch q).canSend = true := h.1.1
    obtain ⟨m, b, a, hr⟩ := State.replied_answer (u := s.touch q) hs q (if block then 4 else 2) index sub n [] (fun _ => rfl)
    exact ⟨m, b, a, hr⟩

/-! ### Stops of a channel -/

/-- A stop of a channel block belongs to its channel. -/
theorem stopChan_ofChan (c : ChanId) {b : Nat} (hb : b ∈ [0x2001, 0x2002, 0x2003, 0x2005, 0x2010, 0x2020, 0x2030, 0x2031, 0x3000, 0x3001,
    0x3002, 0x3003, 0x3004, 0x3005, 0x3007, 0x3008, 0x3010, 0x3020, 0x3040, 0x4001, 0x4002, 0x4005, 0x4010, 0x5000, 0x5001, 0x5003, 0x5004,
    0x5010, 0x5020]) : stopChan (ofChan c b) = some c ∧ stopBase (ofChan c b) = b := by
  revert b c; decide

/-- Nothing follows a write of a channel's stop. -/
theorem State.afterWrite_ofChan (t : State) (c : ChanId) {b : Nat} (hb : 0x2000 ≤ b) (hb' : b < 0x6000) (sub : Nat) (d : List Byte) :
    t.afterWrite (ofChan c b) sub d = t := by
  have := c.isLt
  unfold State.afterWrite ofChan
  rw [if_neg (by omega), if_neg (by omega)]

end Sys2Proof.Machine
end

