-- ==== Sys2Proof/Laws/Valve.lean ====
section
/-! SUPPORT. What a lane-wise Valve instruction does to the run. -/

namespace Sys2Proof.Machine

open Sys2Proof

theorem getD_map_range {α : Type} (f : Nat → α) {n l : Nat} (h : l < n) (d : α) : ((List.range n).map f).getD l d = f l := by
  simp [List.getD_eq_getElem?_getD, List.getElem?_map, List.getElem?_range h]

theorem getD_zip_map {α β γ : Type} (a : List α) (b : List β) (g : α × β → γ) {l : Nat} (ha : l < a.length) (hb : l < b.length)
    (d : γ) (da : α) (db : β) : ((a.zip b).map g).getD l d = g (a.getD l da, b.getD l db) := by
  have h : l < (a.zip b).length := by simp [ha, hb]
  simp [List.getD_eq_getElem?_getD, ha, hb]

theorem getD_setAt_self {α : Type} (a : List α) {i : Nat} (x d : α) (h : i < a.length) : (setAt a i x).getD i d = x := by
  simp [setAt, List.getD_eq_getElem?_getD, h]

theorem getD_setAt_ne {α : Type} (a : List α) {i j : Nat} (x d : α) (h : j ≠ i) : (setAt a i x).getD j d = a.getD j d := by
  simp [setAt, List.getD_eq_getElem?_getD, Ne.symm h]

/-- Two changes of one Reed are one. -/
theorem Channel.modReed_modReed (k : Channel) (r : ReedId) (f g : Reed → Reed) :
    (k.modReed r f).modReed r g = k.modReed r (fun y => g (f y)) := by
  simp only [Channel.modReed, Channel.reed, vector_get_set_self, Vector.set_set]

/-- Two changes of one Valve are one. -/
theorem Channel.modValve_modValve (k : Channel) (r : ReedId) (f g : Valve → Valve) :
    (k.modValve r f).modValve r g = k.modValve r (fun y => g (f y)) := Channel.modReed_modReed k r _ _

/-- A change of a Valve depends on that Valve only. -/
theorem Channel.modValve_congr (k : Channel) (r : ReedId) {f g : Valve → Valve} (h : f (k.reed r).valve = g (k.reed r).valve) :
    k.modValve r f = k.modValve r g := by
  simp only [Channel.modValve, Channel.modReed, h]

/-- A run changed after the lanes of an instruction have been counted is counted all the same. -/
theorem Channel.modRun_countLanes (k : Channel) (r : ReedId) (x : Run) (w : Nat) (out : Nat → LaneOut) (f : Run → Run) :
    (k.countLanes r x w out).modRun r f = (k.modRun r f).countLanes r x w out := by
  unfold Channel.countLanes
  dsimp only
  split
  · rfl
  · simp only [Channel.countQuant, Channel.modRun, Channel.modValve, Channel.quantAt, Channel.modReed, Channel.reed,
      vector_get_set_self, Vector.set_set]

/-- Counting lanes leaves every run alone. -/
theorem Channel.run_countLanes (k : Channel) (r q : ReedId) (x : Run) (w : Nat) (out : Nat → LaneOut) :
    ((k.countLanes r x w out).reed q).valve = (k.reed q).valve := by
  unfold Channel.countLanes
  dsimp only
  split
  · rfl
  · by_cases h : q = r
    · subst h
      simp only [Channel.countQuant, Channel.quantAt, Channel.modReed, Channel.reed, vector_get_set_self]
    · simp only [Channel.countQuant, Channel.quantAt, Channel.modReed, Channel.reed]
      rw [vector_get_set_ne _ _ h]

/-- Of the outcomes of the executing lanes, those with a property are as many as the lanes with it. -/
theorem count_lanes (p : LaneOut → Bool) (ex : Nat → Bool) (val : Nat → LaneOut) (n : Nat) :
    (((List.range n).map (fun l => if ex l then some (val l) else none)).filter (fun o => o.any p)).length
      = ((List.range n).filter (fun l => ex l && p (val l))).length := by
  rw [List.filter_map, List.length_map]
  congr 1
  apply List.filter_congr
  intro l _
  by_cases h : ex l = true <;> simp [h]

/-- The executing lanes whose outcome has a property. -/
theorem mem_lanes (p : LaneOut → Bool) (ex : Nat → Bool) (val : Nat → LaneOut) (n l : Nat) :
    l ∈ ((((List.range n).map (fun l => if ex l then some (val l) else none)).zipIdx).filter (fun q => q.1.any p)).map Prod.snd
      ↔ l < n ∧ ex l = true ∧ p (val l) = true := by
  constructor
  · intro hl
    obtain ⟨⟨o, i⟩, hp, rfl⟩ := List.mem_map.mp hl
    obtain ⟨hp, hoor⟩ := List.mem_filter.mp hp
    obtain ⟨hi, ho⟩ := List.mem_zipIdx' hp
    simp only [List.length_map, List.length_range] at hi
    simp only [List.getElem_map, List.getElem_range] at ho
    subst ho
    by_cases he : ex i = true
    · exact ⟨hi, he, by simpa [he] using hoor⟩
    · simp [he] at hoor
  · rintro ⟨hl, he, ho⟩
    refine List.mem_map.mpr ⟨(some (val l), l), List.mem_filter.mpr ⟨?_, by simpa using ho⟩, rfl⟩
    rw [List.mk_mem_zipIdx_iff_getElem?]
    simp [hl, he]

/-- What a fold of writes by place leaves at a place. -/
theorem SMap.get_foldl_put (q : List (Option (LaneOut × Nat))) (n l : Nat) (m : SMap Nat) :
    SMap.get 0 ((q.zipIdx n).foldl (fun (m : SMap Nat) p => match p.1 with
        | some y => SMap.put m p.2 y.2
        | none => m) m) l
      = if n ≤ l then match (q[l - n]?).join with | some y => y.2 | none => SMap.get 0 m l else SMap.get 0 m l := by
  induction q generalizing n m with
  | nil => simp
  | cons o q ih =>
    rw [List.zipIdx_cons, List.foldl_cons, ih]
    by_cases h : n + 1 ≤ l
    · have e : l - n = (l - (n + 1)) + 1 := by omega
      rw [if_pos h, if_pos (by omega), e, List.getElem?_cons_succ]
      cases hq : (q[l - (n + 1)]?).join with
      | some y => rfl
      | none =>
        cases o with
        | none => rfl
        | some y => exact SMap.get_put_ne 0 m y.2 (by show l ≠ n; omega) rfl
    · rw [if_neg h]
      by_cases h' : l = n
      · subst h'
        rw [if_pos (le_refl _), Nat.sub_self]
        cases o with
        | none => rfl
        | some y => exact SMap.get_put_self 0 m l y.2
      · rw [if_neg (by omega)]
        cases o with
        | none => rfl
        | some y => exact SMap.get_put_ne 0 m y.2 (by show l ≠ n; omega) rfl

/-- A flag of the union of the lanes' flags. -/
theorem foldl_flag (p : Lane.Flags → Bool) (hp : ∀ a b, p (a.or b) = (p a || p b)) (val : Nat → LaneOut) (ex : Nat → Bool)
    (n : Nat) (z : Lane.Flags) :
    p ((((List.range n).map (fun l => if ex l then some (val l) else none)).foldl
      (fun (a : Lane.Flags) o => match o with | some o => a.or o.fl | none => a) z)) = true
      ↔ p z = true ∨ ∃ l, l < n ∧ ex l = true ∧ p (val l).fl = true := by
  induction n with
  | zero => simp
  | succ n ih =>
    rw [List.range_succ, List.map_append, List.foldl_append]
    by_cases he : ex n = true
    · simp only [List.map_cons, List.map_nil, he, if_true, List.foldl_cons, List.foldl_nil, hp, Bool.or_eq_true, ih]
      constructor
      · rintro ((h | ⟨l, h1, h2⟩) | h)
        · exact .inl h
        · exact .inr ⟨l, by omega, h2⟩
        · exact .inr ⟨n, by omega, he, h⟩
      · rintro (h | ⟨l, h1, h2, h3⟩)
        · exact .inl (.inl h)
        · by_cases hl : l = n
          · subst hl; exact .inr h3
          · exact .inl (.inr ⟨l, by omega, h2, h3⟩)
    · simp only [List.map_cons, List.map_nil, if_neg he, List.foldl_cons, List.foldl_nil, ih]
      constructor
      · rintro (h | ⟨l, h1, h2⟩)
        · exact .inl h
        · exact .inr ⟨l, by omega, h2⟩
      · rintro (h | ⟨l, h1, h2, h3⟩)
        · exact .inl h
        · by_cases hl : l = n
          · subst hl; exact absurd h2 he
          · exact .inr ⟨l, by omega, h2, h3⟩

theorem flag_any {a b : Bool} {p : Prop} (h : b = true ↔ p) : (a || b) = true ↔ a = true ∨ p := by
  rw [Bool.or_eq_true, h]

theorem flag_strict {a b c : Bool} {p : Prop} (h : b = true ↔ p) : (a || (c && b)) = true ↔ a = true ∨ c = true ∧ p := by
  rw [Bool.or_eq_true, Bool.and_eq_true, h]

/-- Counting a layer's quantiser events commutes with a change of a Reed. -/
theorem Channel.modReed_quantAt (k : Channel) (layer place : Nat) (q : QGrid.Counts) (r : ReedId) (f : Reed → Reed) :
    (k.quantAt layer place q).modReed r f = (k.modReed r f).quantAt layer place q := rfl

/-- Counting a layer's quantiser events leaves every Reed alone. -/
@[simp] theorem Channel.reed_quantAt (k : Channel) (layer place : Nat) (q : QGrid.Counts) (r : ReedId) :
    (k.quantAt layer place q).reed r = k.reed r := rfl

/-- A lane-wise instruction on a channel whose lanes raise no fault: the run it leaves, before the program counter moves, and that
nothing else of the channel changes but the random sources of the lanes that draw and the conversion counters. -/
theorem Channel.laneOp_run (k : Channel) (c : ChanId) (r : ReedId) (free : Nat → Nat) (x : Run) (w : Nat) (draw : Bool)
    (f : LaneIn → LaneOut) (val : Nat → LaneOut)
    (hval : ∀ l, l < 256 → x.executes w l = true →
      f { lane := l, a := x.lane (wVa w) l, b := x.second w l, c := x.lane (wVc w) l
          r8 := (if draw then Lane.next8 ((k.reed r).valve.source k.bind.seed c r l) else (0, 0)).1, free := free l } = val l)
    (hf : ∀ l, l < 256 → x.executes w l = true → (val l).fault = false) :
    ∃ x1 lfsr, k.laneOp c r free x w draw f
        = (k.modValve r (fun v => { v with run := some x1, lfsr := lfsr })).countLanes r x w val
      ∧ (draw = false → lfsr = (k.reed r).valve.lfsr)
      ∧ (∀ l, l < 256 → SMap.get 0 lfsr l = if draw && x.executes w l then
          (Lane.next8 ((k.reed r).valve.source k.bind.seed c r l)).2 else SMap.get 0 (k.reed r).valve.lfsr l)
      ∧ x1.abandoned = x.abandoned ∧ x1.failed = x.failed ∧ x1.pc = x.pc ∧ x.laneStep { x1 with pc := x.pc + 1 } w val := by
  have houts : ((List.range 256).map (fun l =>
      if x.executes w l then
        let (r8, nx) := if draw then Lane.next8 ((k.reed r).valve.source k.bind.seed c r l) else (0, 0)
        some (f { lane := l, a := x.lane (wVa w) l, b := x.second w l, c := x.lane (wVc w) l, r8 := r8, free := free l }, nx)
      else none)).map (fun p => p.map Prod.fst)
      = (List.range 256).map (fun l => if x.executes w l then some (val l) else none) := by
    rw [List.map_map]
    apply List.map_congr_left
    intro l hl
    have hl' : l < 256 := List.mem_range.mp hl
    simp only [Function.comp]
    by_cases he : x.executes w l = true
    · simp only [he, if_true, Option.map_some, hval l hl' he]
    · simp [he]
  unfold Channel.laneOp
  dsimp only
  rw [houts, count_lanes, count_lanes]
  rw [List.find?_eq_none.mpr]
  · refine ⟨_, _, rfl, ?_, ?_, rfl, rfl, rfl, rfl, ?_, ?_, ?_, ?_, ?_, ?_, ?_, ?_, ?_, ?_, ?_, ?_, ?_⟩
    · rintro rfl; rfl
    · intro l hl
      cases draw with
      | false => rfl
      | true =>
        refine (SMap.get_foldl_put _ 0 l _).trans ?_
        rw [if_pos (Nat.zero_le _), Nat.sub_zero, List.getElem?_map, List.getElem?_range hl]
        by_cases he : x.executes w l = true <;> simp [he]
    · rintro l ⟨hl, hl'⟩
      have hx : wVd w < x.v.length := by
        by_contra hc
        simp [List.getD_eq_getElem?_getD, List.getElem?_eq_none (not_lt.mp hc)] at hl'
      show (List.getD (setAt x.v (wVd w) _) (wVd w) []).getD l 0 = _
      rw [getD_setAt_self _ _ _ hx, getD_zip_map _ _ _ hl' (by simpa using hl) 0 0 none, getD_map_range _ hl]
      by_cases he : x.executes w l = true
      · simp [he, Run.lane]
      · simp [he, Run.lane]
    · intro v l hv
      show (List.getD (setAt x.v (wVd w) _) v []).getD l 0 = _
      rw [getD_setAt_ne _ _ _ hv]
      rfl
    · rintro l ⟨hl, hl'⟩
      have hx : wImm w % 4 < x.pred.length := by
        by_contra hc
        simp [List.getD_eq_getElem?_getD, List.getElem?_eq_none (not_lt.mp hc)] at hl'
      show (List.getD (setAt x.pred (wImm w % 4) _) (wImm w % 4) []).getD l false = _
      rw [getD_setAt_self _ _ _ hx, getD_zip_map _ _ _ hl' (by simpa using hl) false false none, getD_map_range _ hl]
      by_cases he : x.executes w l = true
      · simp [he, Run.predAt]
      · simp [he, Run.predAt]
    · intro p l hp
      show (List.getD (setAt x.pred (wImm w % 4) _) p []).getD l false = _
      rw [getD_setAt_ne _ _ _ hp]
      rfl
    · have := foldl_flag Lane.Flags.inv (fun _ _ => rfl) val (x.executes w) 256 {}
      exact flag_any (this.trans (by simp [Run.raises]))
    · have := foldl_flag Lane.Flags.dz (fun _ _ => rfl) val (x.executes w) 256 {}
      exact flag_any (this.trans (by simp [Run.raises]))
    · have := foldl_flag Lane.Flags.ovf (fun _ _ => rfl) val (x.executes w) 256 {}
      exact flag_any (this.trans (by simp [Run.raises]))
    · have := foldl_flag Lane.Flags.unf (fun _ _ => rfl) val (x.executes w) 256 {}
      exact flag_strict (this.trans (by simp [Run.raises]))
    · have := foldl_flag Lane.Flags.inx (fun _ _ => rfl) val (x.executes w) 256 {}
      exact flag_strict (this.trans (by simp [Run.raises]))
    · refine flag_any (b := !List.isEmpty _) ?_
      simp only [Bool.not_eq_true', List.isEmpty_eq_false_iff_exists_mem]
      exact exists_congr fun l => mem_lanes LaneOut.oor (x.executes w) val 256 l
    · intro l
      show l ∈ List.eraseDups (x.oorLanes ++ _) ↔ _
      rw [List.mem_eraseDups, List.mem_append]
      exact or_congr_right (mem_lanes LaneOut.oor (x.executes w) val 256 l)
    · intro l hl hl'
      show List.getD (((x.xf.zip _).map _)) l 0 = _
      rw [getD_zip_map _ _ _ hl' (by simpa using hl) 0 0 none, getD_map_range _ hl]
      by_cases he : x.executes w l = true <;> simp [he]
    · intro l hl hl'
      show List.getD (((x.pb.zip _).map _)) l false = _
      rw [getD_zip_map _ _ _ hl' (by simpa using hl) false false none, getD_map_range _ hl]
      by_cases he : x.executes w l = true <;> simp [he]
  · rintro ⟨o, i⟩ hp
    have ho : o ∈ (List.range 256).map (fun l => if x.executes w l then some (val l) else none) :=
      (List.mem_zipIdx' hp).2 ▸ List.getElem_mem _
    obtain ⟨l, hl, rfl⟩ := List.mem_map.mp ho
    by_cases he : x.executes w l = true
    · simp [he, hf l (List.mem_range.mp hl) he]
    · simp [he]

/-- A lane-wise instruction that raises no fault gives the run its results, steps it on, and changes nothing else. -/
theorem State.laneCmd_result (s : State) (c : ChanId) (r : ReedId) (op : Nat) (draw : Nat → Bool)
    (f : Run → Nat → LaneIn → LaneOut) {x : Run} {w : Nat} (h : s.atInstr c r op x w)
    (out : Nat → LaneOut) (ho : ∀ l, l < 256 → x.executes w l = true → f x w (s.laneIn c r x w (draw w) l) = out l)
    (hf : ∀ l, l < 256 → x.executes w l = true → (out l).fault = false) :
    ∃ x', x.laneStep x' w out ∧ s.onlyLanes c r (s.laneCmd c r op draw f) x w (draw w) out x' := by
  obtain ⟨hrun, hab, hfa, hst, hw, hop, hpc⟩ := h
  obtain ⟨x1, lfsr, hk, hl0, hl, ha, hfl, hp, hstep⟩ :=
    Channel.laneOp_run (s.chan c) c r (fun i => Config.freeNat (s.freeCtr + i)) x w (draw w) (f x w) out
      (fun l hl he => (ho l hl he) ▸ (by unfold State.laneIn; cases draw w <;> rfl)) hf
  have hd : x1.desc = x.desc := by have := congrArg Run.desc hstep.1; exact this
  refine ⟨{ x1 with pc := x.pc + 1 }, hstep, ?_⟩
  have hgo : s.laneCmd c r op draw f = (s.setChan c (((s.chan c).modValve r (fun v => { v with
      run := some { x1 with pc := x.pc + 1 }, lfsr := lfsr })).countLanes r x w out)).drew valveFree := by
    unfold State.laneCmd State.valveOp
    dsimp only
    rw [hrun]
    dsimp only
    rw [← hw, if_neg (by simp [hab, hfa, hst, hop]), hk]
    unfold Channel.advance
    rw [Channel.run_countLanes, Channel.reed_modValve_self]
    dsimp only
    rw [if_neg (by simp [ha, hfl, hab, hfa]), hp, hd, if_pos hpc]
    rw [Channel.modRun_countLanes, Channel.modRun, Channel.modValve_modValve]
    simp only [Option.map_some, hp, hd]
  rw [hgo]
  exact ⟨⟨rfl, fun d hd => by simp [hd]⟩, lfsr, by simp, hl0, hl⟩

/-- A lane-wise instruction whose executing lanes do `out` and raise no fault at the words that `ok` admits completes with that
result. -/
theorem State.laneResult_of (s : State) (c : ChanId) (r : ReedId) (op : Nat) (i : Instr) (draw : Nat → Bool)
    (f : Run → Nat → LaneIn → LaneOut) (hi : exec i s = .next (s.laneCmd c r op draw f)) (ok : Run → Nat → Prop)
    (out : Run → Nat → Nat → LaneOut)
    (ho : ∀ x w, ok x w → ∀ l, l < 256 → x.executes w l = true → f x w (s.laneIn c r x w (draw w) l) = out x w l)
    (hf : ∀ x w, ok x w → ∀ l, l < 256 → x.executes w l = true → (out x w l).fault = false) :
    s.laneResult i c r op draw ok out := by
  intro x w h hok
  obtain ⟨x', h1, h2⟩ := State.laneCmd_result s c r op draw f h (out x w) (ho x w hok) (hf x w hok)
  exact ⟨_, x', hi, h1, h2⟩

end Sys2Proof.Machine
end

