-- ==== Sys2Proof/WellFormed.lean ====
section
/-! DEFINITION. Which commands are well formed: every operand has the width or length that the spec gives it. A command that is not
well formed stands for nothing the device can be sent or shown; the meanings serve it as far as their rules go (log 12). -/

namespace Sys2Proof

/-- Header fields of a request: SESSION has 16 bits, TXID 32 and VERSION 8 (14 R356). -/
def Req.wf (q : Req) : Bool := q.session < 2 ^ 16 && q.txid < 2 ^ 32 && q.version < 256

/-- A stop is named by 16 bits of INDEX and 8 of SUBINDEX (14 R356). -/
def stopWf (index sub : Nat) : Bool := index < 2 ^ 16 && sub < 256

/-- The payload of a WRITE is at most 8,192 bytes long (14 R356). -/
def payloadWf (d : List Byte) : Bool := d.length ≤ 8192

/-- A BLOB written in segments is at most 1 MiB long (14 R361). -/
def blobWf (d : List Byte) : Bool := d.length ≤ 2 ^ 20

/-- A job binding's fields have the widths of its layout (21 R477). -/
def BindArg.wf (b : BindArg) : Bool :=
  b.job < 2 ^ 12 && b.rsvA < 2 ^ 3 && b.span < 2 ^ 16 && b.rsvB < 2 ^ 32 && b.seed < 2 ^ 64

/-- The fields of OPEN have their widths and lengths (14 R358). -/
def OpenFrame.wf (f : OpenFrame) : Bool :=
  f.role < 256 && f.job < 2 ^ 16 && f.cap < 2 ^ 16 && f.nonce.length == 32 && f.kemKey.length == 1568 && f.pub.length == 1793

/-- Sixteen samples of FNG[11:0] (12 R317). -/
def strapsWf (l : List Nat) : Bool := l.length == 16 && l.all (fun v => v < 2 ^ 12)

/-- A flit is 256 bytes long (10 R264). -/
def flitWf (f : List Byte) : Bool := f.length == 256

/-- CSEQ has 32 bits (11 R292). -/
def cseqWf (n : Nat) : Bool := n < 2 ^ 32

/-- A frame's channel of origin is one of four, its endpoint one of five, and at most five endpoints' consumers are told of
(13 R332, R334). -/
def HostFrame.wf (f : HostFrame) : Bool :=
  (f.src.all (fun c => c < 4)) && (f.dst.all (fun e => e < 5)) && f.drained.length ≤ 5

/-- The boot ROM checks three components (15 R370). -/
def BootObs.wf (o : BootObs) : Bool := o.bad.all (fun x => x.1 < 3)

/-- A channel boot names Reeds 0 to 67 and CXL link rates and widths as 0x4n03 codes them (20 R463; 09 R253). -/
def ChannelBootObs.wf (o : ChannelBootObs) : Bool :=
  o.failing.all (fun x => x.1 < 68) && o.columns.all (fun x => x.1 < 68) && o.cxl.rate < 4 && o.cxl.width < 32

/-- A disturbance is of one of nine kinds and names a Reed (03 R84, R86; 09 R236, R251, R255). -/
def Upset.wf (u : Upset) : Bool := u.kind < 9 && u.reed < 68

/-- What a beat test is shown. -/
def BeatObs.wf (o : BeatObs) : Bool := o.upsets.all Upset.wf

/-- Four channels are measured (19 R445; 16 R387). -/
def perChannelWf (l : List Nat) : Bool := l.length == 4

/-- A checkpoint lies on one of a channel's four targets (13 R335), and its objects are whole units of 4 KiB (13 R341). -/
def CkptImage.wf (x : CkptImage) : Bool := x.target < 4 && x.objects.all (fun o => o.length % 4096 == 0)

/-- Every operand of the command has the width or length that the spec gives it. -/
def Instr.wf : Instr → Bool
  | .powerOn o => o.wf
  | .strapEnd samples => strapsWf samples
  | .channelReady _ o => o.wf
  | .channelReset q _ d | .loadScore q _ d | .stopAtPhraseWrite q _ d | .restart q _ d | .weightLoadOpen q _ d | .weightLoadClose q _ d =>
    q.wf && payloadWf d
  | .stopListRestore q d | .closeSession q d | .hostEncapKeyWrite q d | .confidentialModeWrite q d | .attestationNonce q d
  | .logClear q d | .reinstate q d | .declaredTimeWrite q d | .meterReadoutRequest q d => q.wf && payloadWf d
  | .bind q _ b | .unbind q _ b => q.wf && b.wf
  | .stopWrite q index si d => q.wf && stopWf index si && payloadWf d
  | .read q index si | .subscribeCancel q index si => q.wf && stopWf index si
  | .readBlock q index si offset maximum => q.wf && stopWf index si && offset < 2 ^ 32 && maximum < 2 ^ 32
  | .subscribeOnChange q index si interval | .subscribeEachEntry q index si interval =>
    q.wf && stopWf index si && interval < 2 ^ 32
  | .writeBlock q index si total offset d => q.wf && stopWf index si && total < 2 ^ 32 && offset < 2 ^ 32 && payloadWf d
  | .clientKeyListWrite q d | .pathPlanWrite q _ d | .classMapWrite q _ _ d | .operatorSupplementWrite q d => q.wf && blobWf d
  | .updateImage q d _ => q.wf && d.length < 2 ^ 32
  | .readBlockSnapshotExpire h | .writeBlockTimeout h | .sessionOpenExpire h => h < 2 ^ 16
  | .sessionIdleTimeout h _ => h < 2 ^ 16
  | .sessionOpen q f => q.wf && f.wf
  | .sessionFinish q h _ => q.wf && h < 2 ^ 16
  | .sessionClose q | .activateMpFirmware q | .activateChanterFirmware q | .activateEtudePack q | .enterStandby q | .leaveStandby q => q.wf
  | .startFromPhrase0 q _ | .startFromStep q _ | .tunerClearCounters q _ | .tunerClearLog q _ | .collCountersClear q _
  | .memCountersClear q _ | .reinstateAll q _ => q.wf
  | .portCountersClear q _ _ => q.wf
  | .mouthpieceReset q _ => q.wf
  | .raiseMinSvn q d _ => q.wf && payloadWf d
  | .programOperatorSlot q d _ => q.wf && payloadWf d
  | .hostFrameReceive f => f.wf
  | .hostRdmaWrite _ addr _ => addr < 2 ^ 64
  | .beatTest _ o => o.wf
  | .collMainPassDone _ cseq | .collTimeout _ cseq => cseqWf cseq
  | .collDelivered _ cseq l => cseqWf cseq && l.all Upset.wf
  | .sequencedFlitReceive _ _ f _ _ _ => flitWf f
  | .ackReceive _ _ f | .nakReceive _ _ f | .creditReceive _ _ f | .helloReceive _ _ f => flitWf f.bytes
  | .scrubRead _ u => u.all Upset.wf
  | .etudePhaseDone _ o => o.etude < 2 ^ 16
  | .capCheck _ l | .meterInterval _ l => perChannelWf l
  | .restartLoadDone _ l => l.all CkptImage.wf
  | .resetN | .mpFirmwareReady | .hostLinkDown | .attestationSigned | .thermalTrip | .refclkLLoss | .refclkCLoss | .readoutComplete
  | .mtrPulseEnd | .sealBroken | .sealed | .resetNRelease | .refclkLReturn | .ovAlertHoldEnd | .crystalStop | .returnToP2 => true
  | .hostLinkUp lanes => lanes < 256
  | .cmRequest _ | .bounceRecordReceive _ _ | .scoreCheckDone _ | .stopComplete _ | .holdTimeout _ | .aclkBinChangeDone _
  | .crossingFifoSpace _ _ => true
  | .versionReloadDone _ _ | .overflowRetry _ _ | .checksumMismatch _ _ | .tilePassEnd _ _ | .underflowPass _ _ | .tileRelease _ _
  | .valveRestart _ _ | .vrunComplete _ _ => true
  | .nop _ _ | .add _ _ | .sub _ _ | .mul _ _ | .fma _ _ | .min _ _ | .max _ _ | .cmp _ _ | .sel _ _ | .exp2 _ _ | .log2 _ _ | .rcp _ _
  | .rsqrt _ _ | .tanh _ _ | .sigm _ _ | .cvt _ _ | .qnt _ _ | .dq _ _ | .perm _ _ | .permx _ _ | .shl _ _ | .shr _ _ | .sar _ _
  | .and_ _ _ | .or_ _ _ | .xor_ _ _ | .mov _ _ | .in_ _ _ | .out _ _ | .drn _ _ | .movi _ _ => true
  | .scalarWrite _ _ _ _ => true
  | .ploadComplete _ _ | .moveComplete _ _ | .pickComplete _ _ | .mxioComplete _ _ => true
  | .openGranted _ | .scalarsDone _ | .rollback _ => true
  | .sendComplete _ _ | .keyDerived _ _ | .flitSlot _ _ | .ackTimer _ _ | .replayTimeout _ _ | .creditTimer _ _ | .helloTimer _ _
  | .laneLockLoss _ _ | .downIdleEnd _ _ | .trainingDone _ _ => true
  | .discoveryWindowEnd _ | .hbmRefresh _ _ | .cxlLinkLoss _ | .shardFetch _ | .shardResident _ _ | .targetReconnect _ _ _
  | .checkpointTargetFail _ _ | .checkpointDone _ _ | .weightMeasureDone _ => true
  | .mpWatchdog _ | .mpTrap _ | .errorFifoDrain _ | .haltResetTimer _ | .etudeDue _ _ | .rotationCopyDone _ | .deferralDeadline _ _
  | .etudeWindowEnd _ => true
  | .sagDetect _ _ | .channelSaveWritten _ | .saveComplete _ _ | .resumeDecision _ _ | .resumeStart _ | .powerOff _ | .ovEvent _
  | .boardCapLevel _ | .thermalSample _ _ _ | .thermN _ | .meterPoll _ | .sealLoopSample _ | .meterPowerUp _ _ | .lowInput _
  | .ovEpisodeEnd _ => true
  | .verdictAgreed _ l | .chordReloadDone _ _ l => l.all Upset.wf

end Sys2Proof
end

