-- ==== Sys2Proof/Tests/Slice0.lean ====
section
/-! SUPPORT. Tests: ill-formed commands are refused, the hypotheses of every statement can be met, and small checks of commands
against worked values of the spec. -/

namespace Sys2Proof.Tests

open Sys2Proof Sys2Proof.Machine Sys2Proof.Num

/-! ### Helpers -/

/-- The next state of an outcome, if it is one. -/
def nextOf (o : Host.Outcome State Fault Refusal) : Option State :=
  match o with
  | .next t => some t
  | _ => none

/-- An operator's session with handle 1. -/
def opSession : Session := { handle := 1, role := .operator }

/-- A device that is READY with its Mouthpiece running, its host link up and one operator's session. -/
def base : State :=
  { pins := { phase := .run, seenF := true }, dev := 1
    mp := { running := true, sessions := [opSession], host := { up := true } }
    ch := Vector.replicate 4 { st := .ready } }

/-- A request of that session. -/
def q1 : Req := { session := 1, txid := 7 }

/-- The device with channel 0 changed. -/
def withChan (k : Channel) : State := base.setChan 0 k

/-- The checks that `admits` names, as one value. -/
def admitsB (s : State) (q : Req) (op index sub : Nat) (x : Session) : Bool :=
  s.canSend && decide (q.version = 1) && decide (s.dev ≠ 0) && decide (q.session ≠ 0) && decide (s.session? q.session = some x)
    && decide (x.cached q.txid = none) && decide (s.underway q = false) && decide (engineering index = false)
    && decide (s.accessCheck q x op index sub = 0)

theorem admits_of {s : State} {q : Req} {op index sub : Nat} {x : Session} (h : admitsB s q op index sub x = true) :
    s.admits q op index sub x := by
  simp only [admitsB, Bool.and_eq_true, decide_eq_true_eq] at h
  obtain ⟨⟨⟨⟨⟨⟨⟨⟨a, b⟩, c⟩, d⟩, e⟩, f⟩, g⟩, i⟩, j⟩ := h
  exact ⟨a, b, c, d, e, f, g, i, j⟩

/-- The checks that `accepts` names, as one value. -/
def acceptsB (s : State) (q : Req) (block : Bool) (index sub : Nat) (d : List Byte) (x : Session) : Bool :=
  admitsB s q (if block then 4 else 2) index sub x && (block || decide (d.length ≤ 8192)) &&
    match stopRow index sub with
    | none => false
    | some r => decide (r.type.check d = 0) && decide (s.lengthBad index sub d.length = false) && decide (s.valueBad index sub d = false)
        && (decide (r.access ≠ .rwl) || decide (s.locked index sub (some d) = false))
        && decide (s.faultForbids (if block then 4 else 2) index sub = false)

theorem accepts_of {s : State} {q : Req} {block : Bool} {index sub : Nat} {d : List Byte} {x : Session}
    (h : acceptsB s q block index sub d x = true) : s.accepts q block index sub d x := by
  simp only [acceptsB, Bool.and_eq_true, Bool.or_eq_true, decide_eq_true_eq] at h
  obtain ⟨⟨h1, h2⟩, h3⟩ := h
  cases hr : stopRow index sub with
  | none => rw [hr] at h3; simp at h3
  | some r =>
    rw [hr] at h3
    simp only [Bool.and_eq_true, Bool.or_eq_true, decide_eq_true_eq] at h3
    obtain ⟨⟨⟨⟨a, b⟩, c⟩, e⟩, f⟩ := h3
    refine ⟨admits_of h1, h2, r, hr, a, b, c, ?_, f⟩
    intro hrw
    rcases e with e | e
    · exact absurd hrw e
    · exact e

/-! ### Well-formedness: an ill-formed term for each check -/

theorem wf_refuses_session : (Instr.sessionClose { session := 65536 }).wf = false := by decide
theorem wf_refuses_txid : (Instr.sessionClose { txid := 2 ^ 32 }).wf = false := by decide
theorem wf_refuses_version : (Instr.sessionClose { version := 256 }).wf = false := by decide
theorem wf_refuses_index : (Instr.read q1 65536 0).wf = false := by decide
theorem wf_refuses_subindex : (Instr.read q1 0x1000 256).wf = false := by decide
theorem wf_refuses_offset : (Instr.readBlock q1 0x6000 1 (2 ^ 32) 0).wf = false := by decide
theorem wf_refuses_interval : (Instr.subscribeOnChange q1 0x1030 0 (2 ^ 32)).wf = false := by decide
theorem wf_refuses_handle : (Instr.sessionOpenExpire 65536).wf = false := by decide
theorem wf_refuses_open_role : ({ role := 256 } : OpenFrame).wf = false := by decide
theorem wf_refuses_open_nonce : (Instr.sessionOpen q1 {}).wf = false := by decide
theorem wf_refuses_bind_job : (Instr.bind q1 0 { job := 4096 }).wf = false := by decide
theorem wf_refuses_bind_reserved : (Instr.bind q1 0 { rsvA := 8 }).wf = false := by decide
theorem wf_refuses_bind_span : (Instr.unbind q1 0 { span := 65536 }).wf = false := by decide
theorem wf_refuses_bind_seed : (Instr.bind q1 0 { seed := 2 ^ 64 }).wf = false := by decide
theorem wf_refuses_strap_count : (Instr.strapEnd [5]).wf = false := by decide
theorem wf_refuses_strap_width : (Instr.strapEnd (List.replicate 16 4096)).wf = false := by decide
theorem wf_refuses_short_flit : (Instr.ackReceive 0 0 { bytes := [0#8] }).wf = false := by decide
theorem wf_refuses_cseq : (Instr.collTimeout 0 (2 ^ 32)).wf = false := by decide
theorem wf_refuses_endpoint : (Instr.hostFrameReceive { dst := some 5 }).wf = false := by decide
theorem wf_refuses_frame_source : (Instr.hostFrameReceive { src := some 4 }).wf = false := by decide
theorem wf_refuses_component : (Instr.powerOn { bad := [(3, false)] }).wf = false := by decide
theorem wf_refuses_boot_reed : (Instr.channelReady 0 { failing := [(68, 0)] }).wf = false := by decide
theorem wf_refuses_upset : (Instr.scrubRead 0 (some { kind := 9 })).wf = false := by decide
theorem wf_refuses_upset_reed : (Instr.beatTest 0 { upsets := [{ reed := 68 }] }).wf = false := by decide
theorem wf_refuses_measures : (Instr.capCheck 0 [1, 2, 3]).wf = false := by decide
theorem wf_refuses_object_length : (Instr.restartLoadDone 0 [{ objects := [[0#8]] }]).wf = false := by decide
theorem wf_refuses_target : (Instr.restartLoadDone 0 [{ target := 4 }]).wf = false := by decide
theorem wf_refuses_etude : (Instr.etudePhaseDone 0 { etude := 65536 }).wf = false := by decide
theorem wf_refuses_lanes : (Instr.hostLinkUp 256).wf = false := by decide
theorem wf_refuses_address : (Instr.hostRdmaWrite 0 (2 ^ 64) []).wf = false := by decide
theorem wf_refuses_payload : (Instr.logClear q1 (List.replicate 8193 0#8)).wf = false := by
  simp only [Instr.wf, payloadWf, List.length_replicate]; decide
theorem wf_refuses_blob : (Instr.pathPlanWrite q1 0 (List.replicate (2 ^ 20 + 1) 0#8)).wf = false := by
  simp only [Instr.wf, blobWf, List.length_replicate]; decide
theorem wf_admits : (Instr.bind q1 0 {}).wf = true ∧ (Instr.strapEnd (List.replicate 16 4095)).wf = true
    ∧ (Instr.sessionClose q1).wf = true := by decide

/-! ### The Valve: witnesses -/

/-- An instruction word of 06 R144: OP, TY, SB and IMM, executed by every lane. -/
def word (op ty sb imm : Nat) : Nat := op + sb * 2 ^ 14 + ty * 2 ^ 24 + imm * 2 ^ 33

/-- A run of two instructions over `vl` lanes with S0 = 5. -/
def runOf (w vl : Nat) (strict : Bool) : Run :=
  { desc := { e := 2, n := 2, vl := vl }, prog := [w, 0], scal := [5], set := { strict := strict } }

/-- A device whose Valve of Reed 0 holds a run. -/
def withRun (x : Run) : State := withChan ((base.chan 0).modReed 0 (fun y => { y with valve := { y.valve with run := some x } }))

theorem wit_atInstr (w vl : Nat) (strict : Bool) :
    (withRun (runOf w vl strict)).atInstr 0 0 (wOp w) (runOf w vl strict) w :=
  ⟨rfl, rfl, rfl, by show 0 < 2; omega, rfl, rfl, by show 0 + 1 < 2; omega⟩

theorem wit_ValveRawInstructions : ∀ op ∈ [0x00, 0x1A, 0x1E, 0x08, 0x17, 0x18, 0x19],
    (withRun (runOf (word op 0 0 0) 256 false)).atInstr 0 0 op (runOf (word op 0 0 0) 256 false) (word op 0 0 0) := by
  intro op h
  have : wOp (word op 0 0 0) = op := by revert op; decide
  simpa only [this] using wit_atInstr (word op 0 0 0) 256 false

theorem wit_ValveShifts : (∀ p ∈ [(0x14, 2), (0x14, 3), (0x15, 3), (0x16, 2)], wOp (word p.1 p.2 0 0) = p.1 ∧ wTy (word p.1 p.2 0 0) = p.2)
    ∧ (withRun (runOf (word 0x14 2 0 0) 256 false)).atInstr 0 0 0x14 (runOf (word 0x14 2 0 0) 256 false) (word 0x14 2 0 0) :=
  ⟨by decide, wit_atInstr (word 0x14 2 0 0) 256 false⟩

theorem wit_ValveCompare :
    (withRun (runOf (word 0x07 1 0 31) 1 true)).atInstr 0 0 0x07 (runOf (word 0x07 1 0 31) 1 true) (word 0x07 1 0 31)
    ∧ Lane.fval .bf16 0x7FC0 = .nan ∧ Lane.fval .fp16 0x7E00 = .nan := ⟨wit_atInstr (word 0x07 1 0 31) 1 true, by decide, by decide⟩

theorem wit_ValvePermutes :
    let in1 := runOf (word 0x12 0 16 0) 6 true
    let out1 := runOf (word 0x12 0 16 0) 5 true
    let out2 := runOf (word 0x13 0 0 1) 1 true
    (let big := runOf (word 0x13 0 0 256) 1 true; (withRun big).atInstr 0 0 0x13 big (word 0x13 0 0 256) ∧ 256 ≤ wImm (word 0x13 0 0 256))
    ∧ (out1.set.strict = true ∧ 0 < 256 ∧ out1.executes (word 0x12 0 16 0) 0 = true ∧ 5 ≤ out1.second (word 0x12 0 16 0) 0)
    ∧ (out2.set.strict = true ∧ 0 < 256 ∧ out2.executes (word 0x13 0 0 1) 0 = true ∧ 1 ≤ 0 ^^^ wImm (word 0x13 0 0 1))
    ∧ (withRun in1).atInstr 0 0 0x12 in1 (word 0x12 0 16 0) ∧ (∀ l, in1.second (word 0x12 0 16 0) l < 6)
    ∧ (withRun out1).atInstr 0 0 0x12 out1 (word 0x12 0 16 0)
    ∧ ¬ (out1.set.strict = false ∨ ∀ l, l < 256 → out1.executes (word 0x12 0 16 0) l = true → out1.second (word 0x12 0 16 0) l < 5)
    ∧ (withRun out2).atInstr 0 0 0x13 out2 (word 0x13 0 0 1) ∧ wImm (word 0x13 0 0 1) < 256
    ∧ ¬ (out2.set.strict = false ∨ ∀ l, l < 256 → out2.executes (word 0x13 0 0 1) l = true → l ^^^ wImm (word 0x13 0 0 1) < 1) := by
  refine ⟨⟨wit_atInstr (word 0x13 0 0 256) 1 true, by decide⟩, by decide, by decide, wit_atInstr (word 0x12 0 16 0) 6 true, fun l => ?_, wit_atInstr (word 0x12 0 16 0) 5 true, ?_,
    wit_atInstr (word 0x13 0 0 1) 1 true, by decide, ?_⟩
  · show (5 : Nat) < 6; omega
  · rintro (h | h)
    · exact absurd h (by decide)
    · exact absurd (h 0 (by omega) (by decide)) (by decide)
  · rintro (h | h)
    · exact absurd h (by decide)
    · exact absurd (h 0 (by omega) (by decide)) (by decide)

theorem wit_ValveArithmetic : (∀ p ∈ [(1, 0), (1, 3), (2, 1), (2, 2), (3, 3), (4, 0), (4, 1), (5, 3), (6, 0), (15, 3)],
      wOp (word p.1 p.2 0 0) = p.1 ∧ wTy (word p.1 p.2 0 0) = p.2)
    ∧ (withRun (runOf (word 4 1 0 0) 256 false)).atInstr 0 0 4 (runOf (word 4 1 0 0) 256 false) (word 4 1 0 0) :=
  ⟨by decide, wit_atInstr (word 4 1 0 0) 256 false⟩

theorem wit_ValveMinMax : Lane.fval .bf16 0x7FC0 = .nan ∧ Lane.fval .bf16 0x3F80 ≠ .nan ∧ Lane.fval .fp16 0x7C01 = .nan
    ∧ Lane.fval .fp16 0x8000 ≠ .nan ∧ ({ strict := true } : Lane.Env).strict = true
    ∧ Lane.relation .bf16 2 0xFF80 0xFF7F = true ∧ Lane.relation .fp16 4 0x7C00 0x7BFF = true ∧ Lane.relation .bf16 0 0x0001 0x0001 = true
    ∧ (∃ i, Lane.fval .bf16 0x8000 = .fin true 0 i) ∧ (∃ j, Lane.fval .bf16 0x0000 = .fin false 0 j)
    ∧ Fmt.isInt (Score.fmtOf 0) = false ∧ Fmt.isInt (Score.fmtOf 7) = false
    ∧ (withRun (runOf (word 0x05 0 0 0) 256 true)).atInstr 0 0 0x05 (runOf (word 0x05 0 0 0) 256 true) (word 0x05 0 0 0)
    ∧ (withRun (runOf (word 0x06 1 0 0) 1 false)).atInstr 0 0 0x06 (runOf (word 0x06 1 0 0) 1 false) (word 0x06 1 0 0) :=
  ⟨by decide, by decide, by decide, by decide, by decide, by decide, by decide, by decide, ⟨_, rfl⟩, ⟨_, rfl⟩, by decide, by decide,
    wit_atInstr (word 0x05 0 0 0) 256 true, wit_atInstr (word 0x06 1 0 0) 1 false⟩

theorem wit_ValveFunctions : (∀ op ∈ [0x09, 0x0A, 0x0B, 0x0C, 0x0D, 0x0E], wOp (word op 1 0 0) = op ∧ wTy (word op 1 0 0) < 2)
    ∧ (withRun (runOf (word 0x0B 1 0 0) 256 false)).atInstr 0 0 0x0B (runOf (word 0x0B 1 0 0) 256 false) (word 0x0B 1 0 0)
    ∧ Lane.fval .bf16 0x7FC0 = .nan ∧ (∃ n k, Lane.fval .bf16 0xBF80 = .fin true (n + 1) k) ∧ (∃ k, Lane.fval .fp16 0x0000 = .fin false 0 k)
    ∧ (∃ n k, Lane.fval .bf16 0x8000 = .fin n 0 k) ∧ Lane.fval .bf16 0xFF80 = .inf true ∧ Lane.fval .fp16 0x7C00 = .inf false :=
  ⟨by decide, wit_atInstr (word 0x0B 1 0 0) 256 false, by decide, ⟨127, -7, by decide⟩, ⟨_, rfl⟩, ⟨_, _, rfl⟩, by decide, by decide⟩

theorem wit_ValveQuantise : (∀ p ∈ [(0x10, 0), (0x10, 5), (0x11, 0), (0x11, 7)],
      wOp (word p.1 0 0 p.2) = p.1 ∧ wTy (word p.1 0 0 p.2) < 2 ∧ (Fmt.ofId? (wImm (word p.1 0 0 p.2) % 16)).isSome = true)
    ∧ (withRun (runOf (word 0x10 0 0 5) 256 false)).atInstr 0 0 0x10 (runOf (word 0x10 0 0 5) 256 false) (word 0x10 0 0 5)
    ∧ (Lane.qnt {} .bf16 .int8 .rne 0x7FC0 127 0).pb = true ∧ (Lane.qnt {} .bf16 .int8 .rne 0x3F80 254 0).crushed = true
    ∧ (∃ n k, decode .bf16 0 = .fin n 0 k) :=
  ⟨by decide, wit_atInstr (word 0x10 0 0 5) 256 false, by decide, by decide, ⟨_, _, rfl⟩⟩

/-- A run with an input stream that reads the tile output it consumes, and a run that is done. -/
def streamRun (w mode step n : Nat) : Run :=
  { desc := { e := 2, n := n, vl := 256, ins := [some { mode := mode }] }, prog := [w, 0], src := some {}, step := step }

theorem wit_ValveStreamInstructions : ∀ mode ∈ [0, 1],
    let x := streamRun (word 0x1B 0 0 0) mode 0 2
    (withRun x).atInstr 0 0 0x1B x (word 0x1B 0 0 0) ∧ x.desc.ins.getD (wImm (word 0x1B 0 0 0) % 4) none = some { mode := mode }
    ∧ (∃ cr f ts k, ((withRun x).chan 0).streamChord 0 x { mode := mode } = (cr, f, ts, true, k))
    ∧ ({ mode := mode } : StreamDesc).mode = mode := by
  intro mode _
  refine ⟨⟨rfl, rfl, rfl, by show 0 < 2; omega, rfl, rfl, by show 0 + 1 < 2; omega⟩, rfl, ⟨_, _, _, _, rfl⟩, rfl⟩

theorem wit_ValveStreamInstructions_none :
    (withRun (runOf (word 0x1B 0 0 2) 256 false)).atInstr 0 0 0x1B (runOf (word 0x1B 0 0 2) 256 false) (word 0x1B 0 0 2)
    ∧ (runOf (word 0x1B 0 0 2) 256 false).desc.ins.getD (wImm (word 0x1B 0 0 2) % 4) none = none :=
  ⟨wit_atInstr (word 0x1B 0 0 2) 256 false, by decide⟩

/-- A run whose input stream reads a chord of the output buffer that has a parity error. -/
def spoiltRun : Run := streamRun (word 0x1B 0 0 0) 1 0 2

theorem wit_ValveStreamInstructions_recovery :
    let s := withChan ((base.chan 0).modReed 0 (fun y => { y with
      valve := { y.valve with run := some spoiltRun }, slots := [{ parity := true }] }))
    s.atInstr 0 0 0x1B spoiltRun (word 0x1B 0 0 0) ∧ ∃ cr f ts k, (s.chan 0).streamChord 0 spoiltRun { mode := 1 } = (cr, f, ts, false, k) :=
  ⟨⟨rfl, rfl, rfl, by show 0 < 2; omega, rfl, rfl, by show 0 + 1 < 2; omega⟩, ⟨_, _, _, _, rfl⟩⟩

theorem wit_ValveStreamInstructions_out :
    (withRun (runOf (word 0x1C 0 0 1) 256 false)).atInstr 0 0 0x1C (runOf (word 0x1C 0 0 1) 256 false) (word 0x1C 0 0 1)
    ∧ (withRun (runOf (word 0x1D 0 0 7) 256 false)).atInstr 0 0 0x1D (runOf (word 0x1D 0 0 7) 256 false) (word 0x1D 0 0 7)
    ∧ wImm (word 0x1C 0 0 1) % 2 < (runOf (word 0x1C 0 0 1) 256 false).gather.length :=
  ⟨wit_atInstr (word 0x1C 0 0 1) 256 false, wit_atInstr (word 0x1D 0 0 7) 256 false, by decide⟩

/-- An abandoned run, and the one thing it waits for: a wind chest chord that nothing wrote. -/
def lostRedo : Redo := { space := 2, addr := 64, len := 32 }

theorem wit_ValveStepAndRunEnds :
    (let x := streamRun 0 0 0 1; (withRun x).atLast 0 0 0x00 x 0 ∧ (0x00, Instr.nop 0 0) ∈ valveForms 0 0)
    ∧ (∃ t x₁, exec (.nop 0 0) ((withRun (streamRun 0 0 0 1)).setChan 0 (((withRun (streamRun 0 0 0 1)).chan 0).modValve 0 (fun v =>
          { v with run := some { streamRun 0 0 0 1 with desc := { (streamRun 0 0 0 1).desc with n := 0 + 2 } } }))) = .next t
        ∧ ((t.chan 0).reed 0).valve.run = some x₁ ∧ x₁.abandoned = false ∧ x₁.failed = false)
    ∧ (let x := streamRun 0 0 2 1; (((withRun x).chan 0).reed 0).valve.run = some x ∧ x.desc.e ≤ x.step ∧ x.src = some {})
    ∧ (let x := streamRun 0 0 1 1; (((withRun x).chan 0).reed 0).valve.run = some x ∧ x.step < x.desc.e)
    ∧ (∀ x, ((base.chan 0).reed 0).valve.run = some x → x.abandoned = false)
    ∧ (let x : Run := { abandoned := true }; (((withRun x).chan 0).reed 0).valve.run = some x
        ∧ ∃ k1, ((withRun x).chan 0).recoverAll 0 1 0 x.redo = .ok k1)
    ∧ (let x : Run := { abandoned := true, redo := [lostRedo] }; (((withRun x).chan 0).reed 0).valve.run = some x
        ∧ ∃ e, ((withRun x).chan 0).recoverAll 0 1 0 x.redo = .error e) := by
  refine ⟨⟨⟨rfl, rfl, rfl, by show 0 < 2; omega, rfl, rfl, by show 1 ≤ 0 + 1; omega⟩, by decide⟩, ⟨_, _, rfl, rfl, rfl, rfl⟩,
    ⟨rfl, by show 2 ≤ 2; omega, rfl⟩, ⟨rfl, by show 1 < 2; omega⟩, fun x h => ?_, ⟨rfl, _, rfl⟩, ⟨rfl, _, rfl⟩⟩
  cases h

/-- PERM_OOR of a run that consumed a tile reaches the tile's status word: word 0 gains bit 16 (06 R154). -/
theorem wit_ValveStepAndRunEnds_word :
    let x := streamRun 0 0 2 1
    let s := withChan ((base.chan 0).modReed 0 (fun y => { y with
      valve := { y.valve with run := some x }, slots := [{}], words := [{ entry := 0, word := 0 }] }))
    ((s.chan 0).reed 0).words.find? (fun z => z.entry == 0) = some { entry := 0, word := 0 } := rfl

/-- A run over two lanes with S0 and V1 given, and what its V0 holds after an instruction. -/
def smallRun (w s0 v1 : Nat) : Run :=
  { desc := { e := 2, n := 2, vl := 2 }, prog := [w, 0], scal := [s0], v := [[0, 0], [v1, v1]] ++ List.replicate 14 [0, 0] }

def v0After (i : Instr) (x : Run) : Option (List Nat) :=
  (nextOf (exec i (withRun x))).bind (fun t => ((t.chan 0).reed 0).valve.run.map (fun y => [y.lane 0 0, y.lane 0 1]))

/-- VA = V1 and SB = S0. -/
def ops : Nat := 2 ^ 10 + 16 * 2 ^ 14

/-- BF16: 2.0 + 1.0 = 3.0. -/
theorem test_add : v0After (.add 0 0) (smallRun (0x01 + ops) 0x3F80 0x4000) = some [0x4040, 0x4040] := by decide
/-- INT16: 0x7FFF + 1 saturates (06 R146). -/
theorem test_add_saturates : v0After (.add 0 0) (smallRun (0x01 + ops + 2 * 2 ^ 24) 1 0x7FFF) = some [0x7FFF, 0x7FFF] := by decide
/-- UINT16: 1 - 2 saturates at 0. -/
theorem test_sub : v0After (.sub 0 0) (smallRun (0x02 + ops + 3 * 2 ^ 24) 2 1) = some [0, 0] := by decide
/-- BF16: -2.0 x 3.0 = -6.0. -/
theorem test_mul : v0After (.mul 0 0) (smallRun (0x03 + ops) 0x4040 0xC000) = some [0xC0C0, 0xC0C0] := by decide
/-- BF16 fast mode: the minimum of a NaN and 1.0 is 1.0 (02 R54). -/
theorem test_min : v0After (.min 0 0) (smallRun (0x05 + ops) 0x3F80 0x7FC0) = some [0x3F80, 0x3F80] := by decide
/-- INT16: the maximum of -1 and 1. -/
theorem test_max : v0After (.max 0 0) (smallRun (0x06 + ops + 2 * 2 ^ 24) 1 0xFFFF) = some [1, 1] := by decide
/-- FP16: the reciprocal of 2.0 in strict mode is correctly rounded (06 R148). -/
theorem test_rcp : v0After (.rcp 0 0) { smallRun (0x0B + ops + 2 ^ 24) 0 0x4000 with set := { strict := true } } = some [0x3800, 0x3800] := by
  decide
/-- SAR of INT16 -4 by 1, SHR of UINT16, SHL. -/
theorem test_sar : v0After (.sar 0 0) (smallRun (0x16 + ops + 2 * 2 ^ 24) 1 0xFFFC) = some [0xFFFE, 0xFFFE] := by decide
theorem test_shr : v0After (.shr 0 0) (smallRun (0x15 + ops + 3 * 2 ^ 24) 17 0xFFFC) = some [0x7FFE, 0x7FFE] := by decide
theorem test_shl : v0After (.shl 0 0) (smallRun (0x14 + ops + 3 * 2 ^ 24) 1 0xFFFC) = some [0xFFF8, 0xFFF8] := by decide
/-- XOR with 0x8000 negates a float (06 R146). -/
theorem test_xor : v0After (.xor_ 0 0) (smallRun (0x19 + ops) 0x8000 0x3F80) = some [0xBF80, 0xBF80] := by decide
/-- MOVI writes IMM. -/
theorem test_movi : v0After (.movi 0 0) (smallRun (0x1E + 0xABCD * 2 ^ 33) 0 0) = some [0xABCD, 0xABCD] := by decide
/-- CVT of BF16 -1.5 to INT16, round to nearest even. -/
theorem test_cvt : v0After (.cvt 0 0) (smallRun (0x0F + ops + 2 * 2 ^ 33) 0 0xBFC0) = some [0xFFFE, 0xFFFE] := by decide
/-- PERMX with 1 swaps neighbours. -/
theorem test_permx : v0After (.permx 0 0) { smallRun (0x13 + ops + 2 ^ 33) 0 0 with v := [[0, 0], [7, 9]] ++ List.replicate 14 [0, 0] }
    = some [9, 7] := by decide

/-! ### Requests: witnesses -/

/-- The device with channel 0 in a state, with a job bound. -/
def bound (st : ChState) : State := withChan { st := st, bind := { job := 5, bound := true, span := 1 } }

/-- The same, with a score loaded. -/
def loaded : State := withChan { st := .loaded, bind := { job := 5, bound := true, span := 1 }, score := some {} }

def b1 : BindArg := { job := 5, span := 1, seed := 9 }

theorem wit_ClearWrites : ∀ c : ChanId,
    base.accepts q1 false (ofChan c 0x5020) 9 [0xFF#8] opSession ∧ base.accepts q1 false (ofChan c 0x5010) 9 [1#8] opSession
    ∧ base.accepts q1 false (ofChan c 0x4010) 2 [1#8] opSession ∧ base.accepts q1 false (ofChan c 0x3020) 4 [1#8] opSession
    ∧ base.accepts q1 false (ofChan c 0x3020) 4 [2#8] opSession ∧ base.accepts q1 false 0x6001 0 [0x1F#8] opSession := fun c =>
  ⟨accepts_of (by revert c; decide), accepts_of (by revert c; decide), accepts_of (by revert c; decide),
    accepts_of (by revert c; decide), accepts_of (by revert c; decide), accepts_of (by decide)⟩

theorem wit_ScoreControl :
    ((bound .ready).accepts q1 false (ofChan 0 0x2010) 1 (List.replicate 16 0#8) opSession
      ∧ (((bound .ready).chan 0).st = .ready ∧ ((bound .ready).chan 0).bind.bound = true ∧ ((bound .ready).chan 0).load ≠ 1))
    ∧ ((bound .run).accepts q1 false (ofChan 0 0x2010) 1 (List.replicate 16 0#8) opSession ∧ ((bound .run).chan 0).st = .run)
    ∧ (loaded.accepts q1 false (ofChan 0 0x2010) 2 [1#8] opSession ∧ loaded.startForbidden 0 1 = false)
    ∧ ((bound .ready).accepts q1 false (ofChan 0 0x2010) 2 [1#8] opSession ∧ (bound .ready).startForbidden 0 1 = true)
    ∧ (loaded.accepts q1 false (ofChan 0 0x2010) 2 [2#8] opSession ∧ loaded.startForbidden 0 2 = false)
    ∧ ((bound .run).accepts q1 false (ofChan 0 0x2010) 2 [2#8] opSession ∧ (bound .run).startForbidden 0 2 = true)
    ∧ (bound .run).accepts q1 false (ofChan 0 0x2010) 3 [1#8, 0#8] opSession :=
  ⟨⟨accepts_of (by decide), by decide⟩, ⟨accepts_of (by decide), by decide⟩, ⟨accepts_of (by decide), by decide⟩,
    ⟨accepts_of (by decide), by decide⟩, ⟨accepts_of (by decide), by decide⟩, ⟨accepts_of (by decide), by decide⟩, accepts_of (by decide)⟩

theorem wit_BindingWrites :
    (base.accepts q1 false (ofChan 0 0x2001) 0 (bindBytes b1 true) opSession ∧ (base.chan 0).st = .ready ∧ (base.chan 0).bind.bound = false
      ∧ base.bindForbidden 0 { job := 5, span := 1, seed := 9 } = false ∧ (base.store 0).epoch < 0xFFFFFFFF)
    ∧ ((bound .ready).accepts q1 false (ofChan 0 0x2001) 0 (bindBytes b1 true) opSession ∧ ((bound .ready).chan 0).bind.bound = true)
    ∧ ((bound .loaded).accepts q1 false (ofChan 0 0x2001) 0 (bindBytes b1 false) opSession ∧ ((bound .loaded).chan 0).bind.bound = true)
    ∧ ((bound .halted).accepts q1 false (ofChan 0 0x2001) 0 (bindBytes b1 false) opSession ∧ ((bound .halted).chan 0).st = .halted)
    ∧ (bound .run).accepts q1 false (ofChan 0 0x2005) 0 [1#8] opSession
    ∧ ((bound .holdup).accepts q1 false (ofChan 0 0x2005) 0 [1#8] opSession ∧ ((bound .holdup).chan 0).st = .holdup) :=
  ⟨⟨accepts_of (by decide), by decide⟩, ⟨accepts_of (by decide), by decide⟩, ⟨accepts_of (by decide), by decide⟩,
    ⟨accepts_of (by decide), by decide⟩, accepts_of (by decide), ⟨accepts_of (by decide), by decide⟩⟩

theorem wit_StopListRestoreWrite :
    base.accepts q1 false 0x1012 0 (leBytes 4 1414743378) opSession ∧ (∀ c, (base.chan c).bind.bound = false)
    ∧ (∀ c, (base.chan c).etude.run = none)
    ∧ (bound .loaded).accepts q1 false 0x1012 0 (leBytes 4 1414743378) opSession ∧ ((bound .loaded).chan 0).bind.bound = true :=
  ⟨accepts_of (by decide), by decide, by decide, accepts_of (by decide), by decide⟩

/-- V_IN at the two sides of the fuse limit, and the active Mouthpiece image at an SVN. -/
def fused (vin svn spent : Nat) (slot : Option (List Byte)) : State :=
  { base with
    power := { vin := vin }, fuses := { opSpent := spent, opSlot := slot }
    mram := { comps := [{ slotA := { svn := svn } }, {}, {}] } }

theorem wit_FuseWrites :
    ((fused 66001 64 0 none).accepts q1 false 0x8006 4 [1#8] opSession ∧ ((fused 66001 64 0 none).comp 0).active.svn = 64
      ∧ (fused 66001 64 0 none).fuses.minSvn = 0 ∧ 66000 < (fused 66001 64 0 none).power.vin)
    ∧ ((fused 66000 1 0 none).accepts q1 false 0x8006 4 [1#8] opSession ∧ ((fused 66000 1 0 none).comp 0).active.svn = 1
      ∧ (fused 66000 1 0 none).power.vin ≤ 66000)
    ∧ ((fused 72000 0 0 none).accepts q1 false 0x8006 4 [1#8] opSession ∧ ((fused 72000 0 0 none).comp 0).active.svn = 0)
    ∧ ((fused 72000 65 0 none).accepts q1 false 0x8006 4 [1#8] opSession ∧ 64 < ((fused 72000 65 0 none).comp 0).active.svn)
    ∧ ({} : Component).inactive.svn < ({ minSvn := 1 } : Fuses).minSvn
    ∧ ((fused 66001 0 1 none).accepts q1 false 0x8006 5 (List.replicate 64 0#8) opSession ∧ (fused 66001 0 1 none).fuses.opSpent < 2)
    ∧ ((fused 72000 0 2 none).accepts q1 false 0x8006 5 (List.replicate 64 0#8) opSession ∧ 2 ≤ (fused 72000 0 2 none).fuses.opSpent)
    ∧ ((fused 72000 0 1 (some [])).accepts q1 false 0x8006 5 (List.replicate 64 0#8) opSession
      ∧ (fused 72000 0 1 (some [])).fuses.opSlot.isSome = true)
    ∧ exec .sealBroken (fused 72000 0 1 (some [])) = .next (fused 72000 0 1 (some [])) :=
  ⟨⟨accepts_of (by decide), by decide⟩, ⟨accepts_of (by decide), by decide⟩, ⟨accepts_of (by decide), by decide⟩,
    ⟨accepts_of (by decide), by decide⟩, by decide, ⟨accepts_of (by decide), by decide⟩, ⟨accepts_of (by decide), by decide⟩,
    ⟨accepts_of (by decide), by decide⟩, rfl⟩

/-- An image of the Mouthpiece too short to pass its check, written in segments. -/
def badImage : List Byte := [0#8, 0#8, 0#8, 0#8, 0#8, 0#8, 1#8, 0#8]

theorem wit_FirmwareWrites :
    base.mram.comps.length = 3 ∧ (base.accepts q1 true 0x8006 1 badImage opSession ∧ byteAt badImage 6 = 0 + 1
      ∧ checkImage base.fuses badImage ≠ 0)
    ∧ base.accepts q1 false 0x8006 3 [1#8] opSession ∧ base.accepts q1 false 0x8006 3 [4#8] opSession
    ∧ base.accepts q1 false 0x8006 3 [byteOf (128 + (7#3).toNat)] opSession :=
  ⟨by decide, ⟨accepts_of (by decide), by decide, by decide⟩, accepts_of (by decide), accepts_of (by decide), accepts_of (by decide)⟩

/-- A channel with a class W page mapped and a load window in a state. -/
def windowed (st : ChState) (win : Nat) : State :=
  withChan { st := st, bind := { job := 5, bound := true }
             mem := { class0 := [(0, { valid := true, cls := 1 })], pages := [(0, { valid := true })] }
             meas := { winState := win } }

def winArg : List Byte := leBytes 8 0 ++ leBytes 8 64

theorem wit_ServiceWrites :
    ((bound .ready).accepts q1 false (ofChan 0 0x2030) 7 [1#8] opSession ∧ ((bound .ready).chan 0).st = .ready)
    ∧ ((bound .run).accepts q1 false (ofChan 0 0x2030) 7 [1#8] opSession ∧ ((bound .run).chan 0).st ≠ .ready)
    ∧ ((windowed .ready 0).accepts q1 false (ofChan 0 0x2031) 1 winArg opSession ∧ ((windowed .ready 0).chan 0).running = false
      ∧ fieldLe winArg 0 8 + fieldLe winArg 8 8 ≤ logicalPages * pageBytes ∧ ((windowed .ready 0).chan 0).mem.inClass 1 0 64 = true)
    ∧ ((bound .ready).accepts q1 false (ofChan 0 0x2031) 1 winArg opSession ∧ ((bound .ready).chan 0).meas.winState = 0
      ∧ ((bound .ready).chan 0).mem.inClass 1 0 64 = false)
    ∧ ((windowed .ready 2).accepts q1 false (ofChan 0 0x2031) 1 winArg opSession ∧ ((windowed .ready 2).chan 0).meas.winState ≠ 0)
    ∧ ((windowed .ready 1).accepts q1 false (ofChan 0 0x2031) 2 [1#8] opSession ∧ ((windowed .ready 1).chan 0).meas.winState = 1)
    ∧ ((windowed .ready 2).accepts q1 false (ofChan 0 0x2031) 2 [1#8] opSession ∧ ((windowed .ready 2).chan 0).meas.winState ≠ 1)
    ∧ (base.accepts q1 false 0x8005 1 [1#8] opSession ∧ ∀ c, (base.chan c).bind.bound = false)
    ∧ ((bound .ready).accepts q1 false 0x8005 1 [0#8] opSession ∧ ((bound .ready).chan 0).bind.bound = true)
    ∧ (base.accepts q1 false 0x7007 2 [2#8] opSession ∧ base.anyRunning = false
      ∧ ∀ c, (base.chan c).svc.ckpt = none ∧ (base.chan c).etude.run = none)
    ∧ ((bound .run).accepts q1 false 0x7007 2 [2#8] opSession ∧ (bound .run).anyRunning = true)
    ∧ (({ base with dev := 4, power := { standby := true } } : State).accepts q1 false 0x7007 2 [0#8] opSession)
    ∧ base.accepts q1 false 0x1040 0 (List.replicate 8 1#8) opSession := by
  refine ⟨⟨accepts_of (by decide), by decide⟩, ⟨accepts_of (by decide), by decide⟩, ⟨accepts_of (by decide), by decide⟩,
    ⟨accepts_of (by decide), by decide⟩, ⟨accepts_of (by decide), by decide⟩, ⟨accepts_of (by decide), by decide⟩,
    ⟨accepts_of (by decide), by decide⟩, ⟨accepts_of (by decide), by decide⟩, ⟨accepts_of (by decide), by decide⟩,
    ⟨accepts_of (by decide), by decide⟩, ⟨accepts_of (by decide), by decide⟩, accepts_of (by decide), accepts_of (by decide)⟩

/-- The same device with a meter that has power. -/
def metered : State := { base with meter := { powered := true } }

/-- A session of a tenant whose job is bound to no channel. -/
def tenSession : Session := { handle := 1, role := .tenant, job := 9 }

set_option maxRecDepth 20000 in
theorem wit_SessionProductWrites :
    (base.accepts q1 false 0x8005 2 (List.replicate 1568 0#8) opSession ∧ opSession.seesChannel (base.chan 3) = true)
    ∧ (∀ c, tenSession.seesChannel (base.chan c) = false)
    ∧ (base.accepts q1 false 0x8001 0 (List.replicate 32 0#8) opSession ∧ ∀ r ∈ base.mp.reports, r.session ≠ 1)
    ∧ (metered.accepts q1 false 0x9006 0 (List.replicate 40 0#8) opSession ∧ metered.mp.meterLink = true ∧ metered.meter.powered = true)
    ∧ (base.accepts q1 false 0x9006 0 (List.replicate 40 0#8) opSession ∧ base.meter.powered = false) :=
  ⟨⟨accepts_of (by decide), by decide⟩, by decide, ⟨accepts_of (by decide), by decide⟩, ⟨accepts_of (by decide), by decide⟩,
    ⟨accepts_of (by decide), by decide⟩⟩

/-- A channel with a far tier of one page. -/
def farOne (bnd : Bool) : State := withChan { st := .ready, bind := { job := 5, bound := bnd, span := 1 }, mem := { cxlUp := true, cxlCap := pageBytes } }

theorem wit_PlanAndMapWrites :
    (∃ d, base.accepts q1 false (ofChan 0 0x5001) 1 d opSession)
    ∧ ((farOne true).accepts q1 true (ofChan 0 0x4001) 2 [8#8] opSession ∧ ((farOne true).chan 0).meas.winState = 0)
    ∧ ((farOne false).accepts q1 true (ofChan 0 0x4001) 2 [8#8] opSession ∧ ((farOne false).chan 0).bind.bound = false)
    ∧ (((farOne true).chan 0).mem.placeMap [] (classMapOf [8#8] 1)).isSome = true
    ∧ (let m : Mem := { class0 := [(0, { valid := true, cls := 1 })], pages := [(0, { valid := true, lock := true })] }
       m.pages.any (fun (e : Nat × PageMap) => e.2.lock && !keptPage m.class0 [] e.1) = true) :=
  ⟨⟨List.replicate 64 0#8, accepts_of (by decide)⟩, ⟨accepts_of (by decide), by decide⟩, ⟨accepts_of (by decide), by decide⟩,
    by decide, by decide⟩

theorem wit_EtudeWrites :
    (base.accepts q1 false 0x6030 4 [byteOf 67, byteOf 3] opSession ∧ (base.store 3).health.length = 68 ∧ (base.chan 3).running = false)
    ∧ ((bound .run).accepts q1 false 0x6030 4 [byteOf 0, byteOf 0] opSession ∧ ((bound .run).chan 0).running = true)
    ∧ (base.accepts q1 false 0x6030 4 [0xFF#8, byteOf 3] opSession)
    ∧ ((bound .run).accepts q1 false 0x6030 4 [0xFF#8, byteOf 0] opSession)
    ∧ base.fuses.opSlot = none :=
  ⟨⟨accepts_of (by decide), by decide⟩, ⟨accepts_of (by decide), by decide⟩, accepts_of (by decide), accepts_of (by decide), by decide⟩

/-- The shortest supplement: one entry, and a key and a signature of zeros. -/
def supplement : List Byte :=
  leBytes 4 0x54455645 ++ leBytes 2 1 ++ leBytes 2 1 ++ List.replicate 8 0#8 ++ [0#8, 0#8, 0#8, 4#8] ++ List.replicate 3119 0#8

set_option maxRecDepth 40000 in
theorem wit_EtudeWrites_supplement :
    base.accepts q1 true 0x6010 2 supplement opSession ∧ (fused 72000 0 1 (some [])).fuses.opSlot = some [] :=
  ⟨accepts_of (by decide), rfl⟩

theorem wit_ScoreControl_refused :
    (let d := List.replicate 12 0#8 ++ [1#8, 0#8, 0#8, 0#8]
     (bound .ready).admits q1 2 (ofChan 0 0x2010) 1 opSession ∧ d.length = 16 ∧ fieldLe d 12 4 ≠ 0)
    ∧ ((bound .ready).chan 0).st ≠ .loaded :=
  ⟨⟨admits_of (by decide), by decide⟩, by decide⟩

/-- A channel whose binding epoch is the last. -/
def lastEpoch : State := { base with mram := { base.mram with chan := base.mram.chan.set 0 { (base.store 0) with epoch := 0xFFFFFFFF } } }

theorem wit_BindingWrites_lastEpoch :
    lastEpoch.accepts q1 false (ofChan 0 0x2001) 0 (bindBytes b1 true) opSession ∧ (lastEpoch.chan 0).st = .ready
    ∧ lastEpoch.bindForbidden 0 { job := 5, span := 1, seed := 9 } = false ∧ (lastEpoch.store 0).epoch = 0xFFFFFFFF
    ∧ (base.accepts q1 false (ofChan 0 0x2001) 0 (bindBytes b1 false) opSession ∧ (base.chan 0).bind.bound = false) :=
  ⟨accepts_of (by decide), by decide, by decide, by decide, accepts_of (by decide), by decide⟩

theorem wit_StopListRestoreWrite_value :
    base.admits q1 2 0x1012 0 opSession ∧ (leBytes 4 1414743377).length = 4 ∧ ofLe (leBytes 4 1414743377) ≠ 0x54534552
    ∧ base.pins.resetHeld = false ∧ base.pins.refclkL = true := ⟨admits_of (by decide), by decide, by decide, by decide, by decide⟩

theorem wit_FirmwareWrites_rows :
    base.accepts q1 true 0x8006 1 [] opSession ∧ byteAt [] 6 = 0 ∧ base.accepts q1 false 0x8006 3 [2#8] opSession :=
  ⟨accepts_of (by decide), by decide, accepts_of (by decide)⟩

theorem wit_ServiceWrites_range :
    ((windowed .ready 0).accepts q1 false (ofChan 0 0x2031) 1 (leBytes 8 (logicalPages * pageBytes - 32) ++ leBytes 8 64) opSession
      ∧ logicalPages * pageBytes < fieldLe (leBytes 8 (logicalPages * pageBytes - 32) ++ leBytes 8 64) 0 8
          + fieldLe (leBytes 8 (logicalPages * pageBytes - 32) ++ leBytes 8 64) 8 8)
    ∧ ((windowed .ready 0).admits q1 2 (ofChan 0 0x2031) 1 opSession ∧ (leBytes 8 1 ++ leBytes 8 64).length = 16
      ∧ fieldLe (leBytes 8 1 ++ leBytes 8 64) 0 8 % 32 ≠ 0)
    ∧ (base.accepts q1 false 0x7007 2 [0#8] opSession ∧ base.power.standby = false) :=
  ⟨⟨accepts_of (by decide), by decide⟩, ⟨admits_of (by decide), by decide, by decide⟩, accepts_of (by decide), by decide⟩

/-- A tenant's device; its session may see no channel. -/
def tenantBase : State := { base with mp := { base.mp with sessions := [tenSession] }, ch := Vector.replicate 4 { st := .ready, bind := { job := 5, bound := true } } }

/-- A report of session 1 is being built. -/
def reporting : State := { base with mp := { base.mp with reports := [{ session := 1, txid := 3, op := 2, body := [] }] } }

set_option maxRecDepth 20000 in
theorem wit_SessionProductWrites_refused :
    (reporting.accepts q1 false 0x8001 0 (List.replicate 32 0#8) opSession ∧ ∃ r ∈ reporting.mp.reports, r.session = 1)
    ∧ (let s : State := { metered with mp := { metered.mp with meterLink := false } }
       s.accepts q1 false 0x9006 0 (List.replicate 40 0#8) opSession ∧ s.mp.meterLink = false) :=
  ⟨⟨accepts_of (by decide), by decide⟩, accepts_of (by decide), by decide⟩

theorem wit_PlanAndMapWrites_refused :
    (base.admits q1 2 (ofChan 0 0x5001) 1 opSession ∧ (List.replicate 64 255#8).length = 64
      ∧ (base.chan 0).planBad (base.self 0) (List.replicate 64 255#8) = true)
    ∧ (let s := withChan { st := .ready, bind := { job := 5, bound := true, span := 1 }
                           mem := { cxlUp := true, cxlCap := pageBytes, pages := [(0, { valid := true, far := true })] } }
       s.accepts q1 true (ofChan 0 0x4001) 2 [8#8] opSession
       ∧ (s.chan 0).mem.pages.any (fun (e : Nat × PageMap) =>
          e.2.valid && e.2.far && keptPage (s.chan 0).mem.class0 (s.chan 0).mem.class0 e.1
            && (SMap.get {} (classMapOf [8#8] ((s.chan 0).mem.cxlCap / pageBytes)) e.2.frame).valid) = true) :=
  ⟨⟨admits_of (by decide), by decide, by decide⟩, accepts_of (by decide), by decide⟩

theorem wit_EtudeWrites_refused :
    base.admits q1 2 0x6030 4 opSession ∧ 67 < (68#8).toNat ∧ (68#8 : Byte) ≠ 0xFF#8 ∧ 4 ≤ (4#8).toNat :=
  ⟨admits_of (by decide), by decide⟩

set_option maxRecDepth 20000 in
theorem wit_SessionProductWrites_tenant :
    tenantBase.accepts q1 false 0x8005 2 (List.replicate 1568 0#8) tenSession ∧ ∀ c, tenSession.seesChannel (tenantBase.chan c) = false :=
  ⟨accepts_of (by decide), by decide⟩

theorem wit_StopListRestoreWrite_held :
    (let s : State := { base with pins := { base.pins with resetHeld := true } }
     s.accepts q1 false 0x1012 0 (leBytes 4 1414743378) opSession ∧ s.pins.resetHeld = true) :=
  ⟨accepts_of (by decide), by decide⟩

/-! ### The stop-protocol server: witnesses -/

/-- The device with its one session changed, or on an engineering part. -/
def withSession (x : Session) : State := { base with mp := { base.mp with sessions := [x] } }

def openPart (role : Role) : State :=
  { withSession { opSession with role := role } with fuses := { debugClosed := false } }

theorem wit_RequestChecks :
    ({ base with power := { lb := some {} } } : State).canSend = false
    ∧ (base.canSend = true ∧ ({ q1 with version := 2 } : Req).version ≠ 1)
    ∧ (({ base with dev := 0 } : State).canSend = true ∧ identityRead 1 0x7002 0 = false)
    ∧ (base.session? 2 = none ∧ base.session? 1 = some opSession)
    ∧ (∃ r, (withSession { opSession with cache := [{ session := 1, txid := 7 }] }).session? 1
        = some { opSession with cache := [{ session := 1, txid := 7 }] }
      ∧ ({ opSession with cache := [{ session := 1, txid := 7 }] } : Session).cached 7 = some r)
    ∧ (opSession.cached 7 = none ∧ base.underway q1 = false ∧ engineering 0x1111 = false ∧ base.accessCheck q1 opSession 1 0x1111 0 ≠ 0)
    ∧ (base.fuses.debugClosed = true ∧ 0xF000 ≤ 0xF000)
    ∧ ((openPart .observer).session? 1 = some { opSession with role := .observer } ∧ (openPart .observer).fuses.debugClosed = false)
    ∧ ((openPart .operator).session? 1 = some opSession ∧ (openPart .operator).canSend = true) := by
  refine ⟨by decide, by decide, by decide, by decide, ⟨{ session := 1, txid := 7 }, by decide, by decide⟩, by decide, by decide,
    by decide, by decide⟩

theorem wit_ReadReturnsValue :
    base.admits q1 1 0x7002 0 opSession ∧ blobStop 0x7002 0 = false ∧ base.faultForbids 1 0x7002 0 = false
    ∧ opSession.hasNoValue 0x7002 = false ∧ base.admits q1 1 0x6000 1 opSession
    ∧ isIdentity 0x1000 0 = true ∧ base.session? 0 = none ∧ base.underway { q1 with session := 0 } = false :=
  ⟨admits_of (by decide), by decide, by decide, by decide, admits_of (by decide), by decide, by decide, by decide⟩

theorem wit_StopWriteReadsBack :
    base.accepts q1 false (ofChan 0 0x3000) 0 [1#8] opSession ∧ base.accepts q1 false (ofChan 3 0x5010) 1 (leBytes 4 1000000) opSession
    ∧ (bound .run).accepts q1 false (ofChan 0 0x3000) 0 [1#8] opSession ∧ ((bound .run).chan 0).running = true
    ∧ base.accepts q1 false 0x7002 0 (leBytes 2 600) opSession ∧ base.accepts q1 false 0x7004 0 (leBytes 4 66000) opSession :=
  ⟨accepts_of (by decide), accepts_of (by decide), accepts_of (by decide), by decide, accepts_of (by decide), accepts_of (by decide)⟩

theorem wit_BlockTransfers :
    (base.admits q1 3 0x6000 1 opSession ∧ blobStop 0x6000 1 = true ∧ base.faultForbids 3 0x6000 1 = false
      ∧ opSession.hasNoValue 0x6000 = false)
    ∧ (let x : Session := { opSession with snap := some { index := 0x6000, sub := 1, data := [1#8, 2#8] } }
       (withSession x).admits q1 3 0x6000 1 x ∧ x.snap = some { index := 0x6000, sub := 1, data := [1#8, 2#8] })
    ∧ opSession.snap = none
    ∧ (base.admits q1 4 (ofChan 0 0x5001) 1 opSession ∧ (stopRow (ofChan 0 0x5001) 1).map StopRow.type = some (.blob 64)
      ∧ base.lengthBad (ofChan 0 0x5001) 1 64 = false ∧ base.locked (ofChan 0 0x5001) 1 none = false
      ∧ base.faultForbids 4 (ofChan 0 0x5001) 1 = false ∧ base.blockForbidden opSession (ofChan 0 0x5001) 1 = false)
    ∧ (let x : Session := { opSession with staged := some { index := ofChan 0 0x5001, sub := 1, total := 64, data := [1#8, 2#8] } }
       (withSession x).admits q1 4 (ofChan 0 0x5001) 1 x ∧ x.staged.isSome = true) :=
  ⟨⟨admits_of (by decide), by decide⟩, ⟨admits_of (by decide), rfl⟩, by decide, ⟨admits_of (by decide), by decide⟩,
    ⟨admits_of (by decide), by decide⟩⟩

theorem wit_Subscriptions :
    (base.admits q1 6 0x1030 0 opSession ∧ base.faultForbids 6 0x1030 0 = false ∧ onChangeStop 0x1030 0 = true
      ∧ eachEntryStop 0x1030 0 = false)
    ∧ (base.admits q1 6 0x6000 1 opSession ∧ eachEntryStop 0x6000 1 = true ∧ onChangeStop 0x6000 1 = false)
    ∧ 256 ≤ (List.replicate 256 ({ index := 0x1020 } : Subscription)).length :=
  ⟨⟨admits_of (by decide), by decide⟩, ⟨admits_of (by decide), by decide⟩, by rw [List.length_replicate]⟩

/-- An OPEN by an operator whose key digest stands in entry 1 of the key list. -/
def openFrame : OpenFrame :=
  { role := 1, nonce := List.replicate 32 0#8, kemKey := List.replicate 1568 0#8, pub := List.replicate 1793 0#8 }

def listed : State :=
  { base with mram := { clientKeys := { digest := Hash.shake512 openFrame.pub, role := 1 } :: List.replicate 14 {} } }

set_option maxRecDepth 4000 in
theorem wit_SessionOpening :
    openFrame.nonce.length = 32 ∧ openFrame.kemKey.length = 1568 ∧ openFrame.pub.length = 1793 ∧ 1024 ≤ openFrame.cap
    ∧ openFrame.cap ≤ 8192 ∧ (∃ e, listed.keyEntry openFrame = some e) ∧ base.mp.full 1 = false
    ∧ ({ sessions := List.replicate 64 opSession } : Mouthpiece).full 1 = true
    ∧ base.keyEntry { openFrame with role := 0 } = none
    ∧ ([{ handle := 3 }] : List Opening).find? (fun (y : Opening) => y.handle == 3) = some { handle := 3 } := by
  refine ⟨List.length_replicate, List.length_replicate, List.length_replicate, by decide, by decide, ?_, by decide, by decide, ?_, by decide⟩
  · apply Option.isSome_iff_exists.mp
    rw [State.keyEntry, Option.isSome_map, List.find?_isSome]
    refine ⟨({ digest := Hash.shake512 openFrame.pub, role := 1 }, 1), ?_, ?_⟩
    · simp [State.keyList, listed, List.zipIdx]
    · simp only [beq_self_eq_true, Bool.true_and]; rfl
  · rw [State.keyEntry, Option.map_eq_none_iff, List.find?_eq_none]
    rintro ⟨k, n⟩ _
    simp only [Bool.and_eq_true, not_and, bne_iff_ne, beq_iff_eq]
    intro h
    have := h.1.2
    simp_all

theorem wit_SessionClosing :
    (base.session? q1.session = some opSession ∧ opSession.cached q1.txid = none ∧ base.dev ≠ 5)
    ∧ base.accepts q1 false 0x1050 3 (leBytes 2 1) opSession :=
  ⟨by decide, accepts_of (by decide)⟩

set_option maxRecDepth 20000 in
theorem wit_SessionClosing_keys : base.accepts q1 false 0x1050 2 (List.replicate 1152 0#8) opSession := accepts_of (by decide)

/-- The device in FAULT. -/
def faulted : State := { base with dev := 5 }

theorem wit_RequestChecks_writes :
    (base.admits q1 2 0x7002 0 opSession ∧ (stopRow 0x7002 0).map (fun r => r.type.check [1#8]) = some 0x0605)
    ∧ (base.admits q1 2 (ofChan 0 0x3000) 0 opSession ∧ (stopRow (ofChan 0 0x3000) 0).map (fun r => r.type.check [2#8]) ≠ some 0x0605
      ∧ ((stopRow (ofChan 0 0x3000) 0).map (fun r => r.type.check [2#8]) ≠ some 0 ∨ base.valueBad (ofChan 0 0x3000) 0 [2#8] = true))
    ∧ ((bound .run).admits q1 2 (ofChan 0 0x2001) 0 opSession ∧ (stopRow (ofChan 0 0x2001) 0).map StopRow.access = some .rwl
      ∧ (bound .run).locked (ofChan 0 0x2001) 0 (some (bindBytes b1 true)) = true)
    ∧ (faulted.admits q1 2 0x7002 0 opSession ∧ faulted.faultForbids 2 0x7002 0 = true) :=
  ⟨⟨admits_of (by decide), by decide⟩, ⟨admits_of (by decide), by decide, by decide⟩, ⟨admits_of (by decide), by decide, by decide⟩,
    admits_of (by decide), by decide⟩

theorem wit_ReadReturnsValue_none :
    base.admits q1 1 0x8002 0 opSession ∧ opSession.hasNoValue 0x8002 = true ∧ blobStop 0x7002 0 = false := by
  exact ⟨admits_of (by decide), by decide, by decide⟩

theorem wit_BlockTransfers_refused :
    (faulted.admits q1 4 (ofChan 0 0x5001) 1 opSession ∧ faulted.faultForbids 4 (ofChan 0 0x5001) 1 = true)
    ∧ ((bound .run).admits q1 4 (ofChan 0 0x2030) 6 opSession ∧ (bound .run).locked (ofChan 0 0x2030) 6 none = true)
    ∧ (base.admits q1 3 0x7002 0 opSession ∧ blobStop 0x7002 0 = false) :=
  ⟨⟨admits_of (by decide), by decide⟩, ⟨admits_of (by decide), by decide⟩, admits_of (by decide), by decide⟩

theorem wit_Subscriptions_fault : faulted.admits q1 6 0x3020 3 opSession ∧ faulted.faultForbids 6 0x3020 3 = true :=
  ⟨admits_of (by decide), by decide⟩

/-- Whether a signature verifies is the peer's matter (log 11): an opening meets either clause on FINISH. -/
theorem wit_SessionOpening_finish (sig : List Byte) :
    let o : Opening := { handle := 3 }
    o.handle = 3 ∧ (Config.falconVerify o.pub (Hash.shake512 o.transcript) sig = true ∨ Config.falconVerify o.pub (Hash.shake512 o.transcript) sig = false) :=
  ⟨rfl, by cases Config.falconVerify _ _ sig <;> simp⟩

theorem wit_SessionClosing_handle : base.admits q1 2 0x1050 3 opSession ∧ (leBytes 2 9).length = 2 ∧ base.session? (ofLe (leBytes 2 9)) = none :=
  ⟨admits_of (by decide), by decide, by decide⟩


/-! ### Start-up, power and meter: witnesses -/

/-- The device in its first second, and with a Last Breath under way. -/
def fresh : State := State.reset
def breath (saved : Bool) : State := { base with power := { lb := some { before := 1, saved := saved } }, pins := { phase := .hold, seenF := true } }

theorem wit_DeviceResets :
    (fresh.power.tripped = false ∧ fresh.pins.phase = .strap ∧ fresh.pins.resetHeld = false ∧ fresh.pins.refclkL = true)
    ∧ (let s : State := { base with pins := { pwrGood := false, refclkL := false } }; s.power.tripped = false ∧ s.pins.pwrGood = false ∧ s.pins.refclkL = false)
    ∧ (base.pins.pwrGood = true ∧ base.pins.resetHeld = false ∧ base.power.lb.isNone = true ∧ base.pins.refclkL = true)
    ∧ ((breath true).pins.pwrGood = true ∧ ∃ b, (breath true).power.lb = some b ∧ b.saved = true)
    ∧ ((breath false).pins.resetHeld = false ∧ ∃ b, (breath false).power.lb = some b ∧ b.saved = false)
    ∧ (let s : State := { fresh with pins := { resetHeld := true } }
       s.pins.resetHeld = true ∧ s.pins.resetDeferred = false ∧ s.pins.pwrGood = true ∧ s.pins.refclkL = true ∧ s.inInit)
    ∧ (let s : State := { fresh with pins := { refclkL := false } }
       s.pins.refclkL = false ∧ s.pins.resetHeld = false ∧ s.pins.pwrGood = true ∧ s.inInit) := by
  refine ⟨by decide, by decide, by decide, ⟨rfl, _, rfl, rfl⟩, ⟨rfl, _, rfl, rfl⟩, ⟨rfl, rfl, rfl, rfl, rfl, ?_⟩, rfl, rfl, rfl, rfl, ?_⟩
  all_goals intro c; revert c; decide

theorem wit_Straps : fresh.released = true ∧ fresh.pins.phase = .strap := by decide

/-- A device whose channel 0 has just come out of reset, with what its save store holds. -/
def starting (st : ChanStore) (outcome : Nat) : State :=
  { base with ch := Vector.replicate 4 {}, mram := { chan := #v[st, {}, {}, {}], holdup := { outcome := outcome } } }

theorem wit_Boots :
    (let s : State := { base with mp := { running := false } }
     s.released = true ∧ s.pins.phase = .run ∧ s.mp.running = false ∧ s.mp.bootable = true ∧ s.power.lb = none ∧ s.dev ≠ 5
      ∧ (∀ c, (s.chan c).st ≠ .init ∧ (s.chan c).st ≠ .run ∧ (s.chan c).st ≠ .stopping) ∧ s.power.standby = false ∧ s.power.returning = false)
    ∧ (let s : State := { base with dev := 5, mp := { running := false } }; s.released = true ∧ s.mp.running = false ∧ s.dev = 5)
    ∧ (let s := starting {} 0
       (s.chan 0).st = .init ∧ s.awake = true ∧ s.pins.phase = .run ∧ (s.chan 0).err.handling = [] ∧ (s.store 0).record = none)
    ∧ (let r : SaveRecord := { binding := { job := 5, bound := true, span := 1 }, score := some {} }
       let s := starting { record := some r, autoRestart := true, epoch := 0xFFFFFFFE } 2
       (s.chan 0).st = .init ∧ s.awake = true ∧ (s.store 0).record = some r ∧ s.mram.holdup.outcome = 2 ∧ (s.store 0).autoRestart = true
        ∧ r.binding.bound = true ∧ r.score = some {} ∧ s.bindForbidden 0 r.binding = false ∧ (s.store 0).epoch < 0xFFFFFFFF
        ∧ (s.chan 0).etude.queue = []) :=
  ⟨⟨by decide, by decide, by decide, by decide, by decide, by decide, by decide, by decide, by decide⟩, by decide, by decide,
    by decide, by decide, rfl, by decide, by decide, by decide, by decide, by decide, by decide, by decide⟩

theorem wit_MouthpieceFaults :
    (base.mp.running = true ∧ base.released = true ∧ base.power.lb = none ∧ (base.mp.restarts.filter (fun t => 5 < t + 600 * 1500000000)).length < 2)
    ∧ (let s : State := { base with mp := { base.mp with restarts := [3, 2] } }
       s.mp.running = true ∧ 2 ≤ (s.mp.restarts.filter (fun t => 900000000001 < t + 600 * 1500000000)).length)
    ∧ (((base.chan 0).svc.ckpt = none) ∧ (((withChan { st := .ready, svc := { ckpt := some {} } }).chan 0).svc.ckpt.isSome = true))
    ∧ (let s := withChan { st := .halted, err := { haltTimer := true } }
       (s.chan 0).st = .halted ∧ (s.chan 0).err.haltTimer = true ∧ s.mram.haltPolicy = 1 ∧ s.dev ≠ 5 ∧ s.awake = true) := by decide

/-- A Last Breath whose records are written but for the last message, with a RESET_N waiting or not. -/
def ackedBreath (deferred : Bool) : State :=
  { breath false with pins := { phase := .hold, seenF := true, resetDeferred := deferred, acked := [true, true, true, true] } }

theorem wit_LastBreathSteps :
    (61999 < base.mram.sagThreshold ∧ base.awake = true ∧ base.pins.seenF = true)
    ∧ (base.mram.sagThreshold ≤ 62000 ∧ (breath false).awake = false ∧ fresh.pins.seenF = false)
    ∧ ((breath false).saving = true ∧ (breath false).pins.acked.getD 3 true = false)
    ∧ ((ackedBreath false).saving = true ∧ (ackedBreath false).pins.acked.all id = true ∧ (ackedBreath false).pins.resetDeferred = false
      ∧ (ackedBreath false).power.lb = some { before := 1, saved := false })
    ∧ ((ackedBreath true).saving = true ∧ (ackedBreath true).pins.acked.all id = true ∧ (ackedBreath true).pins.resetDeferred = true) := by
  decide

/-- A channel that resumes, after a discovery that was short or not. -/
def resuming (short fallback : Bool) (attempt : Nat) : State :=
  withChan { st := .loaded, resume := true, score := some {}, attempt := attempt
             paths := { plan := some {}, disc := { status := 2, short := short, fallback := fallback } } }

theorem wit_Resumes :
    ((breath true).power.lb = some { before := 1, saved := true } ∧ 66000 < (66001 : Nat) ∧ (breath true).pins.pwrGood = true
      ∧ (breath true).pins.refclkL = true ∧ ∀ c, ((breath true).chan c).st ≠ .init)
    ∧ (let k := (resuming true false 0).chan 0
       k.st = .loaded ∧ k.resume = true ∧ k.ww.resumed = false ∧ (resuming true false 0).awake = true ∧ k.paths.disc.status = 2
        ∧ k.paths.disc.short = true ∧ k.paths.disc.fallback = false)
    ∧ (let k := (resuming true true 1).chan 0
       k.st = .loaded ∧ k.resume = true ∧ k.paths.disc.fallback = true ∧ k.attempt + 1 < k.coll.repeats)
    ∧ (let k := (resuming false false 2).chan 0
       k.paths.disc.short = false ∧ k.coll.repeats ≤ k.attempt + 1 ∧ k.tun.lastRollback = none)
    ∧ (let s : State := { base with power := { returning := true } }; s.power.returning = true ∧ s.awake = true)
    ∧ ((resuming false false 0).chan 0).paths.plan.isSome = true := by
  decide

theorem wit_InputVoltage :
    (base.pins.pwrGood = true ∧ 80000 < (80001 : Nat) ∧ (100000 : Nat) ≤ 100000 ∧ base.power.ov = false ∧ base.power.ovEvents < 0xFFFF)
    ∧ ({ base with power := { ov := true } } : State).power.ov = true
    ∧ (base.pins.seenF = true ∧ base.mp.running = true ∧ base.awake = true ∧ base.pins.phase = .run) := by decide

theorem wit_ThermalTrip : base.pins.pwrGood = true := rfl

/-- Channel 0 runs at a cap bin and an effective bin. -/
def binned (cap : Nat) (b : Bins) : State := withChan { st := .run, bins := { b with cap := cap, now := cap } }

theorem wit_BinControl :
    (let s := binned 14 {}
     s.mp.running = true ∧ s.awake = true ∧ (s.chan 0).st = .run ∧ (s.chan 0).bins.change = none ∧ (s.chan 0).bins.now = s.effBin 0
      ∧ (s.chan 0).bins.cap < 15 ∧ 1000 * s.cap < 1780001 + 20000)
    ∧ (let s : State := { binned 1 {} with power := { lowFor := 49 } }
       s.mp.running = true ∧ s.awake = true ∧ (s.chan 0).bins.now = s.effBin 0 ∧ 0 < (s.chan 0).bins.cap ∧ 49 ≤ s.power.lowFor
        ∧ 1679999 + 120000 < 1000 * s.cap)
    ∧ (1780000 + 20000 ≤ 1000 * base.cap ∧ base.power.lowFor < 49)
    ∧ (base.awake = true ∧ base.pins.thermLow = false ∧ 100 ≤ (base.chan 0).bins.sinceRise ∧ (base.chan 0).bins.thermal < 15)
    ∧ (let b := ((binned 0 { thermal := 1, coolFor := 999, sinceFall := 1000, sinceRise := 99 }).chan 0).bins
       999 ≤ b.coolFor ∧ 1000 ≤ b.sinceFall ∧ 0 < b.thermal ∧ b.sinceRise < 100)
    ∧ ({ base with pins := { base.pins with thermLow := true } } : State).pins.thermLow = true := by decide

/-- A meter that has power, with one open record. -/
def metering (m : Meter) : State := { base with meter := { m with powered := true, records := [{ job := 5 }] } }

theorem wit_MeterIntervals :
    ((metering {}).meter.powered = true ∧ [1, 2, 3, 4].length = 4 ∧ (metering {}).meter.regs.alloc.length = 4
      ∧ ({ job := 5 } : JobRecord) ∈ (metering {}).meter.records ∧ ({ job := 5 } : JobRecord).state = 0)
    ∧ (let w := fun (n : Nat) => [1, 2, 3, 4].getD n 0; (∀ n, n < 4 → w n ≤ w 3) ∧ ∀ n, n < 3 → w n < w 3)
    ∧ (metering {}).meter.clockOk = true := by decide

theorem wit_MeterSealsAndLink :
    (metering {}).meter.powered = true
    ∧ (({ firstMs := 8 } : Meter).firstMs < 9 ∧ ({ firstMs := 9 } : Meter).firstMs = 9 ∧ 10 ≤ ({} : Meter).firstMs)
    ∧ (9 ≤ ({ highMs := 9 } : Meter).highMs ∧ 999 ≤ ({ nonLowMs := 999 } : Meter).nonLowMs ∧ 9 ≤ ({ lowMs := 9 } : Meter).lowMs)
    ∧ (({ sealSt := 2 } : Meter).sealSt = 2 ∧ ({} : Meter).sealSt = 0 ∧ ({ sealSt := 1 } : Meter).sealSt = 1)
    ∧ base.mp.running = true
    ∧ (let s : State := { metering { readouts := [{ session := 1, txid := 7 }] } with mp := { base.mp with meterLink := true } }
       s.mp.meterLink = true ∧ s.canSend = true ∧ s.meter.readouts = [{ session := 1, txid := 7 }] ∧ s.session? 1 = some opSession)
    ∧ (let s : State := { base with meter := { snap := some {} } }; s.meter.powered = false ∧ s.power.on = true ∧ s.meter.snap = some {})
    ∧ (base.meter.powered = false ∧ base.meter.snap = none) := by decide

/-! ### The host port: witnesses -/

theorem wit_HostFrames :
    base.mp.host.cnt.length = 17 ∧ base.mp.host.fill.length = 5 ∧ base.canSend = true ∧ base.dev ≠ 0 ∧ base.mp.host.up = true
    ∧ base.awake = true
    ∧ (let f : HostFrame := { src := some 3, dst := some 1 }; f.dgram = none ∧ f.src = some 3 ∧ ∃ e, f.dst = some e ∧ e ≤ 4 ∧ e ≠ 3 + 1)
    ∧ (({ src := some 0 } : HostFrame).dst = none ∧ base.mp.host.cnt.getD 0 0 + 2 ≤ 0xFFFFFFFFFFFFFFFF)
    ∧ ((({} : HostFrame).src = none ∧ ({} : HostFrame).dst = none) ∧ ({ pause := true } : HostFrame).pause = true
      ∧ ({ cnp := true } : HostFrame).cnp = true)
    ∧ (let f : HostFrame := { dst := some 4, len := 4194304 }
       f.dst = some 4 ∧ base.mp.host.fill.getD 4 0 - f.drained.getD 4 0 + f.len ≤ 4194304)
    ∧ 4194304 < base.mp.host.fill.getD 4 0 + ({ dst := some 4, len := 4194305 } : HostFrame).len
    ∧ (let f : HostFrame := { dst := some 0, dgram := some [] }
       f.src = none ∧ f.dst = some 0 ∧ f.dgram = some [] ∧ base.mp.host.fill.getD 0 0 - f.drained.getD 0 0 + f.len ≤ 4194304)
    ∧ (base.chan 0).svc.ckpt = none
    ∧ ((withChan {}).chan 0).st = .init
    ∧ (((base.chan 0).st ≠ .init ∧ (base.chan 0).st ≠ .halted) ∧ (base.chan 0).svc.qps < base.mp.host.pools.getD 0 0)
    ∧ (let s := withChan { st := .ready, svc := { qps := 1024 } }; s.mp.host.pools.getD 0 0 ≤ (s.chan 0).svc.qps) := by
  refine ⟨by decide, by decide, by decide, by decide, by decide, by decide, ⟨rfl, rfl, 1, rfl, by omega, by omega⟩, by decide, by decide,
    by decide, by decide, by decide, by decide, by decide, by decide, by decide⟩

/-- A channel with one class W page mapped, bound or not, and a confidential device with a channel that has keys. -/
def peered (conf bnd : Bool) (win : Nat) : State :=
  { withChan { st := .ready, bind := { job := 5, bound := bnd }
               mem := { class0 := [(0, { valid := true, cls := 1 })], pages := [(0, { valid := true })] }
               meas := { winState := win, winLen := 64 }, svc := { bounceSeq := some 6, bounceKeys := some (List.replicate 32 0#8, []) } } with
    mram := { conf := conf } }

theorem wit_HostWrites :
    (let s := peered false true 1
     s.mp.running = true ∧ s.mp.host.up = true ∧ s.awake = true ∧ (s.chan 0).st ≠ .init ∧ (s.chan 0).st ≠ .halted ∧ s.mram.conf = false
      ∧ (s.chan 0).meas.winState = 1 ∧ (s.chan 0).meas.winAddr ≤ 63 ∧ 63 + [1#8].length ≤ (s.chan 0).meas.winAddr + (s.chan 0).meas.winLen
      ∧ (s.chan 0).mem.mapped true 0 63 1 = true)
    ∧ (let s := peered false false 0
       s.mram.conf = false ∧ (s.chan 0).bind.bound = false ∧ (s.chan 0).mem.mapped true 0 2097151 1 = true
        ∧ (s.chan 0).mem.mapped true 0 2097152 1 = false)
    ∧ (let s := peered false true 0
       s.mram.conf = false ∧ (s.chan 0).bind.bound = true ∧ (s.chan 0).mem.touchesW 0 1 = true ∧ (s.chan 0).meas.winState ≠ 1)
    ∧ (let s := peered false true 1; (s.chan 0).mem.touchesW 64 1 = true ∧ ¬ 64 + 1 ≤ (s.chan 0).meas.winAddr + (s.chan 0).meas.winLen)
    ∧ (peered true true 0).mram.conf = true
    ∧ (let s := peered true true 0; s.mram.conf = true ∧ (s.chan 0).svc.bounceSeq = some 6 ∧ (List.replicate 16 (0#8 : Byte)).length = 16) := by decide

theorem wit_HostWrites_sound : ((peered false true 1).chan 0).mem.sound :=
  ⟨⟨by decide, by decide⟩, fun l h => absurd (show l ∈ ([] : List WcbLine) from h) (List.not_mem_nil), by decide⟩

/-- AES-256-GCM: the published test case 13 of its authors, an empty message under a key and a nonce of zeros (14 R357). -/
def tag13 : List Byte := beBytes 16 0x530F8AFBC74536B9A963B4F1C4CB738B

set_option maxRecDepth 100000 in
theorem test_gcm : Hash.gcmOpen (List.replicate 32 0#8) (List.replicate 12 0#8) [] [] tag13 = some [] := by decide

theorem length_leBytes (k v : Nat) : (leBytes k v).length = k := by
  induction k generalizing v with
  | zero => rfl
  | succ n ih => simp [leBytes, ih]

/-- What is sealed opens, for an empty message. -/
theorem gcm_open_seal_nil (key nonce aad : List Byte) :
    Hash.gcmOpen key nonce aad [] (Hash.gcmSeal key nonce aad []).2 = some [] ∧ (Hash.gcmSeal key nonce aad []).2.length = 16 := by
  constructor
  · simp [Hash.gcmOpen, Hash.gcmSeal, Hash.xorBytes]
  · simp [Hash.gcmSeal, Hash.xorBytes, Hash.ctrStream, Hash.aesBlock, Hash.xor16, beBytes, length_leBytes]

/-- An empty record of sequence number 7 and index 3 that opens under a key of zeros. -/
theorem wit_HostWrites_bounce :
    (let s := peered true true 0
     s.mp.running = true ∧ s.awake = true ∧ s.mram.conf = true ∧ (s.chan 0).svc.bounceSeq = some 6
      ∧ (s.chan 0).svc.bounceKeys = some (List.replicate 32 0#8, []) ∧ (0 : Nat) ≤ 1048576)
    ∧ ∃ tag : List Byte, tag.length = 16 ∧
        Hash.gcmOpen (List.replicate 32 0#8) (List.replicate 4 0#8 ++ leBytes 8 7) (leBytes 8 7 ++ leBytes 4 0 ++ leBytes 4 3) [] tag = some [] :=
  ⟨by decide, _, (gcm_open_seal_nil _ _ _).2, (gcm_open_seal_nil _ _ _).1⟩

theorem wit_HostFrames_link :
    ({ base with mp := { base.mp with host := {} } } : State).mp.host.up = false
    ∧ (let s := withChan { st := .ready, svc := { ckpt := some { mode := 1, targets := [0] } } }
       (s.chan 0).svc.ckpt = some { mode := 1, targets := [0] } ∧ ∀ c, c ≠ 0 → (s.chan c).svc.ckpt = none)
    ∧ (∀ c, (base.chan c).svc.ckpt = none) ∧ base.awake = true
    ∧ ({ base with power := { lb := some {} } } : State).awake = false := by decide

/-! ### The Windway: witnesses -/

/-- A score of one phrase of two beats: a program load on mover 0 at beat 0 that sets token 3, and a pick that waits for it. -/
def smallScore : Score :=
  { phrases := [{ count := 2, len := 2, stepStart := true }]
    entries := [{ action := 3, unit := 0x200, desc := 0, sets := some 3 }, { beat := 1, action := 5, unit := 0x201, desc := 0, waits := [3] }] }

/-- Channel 0 runs that score. -/
def playing (w : Windway) : State := withChan { st := .run, score := some smallScore, ww := w }

theorem wit_BeatTests :
    ((playing {}).mayTest 0 = true ∧ ((playing {}).beatState 0 {}).mayTest 0 = true
      ∧ (((playing {}).beatState 0 {}).chan 0).missing false = []
      ∧ (∀ x ∈ (((playing {}).beatState 0 {}).chan 0).beatEntries, x.2.action ≠ 8 ∧ x.2.action ≠ 9 ∧ x.2.action ≠ 0x0A)
      ∧ ((((playing {}).beatState 0 {}).chan 0).beatEntries.map (fun x => x.2.action)) = [3])
    ∧ (let s := playing { beat := 2, boundaryDue := true }
       s.mayTest 0 = true ∧ (s.chan 0).ww.boundaryDue = true ∧ (s.chan 0).phrase.len ≤ (s.chan 0).ww.beat ∧ (s.chan 0).ww.stopAt ≠ 0)
    ∧ (let s := playing { beat := 2, boundaryDue := true, stopAt := 0 }
       s.mayTest 0 = true ∧ (s.chan 0).phrase.len ≤ (s.chan 0).ww.beat ∧ (s.chan 0).ww.stopAt = (s.chan 0).ww.phrase
        ∧ (s.beatState 0 {}).mayTest 0 = false)
    ∧ (let s := playing { boundaryDue := true }; s.mayTest 0 = true ∧ ¬ (s.chan 0).phrase.len ≤ (s.chan 0).ww.beat)
    ∧ (let u := (playing { beat := 1 }).beatState 0 {}
       u.mayTest 0 = true ∧ (u.chan 0).missing false ≠ [] ∧ (u.chan 0).ww.causeBeats.length = 8 ∧ (u.chan 0).ww.causeEvents.length = 8) := by
  decide

/-- The smallest image: a header, one phrase of one beat, no entries, and one layer; its CRC is at offset 60 (07 R176). -/
def imageCells : Memory :=
  [(0, 69), (1, 86), (2, 83), (3, 67), (4, 1), (6, 1), (8, 112), (16, 64), (20, 96), (24, 96), (32, 5), (34, 1), (40, 96), (44, 96),
   (60, 72), (61, 129), (62, 75), (63, 60), (72, 1)].map (fun x => (x.1, byteOf x.2))

/-- Channel 0 checks an image of a class C page that holds the smallest image. -/
def checking (addr len : Nat) (job : Nat) (written : Bool) : State :=
  withChan { st := .ready, bind := { job := job, bound := true, span := 1 }, load := 1, loading := some (addr, len)
             mem := { class0 := [(0, { valid := true, cls := 2 })], pages := [(0, { valid := true })], dram := imageCells
                      cw := if written then [(0, { written := true, achk := achkOf 0 0 }), (1, { written := true, achk := achkOf 1 0 })] else [] } }

set_option maxRecDepth 100000 in
/-- The image is accepted for job 5, and refused with 0x12 for job 6. -/
theorem wit_WindwayEvents_load :
    (let k := (checking 0 112 5 true).chan 0
     k.loading = some (0, 112) ∧ k.running = false ∧ (checking 0 112 5 true).power.lb = none ∧ k.mem.inClass 2 0 112 = true
      ∧ (k.mem.load 0 0 112).1.bad = false ∧ k.svc.restart = none
      ∧ (match Score.check (k.mem.load 0 0 112).1.bytes { job := k.bind.job, active := k.active } 0 112 with
          | .inr x => decide (x.phrases = [{ count := 0, len := 2 }] ∧ x.entries = [] ∧ x.layers = [{}])
          | .inl _ => false) = true)
    ∧ (let k := (checking 0 112 6 true).chan 0
       Score.check (k.mem.load 0 0 112).1.bytes { job := k.bind.job, active := k.active } 0 112 = .inl 0x12)
    ∧ (let k := (checking 0 112 5 false).chan 0; k.mem.inClass 2 0 112 = true ∧ (k.mem.load 0 0 112).1.bad = true)
    ∧ (let k := (checking 2097120 64 5 true).chan 0; k.loading = some (2097120, 64) ∧ k.mem.inClass 2 2097120 64 = false) := by decide

theorem wit_WindwayEvents :
    (let k := (withChan { st := .stopping }).chan 0; k.st = .stopping ∧ k.flights = [])
    ∧ (let k := (withChan { st := .stopping, flights := [{}] }).chan 0; k.st = .stopping ∧ k.flights ≠ [])
    ∧ (let s := playing { hold := some .other }
       (s.chan 0).st = .run ∧ (s.chan 0).ww.hold.isSome = true ∧ s.power.lb = none ∧ (s.chan 0).attempt + 1 < (s.chan 0).coll.repeats
        ∧ (s.chan 0).err.handling = [])
    ∧ (let k := (withChan { st := .halted, loading := some (0, 112) }).chan 0; k.loading = some (0, 112) ∧ k.st ≠ .ready ∧ k.st ≠ .loaded)
    ∧ (let s := withChan { st := .loaded, resume := true, score := some smallScore, ww := { hold := some .other, resumed := true } }
       ((s.chan 0).ww.hold.isSome = true ∧ ((s.chan 0).st = .run ∨ ((s.chan 0).st = .loaded ∧ (s.chan 0).resume = true)))
        ∧ ((s.chan 0).st = .run ∨ (s.chan 0).ww.resumed = true) ∧ s.power.lb = none ∧ (s.chan 0).attempt + 1 < (s.chan 0).coll.repeats)
    ∧ (let k := (playing {}).chan 0
       ¬ (k.ww.hold.isSome = true ∧ (k.st = .run ∨ (k.st = .loaded ∧ k.resume = true))) ∧ k.bins.change = none)
    ∧ (let s := withChan { st := .ready, bins := { requested := 3, change := some 3 } }
       (s.chan 0).bins.change = some 3 ∧ 3 = s.effBin 0)
    ∧ (let s := withChan { st := .ready, bins := { requested := 3, change := some 2 } }
       (s.chan 0).bins.change = some 2 ∧ (s.chan 0).running = false ∧ (s.chan 0).st ≠ .init ∧ 2 ≠ s.effBin 0) := by decide

/-! ### Tiles: witnesses -/

/-- Reed 0 of channel 0 holds a tile. -/
def tiled (t : TileRun) : State := withChan (({ st := .run, score := some smallScore } : Channel).modReed 0 (fun x => { x with tile := some t }))

/-- What a pass with 513 underflowing blocks, or with an overflow, has left. -/
def under : Kept := { out := { uzBlocks := 513 } }
def ovfPass : Kept := { pass := { ovf := some (0, [0]) } }

theorem wit_TilePasses :
    (let t : TileRun := { ovfRc := 1, cur := ovfPass, ps := [0] }
     (((tiled t).chan 0).reed 0).tile = some t ∧ t.phase = .running
      ∧ (t.set.strict = false ∧ t.kind ≠ .underflow ∧ t.ovfRc < t.set.retries ∧ t.desc.prod ≠ 3) ∧ t.cur.pass.ovf = some (0, [0]))
    ∧ (let t : TileRun := {}; t.phase = .running ∧ t.cur.pass.ovf = none ∧ t.chkRc = 0)
    ∧ (let t : TileRun := { phase := .slotWait }
       t.phase = .slotWait ∧ (((tiled t).chan 0).reed 0).slots = [] ∧ (((tiled t).chan 0).reed 0).waiting = none
        ∧ ((tiled t).chan 0).tileIn 0 .running = none ∧ ((tiled t).chan 0).tileIn 0 .versionReload = none
        ∧ ((tiled t).chan 0).tileIn 0 .chordReload = none)
    ∧ ((tiled {}).chan 0).tileIn 0 .slotWait = none
    ∧ (let t : TileRun := { phase := .slotWait }
       ((((tiled t).chan 0).modReed 0 (fun x => { x with slots := [{}] })).reed 0).slots ≠ [])
    ∧ (let t : TileRun := { chkRc := 1 }; t.phase = .running ∧ t.chkRc = 1 ∧ ((tiled t).store 0).health.length = 68)
    ∧ (let t : TileRun := { chkRc := 2 }; t.phase = .running ∧ 2 ≤ t.chkRc)
    ∧ (let t : TileRun := { phase := .versionReload }; (((tiled t).chan 0).reed 0).tile = some t ∧ t.phase = .versionReload)
    ∧ (let t : TileRun := { phase := .chordReload, passes := 7, redo := [{ addr := 64 }] }
       (match ((tiled t).chan 0).recoverAll 0 0 0 t.redo with
        | .error e => decide (e.cls = .S)
        | .ok _ => false) = true)
    ∧ (let backed := (tiled {}).setChan 0 { (tiled {}).chan 0 with
          slotMap := [0], score := some { smallScore with regions := [[{ start := 64, length := 64, backed := true }]] } }
       ∀ n ∈ [7, 8],
        let t : TileRun := { phase := .chordReload, passes := n, redo := [{ addr := 64 }] }
        let k := (backed.chan 0).modReed 0 (fun x => { x with tile := some t, badParity := [64] })
        (k.reed 0).tile = some t ∧ t.phase = .chordReload
          ∧ (match k.recoverAll 0 0 0 t.redo with
            | .ok k' => decide ((k'.reed 0).tile = some t ∧ (k'.reed 0).badParity = [])
            | .error _ => false) = true) := by
  decide

theorem wit_TileEnds :
    (let t : TileRun := { cur := ovfPass, ps := [0] }; t.phase = .running ∧ t.retrySlabs ≠ none)
    ∧ (let t : TileRun := { accParity := true }; t.phase = .running ∧ t.retrySlabs = none ∧ t.parityRetry = false ∧ t.passes < 8)
    ∧ (let t : TileRun := { accParity := true, parityRetry := true }; t.phase = .running ∧ t.retrySlabs = none ∧ t.accParity = true)
    ∧ (let t : TileRun := { kind := .underflow, cur := ovfPass, firstPass := some {} }
       t.phase = .running ∧ t.retrySlabs = none ∧ t.accParity = false ∧ t.kind = .underflow ∧ t.cur.pass.ovf.isSome = true ∧ t.firstPass = some {})
    ∧ (let t : TileRun := { kind := .underflow, firstPass := some {} }; t.retrySlabs = none ∧ t.cur.pass.ovf = none)
    ∧ (let t : TileRun := { cur := under }
       t.phase = .running ∧ t.retrySlabs = none ∧ t.accParity = false ∧ t.kind ≠ .underflow ∧ t.set.strict = false ∧ t.ladder = false
        ∧ (t.ladderOf (fun o => Score.fmtOf (((tiled t).chan 0).tensor o.tensor).layout)) = (false, false, [])
        ∧ 512 < t.cur.out.uzBlocks ∧ t.ovfRc = 0 ∧ t.uzDone = false)
    ∧ (let t : TileRun := { desc := { a := { wide := some 1, ceil := 3 } }, obA := 1 }
       t.phase = .running ∧ t.retrySlabs = none ∧ t.kind ≠ .underflow ∧ t.set.strict = false ∧ t.ladder = false
        ∧ (t.ladderOf (fun o => Score.fmtOf (((tiled t).chan 0).tensor o.tensor).layout)).1 = true)
    ∧ (let t : TileRun := { desc := { a := { wide := some 1, ceil := 0 } }, obA := 1 }
       t.set.strict = false ∧ t.ladder = false ∧ (t.ladderOf (fun o => Score.fmtOf (((tiled t).chan 0).tensor o.tensor).layout)).2.2 ≠ [])
    ∧ (let t : TileRun := { set := { strict := true } }; t.phase = .running ∧ t.retrySlabs = none ∧ t.kind ≠ .underflow)
:= by decide

theorem wit_TileEnds_release :
    ((tiled {}).chan 0).finished 0 = none ∧ ((tiled { phase := .clean }).chan 0).tileIn 0 .running = none
    ∧ (∀ b ∈ [false, true], let t : TileRun := { phase := .clean, outParity := true, parityRetry := b }
       ((tiled t).chan 0).finished 0 = some t ∧ t.outParity = true ∧ t.passes < 8 ∧ (((tiled t).chan 0).reed 0).waiting = none)
    ∧ (let t : TileRun := { phase := .clean, outParity := true }
       let k := ((tiled {}).chan 0).modReed 0 (fun x => { x with waiting := some t })
       k.finished 0 = some t ∧ (k.reed 0).waiting = some t)
    ∧ (∀ p ∈ [TilePhase.clean, .slotWait], let w : TileRun := { phase := p }
       let k := ((tiled { phase := .clean }).chan 0).modReed 0 (fun x => { x with waiting := some w })
       (k.finished 0).isSome = true ∧ (k.reed 0).waiting = some w)
    ∧ (let t : TileRun := { phase := .clean, poisonAll := true }; ((tiled t).chan 0).finished 0 = some t ∧ t.desc.odest = 0)
    ∧ (let t : TileRun := { phase := .clean, desc := { odest := 1, oaddr := 1048544 } }
       ((tiled t).chan 0).finished 0 = some t ∧ t.outParity = false ∧ t.poisonAll = false ∧ t.desc.prod ≠ 3 ∧ t.desc.odest = 1
        ∧ (((tiled t).chan 0).reed 0).sram.wf = true ∧ t.desc.oaddr + 32 ≤ 1048576)
    ∧ (let t : TileRun := { phase := .clean, desc := { odest := 2, oaddr := 0 } }
       ((tiled t).chan 0).finished 0 = some t ∧ t.desc.odest = 2 ∧ ((tiled t).chan 0).mem.chest.wf = true ∧ t.desc.oaddr + 32 ≤ 33554432) := by
  decide

/-! ### Movers and the Tuner: witnesses -/

/-- Channel 0 with one entry of an action in flight on mover 0, a descriptor pool, and the words of a SRAM. -/
def moving (action desc : Nat) (pool : List Byte) (m : Mem) : State :=
  withChan { st := .run, flights := [{ unit := 0x200 }], mem := m
             score := some { entries := [{ action := action, unit := 0x200, desc := desc }], pool := pool } }

/-- A descriptor of a program load of two words from offset 64 of a Reed's SRAM into program slot 1. -/
def ploadPool : List Byte := leBytes 8 (3 * 2 ^ 60 + 64) ++ [0#8, 1#8, 2#8, 0#8, 0#8, 0#8, 0#8, 0#8]

/-- Two tensors of one chord in the wind chest, and a move of the first onto the second. -/
def tensor2 (addr : Nat) : List Byte := leBytes 8 (2 * 2 ^ 60 + addr) ++ leBytes 4 16 ++ leBytes 4 16 ++ List.replicate 16 0#8
def movePool : List Byte :=
  tensor2 0 ++ tensor2 1024 ++ leBytes 4 0 ++ leBytes 4 1 ++ leBytes 4 0 ++ leBytes 4 0 ++ leBytes 4 1 ++ List.replicate 12 0#8

/-- A wind chest that holds a whole chord at address 0. -/
def chestOne : Mem :=
  { chest := ((Chord.toBytes .e2m1 { codes := List.replicate 256 0 }).zipIdx.filter (fun x => x.1 != 0#8)).map (fun x => (x.2, x.1)) }

/-- A gather of one entry of 32 bytes listed at the start of a Reed's SRAM, into the wind chest. -/
def pickPool : List Byte := leBytes 8 (3 * 2 ^ 60) ++ leBytes 8 (2 * 2 ^ 60 + 96) ++ leBytes 4 1 ++ List.replicate 12 0#8

/-- A memory with one page of a class. -/
def paged (cls : Nat) : Mem := { class0 := [(0, { valid := true, cls := cls })], pages := [(0, { valid := true })], cw := [(0, { written := true, achk := achkOf 0 0 })] }

/-- One tensor in the wind chest, and an MX conversion of one block. -/
def mxioPool (typ : Byte) (flags : Byte) : List Byte :=
  tensor2 0 ++ leBytes 8 (3 * 2 ^ 60) ++ leBytes 8 (3 * 2 ^ 60 + 64) ++ leBytes 4 0 ++ leBytes 4 1 ++ [flags, typ] ++ List.replicate 6 0#8

/-- What an error-free read gives, if it does. -/
def good? {α : Type} (x : Except MoverEnd α × Channel) : Option α :=
  match x.1 with
  | .ok a => some a
  | .error _ => none

set_option maxRecDepth 100000 in
theorem wit_Movers_pload :
    (let k := (moving 3 0 ploadPool {}).chan 0
     let d := Score.ploadAt k.pool 0
     k.flight 0x200 = some { unit := 0x200 } ∧ (k.moverEntry 0 3).isSome = true ∧ k.ploadWaits 0 = false ∧ k.moverEntry 0 4 = none
      ∧ d.count = 2 ∧ d.pslot = 1 ∧ d.space = 3
      ∧ (good? (k.readRaw 0 (k.slotOr0 d.slot) [] d.space d.addr (8 * d.count))).isSome = true
      ∧ SMap.wf 0 (k.reed (k.slotOr0 d.slot)).valve.words = true
      ∧ ((k.pload 0 [] { action := 3, unit := 0x200, desc := 0 }).1 = .done))
    ∧ (let k := ((moving 3 0 ploadPool {}).chan 0).modReed 0 (fun x => { x with valve := { x.valve with run := some { desc := { pslot := 1 } } } })
       k.ploadWaits 0 = true)
    ∧ (let k := ((moving 3 0 ploadPool {}).chan 0).modReed 0 (fun x => { x with badParity := [64] })
       (k.pload 0 [] { action := 3, unit := 0x200, desc := 0 }).1 = .again { space := 3, addr := 64, len := 16 })
    ∧ (let k := ((moving 3 0 ploadPool {}).chan 0).modReed 0 (fun x => { x with badParity := [64] })
       (k.pload 0 [{ space := 3, addr := 64, len := 16 }] { action := 3, unit := 0x200, desc := 0 }).1 = .lost) := by decide

set_option maxRecDepth 100000 in
theorem wit_Movers_move :
    let k := (moving 4 64 movePool chestOne).chan 0
    let d := Score.moveAt k.pool 64
    let src := k.storedTensor d.srct 0
    let x := (k.readChord 2 0 (k.slotOr0 d.sslot) src d.sfirst []).1
    k.flight 0x200 = some { unit := 0x200 } ∧ (k.moverEntry 0 4).isSome = true ∧ k.readTensor (k.entry 0).mb d.srct false = some (0, none)
      ∧ d.count = 1 ∧ (k.storedTensor d.dstt (k.writeTensor d.dstt).1).space = 2 ∧ x.lost = false ∧ x.redo = none ∧ x.poisoned = false
      ∧ wrongTag (k.entry 0) none (Chord.ofBytes (Score.fmtOf src.layout) x.bytes) = false
      ∧ x.bytes.isEmpty = false
      ∧ Score.chordAddr (k.storedTensor d.dstt (k.writeTensor d.dstt).1) d.dfirst + x.bytes.length ≤ 33554432 ∧ k.mem.chest.wf = true := by
  decide

set_option maxRecDepth 100000 in
theorem wit_Movers_pick : (∀ cls ∈ [0, 2],
    let k := (moving 5 0 pickPool (paged cls)).chan 0
    let d := Score.pickAt k.pool 0
    let list := good? (k.readRaw 0 (k.slotOr0 d.slot) [] d.listSpace d.list (8 * d.count))
    k.flight 0x200 = some { unit := 0x200 } ∧ (k.moverEntry 0 5).isSome = true ∧ d.count = 1 ∧ d.chord = false ∧ d.destSpace = 2
      ∧ d.dest + 32 ≤ 33554432 ∧ d.listSpace = 3 ∧ list.map (fun l => fieldLe l 0 8) = some 0 ∧ k.mem.chest.wf = true
      ∧ (k.mem.place 0 0).map Place.cls = some cls ∧ (cls ≠ 0 → (k.readBytes 2 0 0 0 0 32).1.err = .none)
      ∧ (good? (k.pickOne 0 [] d 0)).isSome = true)
    ∧ (∀ p ∈ [(false, 3), (true, 0), (true, 6)], (p.1 = false ∧ p.2 % 32 ≠ 0) ∨ 1 < p.2 / 2 ^ 60 ∨ (p.1 = true ∧ p.2 % 32 ∉ [5, 7, 9, 17]))
    ∧ 1 < (2 ^ 61) / 2 ^ 60 := by
  decide

set_option maxRecDepth 100000 in
theorem wit_Movers_mxio :
    (let d := Score.mxioAt ((moving 6 32 (mxioPool 2#8 0#8) {}).chan 0).pool 32; d.mxtype = 2)
    ∧ (let k := (moving 6 32 (mxioPool 0#8 0#8) {}).chan 0
       let d := Score.mxioAt k.pool 32
       let t := k.tensor (k.writeTensor d.tensor).1
       k.flight 0x200 = some { unit := 0x200 } ∧ (k.moverEntry 0 6).isSome = true ∧ d.mxtype ≠ 2 ∧ d.export_ = false ∧ d.elemSpace = 3
        ∧ d.scaleSpace = 3 ∧ (good? (k.readRaw 0 0 [] 3 d.elem (4 * Fmt.bits (Score.fmtOf t.layout) * d.blocks))).isSome = true
        ∧ (good? (k.readRaw 0 0 [] 3 d.scale d.blocks)).isSome = true ∧ Score.gridCols t * Score.gridRows t = 1 ∧ t.space = 2)
    ∧ (let d := Score.mxioAt ((moving 6 32 (mxioPool 0#8 1#8) {}).chan 0).pool 32; d.mxtype ≠ 2 ∧ d.export_ = true) := by
  decide

set_option maxRecDepth 100000 in
/-- The chord that the wind chest holds has blocks of 16, so its export is refused. -/
theorem wit_Movers_export :
    let k := (moving 6 32 (mxioPool 0#8 1#8) chestOne).chan 0
    let t := k.tensor 0
    let x := k.exportChords 0 [] (k.entry 0) none t (Score.gridCols t * Score.gridRows t)
    k.readTensor (k.entry 0).mb 0 false = some (0, none) ∧ x.1 = .done ∧ x.2.1.length = 1
      ∧ ∃ ch, some ch ∈ x.2.1 ∧ (ch.side.dir ≠ bit false ∨ ch.side.blk ≠ 2 ∨ ch.side.scl = true) := by
  refine ⟨by decide, by decide, by decide, ?_⟩
  exact ⟨_, List.mem_of_getElem? (i := 0) (by rfl), by decide⟩

theorem wit_Movers_writes :
    (let k := (withChan {}).chan 0; k.mem.chest.wf = true ∧ 33554400 + (List.replicate 32 0#8).length ≤ 33554432
      ∧ (k.reed 0).sram.wf = true ∧ 1048544 + (List.replicate 32 0#8).length ≤ 1048576)
    ∧ (paged 2).mapped true 0 0 32 = true := by decide

theorem wit_Movers_sound : (paged 2).sound := ⟨⟨rfl, rfl⟩, fun l h => by simp [paged] at h, List.Pairwise.nil⟩

/-- A Chanter action of a code in flight. -/
def chanting (code : Nat) (k : Channel) : State :=
  withChan { k with flights := [{ unit := 0x3F0 }]
                    score := some { entries := [{ action := 0x0A, unit := 0x3F0, desc := 0xFFFFFF00 % 2 ^ 32 + code }], pool := [] } }

/-- A VERDICT over the COLL descriptor 0: its words say how many take part. -/
def verdicting (ranks : Byte) (t : Tuner) (v : Option Coll) : State :=
  withChan { st := .run, flights := [{ unit := 0x3F0 }], tun := t, coll := { verdict := v }
             score := some { entries := [{ action := 0x0A, unit := 0x3F0, desc := 4 }]
                             pool := List.replicate 30 0#8 ++ [ranks] ++ List.replicate 33 0#8 } }

theorem wit_ChanterEvents :
    (let k := (chanting 3 { st := .run, ver := { cur := 1, ref1 := 7 } }).chan 0
     k.chntFlight 3 = some { unit := 0x3F0 } ∧ k.ver.opened = false ∧ (k.ver.cur + 1) % 2 = 0 ∧ k.ver.ref0 = 0 ∧ k.ver.ckref0 = 0)
    ∧ (let k := (chanting 3 { st := .run, ver := { cur := 0, ref1 := 7 } }).chan 0
       k.chntFlight 3 = some { unit := 0x3F0 } ∧ (k.ver.cur + 1) % 2 = 1 ∧ k.ver.ref1 ≠ 0 ∧ k.chntFlight 4 = none ∧ k.chntFlight 5 = none)
    ∧ ((chanting 4 {}).chan 0).chntFlight 3 = none
    ∧ (let k := (chanting 4 { st := .run, tun := { verdict := some (1, [(2, 3, 4)]) } }).chan 0
       k.chntFlight 4 = some { unit := 0x3F0 } ∧ k.tun.agreed = none ∧ k.verdictDesc (k.entry 0).desc = none
        ∧ k.agreedRecord 0 = some (1, [(2, 3, 4)]))
    ∧ (let k := (verdicting 4#8 { verdict := some (1, []) } none).chan 0
       k.chntFlight 4 = some { unit := 0x3F0 } ∧ k.tun.agreed = none ∧ k.verdictDesc (k.entry 0).desc ≠ none ∧ k.agreedRecord 0 = none)
    ∧ (let k := (verdicting 4#8 { verdict := some (1, []) } (some { xch := some (4, { p := 4 }) })).chan 0
       k.verdictDesc (k.entry 0).desc ≠ none ∧ (∃ x y z, k.coll.verdict = some x ∧ x.xch = some (y, z)))
    ∧ (let k := (chanting 5 { st := .run }).chan 0; k.chntFlight 5 = some { unit := 0x3F0 } ∧ k.scalarQ = [])
    ∧ (let k := (chanting 5 { st := .run, scalarQ := [(none, 0, 0)] }).chan 0; k.chntFlight 5 = some { unit := 0x3F0 } ∧ k.scalarQ ≠ [])
    ∧ (let k := (playing { rollbackDue := true }).chan 0
       k.ww.rollbackDue = true ∧ (k.st = .run ∨ k.st = .stopping ∨ (k.st = .loaded ∧ k.resume = true)))
    ∧ ((playing {}).chan 0).ww.rollbackDue = false := by
  refine ⟨by decide, by decide, by decide, by decide, by decide, ⟨by decide, _, _, _, rfl, rfl⟩, by decide, by decide, by decide, by decide⟩

/-! ### Links: witnesses -/

/-- Port 0 of channel 0 as given. -/
def ported (p : Port) (k : Channel) : State := withChan (k.modPort 0 (fun _ => p))

/-- A flit of a type on VC 0 with a sequence number and a payload. -/
def flitOf (typ seq : Nat) (payload : List Byte) : List Byte :=
  Flit.bytes { typ := typ, seq := seq, payload := payload ++ List.replicate (240 - payload.length) 0#8 }

/-- A HELLO of 12 R321 with its magic and version. -/
def helloPayload : List Byte := leBytes 4 0x4F4C4548 ++ [1#8]

/-- The flits of three types, and one with a bit of its CRC wrong. -/
def badFlit : List Byte := (flitOf 0 0 []).dropLast ++ [(flitOf 0 0 []).getLast!.xor 1#8]

set_option maxRecDepth 100000 in
theorem wit_LinkReceives :
    (let s := ported { st := .up, lastNak := some (0, 5) } { st := .run }
     ((s.chan 0).port 0).st = .up ∧ ((s.chan 0).port 0).rxBuf.length = 4 ∧ flitGood badFlit = false ∧ (8 : Nat) < 5 + 4000
      ∧ ((s.chan 0).port 0).lastNak = some (((s.chan 0).port 0).e, 5) ∧ 5 + 4000 ≤ (4005 : Nat))
    ∧ (let f := Flit.ofBytes (flitOf 3 0 []); flitGood (flitOf 3 0 []) = true ∧ ¬ (4 ≤ f.typ ∧ f.typ ≤ 6 ∧ f.vc = 0) ∧ vcOfType f.typ = some f.vc)
    ∧ (let f := Flit.ofBytes (flitOf 1 1 []); flitGood (flitOf 1 1 []) = true ∧ f.seq ≠ 0 ∧ vcOfType f.typ ≠ some f.vc)
    ∧ (let s := ported { keyWait := some (0, 1, 2) } { st := .run, paths := { kjob := some [] } }
       ((s.chan 0).port 0).keyWait = some (0, 1, 2) ∧ (s.chan 0).paths.kjob = some [])
    ∧ (let f := Flit.ofBytes (flitOf 6 0 (leBytes 3 7)); flitGood (flitOf 6 0 (leBytes 3 7)) = true ∧ f.vc = 0 ∧ f.typ = 6)
    ∧ (let q : Port := { st := .up, replay := some (3, []) }; q.replay = some (3, []) ∧ seqBefore 7 3 = false ∧ seqBefore 2 3 = true ∧ q.retry < 8)
    ∧ (let q : Port := { st := .up, retry := 8 }; 8 ≤ q.retry ∧ q.replayFrom = none ∧ q.replay = none)
    ∧ (let f := Flit.ofBytes (flitOf 5 0 []); flitGood (flitOf 5 0 []) = true ∧ f.vc = 0 ∧ f.typ = 5)
    ∧ (let f := Flit.ofBytes (flitOf 4 0 [])
       ((ported { st := .hello } { st := .ready }).chan 0 |>.port 0).st = .hello ∧ flitGood (flitOf 4 0 []) = true ∧ f.typ = 4 ∧ f.vc = 0
        ∧ fieldLe f.payload 0 4 ≠ 0x4F4C4548) := by
  decide

/-- A plan under which port 0 is a DATA port with a partner. -/
def planned (partner : Nat) : Paths :=
  { plan := some { ports := { partner := partner, role := roleData } :: List.replicate 7 {} }, disc := { status := 1 } }

set_option maxRecDepth 100000 in
theorem wit_LinkReceives_hello :
    let f := Flit.ofBytes (flitOf 4 0 helloPayload)
    let s := ported { st := .hello } { st := .ready, paths := planned 0 }
    flitGood (flitOf 4 0 helloPayload) = true ∧ f.typ = 4 ∧ f.vc = 0 ∧ fieldLe f.payload 0 4 = 0x4F4C4548 ∧ byteAt f.payload 4 = 1
      ∧ ((s.chan 0).port 0).st = .hello ∧ ((s.chan 0).planPort 0).role = roleData ∧ (s.chan 0).paths.disc.subst = []
      ∧ ((s.chan 0).port 0).wasDown = false ∧ (s.chan 0).st = .ready ∧ (s.chan 0).paths.disc.results.length = 8
      ∧ (s.chan 0).mismatch (s.self 0) 0 f.payload ≠ 0 := by
  decide

theorem wit_LinkTimers :
    (({ st := .up, ackReady := some {} } : Port).ackReady = some {} ∧ ({ creditReady := some {} } : Port).ackReady = none
      ∧ ({ helloReady := some {} } : Port).creditReady = none)
    ∧ (let q : Port := { st := .up, replay := some (0, [{}]) }
       q.st = .up ∧ q.ackReady = none ∧ q.creditReady = none ∧ q.helloReady = none ∧ q.replay = some (0, [{}]))
    ∧ (let q : Port := { st := .up, txq := [[{ flits := [{}] }], [], [], []] }
       q.replay = none ∧ q.replayBuf.length < 512 ∧ 0 < q.credits 0 ∧ q.consumed.length = 4 ∧ q.txq.getD 0 [] = [{ flits := [{}] }])
    ∧ ((∀ v, v < 4 → ({ st := .up } : Port).txq.getD v [] = []) ∧ ({} : Port).replay = none ∧ ({} : Port).bulkBusy = none)
    ∧ (({ unacked := 1 } : Port).unacked ≠ 0 ∧ ({} : Port).unacked = 0)
    ∧ (let q : Port := { st := .up, replayBuf := [{}], retry := 7 }; q.st = .up ∧ q.replay = none ∧ q.replayBuf = [{}] ∧ q.retry < 8)
    ∧ (let q : Port := { st := .up, replayBuf := [{}], retry := 8 }; q.replayBuf = [{}] ∧ 8 ≤ q.retry)
    ∧ (let s := ported { st := .up } { st := .run, paths := planned 0 }
       ((s.chan 0).port 0).st = .up ∧ ((s.chan 0).planPort 0).role = roleData ∧ (s.chan 0).paths.disc.status = 1
        ∧ (s.chan 0).paths.disc.results.length = 8)
    ∧ (({ st := .down } : Port).st = .down ∧ ({ st := .training } : Port).st = .training) := by
  decide

theorem wit_LinkTimers_full : 512 ≤ (List.replicate 512 ({} : Flit)).length
    ∧ ({ st := .up, replayBuf := List.replicate 512 {}, txq := [[{ flits := [{}] }], [], [], []] } : Port).txq.getD 0 [] ≠ [] :=
  ⟨by rw [List.length_replicate], by decide⟩

set_option maxRecDepth 100000 in
theorem wit_LinkReceives_more :
    (∀ st ∈ [PortState.hello, .dark], (({ st := st } : Port).st = .hello ∨ ({ st := st } : Port).st = .dark))
    ∧ (let q : Port := {}; ¬ (q.st = .hello ∨ q.st = .up ∨ q.st = .dark) ∧ q.keyWait = none)
    ∧ (let f := Flit.ofBytes (flitOf 6 0 []); vcOfType f.typ = some f.vc ∧ f.typ ≠ 5 ∧ f.typ = 6)
    ∧ (let f := Flit.ofBytes (flitOf 1 0 []); vcOfType f.typ ≠ some f.vc)
    ∧ (let q : Port := { st := .up, replayFrom := some 3 }; ∃ start, q.replayFrom = some start ∧ seqBefore start 7 = true)
    ∧ (∃ start rest, ({ replay := some (3, []) } : Port).replay = some (start, rest) ∧ seqBefore 3 start = false)
    ∧ (let q : Port := { unacked := 31, rxBuf := [[], [], [], []] }; 31 ≤ q.unacked ∧ q.rxBuf.length = 4)
    ∧ (let q : Port := { st := .up, lastHello := helloPayload }; q.st = .up ∧ patch q.lastHello 5 [0#8] = patch helloPayload 5 [0#8])
    ∧ (let q : Port := { st := .up, lastHello := 1#8 :: helloPayload }
       ¬ (q.lastHello = [] ∨ patch q.lastHello 5 [0#8] = patch helloPayload 5 [0#8]))
    ∧ (let k := (ported { st := .dark, wasDown := true } { st := .ready, paths := planned 0 }).chan 0
       (k.port 0).st = .dark ∧ (k.port 0).wasDown = true ∧ k.paths.disc.results.length = 8) :=
  ⟨by decide, by decide, by decide, by decide, ⟨3, rfl, by decide⟩, ⟨3, [], rfl, by decide⟩, by decide, by decide, by decide, by decide⟩

/-- A plan that substitutes port 1 for port 0, which has a role. -/
def substituted (role : Nat) : Paths :=
  { plan := some { ports := { role := role } :: { role := role } :: List.replicate 6 {} }, disc := { status := 1, subst := [(0, 1)] } }

theorem wit_LinkReceives_judge :
    (let k := (ported { st := .hello } { st := .ready, paths := { planned 0 with plan := some { ports := List.replicate 8 { role := roleUnused } } } }).chan 0
     (k.planPort 0).role = roleUnused)
    ∧ (let k := (ported { st := .hello } { st := .ready, paths := substituted roleData }).chan 0
       k.paths.disc.subst = [(0, 1)] ∧ (k.planPort 0).role = roleData ∧ k.paths.disc.results.length = 8)
    ∧ (let k := (ported { st := .hello } { st := .ready, paths := substituted roleSpare }).chan 0
       k.paths.disc.subst = [(0, 1)] ∧ (k.planPort 1).role = roleSpare
        ∧ (k.port 1).wasDown = false ∧ k.st ≠ .run ∧ k.st ≠ .stopping)
    ∧ (let k := (ported { wasDown := true } { st := .ready, paths := planned 0 }).chan 0
       (k.port 0).wasDown = true ∧ (k.planPort 0).role = roleData) := by decide

theorem wit_LinkTimers_more :
    (let q : Port := { st := .hello, creditReady := some {} }; q.ackReady = none ∧ q.creditReady = some {})
    ∧ (let q : Port := { st := .dark, helloReady := some {} }; q.ackReady = none ∧ q.creditReady = none ∧ q.helloReady = some {})
    ∧ (let q : Port := { st := .up, bulkBusy := some 2 }; q.bulkBusy = some 2 ∧ 0 < q.credits 2)
    ∧ (let q : Port := { st := .up, bulkNext := 2, txq := [[], [], [{ flits := [{}] }], []] }
       q.bulkBusy = none ∧ q.bulkNext = 2 ∧ q.txq.getD 2 [] ≠ [] ∧ 0 < q.credits 2)
    ∧ (let q : Port := { st := .up, bulkNext := 2, txq := [[], [], [], [{ flits := [{}] }]] }
       q.bulkNext = 2 ∧ q.txq.getD 2 [] = [] ∧ q.txq.getD 3 [] ≠ [] ∧ 0 < q.credits 3)
    ∧ (let q : Port := { st := .up, bulkNext := 3, consumed := [0, 0, 0, vcSize 3], txq := [[], [], [], [{ flits := [{}] }]] }
       q.bulkBusy = none ∧ q.bulkNext = 3 ∧ q.txq.getD 3 [] ≠ [] ∧ q.credits 3 = 0 ∧ q.txq.getD 2 [] = [])
    ∧ (∀ st ∈ [PortState.training, .hello], ({ st := st } : Port).st = .training ∨ ({ st := st } : Port).st = .hello)
    ∧ (let k := (ported { st := .down } {}).chan 0; k.paths.disc.status ≠ 1 ∧ (k.port 0).st = .down ∧ (k.port 0).st ≠ .training) := by
  decide

/-! ### Collectives, memory, services, security, errors and Études: witnesses -/

/-- One collective of one participant that has launched. -/
def one : Coll := { cseq := 0, launched := true, desc := { kind := 1, p := 1 }, flow := { own := [{}], final := [some {}] }, codes := [3], result := [{}] }
def colled (x : Coll) : State := withChan { st := .run, coll := { active := [x] } }

/-- A collective whose checks have passed, of `p` participants and of one chord of eight result blocks, which go into the wind chest. -/
def checked (p : Nat) (code : Nat) : Coll :=
  { cseq := 0, launched := true, desc := { kind := 1, p := p, chords := 1 }, codes := List.replicate 8 3, passesDone := true, dualOk := true
    result := List.replicate 8 { code := code, elems := List.replicate 32 1 }, contrib := List.replicate 8 { code := code, elems := List.replicate 32 1 }
    dig := some { totals := some (2, 2) } }

/-- Channel 0 runs that collective; tensor 0 is a BF16 chord of the wind chest. -/
def delivering (x : Coll) : State :=
  withChan { st := .run, coll := { active := [x] }
             score := some { entries := [{ action := 8 }], pool := leBytes 8 (2 * 2 ^ 60) ++ leBytes 4 16 ++ leBytes 4 16 ++ [7#8] ++ List.replicate 15 0#8 } }

theorem wit_CollectiveEvents_main :
    (let k := (colled one).chan 0
     k.coll? 0 = some one ∧ (one.launched = true ∧ one.mainDone = false ∧ one.codes ≠ [] ∧ one.flow.complete = true) ∧ k.coll? 1 = none)
    ∧ (let b : I8A := { code := 3, ovf := true }
       let x : Coll := { one with flow := { own := [{}], final := [some b] } }
       x.passBlocks [1] = [(0, b)] ∧ (x.passBlocks [1]).map Prod.fst = [0] ∧ 0 < x.result.length ∧ 0 < x.codes.length
        ∧ b.ovf = true ∧ b.code ≠ 0xFF ∧ ¬ (3 ≤ x.pass ∨ x.codes.getD 0 0 = 0xFE))
    ∧ (let x : Coll := { one with pass := 3, flow := { own := [{}], final := [some { code := 3, ovf := true }] } }
       x.passBlocks [1] = [(0, { code := 3, ovf := true })] ∧ 3 ≤ x.pass)
    ∧ (let k := (withChan { st := .run, tun := { verdict := some (1, []) } }).chan 0
       k.tun.verdict.isSome = true ∧ k.tun.agreed = none ∧ k.running = true ∧ k.coll? noCseq = none)
    ∧ (∃ x, ((colled one).chan 0).coll? 0 = some x ∧ x.launched = true) ∧ 0 ≠ noCseq := by
  refine ⟨by decide, by decide, by decide, by decide, ⟨one, by decide, rfl⟩, by decide⟩

theorem wit_CollectiveEvents_sends :
    (let x : Sending := { lastSeq := some 4 }
     let s := ported { st := .up, sends := [x], replayBuf := [{ seq := 5 }] } { st := .run }
     x ∈ ((s.chan 0).port 0).sends ∧ ∃ n, x.lastSeq = some n ∧ ∀ f ∈ ((s.chan 0).port 0).replayBuf, f.seq ≠ n)
    ∧ (let x : Sending := { lastSeq := some 5 }
       let s := ported { st := .up, sends := [x], replayBuf := [{ seq := 5 }] } { st := .run }
       x ∈ ((s.chan 0).port 0).sends ∧ ∃ f ∈ ((s.chan 0).port 0).replayBuf, x.lastSeq = some f.seq) :=
  ⟨⟨List.mem_singleton.mpr rfl, 4, rfl, by decide⟩, List.mem_singleton.mpr rfl, _, List.mem_singleton.mpr rfl, rfl⟩

set_option maxRecDepth 100000 in
/-- Delivered with no poisoned block, with eight, and of a collective of one participant, whose result reads back otherwise. -/
theorem wit_CollectiveEvents_delivered :
    (∀ c ∈ [3, 0xFF], let x := checked 2 c; let k := (delivering x).chan 0
      k.coll? 0 = some x ∧ x.ready = true ∧ x.desc.kind ≠ 3 ∧ (k.writeResult x).1 = true ∧ 1 < x.desc.p
        ∧ (x.result.filter (fun (b : I8A) => b.code == 0xFF)).length = (if c = 3 then 0 else 8))
    ∧ (let x : Coll := { cseq := 0, launched := true, desc := { kind := 3, p := 1 }, xch := some (3, {}) }
       ((colled x).chan 0).coll? 0 = some x ∧ x.ready = true)
    ∧ ((colled one).chan 0).coll? 0 = some one ∧ one.ready = false := by
  decide

set_option maxRecDepth 100000 in
/-- A reduction of one participant and one block, of whose result nothing has been written: what reads back, zeros, has the digest of what
was contributed, or that of a one, which differs. -/
theorem wit_CollectiveEvents_local : ∀ z ∈ [0, 1],
    let x : Coll := { checked 1 3 with desc := { kind := 2, p := 1 }, codes := [3], contrib := [{ code := 3, elems := [z] }] }
    let k := (delivering x).chan 0
    x.ready = true ∧ x.desc.kind ≠ 3 ∧ x.desc.p = 1 ∧ (k.writeResult x).1 = true
      ∧ ((k.writeResult x).2.localCheck x).1 = decide (z = 0) := by
  decide

/-- A channel whose scrub stands at a position, with one page whose first codeword is in a state. -/
def scrubbing (at_ : Nat) (w : Codeword) : State :=
  withChan { st := .ready, mem := { class0 := [(0, { valid := true, cls := 2 })], pages := [(0, { valid := true })], cw := [(0, w)]
                                    scrubAt := at_ } }

/-- Codewords as written, with one and with two wrong symbols, with ACHK of another epoch, and with either indication. -/
def goodCw : Codeword := { written := true, achk := achkOf 0 0 }
def someCws : List Codeword :=
  [goodCw, { goodCw with wrong := 1 }, { goodCw with wrong := 2 }, { goodCw with achk := achkOf 0 1 }, { goodCw with onDie := true }, { goodCw with poison := true }]

theorem wit_MemoryEvents :
    ((moving 3 0 ploadPool {}).chan 0).flight 0x200 = some { unit := 0x200 }
    ∧ (∀ w ∈ someCws,
        let s := scrubbing 0 w
        ¬ ((s.chan 0).st = .init ∨ (s.chan 0).st = .halted ∨ (s.chan 0).st = .holdup ∨ (s.chan 0).mem.scrubRate = 0 ∨ s.awake = false)
          ∧ (s.chan 0).mem.scrubNext 0 = some 0 ∧ ((s.chan 0).mem.scrubKey 0).map Place.key = some 0
          ∧ (s.chan 0).mem.writePending 0 = false ∧ (s.chan 0).mem.codeword 0 = w)
    ∧ (let bad := fun (w : Codeword) => ¬ (w.written = true ∧ w.achk = achkOf 0 0) ∨ 2 ≤ w.wrong ∨ w.poison = true
       someCws.map (fun w => decide (bad w)) = [false, false, true, true, false, true])
    ∧ SMap.get 0 ({ (scrubbing 0 goodCw).chan 0 |>.mem with corrections := [(0, 15)] } : Mem).corrections 0 + 1 = 16
    ∧ (let s := scrubbing 32768 goodCw; (s.chan 0).mem.scrubNext (s.chan 0).mem.scrubAt = none ∧ (s.chan 0).mem.scrubAt ≠ 0)
    ∧ (let s := scrubbing 0 goodCw
       let k := { s.chan 0 with mem := { (s.chan 0).mem with wcb := [{ addr := 0, cls := 2, bytes := [(0, 1#8)] }] } }
       k.mem.scrubNext 0 = some 0 ∧ k.mem.writePending 0 = true)
    ∧ ((playing {}).chan 0).mem.cxlPresent = false
    ∧ (let k := { (farOne true).chan 0 with mem := { ((farOne true).chan 0).mem with cxlPresent := true, cxlRate := 1 } }
       k.mem.cxlPresent = true ∧ k.mem.cxlRate ≠ 3) := by
  decide

theorem wit_MemoryEvents_sound : ((scrubbing 0 goodCw).chan 0).mem.sound :=
  ⟨⟨rfl, rfl⟩, fun l h => absurd (show l ∈ ([] : List WcbLine) from h) List.not_mem_nil, List.Pairwise.nil⟩

/-- A channel with storage up and a job bound, with its services. -/
def stored (v : Services) : State := withChan { st := .run, bind := { job := 5, bound := true, span := 1 }, svc := v }

/-- A target with a role, and a shard plan of one shard and two slots of 64 bytes from address 0. -/
def target (role : Nat) (up : Bool) : Target := { raw := List.replicate 278 0#8 ++ [byteOf role] ++ List.replicate 41 0#8, connected := up }
def shardPlan1 : List Byte := List.replicate 24 0#8 ++ leBytes 4 1 ++ leBytes 8 0 ++ [2#8, 0#8, 0#8, 0#8] ++ leBytes 8 64

/-- The save store of channel 0 as given. -/
def withStore (st : ChanStore) (s : State) : State := { s with mram := { s.mram with chan := s.mram.chan.set 0 st } }

set_option maxRecDepth 100000 in
theorem wit_StorageEvents_shards :
    (let s := stored { shardPlan := shardPlan1, targets := [target 1 true], resident := [0] }
     s.storageUp 0 = true ∧ (s.chan 0).svc.hasShards = true
      ∧ (s.chan 0).svc.targets.any (fun (t : Target) => t.connected && bitOf t.role 0) = true ∧ (s.chan 0).nextShard = some 1)
    ∧ (let s := stored { shardPlan := shardPlan1, targets := [target 1 true], resident := [0, 1] }; (s.chan 0).nextShard = none)
    ∧ (let s := stored { fetching := [4] }
       ((s.chan 0).svc.fetching.contains ({ step := 4 } : ShardObs).step = true ∧ s.storageUp 0 = true)
        ∧ ({ step := 4 } : ShardObs).data.bind (unsealStored s.mram.conf (s.chan 0).storageKey) = none
        ∧ ({ step := 4, data := some [7#8] } : ShardObs).data.bind (unsealStored s.mram.conf (s.chan 0).storageKey) = some [7#8]
        ∧ unsealStored true (s.chan 0).storageKey [7#8] = none
        ∧ (s.chan 0).svc.fetching.contains ({ step := 5 } : ShardObs).step = false)
    ∧ (let s := withChan { st := .run, mem := paged 2, svc := { fetching := [3], shardPlan := shardPlan1 } }
       (s.chan 0).mem.mapped true 0 ((s.chan 0).svc.plan.ring + 3 % (s.chan 0).svc.plan.slots * (s.chan 0).svc.plan.slotLen) 64 = true)
    ∧ (let s := stored { targets := [target 1 false] }
       (s.storageUp 0 = true ∧ ((s.chan 0).svc.target 0).connected = false ∧ ((s.chan 0).svc.target 0).role ≠ 0)
        ∧ (s.chan 0).svc.qps < s.mp.host.pools.getD 0 0)
    ∧ (let s := stored { targets := [target 1 false], qps := 1024 }; s.mp.host.pools.getD 0 0 ≤ (s.chan 0).svc.qps) := by
  decide

theorem wit_StorageEvents_checkpoints :
    (let s := withStore { ckpts := [{ state := 1, cleanAt := 8 }] } (stored { ckpt := some { mode := 1, targets := [0] }, targets := [target 2 true] })
     s.storageUp 0 = true ∧ (s.chan 0).svc.ckpt = some { mode := 1, targets := [0] } ∧ [0].contains (0 : Nat) = true
      ∧ (s.store 0).ckpts.find? (fun (x : Ckpt) => x.state == 1) = some { state := 1, cleanAt := 8 } ∧ [0].erase 0 = ([] : List Nat)
      ∧ (s.chan 0).svc.ckptWaiting = false ∧ 0 < (s.chan 0).svc.targets.length)
    ∧ (let s := withStore { ckpts := [{ state := 1 }] } { (stored { ckpt := some { mode := 1, targets := [0] } }) with mp := { base.mp with host := {} } }
       s.storageUp 0 = false ∧ (s.chan 0).svc.ckpt.isSome = true)
    ∧ (let s := stored { ckpt := some { mode := 1, targets := [0] }, ckptWaiting := true }; (s.chan 0).svc.ckptWaiting = true)
    ∧ (let r : CkptRun := { mode := 2, targets := [0, 2] }; r.mode = 2 ∧ r.failed = [] ∧ r.targets.contains 2 = true ∧ r.targets.erase 2 ≠ [])
    ∧ (let r : CkptRun := { mode := 2, targets := [2] }; r.mode = 2 ∧ r.failed = [] ∧ r.targets.erase 2 = [])
    ∧ (let r : CkptRun := { mode := 2, targets := [2], failed := [0] }; r.mode ≠ 2 ∨ r.failed ≠ [])
    ∧ (base.chan 0).svc.ckpt = none := by
  decide

/-- The shortest manifest of job 5, channel 0 and step 9, with a signature of no bytes, and an image with it. -/
def manifest9 : List Byte := leBytes 4 0x4B505645 ++ leBytes 2 1 ++ leBytes 2 5 ++ leBytes 8 9 ++ List.replicate 48 0#8 ++ leBytes 2 0

def restarting : State :=
  withStore { ckpts := [{ step := 9, state := 3 }] } (stored { restart := some {}, targets := [target 2 true] })

theorem wit_Restarts :
    ((base.chan 0).svc.restart = none ∧ (stored { restart := some { ready := true } }).storageUp 0 = true)
    ∧ ((restarting.chan 0).svc.restart = some {} ∧ restarting.storageUp 0 = true ∧ (restarting.chan 0).score = none
      ∧ ∀ p ∈ restarting.candidates 0 [], p.1.opened false [] p.2.objects = none)
    ∧ (({ restarting.chan 0 with score := some smallScore } : Channel).score = some smallScore
      ∧ ∀ e ∈ smallScore.entries, ¬ (e.action = 1 ∧ (Score.tileAt [] e.desc).prod = 3)) := by
  refine ⟨by decide, ⟨by decide, by decide, by decide, ?_⟩, by decide, by decide⟩
  intro p h
  simp [State.candidates] at h

set_option maxRecDepth 100000 in
/-- With a signature that verifies, the manifest is found, and what it names opens. -/
theorem wit_Restarts_found (h : ∀ key, Config.falconVerify key manifest9 [] = true) :
    ∃ m, restarting.candidates 0 [{ manifest := manifest9 }] = [(m, { manifest := manifest9 })]
      ∧ m.opened restarting.mram.conf (restarting.chan 0).storageKey [] = some [] := by
  have h1 : manifest9.take 66 = manifest9 := by decide
  have h2 : slice manifest9 66 0 = [] := by decide
  have h3 : fieldLe manifest9 20 4 = 0 := by decide
  have h4 : fieldLe manifest9 64 2 = 0 := by decide
  have hm : ∃ m, Manifest.ofBytes manifest9 = some m ∧ m.job = 5 ∧ m.chan = 0 ∧ restarting.cleanManifest 0 m = true ∧ m.objects = [] := by
    rw [Manifest.ofBytes]
    simp only [h3, h4, Nat.mul_zero, Nat.add_zero, h1, h2, h]
    rw [if_pos (by decide)]
    refine ⟨_, rfl, by decide, by decide, by decide, by decide⟩
  obtain ⟨m, e, a, b, d, hh⟩ := hm
  refine ⟨m, ?_, by simp [Manifest.opened, Manifest.holds, hh]⟩
  have hc : restarting.candidate 0 { manifest := manifest9 } = some (m, { manifest := manifest9 }) := by
    simp only [State.candidate, e]
    have g : bitOf ((restarting.chan 0).svc.target 0).role 1 = true := by decide
    have j : (restarting.chan 0).bind.job = 5 := by decide
    simp [g, j, a, b, d]
  simp [State.candidates, hc]

/-! ### Security, errors and Études: witnesses -/

set_option maxRecDepth 100000 in
theorem wit_SecurityEvents :
    ((base.chan 0).meas.winState ≠ 2)
    ∧ (let k := (withChan { st := .ready, mem := paged 1, meas := { winState := 2, winLen := 64 } }).chan 0
       k.meas.winState = 2 ∧ (k.mem.load 0 k.meas.winAddr k.meas.winLen).1.bad = false)
    ∧ (let k := (withChan { st := .ready, mem := { paged 1 with cw := [] }, meas := { winState := 2, winLen := 64 } }).chan 0
       k.meas.winState = 2 ∧ (k.mem.load 0 k.meas.winAddr k.meas.winLen).1.bad = true)
    ∧ base.mp.reports = []
    ∧ (let s : State := { base with mp := { base.mp with reports := [{ session := 1, txid := 7 }] } }
       s.mp.running = true ∧ s.power.lb = none ∧ s.mp.reports = [{ session := 1, txid := 7 }] ∧ s.session? 1 = some opSession
        ∧ s.canSend = true ∧ s.session? 2 = none) := by
  refine ⟨by decide, by decide, by decide, rfl, rfl, rfl, rfl, by decide, by decide, by decide⟩

/-- Channel 0 with one entry in its hardware error FIFO. -/
def failing (st : ChState) (x : RawErr) : State := withChan { st := st, score := some smallScore, err := { fifo := [x] } }

theorem wit_ErrorHandling :
    (base.chan 0).err.fifo = []
    ∧ (((failing .run { ended := some 1 }).chan 0).st ≠ .init ∧ (failing .run { ended := some 1 }).awake = true
      ∧ ((failing .run { ended := some 1 }).chan 0).err.fifo = [{ ended := some 1 }])
    ∧ (let s : State := { failing .holdup {} with power := { lb := some {} } }
       (s.chan 0).st = .holdup ∧ (∃ b, s.power.lb = some b ∧ b.saved = false) ∧ s.pins.pwrGood = true ∧ s.pins.refclkL = true
        ∧ (s.chan 0).err.fifo = [{}])
    ∧ (∀ cls ∈ [ErrClass.C, .D, .S, .J, .H, .F],
        let s := failing .run { cls := cls, cause := .memUncorr }
        (s.chan 0).err.fifo = [{ cls := cls, cause := .memUncorr }] ∧ s.awake = true ∧ (s.chan 0).st ≠ .holdup ∧ (s.chan 0).running = true
          ∧ isOutside .memUncorr = false)
    ∧ (isOutside .measRefused = true ∧ ((failing .ready { cls := .S }).chan 0).running = false)
    ∧ (((failing .run {}).chan 0).inStep = true ∧ ((failing .ready {}).chan 0).inStep = false)
    ∧ (waitsForHost .memUncorr = false ∧ waitsForHost .restartFailed = true ∧ ((failing .run {}).chan 0).tun.verdict = none
      ∧ ((failing .run {}).chan 0).err.handling.length ≤ 200) := by
  refine ⟨by decide, by decide, ⟨by decide, ⟨{}, rfl, rfl⟩, by decide⟩, by decide, by decide, by decide, by decide⟩

/-- Channel 0 with its Études. -/
def tested (e : Etude) : State := withChan { st := .ready, etude := e }
def inPhase (p : EtudePhase) : State := tested { run := some { reed := 3, phase := p } }

theorem wit_EtudeEvents :
    (((tested {}).store 0).health.length = 68 ∧ ((tested {}).chan 0).etude.queue.contains 3 = false ∧ ((tested {}).health 0 3).state ≠ 2
      ∧ ((tested {}).chan 0).st ≠ .init ∧ ((tested {}).chan 0).st ≠ .halted ∧ ((tested {}).chan 0).etude.run = none)
    ∧ (let k := (withChan { st := .run, slotMap := [3], etude := { queue := [3] } }).chan 0
       k.etude.queue.contains 3 = true ∧ k.slotMap.contains 3 = true ∧ k.etude.overdue.contains 3 = false)
    ∧ (let k := (tested { copy := some (3, 64), queue := [3] }).chan 0
       k.etude.copy = some (3, 64) ∧ (k.reed 3).tile = none ∧ (k.reed 3).waiting = none ∧ (k.reed 3).valve.run = none
        ∧ k.etude.queue.contains 3 = true)
    ∧ (let k := (tested { copy := some (3, 64) }).chan 0; k.etude.copy = some (3, 64) ∧ k.etude.queue.contains 3 = false)
    ∧ (let k := (withChan (({ etude := { run := some { reed := 0, phase := .isolate } } } : Channel).modReed 0 (fun x => { x with tile := some {} }))).chan 0
       k.etude.run = some { reed := 0, phase := .isolate } ∧ ¬ ((k.reed 0).tile = none ∧ (k.reed 0).waiting = none ∧ (k.reed 0).valve.run = none))
    ∧ (let k := (inPhase .isolate).chan 0; (k.reed 3).tile = none ∧ (k.reed 3).waiting = none ∧ (k.reed 3).valve.run = none)
    ∧ (let k := (withChan (({ etude := { copy := some (0, 64) } } : Channel).modReed 0 (fun x => { x with tile := some {} }))).chan 0
       k.etude.copy = some (0, 64) ∧ (k.reed 0).tile.isSome = true)
    ∧ (let e := ((tested { window := true }).chan 0).etude; e.window = true ∧ e.untilTests = false ∧ e.run = none)
    ∧ (∀ p ∈ [EtudePhase.isolate, .operating, .heat, .stress, .retry, .binRetest],
        ((inPhase p).chan 0).etude.run = some { reed := 3, phase := p } ∧ ((inPhase p).chan 0).etude.queue.contains 3 = false)
    ∧ (let o : EtudeObs := { pass := false, column := some 2 }
       o.pass = false ∧ (∀ n, o.column = some n → ((inPhase .operating).health 0 3).repair = none)
        ∧ ((inPhase .stress).health 0 3).raises < (inPhase .stress).mp.suspectSteps)
    ∧ (let s := withStore { health := List.replicate 68 { raises := 3, repair := some 1 } } (inPhase .stress)
       (s.store 0).health.length = 68 ∧ s.mp.suspectSteps ≤ (s.health 0 3).raises ∧ ¬ (s.healthyReeds 0).length < (s.chan 0).active
        ∧ (s.health 0 3).repair = some 1 ∧ (s.health 0 3).repairOn = false) := by
  decide

/-- Repair columns and shortages: a second failed column, the one named already, none, and one that is in use and fails again. -/
theorem wit_EtudeEvents_columns :
    (∀ p ∈ [((none : Option Nat), (none : Option Nat), false), (some 2, some 1, false), (some 2, some 2, true)],
      let o : EtudeObs := { pass := false, column := p.1 }
      ∀ n, o.column = some n → p.2.1 ≠ none ∧ (p.2.1 = some n → p.2.2 = true))
    ∧ (let s := withStore { health := List.replicate 68 { state := 2 } } ((inPhase .operating).setChan 0 { (inPhase .operating).chan 0 with active := 1 })
       (s.healthyReeds 0).length < (s.chan 0).active ∧ (s.store 0).binFloor < 15)
    ∧ (let s := withStore { health := List.replicate 68 { state := 2 }, binFloor := 15 } (inPhase .operating); 15 ≤ (s.store 0).binFloor) := by
  decide

/-! ### The machine as a whole -/

theorem wit_StepRunsFront :
    (let s : State := { base with pending := [.refclkCLoss, .mtrPulseEnd] }; s.pending = [.refclkCLoss, .mtrPulseEnd])
    ∧ base.pending = [] ∧ ({ base with power := { lb := some {} } } : State).canSend = false := by
  refine ⟨rfl, rfl, by decide⟩

theorem base_legal : base.legal := by
  refine ⟨by decide, ?_, by decide, by decide, by decide, by decide, by decide, by decide⟩
  intro b h
  exact absurd (show (none : Option LastBreath) = some b from h) nofun

theorem wit_StepKeepsLegal_StepMovesOnward : base.legal ∧ (nextOf (step base)).isSome = true := ⟨base_legal, by decide⟩

theorem wit_StepKeepsMemories : base.canonical ∧ (nextOf (step base)).isSome = true := by
  refine ⟨fun c => ⟨⟨?_, ?_⟩, fun r => ?_, fun w h => ?_⟩, by decide⟩
  · revert c; decide
  · revert c; decide
  · revert c r; decide
  · have : w = {} := by
      rcases h with h | h
      · rw [h]; clear h; revert c; decide
      · rw [h]; clear h; revert c; decide
    rw [this]; decide

/-! ### Small checks of commands -/

/-- One field of what a command leaves. -/
def after {α : Type} (i : Instr) (s : State) (f : State → α) : Option α := (nextOf (exec i s)).map f

/-- The one reply sent: its abort code and its payload. -/
def replyOf (i : Instr) (s : State) : Option (List (Nat × List Byte)) :=
  after i s (fun t => t.mp.sent.map (fun r => (r.abort, r.payload)))

/-- The tie of sixteen samples reads as 0, nine of sixteen as 1, and both are unstable (12 R318). -/
theorem test_strapEnd : after (.strapEnd (List.replicate 7 1 ++ List.replicate 8 3 ++ [0])) fresh (fun t => (t.pins.straps, t.pins.unstable))
    = some (1, true) := by decide
/-- Above 100 V the machine is outside its absolute maximum (22 R486). -/
theorem test_ovEvent : exec (.ovEvent 100001) base = .fault .absoluteMaximum := rfl
/-- A read of the power cap: 1,800 W (19 R444). -/
theorem test_read : replyOf (.read q1 0x7002 0) base = some [(0, [0x08#8, 0x07#8])] := by decide
/-- An index that does not exist: 0x0601 (14 R359). -/
theorem test_read_absent : replyOf (.read q1 0x7FFF 0) base = some [(0x0601, [])] := by decide
/-- A write of a read-only stop: 0x0603 (14 R359). -/
theorem test_write_readOnly : replyOf (.stopWrite q1 0x1021 0 [0#8, 0#8, 0#8, 0#8]) base = some [(0x0603, [])] := by decide
/-- The board cap of level 5 is 1,400 W (19 R444). -/
theorem test_boardCapLevel : after (.boardCapLevel 5) base State.cap = some 1400 := by decide
/-- LOWV from the sag threshold to below 64 V (19 R440). -/
theorem test_lowInput : after (.lowInput 63999) base (fun t => t.power.lowv) = some true := by decide
/-- Below 48 V the module is off. -/
theorem test_powerOff : after (.powerOff 47999) base (fun t => (t.pins.pwrGood, t.mp.running)) = some (false, false) := by decide
/-- 10 mJ of channel energy out of 22 mJ of input: 12 mJ shared, in the parts 3, 3, 3 and 3 for equal energies (16 R388, R389). -/
theorem test_meterInterval :
    after (.meterInterval 22000 [2500, 2500, 2500, 2500]) (metering {}) (fun t => (t.meter.regs.ein, t.meter.regs.shared, t.meter.regs.alloc))
      = some (22000, 12000, [3000, 3000, 3000, 3000]) := by decide
/-- A broken seal is state 2 with event 5 (16 R394). -/
theorem test_sealBroken : after .sealBroken (metering {}) (fun t => (t.meter.sealSt, t.meter.ring.map MeterEvent.code)) = some (2, [5]) := by decide
set_option maxRecDepth 100000 in
/-- An ACK of 7 takes sequence numbers 5 and 6 out of the replay buffer (10 R267). -/
theorem test_ackReceive :
    after (.ackReceive 0 0 { bytes := flitOf 6 0 (leBytes 3 7) }) (ported { st := .up, replayBuf := [{ seq := 5 }, { seq := 6 }, { seq := 7 }] } { st := .run })
      (fun t => ((t.chan 0).port 0).replayBuf.map Flit.seq) = some [7] := by decide
/-- A score that runs issues its beat: one action in flight (07 R167). -/
theorem test_beatTest : after (.beatTest 0 {}) (playing {}) (fun t => ((t.chan 0).ww.beats, (t.chan 0).flights.map Flight.unit)) = some (1, [0x200]) := by
  decide
/-- A gather of a class C page copies its bytes; of a class A page it writes zeros and counts a refusal (09 R247). -/
theorem test_pickComplete :
    after (.pickComplete 0 0) (moving 5 0 pickPool { paged 2 with dram := [(3, 0xAB#8)] })
      (fun t => ((t.chan 0).mem.chest, (t.chan 0).mem.cnt.pickRefused, (t.chan 0).flights)) = some ([(99, 0xAB#8)], 0, []) := by decide
theorem test_pickComplete_classA :
    after (.pickComplete 0 0) (moving 5 0 pickPool { paged 0 with dram := [(3, 0xAB#8)] })
      (fun t => ((t.chan 0).mem.chest, (t.chan 0).mem.cnt.pickRefused)) = some ([], 1) := by decide
/-- A heated Reed goes on to its stress pass (18 R431). -/
theorem test_etudePhaseDone : after (.etudePhaseDone 0 {}) (inPhase .heat) (fun t => (t.chan 0).etude.run.map EtudeRun.phase) = some (some .stress) := by
  decide
/-- A write to a mapped page reaches its bytes at the boundary (09 R249; 13 R344). -/
theorem test_hostRdmaWrite :
    after (.hostRdmaWrite 0 5 [0x11#8, 0x22#8]) (peered false false 0) (fun t => (t.chan 0).mem.flush.dram) = some [(5, 0x11#8), (6, 0x22#8)] := by
  decide
/-- A BIND of a READY channel raises its epoch and binds the job (21 R477). -/
theorem test_bind : after (.bind q1 0 { job := 5, span := 1, seed := 9 }) base (fun t => ((t.chan 0).bind.job, (t.store 0).epoch)) = some (5, 1) := by
  decide
/-- A power cap of 900 W takes effect and is answered OK (19 R444). -/
theorem test_stopWrite : after (.stopWrite q1 0x7002 0 (leBytes 2 900)) base (fun t => (t.power.swCap, t.mp.sent.map Reply.abort))
    = some (900, [0]) := by decide
/-- The front command of the queue runs, and leaves the queue. -/
theorem test_step : (nextOf (step { base with pending := [.boardCapLevel 1, .refclkCLoss] })).map (fun t => (t.power.boardLevel, t.pending))
    = some (1, [.refclkCLoss]) := by decide
end Sys2Proof.Tests
end

section
/-! SUPPORT. Minimum and maximum of float lanes by the mode (02 R54; 06 R146), and that no element code written to a tensor is a negative
zero (02 R49). -/

namespace Sys2Proof

namespace Num

theorem isNan_iff {x : XNum} : isNan x = true ↔ x = .nan := by cases x <;> simp [isNan]

theorem isNan_eq_false_iff {x : XNum} : isNan x = false ↔ x ≠ .nan := by cases x <;> simp [isNan]

/-- The code of the negative zero of a float format is not zero. -/
theorem zero_ne_negZero (f : Fmt) : 0 ≠ 2 ^ (Fmt.bits f - 1) := (Nat.two_pow_pos _).ne

theorem noNegZero_ne_negZero {f : Fmt} (hf : Fmt.isInt f = false) (code : Nat) : noNegZero f code ≠ 2 ^ (Fmt.bits f - 1) := by
  unfold noNegZero
  split
  · exact zero_ne_negZero f
  · next h => simpa [hf] using h

theorem writeCode_ne_negZero {f : Fmt} (hf : Fmt.isInt f = false) (code : Nat) : writeCode f code ≠ 2 ^ (Fmt.bits f - 1) :=
  noNegZero_ne_negZero hf _

theorem infCode_ne_negZero {f : Fmt} (hf : Fmt.hasInf f = true) (neg : Bool) : Fmt.infCode f neg ≠ 2 ^ (Fmt.bits f - 1) := by
  revert neg
  cases f with
  | e5m2 | fp16 | bf16 => decide
  | e2m1 | int4 | e3m2 | e4m3 | int8 => exact absurd hf (by decide)

theorem nanCode_ne_negZero (f : Fmt) : Fmt.nanCode f ≠ 2 ^ (Fmt.bits f - 1) := by cases f <;> decide

/-- An infinity is rounded to an infinity or a NaN, which no format writes with the code of a negative zero. -/
theorem round_inf_ne_negZero (f : Fmt) (mode : Rnd) (ieee sym neg : Bool) (r8 : Nat) :
    (round f mode ieee sym (.inf neg) r8).code ≠ 2 ^ (Fmt.bits f - 1) := by
  unfold round
  dsimp only
  split
  · next h => exact infCode_ne_negZero h neg
  · exact nanCode_ne_negZero f

end Num

namespace Quant

open Sys2Proof.Num

theorem maxCode_ne_negZero {f : Fmt} (hf : Fmt.hasInf f = true) (neg : Bool) : maxCode f neg ≠ 2 ^ (Fmt.bits f - 1) := by
  revert neg
  cases f with
  | e5m2 | fp16 | bf16 => decide
  | e2m1 | int4 | e3m2 | e4m3 | int8 => exact absurd hf (by decide)

theorem elementCode_ne_negZero {q : Cfg} (hf : Fmt.isInt q.fmt = false) (code : Nat) (s : Src) :
    (elementCode q code s).1 ≠ 2 ^ (Fmt.bits q.fmt - 1) := by
  unfold elementCode
  split
  · next n hx =>
    split
    · next h => exact maxCode_ne_negZero (Bool.and_eq_true_iff.mp h).2 n
    · rw [hx]; exact round_inf_ne_negZero q.fmt q.rnd q.ieee q.sym n s.r8
  · exact noNegZero_ne_negZero hf _

/-- The element loop writes zeros and the codes of elements. -/
theorem mem_elementLoop {q : Cfg} {code v : Nat} {src : List Src} (h : v ∈ (elementLoop q code src).1) :
    v = 0 ∨ ∃ s ∈ src, v = (elementCode q code s).1 := by
  induction src with
  | nil => simp [elementLoop] at h
  | cons s src ih =>
    have hcons : v = 0 ∨ v = (elementCode q code s).1 ∨ v ∈ (elementLoop q code src).1 := by
      unfold elementLoop at h ⊢
      rw [List.foldr_cons] at h
      split at h
      · exact (List.mem_cons.mp h).imp_right .inr
      split at h
      · exact (List.mem_cons.mp h).imp_right .inr
      · exact .inr (List.mem_cons.mp h)
    obtain h0 | hs | hrest := hcons
    · exact .inl h0
    · exact .inr ⟨s, List.mem_cons_self, hs⟩
    · obtain h0 | ⟨s', hs', hv⟩ := ih hrest
      · exact .inl h0
      · exact .inr ⟨s', List.mem_cons_of_mem _ hs', hv⟩

/-- The quantiser writes no negative zero (02 R49). -/
theorem elementLoop_ne_negZero {q : Cfg} (hf : Fmt.isInt q.fmt = false) {code v : Nat} {src : List Src}
    (h : v ∈ (elementLoop q code src).1) : v ≠ 2 ^ (Fmt.bits q.fmt - 1) := by
  obtain rfl | ⟨s, -, rfl⟩ := mem_elementLoop h
  · exact zero_ne_negZero q.fmt
  · exact elementCode_ne_negZero hf code s

end Quant

namespace Lane

open Sys2Proof.Num

/-- The order by which MIN and MAX choose between two numbers: that of CMP, with −0 below +0 in strict mode (02 R54). -/
def minmaxOrder (strict : Bool) (x y : XNum) : Int :=
  if cmp x y == 0 && strict && isZero x && isZero y then
    (if signOf x && !signOf y then -1 else if !signOf x && signOf y then 1 else 0)
  else cmp x y

theorem minmaxOrder_of_cmp_ne_zero {x y : XNum} (h : cmp x y ≠ 0) (strict : Bool) : minmaxOrder strict x y = cmp x y := by
  simp [minmaxOrder, h]

@[simp] theorem minmaxOrder_negZero_zero (i j : Int) : minmaxOrder true (.fin true 0 i) (.fin false 0 j) = -1 := rfl

@[simp] theorem minmaxOrder_zero_negZero (i j : Int) : minmaxOrder true (.fin false 0 i) (.fin true 0 j) = 1 := rfl

theorem isFloat_iff {ty : Ty} : ty.isFloat = true ↔ ty = .bf16 ∨ ty = .fp16 := by cases ty <;> decide

theorem nanBits_eq {ty : Ty} (hty : ty.isFloat = true) : nanBits ty = if ty = .bf16 then 0x7FC0 else 0x7E00 := by
  obtain rfl | rfl := isFloat_iff.mp hty <;> rfl

section
variable {ty : Ty} {a b : Nat} (hty : ty.isFloat = true)
include hty

/-! What MIN and MAX choose: each case of 02 R54. -/

theorem minmax_of_both_nan (e : Env) (big : Bool) (ha : fval ty a = .nan) (hb : fval ty b = .nan) :
    (minmax e ty big a b).bits = nanBits ty := by
  simp [minmax, hty, ha, hb, isNan]

theorem minmax_of_left_nan (e : Env) (big : Bool) (ha : fval ty a = .nan) (hb : fval ty b ≠ .nan) :
    (minmax e ty big a b).bits = if e.strict then nanBits ty else b := by
  simp [minmax, hty, ha, isNan_eq_false_iff.mpr hb, isNan_iff.mpr rfl]

theorem minmax_of_right_nan (e : Env) (big : Bool) (ha : fval ty a ≠ .nan) (hb : fval ty b = .nan) :
    (minmax e ty big a b).bits = if e.strict then nanBits ty else a := by
  simp [minmax, hty, hb, isNan_eq_false_iff.mpr ha, isNan_iff.mpr rfl]

theorem minmax_of_numbers (e : Env) (big : Bool) (ha : fval ty a ≠ .nan) (hb : fval ty b ≠ .nan) :
    (minmax e ty big a b).bits =
      if (if big then 0 ≤ minmaxOrder e.strict (fval ty a) (fval ty b) else minmaxOrder e.strict (fval ty a) (fval ty b) ≤ 0)
      then a else b := by
  simp only [minmax, hty, isNan_eq_false_iff.mpr ha, isNan_eq_false_iff.mpr hb, minmaxOrder]
  rfl

theorem minmax_of_order_neg {e : Env} (big : Bool) (ha : fval ty a ≠ .nan) (hb : fval ty b ≠ .nan)
    (h : minmaxOrder e.strict (fval ty a) (fval ty b) < 0) : (minmax e ty big a b).bits = if big then b else a := by
  rw [minmax_of_numbers hty e big ha hb]
  cases big
  · exact if_pos h.le
  · exact if_neg h.not_ge

theorem minmax_of_order_pos {e : Env} (big : Bool) (ha : fval ty a ≠ .nan) (hb : fval ty b ≠ .nan)
    (h : 0 < minmaxOrder e.strict (fval ty a) (fval ty b)) : (minmax e ty big a b).bits = if big then a else b := by
  rw [minmax_of_numbers hty e big ha hb]
  cases big
  · exact if_neg h.not_ge
  · exact if_pos h.le

theorem minmax_of_strict_nan {e : Env} (big : Bool) (hs : e.strict = true) (h : fval ty a = .nan ∨ fval ty b = .nan) :
    (minmax e ty big a b).bits = nanBits ty := by
  by_cases ha : fval ty a = .nan
  · by_cases hb : fval ty b = .nan
    · exact minmax_of_both_nan hty e big ha hb
    · rw [minmax_of_left_nan hty e big ha hb, if_pos hs]
  · rw [minmax_of_right_nan hty e big ha (h.resolve_left ha), if_pos hs]

/-! What CMP's relations say of two float lanes (02 R53). -/

theorem relation_equal : relation ty 0 a b = true ↔ fval ty a ≠ .nan ∧ fval ty b ≠ .nan ∧ cmp (fval ty a) (fval ty b) = 0 := by
  simp [relation, hty, ← isNan_eq_false_iff, and_assoc]

theorem relation_less : relation ty 2 a b = true ↔ fval ty a ≠ .nan ∧ fval ty b ≠ .nan ∧ cmp (fval ty a) (fval ty b) < 0 := by
  simp [relation, hty, ← isNan_eq_false_iff, and_assoc]

theorem relation_greater : relation ty 4 a b = true ↔ fval ty a ≠ .nan ∧ fval ty b ≠ .nan ∧ 0 < cmp (fval ty a) (fval ty b) := by
  simp [relation, hty, ← isNan_eq_false_iff, and_assoc]

theorem minmax_of_less (e : Env) (big : Bool) (h : relation ty 2 a b = true) : (minmax e ty big a b).bits = if big then b else a := by
  obtain ⟨ha, hb, hc⟩ := (relation_less hty).mp h
  exact minmax_of_order_neg hty big ha hb ((minmaxOrder_of_cmp_ne_zero hc.ne _).trans_lt hc)

theorem minmax_of_greater (e : Env) (big : Bool) (h : relation ty 4 a b = true) :
    (minmax e ty big a b).bits = if big then a else b := by
  obtain ⟨ha, hb, hc⟩ := (relation_greater hty).mp h
  exact minmax_of_order_pos hty big ha hb (hc.trans_eq (minmaxOrder_of_cmp_ne_zero hc.ne' _).symm)

theorem minmax_of_equal (e : Env) (big : Bool) (h : relation ty 0 a b = true) :
    (minmax e ty big a b).bits = a ∨ (minmax e ty big a b).bits = b := by
  obtain ⟨ha, hb, -⟩ := (relation_equal hty).mp h
  rw [minmax_of_numbers hty e big ha hb]
  exact ite_eq_or_eq _ _ _

theorem minmax_of_negZero_zero {e : Env} (big : Bool) (hs : e.strict = true) {i j : Int} (ha : fval ty a = .fin true 0 i)
    (hb : fval ty b = .fin false 0 j) : (minmax e ty big a b).bits = if big then b else a :=
  minmax_of_order_neg hty big (by simp [ha]) (by simp [hb]) (by simp [hs, ha, hb])

theorem minmax_of_zero_negZero {e : Env} (big : Bool) (hs : e.strict = true) {i j : Int} (ha : fval ty a = .fin false 0 i)
    (hb : fval ty b = .fin true 0 j) : (minmax e ty big a b).bits = if big then a else b :=
  minmax_of_order_pos hty big (by simp [ha]) (by simp [hb]) (by simp [hs, ha, hb])

end

end Lane

namespace Machine

open Sys2Proof.Num

theorem rawCodes_ne_negZero {t : TensorDesc} (hf : Fmt.isInt (Score.fmtOf t.layout) = false) {vl v : Nat} {h : HeldChord}
    (hv : v ∈ rawCodes t vl h) : v ≠ 2 ^ (Fmt.bits (Score.fmtOf t.layout) - 1) := by
  obtain ⟨⟨w, l⟩, -, rfl⟩ := List.mem_map.mp hv
  dsimp only
  split
  · exact zero_ne_negZero _
  · exact writeCode_ne_negZero hf _

/-- A raw output stream writes zeros, in poisoned lines, and the codes of its lanes. -/
theorem mem_codes_of_mem_rawGroup {t : TensorDesc} {vl v : Nat} {group : List HeldChord} {free : Nat → Nat} {ch : Chord}
    (hch : ch ∈ rawGroup t vl group free) (hv : v ∈ ch.codes) : v = 0 ∨ ∃ h ∈ group, v ∈ rawCodes t vl h := by
  obtain ⟨cs, hcs, rfl⟩ := List.mem_map.mp hch
  obtain ⟨h, hh, rfl⟩ := List.mem_map.mp hcs
  obtain ⟨⟨u, l⟩, hu, rfl⟩ := List.mem_map.mp hv
  dsimp only
  split
  · exact .inl rfl
  · exact .inr ⟨h, hh, List.fst_mem_of_mem_zipIdx hu⟩

/-- A raw output stream writes no negative zero (02 R49). -/
theorem rawGroup_ne_negZero {t : TensorDesc} (hf : Fmt.isInt (Score.fmtOf t.layout) = false) {vl v : Nat} {group : List HeldChord}
    {free : Nat → Nat} {ch : Chord} (hch : ch ∈ rawGroup t vl group free) (hv : v ∈ ch.codes) :
    v ≠ 2 ^ (Fmt.bits (Score.fmtOf t.layout) - 1) := by
  obtain rfl | ⟨h, -, hv⟩ := mem_codes_of_mem_rawGroup hch hv
  · exact zero_ne_negZero _
  · exact rawCodes_ne_negZero hf hv

/-- The strict mode of a channel is a stop that a run latches, and is off at reset (02 R54; 06 R160). -/
theorem strictMode_stop_reset_latch :
    (stopRow 0x3000 0).map (fun x => x.access) = some .rwp
      ∧ (∀ c, (State.reset.chan c).live.strict = false ∧ (State.reset.chan c).shadow.strict = false)
      ∧ (∀ k : Channel, k.live.latch.strict = k.live.strict) ∧ ∀ x : Run, x.env.strict = x.set.strict :=
  ⟨by decide, by decide, fun _ => rfl, fun _ => rfl⟩

/-- Each lane of MIN takes the minimum of a and b under the mode of its run. -/
theorem min_laneResult (s : State) (c : ChanId) (r : ReedId) :
    s.laneResult (.min c r) c r 0x05 (fun _ => false) (fun _ _ => True) (fun x w l =>
      LaneOut.ofRes (Lane.minmax x.env (Lane.Ty.ofCode (wTy w)) false (x.lane (wVa w) l) (x.second w l))) :=
  s.laneResult_of c r 0x05 (.min c r) _ _ rfl _ _ (fun _ _ _ _ _ _ => rfl) (fun _ _ _ _ _ _ => rfl)

/-- Each lane of MAX takes the maximum of a and b under the mode of its run. -/
theorem max_laneResult (s : State) (c : ChanId) (r : ReedId) :
    s.laneResult (.max c r) c r 0x06 (fun _ => false) (fun _ _ => True) (fun x w l =>
      LaneOut.ofRes (Lane.minmax x.env (Lane.Ty.ofCode (wTy w)) true (x.lane (wVa w) l) (x.second w l))) :=
  s.laneResult_of c r 0x06 (.max c r) _ _ rfl _ _ (fun _ _ _ _ _ _ => rfl) (fun _ _ _ _ _ _ => rfl)

/-- Settles O6: the mode is latched, MIN and MAX run lane by lane under it, `Lane.minmax` follows the cases of 02 R54, and neither
output stream writes a negative zero. -/
theorem valveMinMax : Obligations.ValveMinMax := by
  unfold Obligations.ValveMinMax
  refine ⟨strictMode_stop_reset_latch, fun s c r => ⟨min_laneResult s c r, max_laneResult s c r⟩, ?minmax,
    fun t vl group free hf ch hch v hv => rawGroup_ne_negZero hf hch hv, fun q code src hf v hv => Quant.elementLoop_ne_negZero hf hv⟩
  case minmax =>
    intro e ty big a b hty
    have hf : ty.isFloat = true := Lane.isFloat_iff.mpr hty
    dsimp only
    rw [← Lane.nanBits_eq hf]
    exact ⟨fun hs ha hb => by rw [Lane.minmax_of_left_nan hf e big ha hb, hs]; rfl,
      fun hs ha hb => by rw [Lane.minmax_of_right_nan hf e big ha hb, hs]; rfl,
      Lane.minmax_of_both_nan hf e big, Lane.minmax_of_strict_nan hf big,
      Lane.minmax_of_less hf e big, Lane.minmax_of_greater hf e big, Lane.minmax_of_equal hf e big,
      fun _ _ hs => Lane.minmax_of_negZero_zero hf big hs, fun _ _ hs => Lane.minmax_of_zero_negZero hf big hs⟩

end Machine

end Sys2Proof
end

section
/-! SUPPORT. What work on a tile leaves alone: reads, writes, errors and counts of a Reed's units (03 R76, R86, R93). -/

namespace Sys2Proof.Machine

open Sys2Proof

/-! ### What a read of memory leaves alone -/

/-- Two memories that hold the same: only counts, protection state and page maps may differ. -/
structure Mem.SameData (m m' : Mem) : Prop where
  dram : m'.dram = m.dram
  wcb : m'.wcb = m.wcb
  chest : m'.chest = m.chest

theorem Mem.SameData.refl (m : Mem) : m.SameData m := ⟨rfl, rfl, rfl⟩

theorem Mem.SameData.trans {a b c : Mem} (h : a.SameData b) (h' : b.SameData c) : a.SameData c :=
  ⟨h'.dram.trans h.dram, h'.wcb.trans h.wcb, h'.chest.trans h.chest⟩

@[simp] theorem Mem.moved_wcb (m : Mem) (key n : Nat) : (m.moved key n).wcb = m.wcb := by
  unfold Mem.moved; split <;> rfl

@[simp] theorem Mem.writeBack_wcb (m : Mem) (c : Nat) : (m.writeBack c).wcb = m.wcb := by
  unfold Mem.writeBack
  split
  · rfl
  · exact Mem.moved_wcb _ _ _

@[simp] theorem Mem.checkCodeword_wcb (m : Mem) (cls c : Nat) : (m.checkCodeword cls c).2.wcb = m.wcb := by
  simp only [Mem.checkCodeword]
  split
  · rfl
  · split
    · rfl
    · split
      · exact Mem.writeBack_wcb _ _
      · rfl

/-- A read of codewords costs their protection state, not their data. -/
theorem Mem.load_sameData (m : Mem) (space addr n : Nat) : m.SameData (m.load space addr n).2 := by
  refine ⟨(Mem.load_memories m space addr n).1, ?_, (Mem.load_memories m space addr n).2⟩
  refine foldl_keeps (P := fun (s : Found × Mem) => s.2.wcb = m.wcb) (fun s p hs => ?_) _ rfl
  split
  · exact foldl_keeps (P := fun (s : Found × Mem) => s.2.wcb = m.wcb)
      (fun s c hs => by simpa using hs) _ hs
  · exact hs

/-! ### Errors are only added -/

/-- A unit has written an error that is not drained: it stands in the FIFO, or its unit is stalled with it (17 R413). -/
def Errors.Has (e : Errors) (x : RawErr) : Prop := x ∈ e.fifo ∨ x ∈ e.stalled

theorem Errors.has_push_self (e : Errors) (x : RawErr) : (e.push x).Has x := by
  unfold Errors.push Errors.Has
  split <;> simp

theorem Errors.has_push {e : Errors} {x : RawErr} (h : e.Has x) (y : RawErr) : (e.push y).Has x := by
  unfold Errors.push Errors.Has at *
  split
  · exact h.imp_left (List.mem_append_left _)
  · exact h.imp_right (List.mem_append_left _)

theorem Channel.wroteErr_of_has {k : Channel} {x : RawErr} (h : k.err.Has x) :
    k.wroteErr x.unit x.uidx x.cause x.cls := ⟨x, h, rfl, rfl, rfl, rfl⟩

/-! ### What units do to a Reed while they load -/

/-- The counters of extra passes and mismatches are the same. Counting anything else clamps them to 32 bits, which a count in range does
not feel (03 R93). -/
structure ReedCnt.SameRetries (a b : ReedCnt) : Prop where
  recompOvf : a.recompOvf ≤ 0xFFFFFFFF → b.recompOvf = a.recompOvf
  recompUz : a.recompUz ≤ 0xFFFFFFFF → b.recompUz = a.recompUz
  chkMismatch : a.chkMismatch ≤ 0xFFFFFFFF → b.chkMismatch = a.chkMismatch

theorem ReedCnt.SameRetries.refl (a : ReedCnt) : a.SameRetries a := ⟨fun _ => rfl, fun _ => rfl, fun _ => rfl⟩

theorem ReedCnt.SameRetries.trans {a b c : ReedCnt} (h : a.SameRetries b) (h' : b.SameRetries c) : a.SameRetries c where
  recompOvf ha := (h'.recompOvf (h.recompOvf ha ▸ ha)).trans (h.recompOvf ha)
  recompUz ha := (h'.recompUz (h.recompUz ha ▸ ha)).trans (h.recompUz ha)
  chkMismatch ha := (h'.chkMismatch (h.chkMismatch ha ▸ ha)).trans (h.chkMismatch ha)

theorem ReedCnt.sameRetries_add (a : ReedCnt) {b : ReedCnt} (ho : b.recompOvf = 0) (hu : b.recompUz = 0) (hc : b.chkMismatch = 0) :
    a.SameRetries (a.add b) := by
  constructor <;> simp only [ReedCnt.add, sat32, ho, hu, hc] <;> omega

/-- Two channels between which work on the tile of Reed `r` has gone on: what a pass leaves alone (`passFrame`) and the Études' requests
are the same, and every error written is still there. The tile itself and the Reed's counts are left to the statement. -/
structure Channel.Works (r : ReedId) (k k' : Channel) : Prop where
  ports : k'.ports = k.ports
  score : k'.score = k.score
  mem : k.mem.SameData k'.mem
  others : ∀ q, q ≠ r → k'.reed q = k.reed q
  valve : (k'.reed r).valve = (k.reed r).valve
  slots : (k'.reed r).slots = (k.reed r).slots
  etude : k'.etude = k.etude
  errs : ∀ x, k.err.Has x → k'.err.Has x

namespace Channel.Works

variable {r : ReedId} {a b c k k' : Channel}

theorem refl (k : Channel) : k.Works r k := ⟨rfl, rfl, .refl _, fun _ _ => rfl, rfl, rfl, rfl, fun _ h => h⟩

theorem trans (h : a.Works r b) (h' : b.Works r c) : a.Works r c where
  ports := h'.ports.trans h.ports
  score := h'.score.trans h.score
  mem := h.mem.trans h'.mem
  others q hq := (h'.others q hq).trans (h.others q hq)
  valve := h'.valve.trans h.valve
  slots := h'.slots.trans h.slots
  etude := h'.etude.trans h.etude
  errs x hx := h'.errs x (h.errs x hx)

theorem passFrame (h : k.Works r k') : k.passFrame r k' :=
  ⟨h.ports, h.score, h.mem.dram, h.mem.wcb, h.mem.chest, h.others, h.valve, h.slots⟩

/-- A change of the Reed itself that keeps its Valve and its slots. -/
theorem modReed (k : Channel) (r : ReedId) {f : Reed → Reed} (hv : (f (k.reed r)).valve = (k.reed r).valve)
    (hs : (f (k.reed r)).slots = (k.reed r).slots) : k.Works r (k.modReed r f) where
  ports := rfl
  score := rfl
  mem := .refl _
  others _ hq := Channel.reed_modReed_ne k f hq
  valve := by simpa using hv
  slots := by simpa using hs
  etude := rfl
  errs _ h := h

theorem modTile (k : Channel) (r : ReedId) (f : TileRun → TileRun) : k.Works r (k.modTile r f) := modReed k r rfl rfl

end Channel.Works

/-- Loading for the tile of Reed `r`: work that leaves the tile as it is and is no extra pass. -/
structure Channel.Loads (r : ReedId) (k k' : Channel) : Prop where
  works : k.Works r k'
  tile : (k'.reed r).tile = (k.reed r).tile
  retries : (k.reed r).cnt.SameRetries (k'.reed r).cnt

namespace Channel.Loads

variable {r : ReedId} {a b c k k' : Channel}

theorem refl (k : Channel) : k.Loads r k := ⟨.refl k, rfl, .refl _⟩

theorem trans (h : a.Loads r b) (h' : b.Loads r c) : a.Loads r c :=
  ⟨h.works.trans h'.works, h'.tile.trans h.tile, h.retries.trans h'.retries⟩

/-- Changes of counts, of what the Tuner sees, of tokens and of actions in flight load nothing. -/
theorem of_fields (hk : k' = { k with mem := k'.mem, err := k'.err, tun := k'.tun, tokens := k'.tokens, flights := k'.flights })
    (hm : k.mem.SameData k'.mem) (he : ∀ x, k.err.Has x → k'.err.Has x) : k.Loads r k' := by
  have hr : ∀ q, k'.reed q = k.reed q := fun q => (congrArg (Channel.reed · q) hk :)
  refine ⟨⟨(congrArg Channel.ports hk :), (congrArg Channel.score hk :), hm, fun q _ => hr q, ?_, ?_, (congrArg Channel.etude hk :), he⟩,
    ?_, ?_⟩ <;> rw [hr r]
  exact .refl _

theorem modReed (k : Channel) (r : ReedId) {f : Reed → Reed} (hv : (f (k.reed r)).valve = (k.reed r).valve)
    (hs : (f (k.reed r)).slots = (k.reed r).slots) (ht : (f (k.reed r)).tile = (k.reed r).tile)
    (hc : (k.reed r).cnt.SameRetries (f (k.reed r)).cnt) : k.Loads r (k.modReed r f) :=
  ⟨.modReed k r hv hs, by simpa using ht, by simpa using hc⟩

/-- A fold whose every step loads, loads. -/
theorem foldl {α β : Type} {g : α → Channel} {f : α → β → α} (hf : ∀ x y, (g x).Loads r (g (f x y))) (l : List β) (x : α) :
    (g x).Loads r (g (l.foldl f x)) :=
  foldl_keeps (P := fun y => (g x).Loads r (g y)) (fun y z hy => hy.trans (hf y z)) l (.refl _)

end Channel.Loads

/-! ### Errors, reads and writes of a Reed's units -/

section
variable (k : Channel) (r : ReedId)

theorem Channel.raise_loads (x : RawErr) : k.Loads r (k.raise x) := .of_fields rfl (.refl _) fun _ h => Errors.has_push h x

theorem Channel.addrFault_loads (unit uidx addr : Nat) : k.Loads r (k.addrFault unit uidx addr) :=
  .of_fields rfl ⟨rfl, rfl, rfl⟩ fun _ h => Errors.has_push h _

theorem Channel.countCrc_loads (cls : Nat) : k.Loads r (k.countCrc cls) := .of_fields rfl ⟨rfl, rfl, rfl⟩ fun _ h => h

theorem Channel.frameErrors_loads : k.Loads r k.frameErrors := by
  have hits : k.Loads r { k with mem := { k.mem with hits := [] } } := .of_fields rfl ⟨rfl, rfl, rfl⟩ fun _ h => h
  exact hits.trans (.foldl (g := id) (fun k _ => k.raise_loads r _) k.mem.hits _)

theorem Channel.loadedMem_loads (space addr n : Nat) : k.Loads r { k with mem := (k.mem.load space addr n).2 } :=
  .of_fields rfl (k.mem.load_sameData space addr n) fun _ h => h

theorem Channel.readBytes_loads (q : ReedId) (unit uidx space addr n : Nat) : k.Loads r (k.readBytes unit uidx q space addr n).2 := by
  unfold Channel.readBytes
  split
  · split
    · exact .refl k
    · exact k.addrFault_loads r _ _ _
  · split
    · exact (k.loadedMem_loads r space addr n).trans (Channel.frameErrors_loads _ r)
    · exact k.addrFault_loads r _ _ _

theorem Channel.countParity_loads : k.Loads r (k.modReed r (fun y => { y with cnt := { y.cnt with parErr := sat32 y.cnt.parErr 1 } })) :=
  .modReed k r rfl rfl rfl ⟨fun _ => rfl, fun _ => rfl, fun _ => rfl⟩

theorem Channel.readError_loads (unit uidx : Nat) (done : List Redo) (x : Redo) (cause : Cause) (cls : ErrClass) (detail : Nat) :
    k.Loads r (k.readError unit uidx r done x cause cls detail).2 := by
  have count : k.Loads r (if cause = .parity ∧ 3 ≤ x.space then
      k.modReed r (fun y => { y with cnt := { y.cnt with parErr := sat32 y.cnt.parErr 1 } }) else k) := by
    split
    · exact k.countParity_loads r
    · exact .refl k
  unfold Channel.readError
  dsimp only
  split
  · exact count.trans (Channel.raise_loads _ r _)
  · exact count.trans (.of_fields rfl ⟨rfl, rfl, rfl⟩ fun _ h => Errors.has_push h _)

theorem Channel.readChord_loads (unit uidx : Nat) (t : TensorDesc) (i : Nat) (done : List Redo) :
    k.Loads r (k.readChord unit uidx r t i done).2 := by
  have read := k.readBytes_loads r r unit uidx t.space (Score.chordAddr t i) (Score.chordSize t)
  have crc : ∀ (k : Channel) (p : Prop) [Decidable p] cls, k.Loads r (if p then k.countCrc cls else k) := fun k p _ cls => by
    split
    · exact k.countCrc_loads r cls
    · exact .refl k
  unfold Channel.readChord
  dsimp only
  split
  · exact read
  · split
    · exact read
    · exact (read.trans (crc _ _ _)).trans (Channel.readError_loads _ r _ _ _ _ _ _ _)

theorem Channel.writeSram_loads (unit uidx e addr : Nat) (bs : List Byte) : k.Loads r (k.writeBytes unit uidx r e 3 addr bs) := by
  unfold Channel.writeBytes
  dsimp only
  split
  · exact .refl k
  · rw [if_neg (by decide), if_pos rfl]
    split
    · exact .modReed k r rfl rfl rfl (.refl _)
    · exact k.addrFault_loads r _ _ _

theorem Channel.countAt_loads (layer prod : Nat) (c : ReedCnt) : k.Loads r (k.countAt layer prod c) :=
  .of_fields rfl (.refl _) fun _ h => h

theorem Channel.quantAt_loads (layer place : Nat) (c : QGrid.Counts) : k.Loads r (k.quantAt layer place c) :=
  .of_fields rfl (.refl _) fun _ h => h

theorem Channel.countQuant_loads (layer place : Nat) (c : QGrid.Counts) : k.Loads r (k.countQuant r layer place c) :=
  (Channel.Loads.modReed k r rfl rfl rfl (.refl _)).trans (Channel.quantAt_loads _ r _ _ _)

/-- Counting what is no extra pass. -/
theorem Channel.countTile_loads (t : TileRun) {c : ReedCnt} (ho : c.recompOvf = 0) (hu : c.recompUz = 0) (hc : c.chkMismatch = 0) :
    k.Loads r (k.countTile r t c) :=
  (Channel.Loads.modReed k r rfl rfl rfl (ReedCnt.sameRetries_add _ ho hu hc)).trans (Channel.countAt_loads _ r _ _ _)

theorem Channel.tagToken_loads (t : Option Nat) (h : HoldCause) : k.Loads r (k.tagToken t h) := by
  cases t with
  | none => exact .refl k
  | some n => exact .of_fields rfl (.refl _) fun _ h => h

theorem Channel.tagEntry_loads (entry : Nat) (h : HoldCause) : k.Loads r (k.tagEntry entry h) := by
  unfold Channel.tagEntry
  split
  · exact .refl k
  · split
    · exact .refl k
    · refine Channel.Loads.trans ?_ (Channel.tagToken_loads _ r _ h)
      exact .of_fields rfl (.refl _) fun _ h => h

theorem Channel.tagTile_loads (h : HoldCause) : k.Loads r (k.tagTile r h) := by
  unfold Channel.tagTile
  split
  · exact k.tagEntry_loads r _ h
  · exact .refl k

end

end Sys2Proof.Machine
end

section
/-! SUPPORT. Loading the operands of a tile leaves the tile as it is (03 R65, R71, R88; 08 R201). -/

namespace Sys2Proof.Machine

open Sys2Proof Sys2Proof.Num

/-- Of two ways to go on, each loads. -/
theorem Channel.Loads.ite {α : Type} {r : ReedId} {k : Channel} (g : α → Channel) {p : Prop} [Decidable p] {a b : α}
    (ha : k.Loads r (g a)) (hb : k.Loads r (g b)) : k.Loads r (g (if p then a else b)) := by
  split <;> assumption

section
variable (k : Channel) (r : ReedId)

theorem Channel.shareChords_loads (t : TensorDesc) (n : Nat) (done : List Redo) : k.Loads r (k.shareChords r t n done).2.2.2 := by
  let chan : List ChordRead × Bool × List Redo × Channel → Channel := fun a => a.2.2.2
  unfold Channel.shareChords
  refine .ite chan (k.addrFault_loads r _ _ _) (.foldl (g := chan) (fun a i => ?_) _ ([], false, [], k))
  exact .ite chan (.refl _) (Channel.readChord_loads _ r _ _ _ _ _)

theorem Channel.tableOutliers_loads (o : OpndDesc) (kLen : Nat) (want : Option Nat) (done : List Redo) (lines : List (List Tile.Elem)) :
    k.Loads r (k.tableOutliers r o kLen want done lines).2.2.2.2.2 := by
  unfold Channel.tableOutliers
  split
  · exact .refl k
  · next at_ _ =>
    refine .foldl (g := fun (a : List (List Tile.Elem) × Nat × Bool × Bool × List Redo × Channel) => a.2.2.2.2.2) (fun a i => ?_) _
      (lines, 0, false, false, [], k)
    have read := Channel.readBytes_loads a.2.2.2.2.2 r r 0 r.val 3 (at_ + Chord.outTableSize * i) Chord.outTableSize
    dsimp only
    split <;> dsimp only
    · exact read
    · exact read.trans (Channel.readError_loads _ r _ _ _ _ _ _ _)
    · exact read
    · exact read
    · exact read.trans ((Channel.countCrc_loads _ r 0).trans (Channel.readError_loads _ r _ _ _ _ _ _ _))

theorem Channel.loadStored_loads (t : TileRun) (o : OpndDesc) (isB : Bool) (want : Option Nat) :
    k.Loads r (k.loadStored r t o isB want).2 := by
  unfold Channel.loadStored
  have share := k.shareChords_loads r
  refine .ite Prod.snd (share _ _ _) ?_
  exact .ite (fun (a : List (List Tile.Elem) × Nat × Bool × Bool × List Redo × Channel) => a.2.2.2.2.2)
    ((share _ _ _).trans (Channel.tableOutliers_loads _ r _ _ _ _ _)) (share _ _ _)

theorem Channel.window_loads (unit uidx : Nat) (done : List Redo) (ts : XNum) (ix : Nat) (want : Option Nat) (r0 c0 nr nc : Nat) :
    k.Loads r (k.window unit uidx r done ts ix want r0 c0 nr nc).2 := by
  let chan : List (Option (List XNum)) × Window × Channel → Channel := fun a => a.2.2
  unfold Channel.window
  refine .foldl (g := chan) (fun a p => ?_) _ ([], {}, k)
  have read := fun t n => Channel.readChord_loads a.2.2 r unit uidx t n done
  exact .ite chan (.refl _) (.ite chan (.ite chan (read _ _) (read _ _)) (.refl _))

theorem Channel.loadWide_loads (t : TileRun) (o : OpndDesc) (isB : Bool) (wide : Nat × Option Nat) (rung : Nat) :
    k.Loads r (k.loadWide r t o isB wide rung).2 := by
  have window := k.window_loads r 0 r.val t.redone (scaleIn t.scales wide.1) wide.1 wide.2
  have read : ∀ {p : Prop} [Decidable p] {a b c d a' b' c' d'}, k.Loads r
      (if p then k.window 0 r.val r t.redone (scaleIn t.scales wide.1) wide.1 wide.2 a b c d
        else k.window 0 r.val r t.redone (scaleIn t.scales wide.1) wide.1 wide.2 a' b' c' d').2 :=
    .ite Prod.snd (window _ _ _ _) (window _ _ _ _)
  unfold Channel.loadWide
  refine .ite Prod.snd read (.ite Prod.snd read (read.trans (Channel.writeSram_loads _ r _ _ _ _ _)))

theorem Channel.loadOperand_loads {t : TileRun} {o : OpndDesc} {isB climb : Bool} {x : Loaded × Channel}
    (h : k.loadOperand r t o isB climb = some x) : k.Loads r x.2 := by
  unfold Channel.loadOperand at h
  split at h
  · cases h
  · split at h
    · cases h
      exact k.loadStored_loads r _ _ _ _
    · split at h
      · cases h
      · cases h
        exact k.loadWide_loads r _ _ _ _ _
end

end Sys2Proof.Machine
end

section
/-! SUPPORT. What a pass and an extra pass do to their tile (03 R72 to R89). -/

namespace Sys2Proof.Machine

open Sys2Proof Sys2Proof.Num

@[simp] theorem Channel.tile_modTile (k : Channel) (r : ReedId) (f : TileRun → TileRun) :
    ((k.modTile r f).reed r).tile = (k.reed r).tile.map f := by simp [Channel.modTile]

@[simp] theorem Channel.cnt_modTile (k : Channel) (r : ReedId) (f : TileRun → TileRun) :
    ((k.modTile r f).reed r).cnt = (k.reed r).cnt := by simp [Channel.modTile]

/-- What a pass does to its tile: it leaves its result, what it has met, and where the tile stands. A tile is sent to a version reload
only when it has not made one (03 R88). -/
structure TileRun.Passed (t t' : TileRun) : Prop where
  eq : t' = { t with cur := t'.cur, phase := t'.phase, redo := t'.redo, inv := t'.inv, psnIn := t'.psnIn, fmtFault := t'.fmtFault
                     obOvf := t'.obOvf, obA := t'.obA, obB := t'.obB, crook := t'.crook }
  phase : t'.phase = .versionReload → t.phase = .versionReload ∨ t.versionRetry = 0

namespace TileRun.Passed

variable {t u v : TileRun}

theorem refl (t : TileRun) : t.Passed t := ⟨rfl, .inl⟩

theorem versionRetry (h : t.Passed u) : u.versionRetry = t.versionRetry := (congrArg TileRun.versionRetry h.eq :)

theorem trans (h : t.Passed u) (h' : u.Passed v) : t.Passed v where
  eq := h'.eq.trans (by rw [h.eq])
  phase hv := (h'.phase hv).elim h.phase fun h0 => .inr (h.versionRetry ▸ h0)

end TileRun.Passed

/-- Work of a pass on the tile of Reed `r`. -/
structure Channel.Passes (r : ReedId) (k k' : Channel) : Prop where
  works : k.Works r k'
  tile : ∀ t, (k.reed r).tile = some t → ∃ t', (k'.reed r).tile = some t' ∧ t.Passed t'
  retries : (k.reed r).cnt.SameRetries (k'.reed r).cnt

namespace Channel.Passes

variable {r : ReedId} {a b c k k' : Channel}

theorem trans (h : a.Passes r b) (h' : b.Passes r c) : a.Passes r c where
  works := h.works.trans h'.works
  tile t ht := by
    obtain ⟨u, hu, htu⟩ := h.tile t ht
    obtain ⟨v, hv, huv⟩ := h'.tile u hu
    exact ⟨v, hv, htu.trans huv⟩
  retries := h.retries.trans h'.retries

theorem of_loads (h : k.Loads r k') : k.Passes r k' := ⟨h.works, fun t ht => ⟨t, h.tile.trans ht, .refl t⟩, h.retries⟩

theorem refl (k : Channel) : k.Passes r k := of_loads (.refl k)

theorem modTile (k : Channel) (r : ReedId) {f : TileRun → TileRun} (hf : ∀ t, (k.reed r).tile = some t → t.Passed (f t)) :
    k.Passes r (k.modTile r f) :=
  ⟨.modTile k r f, fun t ht => ⟨f t, by simp [ht], hf t ht⟩, by simpa using .refl _⟩

/-- Of two ways to go on, each passes. -/
theorem ite {p : Prop} [Decidable p] {x y : Channel} (hx : k.Passes r x) (hy : k.Passes r y) : k.Passes r (if p then x else y) := by
  split <;> assumption

end Channel.Passes

section
variable (k : Channel) (r : ReedId)

theorem Channel.failed_passes : k.Passes r (k.modTile r (fun t => { t with phase := .failed })) :=
  .modTile k r fun _ _ => ⟨rfl, nofun⟩

theorem Channel.failTile_passes (e : RawErr) : k.Passes r (k.failTile r e) :=
  (Channel.Passes.of_loads (k.raise_loads r _)).trans (Channel.failed_passes _ r)

theorem Channel.redoStop_passes (t : TileRun) (l : List Redo) : k.Passes r (k.redoStop r t l) :=
  (Channel.Passes.of_loads ((k.countAt_loads r _ _ _).trans (Channel.tagTile_loads _ r _))).trans
    (.modTile _ r fun _ _ => ⟨rfl, nofun⟩)

theorem Channel.versionStop_passes {t : TileRun} (ht : ∀ u, (k.reed r).tile = some u → u.versionRetry = t.versionRetry) :
    k.Passes r (k.versionStop r t) := by
  unfold Channel.versionStop
  split
  · exact k.failTile_passes r _
  · split
    · exact k.failTile_passes r _
    · next h0 =>
      have tag := (k.raise_loads r { cause := .versionReload, cls := .D, unit := 0, uidx := r.val, detail := anyDetail }).trans
        (Channel.tagTile_loads _ r .versionWait)
      exact (Channel.Passes.of_loads tag).trans
        (.modTile _ r fun u hu => ⟨rfl, fun _ => .inr ((ht u (tag.tile ▸ hu)).trans (not_not.mp h0))⟩)

theorem Channel.bookPass_passes (t : TileRun) (kept : Kept) (la lb : Loaded) (fresh : Bool) :
    k.Passes r (k.bookPass r t kept la lb fresh) := by
  unfold Channel.bookPass
  extract_lets ob faults kept₁ counted
  have keep : k.Passes r kept₁ := .modTile k r fun _ _ => ⟨rfl, nofun⟩
  have count : kept₁.Loads r counted := Channel.countTile_loads _ r t rfl rfl rfl
  refine keep.trans (.of_loads (count.trans (.ite id ?_ (.refl _))))
  exact ((Channel.countQuant_loads _ r _ _ _).trans (Channel.countQuant_loads _ r _ _ _)).trans
    (.of_fields rfl (.refl _) fun _ h => h)

/-- The outlier table that a weight-copy tile leaves beside its copy. -/
theorem Channel.writeTable_loads (e : Nat) (at_ : Option Nat) (rung : Nat) (bs : List Byte) :
    k.Loads r (match at_ with | some a => if rung < 3 then k.writeBytes 0 r.val r e 3 a bs else k | none => k) := by
  split
  · exact .ite id (k.writeSram_loads r _ _ _ _ _) (.refl k)
  · exact .refl k

theorem Channel.copyPass_passes {t : TileRun} (ht : ∀ u, (k.reed r).tile = some u → u.versionRetry = t.versionRetry) :
    k.Passes r (k.copyPass r t) := by
  unfold Channel.copyPass
  extract_lets +onlyGivenNames d
  split
  · exact k.failTile_passes r _
  · next ix want _ =>
    extract_lets +onlyGivenNames m lr len mts
    have window := k.window_loads r 0 r.val t.redone mts ix want
    have read := Channel.Loads.ite (p := lr = true) Prod.snd (window d.m0 0 128 len) (window 0 d.n0 len 128)
    generalize (if lr = true then k.window 0 r.val r t.redone mts ix want d.m0 0 128 len
      else k.window 0 r.val r t.redone mts ix want 0 d.n0 len 128) = x at read ⊢
    obtain ⟨w, k₁⟩ := x
    refine .trans (.of_loads read) (.ite (k₁.failed_passes r) (.ite (k₁.redoStop_passes r _ _) (.ite (k₁.versionStop_passes r ?_) ?_)))
    · exact fun u hu => ht u (read.tile ▸ hu)
    · extract_lets +onlyGivenNames vals pads li
      obtain ⟨lines, pads, saturated⟩ := throughCrook t 0 vals pads
      dsimp -zeta only
      extract_lets rung f q eff s fault sections tabled copied counted
      have table : k₁.Loads r tabled := k₁.writeTable_loads r _ _ _ _
      have copy : tabled.Passes r copied := .modTile _ r fun _ _ => ⟨rfl, nofun⟩
      have count : copied.Loads r counted := Channel.countTile_loads _ r t rfl rfl rfl
      exact (Channel.Passes.of_loads table).trans (copy.trans (.of_loads (count.trans (Channel.countQuant_loads _ r _ _ _))))

end

section
variable (k : Channel) (r : ReedId)

/-- A tile whose pass starts. -/
def TileRun.started (t : TileRun) : TileRun := { t with phase := .running, redo := [] }

/-- A pass starts the tile, and goes on from there. -/
theorem Channel.tilePass_of_started {t : TileRun} (ht : (k.reed r).tile = some t) :
    (k.modTile r TileRun.started).Passes r (k.tilePass r) := by
  have fresh : ∀ {k₁ : Channel}, (k.modTile r TileRun.started).Loads r k₁ →
      ∀ u, (k₁.reed r).tile = some u → u.versionRetry = t.versionRetry := by
    intro k₁ h u hu
    obtain rfl : t.started = u := by simpa [ht] using h.tile.symm.trans hu
    rfl
  unfold Channel.tilePass
  rw [ht]
  refine .ite (Channel.copyPass_passes _ r (fresh (.refl _))) ?_
  extract_lets bad
  have fail : (k.modTile r TileRun.started).Passes r bad := Channel.failTile_passes _ r _
  split
  · exact fail
  · next la k₁ hA =>
    have readA : (k.modTile r TileRun.started).Loads r k₁ := Channel.loadOperand_loads _ r hA
    split
    · exact fail
    · next lb k₂ hB =>
      have read : (k.modTile r TileRun.started).Loads r k₂ := readA.trans (k₁.loadOperand_loads r hB)
      exact (Channel.Passes.of_loads read).trans (.ite (k₂.failed_passes r) (.ite (k₂.redoStop_passes r _ _)
        (.ite (k₂.versionStop_passes r (fresh read)) (k₂.bookPass_passes r _ _ _ _ _))))

theorem Channel.tilePass_passes : k.Passes r (k.tilePass r) := by
  rcases ht : (k.reed r).tile with _ | t
  · rw [Channel.tilePass, ht]
    exact .refl k
  · exact .trans (.modTile k r (f := TileRun.started) fun _ _ => ⟨rfl, nofun⟩) (k.tilePass_of_started r ht)

/-- A pass made after a version reload asks for no other (03 R88). -/
theorem Channel.phase_tilePass_of_versionRetry {t t' : TileRun} (ht : (k.reed r).tile = some t) (hv : t.versionRetry ≠ 0)
    (ht' : ((k.tilePass r).reed r).tile = some t') : t'.phase ≠ .versionReload := by
  obtain ⟨u, hu, hp⟩ := (k.tilePass_of_started r ht).tile t.started (by simp [ht])
  obtain rfl : t' = u := by simpa [ht'] using hu
  exact fun h => (hp.phase h).elim nofun hv

/-! ### Extra passes -/

theorem Channel.extraPass_works (h : HoldCause) (f : TileRun → TileRun) : k.Works r (k.extraPass r h f) :=
  (Channel.Works.modTile k r _).trans ((Channel.tagTile_loads _ r h).works.trans (Channel.tilePass_passes _ r).works)

theorem Channel.extraPass_retries (h : HoldCause) (f : TileRun → TileRun) :
    (k.reed r).cnt.SameRetries ((k.extraPass r h f).reed r).cnt := by
  have start := (Channel.tagTile_loads (k.modTile r (fun t => { f t with passes := t.passes + 1 })) r h).retries
  rw [Channel.cnt_modTile] at start
  exact start.trans (Channel.tilePass_passes _ r).retries

/-- An extra pass goes on from the tile as its cause leaves it, with one more pass. -/
theorem Channel.tile_extraPass (h : HoldCause) (f : TileRun → TileRun) {t : TileRun} (ht : (k.reed r).tile = some t) :
    ∃ t', ((k.extraPass r h f).reed r).tile = some t' ∧ ({ f t with passes := t.passes + 1 } : TileRun).Passed t' :=
  ((Channel.Passes.of_loads (Channel.tagTile_loads _ r h)).trans (Channel.tilePass_passes _ r)).tile _ (by simp [ht])

theorem Channel.countTile_works (t : TileRun) (c : ReedCnt) : k.Works r (k.countTile r t c) :=
  (Channel.Works.modReed k r rfl rfl).trans (Channel.countAt_loads _ r _ _ _).works

@[simp] theorem Channel.reed_countTile (t : TileRun) (c : ReedCnt) :
    (k.countTile r t c).reed r = { k.reed r with cnt := (k.reed r).cnt.add c } :=
  Channel.reed_modReed_self k r (fun x => { x with cnt := x.cnt.add c })

end

namespace TileRun.Passed

variable {t u t' : TileRun}

/-- A tile that has passed after a change that keeps what the tile is makes the pass again. -/
theorem again (h : u.Passed t') (hd : u.desc = t.desc) (he : u.entry = t.entry) (hs : u.set = t.set) (hp : u.p = t.p)
    (hl : u.layer = t.layer) (hn : u.passes = t.passes + 1) : t.again t' :=
  ⟨(congrArg TileRun.desc h.eq :).trans hd, (congrArg TileRun.entry h.eq :).trans he, (congrArg TileRun.set h.eq :).trans hs,
    (congrArg TileRun.p h.eq :).trans hp, (congrArg TileRun.layer h.eq :).trans hl, (congrArg TileRun.passes h.eq :).trans hn⟩

theorem ps (h : u.Passed t') : t'.ps = u.ps := (congrArg TileRun.ps h.eq :)
theorem kind (h : u.Passed t') : t'.kind = u.kind := (congrArg TileRun.kind h.eq :)
theorem ovfRc (h : u.Passed t') : t'.ovfRc = u.ovfRc := (congrArg TileRun.ovfRc h.eq :)
theorem chkRc (h : u.Passed t') : t'.chkRc = u.chkRc := (congrArg TileRun.chkRc h.eq :)
theorem suspect (h : u.Passed t') : t'.suspect = u.suspect := (congrArg TileRun.suspect h.eq :)
theorem uzDone (h : u.Passed t') : t'.uzDone = u.uzDone := (congrArg TileRun.uzDone h.eq :)
theorem firstPass (h : u.Passed t') : t'.firstPass = u.firstPass := (congrArg TileRun.firstPass h.eq :)
theorem redone (h : u.Passed t') : t'.redone = u.redone := (congrArg TileRun.redone h.eq :)
theorem parRecovered (h : u.Passed t') : t'.parRecovered = u.parRecovered := (congrArg TileRun.parRecovered h.eq :)

end TileRun.Passed

namespace Channel.passFrame

variable {r : ReedId} {a b c k k' : Channel}

theorem trans (h : a.passFrame r b) (h' : b.passFrame r c) : a.passFrame r c := by
  obtain ⟨h1, h2, h3, h4, h5, h6, h7, h8⟩ := h
  obtain ⟨g1, g2, g3, g4, g5, g6, g7, g8⟩ := h'
  exact ⟨g1.trans h1, g2.trans h2, g3.trans h3, g4.trans h4, g5.trans h5, fun q hq => (g6 q hq).trans (h6 q hq), g7.trans h7, g8.trans h8⟩

theorem of_fields (hk : k' = { k with err := k'.err, etude := k'.etude }) : k.passFrame r k' := by
  rw [hk]
  exact ⟨rfl, rfl, rfl, rfl, rfl, fun _ _ => rfl, rfl, rfl⟩

end Channel.passFrame

/-! ### The tile of a Reed in a phase -/

theorem Channel.tileIn_eq_some {k : Channel} {r : ReedId} {t : TileRun} {ph : TilePhase} (ht : (k.reed r).tile = some t)
    (hp : t.phase = ph) : k.tileIn r ph = some t := by
  rw [Channel.tileIn, ht]
  exact if_pos hp

theorem State.modChan_eq_self {s : State} {c : ChanId} {f : Channel → Channel} (h : f (s.chan c) = s.chan c) : s.modChan c f = s := by
  rw [State.modChan, h, State.setChan, State.chan, Vector.get_eq_getElem, Vector.set_getElem_self]

theorem State.onlyChan_setChan (s : State) (c : ChanId) (k : Channel) : s.onlyChan c (s.setChan c k) :=
  ⟨rfl, fun _ hd => State.chan_setChan_ne s k hd⟩

end Sys2Proof.Machine
end

section
/-! SUPPORT. A recovery of data leaves ports, score and tile alone (03 R86; 08 R213; 09 R238, R251). -/

namespace Sys2Proof.Machine

open Sys2Proof Sys2Proof.Num

/-- Between two channels data has been recovered for Reed `r`: ports, score and the Reed's tile are the same. -/
structure Channel.Recovers (r : ReedId) (k k' : Channel) : Prop where
  ports : k'.ports = k.ports
  score : k'.score = k.score
  tile : (k'.reed r).tile = (k.reed r).tile

namespace Channel.Recovers

variable {r : ReedId} {a b c k k' : Channel}

theorem refl (k : Channel) : k.Recovers r k := ⟨rfl, rfl, rfl⟩

theorem trans (h : a.Recovers r b) (h' : b.Recovers r c) : a.Recovers r c :=
  ⟨h'.ports.trans h.ports, h'.score.trans h.score, h'.tile.trans h.tile⟩

theorem of_loads (h : k.Loads r k') : k.Recovers r k' := ⟨h.works.ports, h.works.score, h.tile⟩

theorem modReed (k : Channel) (r : ReedId) {f : Reed → Reed} (ht : (f (k.reed r)).tile = (k.reed r).tile) : k.Recovers r (k.modReed r f) :=
  ⟨rfl, rfl, by simpa using ht⟩

/-- Of two ways to go on, each recovers. -/
theorem ite {p : Prop} [Decidable p] {x y : Channel} (hx : k.Recovers r x) (hy : k.Recovers r y) : k.Recovers r (if p then x else y) := by
  split <;> assumption

end Channel.Recovers

section
variable (k : Channel) (r : ReedId)

theorem Channel.writeBytes_recovers (unit uidx e space addr : Nat) (bs : List Byte) :
    k.Recovers r (k.writeBytes unit uidx r e space addr bs) := by
  have fault : k.Recovers r (k.addrFault unit uidx addr) := .of_loads (k.addrFault_loads r _ _ _)
  unfold Channel.writeBytes
  dsimp only
  split
  · exact .refl k
  · split
    · split
      · exact ⟨rfl, rfl, rfl⟩
      · exact fault
    · split
      · split
        · exact .modReed k r rfl
        · exact fault
      · split
        · exact .trans (b := { k with mem := k.mem.store space addr bs }) ⟨rfl, rfl, rfl⟩ (.of_loads (Channel.frameErrors_loads _ r))
        · exact fault

theorem Channel.healParity_recovers (space addr n : Nat) : k.Recovers r (k.healParity r space addr n) := by
  unfold Channel.healParity
  split
  · exact ⟨rfl, rfl, rfl⟩
  · exact .modReed k r rfl

variable {k r} in
theorem Channel.recomputeSlot_recovers {k' : Channel} {entry : Nat} (h : k.recomputeSlot r entry = some k') : k.Recovers r k' := by
  unfold Channel.recomputeSlot at h
  split at h
  · cases h
  · dsimp only at h
    split at h
    · cases h
    · split at h
      · cases h
      · cases h
        exact .modReed k r rfl

/-- Bytes produced again are put back. -/
theorem Channel.putBack_recovers (x : Redo) (e : Nat) (bs : List Byte) :
    k.Recovers r ((k.writeBytes 0 r.val r e x.space x.addr bs).healParity r x.space x.addr x.len) :=
  (k.writeBytes_recovers r _ _ _ _ _ _).trans (Channel.healParity_recovers _ r _ _ _)

variable {k r} in
theorem Channel.recover_recovers {k' : Channel} {x : Redo} (h : k.recover r x = some k') : k.Recovers r k' := by
  have put : ∀ {e : Nat} {o : Option (List Byte)},
      o.map (fun bs => (k.writeBytes 0 r.val r e x.space x.addr bs).healParity r x.space x.addr x.len) = some k' → k.Recovers r k' := by
    intro e o h
    obtain ⟨bs, -, rfl⟩ := Option.map_eq_some_iff.mp h
    exact k.putBack_recovers r x e bs
  unfold Channel.recover at h
  dsimp only at h
  split at h
  · split at h
    · cases h
    · split at h
      · split at h
        · exact put h
        · cases h
          exact k.healParity_recovers r _ _ _
      · obtain ⟨e, -, h⟩ := Option.bind_eq_some_iff.mp h
        exact put h
  · split at h
    · split at h
      · cases h
      · exact put h
    · split at h
      · exact Channel.recomputeSlot_recovers h
      · cases h
        exact ⟨rfl, rfl, rfl⟩

theorem Channel.readNow_recovers (unit uidx : Nat) (t : TensorDesc) (i : Nat) : k.Recovers r (k.readNow unit uidx r t i).2.2 := by
  have read := fun (k : Channel) done => Channel.Recovers.of_loads (k.readChord_loads r unit uidx t i done)
  unfold Channel.readNow
  refine .trans (read k []) ?_
  obtain ⟨x, k₁⟩ := k.readChord unit uidx r t i []
  dsimp only
  split
  · exact .refl k₁
  · next y _ =>
    split
    · exact .of_loads (k₁.raise_loads r _)
    · next k₂ h =>
      refine (Channel.recover_recovers h).trans ((read k₂ [y]).trans ?_)
      split
      · exact .refl _
      · exact ⟨rfl, rfl, rfl⟩

theorem Channel.reloadOperand_recovers (t : TileRun) (o : OpndDesc) (isB : Bool) : k.Recovers r (k.reloadOperand r t o isB) := by
  unfold Channel.reloadOperand
  split
  · refine foldl_keeps (P := fun k' => k.Recovers r k') (fun k' n h => h.trans ?_) _ (.refl k)
    have read := k'.readNow_recovers r 0 r.val
    exact .ite (read _ _) ((read _ _).trans (Channel.writeBytes_recovers _ r _ _ _ _ _ _))
  · exact .refl k

end

end Sys2Proof.Machine
end

section
/-! SUPPORT. Extra passes of a tile: overflow retries, underflow passes, checksum recomputes and reloads (03 R73, R74, R79, R84 to R88). -/

namespace Sys2Proof.Tile

theorem length_raiseSlabs (ps : List Int) (slabs : List Nat) (d : Int) : (raiseSlabs ps slabs d).length = ps.length := by
  simp [raiseSlabs]

theorem getD_raiseSlabs (ps : List Int) (slabs : List Nat) (d : Int) {i : Nat} (hi : i < ps.length) :
    (raiseSlabs ps slabs d).getD i 0 = ps.getD i 0 + (if i ∈ slabs then d else 0) := by
  by_cases h : i ∈ slabs <;> simp [raiseSlabs, List.getD_eq_getElem?_getD, hi, h]

end Sys2Proof.Tile

namespace Sys2Proof.Machine

open Sys2Proof

/-! ### Overflow retries and underflow passes -/

theorem TileRun.retrySlabs_eq_some {t : TileRun} {g : Nat} {slabs : List Nat} (hr : t.set.strict = false ∧ t.kind ≠ .underflow ∧
    t.ovfRc < t.set.retries ∧ t.desc.prod ≠ 3) (ho : t.cur.pass.ovf = some (g, slabs)) : t.retrySlabs = some slabs := by
  obtain ⟨hs, hk, hn, hp⟩ := hr
  simp [TileRun.retrySlabs, hs, hk, hp, ho, hn]

theorem TileRun.retrySlabs_eq_none {t : TileRun} (h : ¬ (t.set.strict = false ∧ t.kind ≠ .underflow ∧
    t.ovfRc < t.set.retries ∧ t.desc.prod ≠ 3) ∨ t.cur.pass.ovf = none) : t.retrySlabs = none := by
  unfold TileRun.retrySlabs
  split
  · rfl
  · next hr =>
    rcases h with h | h
    · simp only [not_or, Bool.not_eq_true, not_le] at hr
      exact absurd hr h
    · rw [h]
      rfl

/-- The tile as an overflow retry starts it (03 R73). -/
def TileRun.raised (slabs : List Nat) (t : TileRun) : TileRun :=
  { t with ps := Tile.raiseSlabs t.ps slabs 4, ovfRc := t.ovfRc + 1, kind := .overflow }

/-- The tile as its underflow pass starts it, after the pass `first` (03 R74). -/
def TileRun.lowered (first : TileRun) (t : TileRun) : TileRun :=
  { t with firstPass := some first.cur, ps := Tile.raiseSlabs first.ps first.cur.out.uzSlabs (-4), uzDone := true, kind := .underflow }

section
variable {s : State} {c : ChanId} {r : ReedId} {t : TileRun}

theorem exec_overflowRetry : exec (.overflowRetry c r) s = execOverflowRetry c r s := rfl
theorem exec_underflowPass : exec (.underflowPass c r) s = execUnderflowPass c r s := rfl
theorem exec_checksumMismatch : exec (.checksumMismatch c r) s = execChecksumMismatch c r s := rfl
theorem exec_versionReloadDone : exec (.versionReloadDone c r) s = execVersionReloadDone c r s := rfl
theorem exec_chordReloadDone {us : List Upset} : exec (.chordReloadDone c r us) s = execChordReloadDone c r us s := rfl

theorem exec_overflowRetry_of_retrySlabs {slabs : List Nat} (ht : (s.chan c).tileIn r .running = some t)
    (h : t.retrySlabs = some slabs) : exec (.overflowRetry c r) s =
      .next (s.setChan c (((s.chan c).countTile r t { recompOvf := 1 }).extraPass r .tileRecomp (TileRun.raised slabs))) := by
  simp only [exec_overflowRetry, execOverflowRetry, State.modChan, ht, h]
  rfl

theorem exec_overflowRetry_eq_self (h : ∀ t, (s.chan c).tileIn r .running = some t → t.retrySlabs = none) :
    exec (.overflowRetry c r) s = .next s := by
  refine congrArg _ (State.modChan_eq_self ?_)
  split
  · rfl
  · next t ht => rw [h t ht]

theorem exec_underflowPass_of_slotWait (ht : (s.chan c).tileIn r .slotWait = some t) (hs : ((s.chan c).reed r).slots = [])
    (hw : ((s.chan c).reed r).waiting = none) : exec (.underflowPass c r) s =
      .next (s.setChan c (((s.chan c).countTile r t { recompUz := 1 }).extraPass r .tileRecomp (TileRun.lowered t))) := by
  simp only [exec_underflowPass, execUnderflowPass, State.modChan, ht, hs, hw]
  rfl

theorem exec_underflowPass_eq_self (h : (s.chan c).tileIn r .slotWait = none ∨ ((s.chan c).reed r).slots ≠ []
    ∨ ((s.chan c).reed r).waiting ≠ none) : exec (.underflowPass c r) s = .next s := by
  refine congrArg _ (State.modChan_eq_self ?_)
  split
  · rfl
  · next t ht =>
    refine if_pos ?_
    rcases h with h | h | h
    · rw [h] at ht
      cases ht
    · simp [h]
    · simp [Option.isSome_iff_ne_none, h]

/-- A saturating count stays within its 32 bits. -/
theorem sat32_le (n k : Nat) : sat32 n k ≤ 0xFFFFFFFF := Nat.min_le_right _ _

/-- An extra pass that is counted: what it leaves alone, its tile, and its counts. -/
theorem Channel.countedPass {k : Channel} (ht : (k.reed r).tile = some t) (n : ReedCnt) (h : HoldCause) (f : TileRun → TileRun) :
    let k' := (k.countTile r t n).extraPass r h f
    k.passFrame r k' ∧ ((k.reed r).cnt.add n).SameRetries (k'.reed r).cnt
      ∧ ∃ t', (k'.reed r).tile = some t' ∧ ({ f t with passes := t.passes + 1 } : TileRun).Passed t' := by
  have counted := k.reed_countTile r t n
  refine ⟨((k.countTile_works r t n).trans (Channel.extraPass_works _ r h f)).passFrame, ?_,
    Channel.tile_extraPass _ r h f ((congrArg Reed.tile counted).trans ht)⟩
  simpa [counted] using Channel.extraPass_retries (k.countTile r t n) r h f

theorem overflowRetry_recomputes {slabs : List Nat} (ht : ((s.chan c).reed r).tile = some t) (hp : t.phase = .running)
    (hr : t.retrySlabs = some slabs) :
    ∃ u t', exec (.overflowRetry c r) s = .next u ∧ s.onlyChan c u ∧ (s.chan c).passFrame r (u.chan c)
      ∧ ((u.chan c).reed r).tile = some t' ∧ t.again t' ∧ t'.ovfRc = t.ovfRc + 1 ∧ t'.kind = .overflow
      ∧ t'.ps = Tile.raiseSlabs t.ps slabs 4
      ∧ ((u.chan c).reed r).cnt.recompOvf = sat32 ((s.chan c).reed r).cnt.recompOvf 1 := by
  obtain ⟨frame, count, t', ht', pass⟩ := Channel.countedPass ht { recompOvf := 1 } .tileRecomp (TileRun.raised slabs)
  refine ⟨_, t', exec_overflowRetry_of_retrySlabs (Channel.tileIn_eq_some ht hp) hr, s.onlyChan_setChan c _, ?_⟩
  rw [State.chan_setChan_self]
  exact ⟨frame, ht', pass.again rfl rfl rfl rfl rfl rfl, pass.ovfRc, pass.kind, pass.ps, count.recompOvf (sat32_le _ _)⟩

theorem underflowPass_recomputes (ht : ((s.chan c).reed r).tile = some t) (hp : t.phase = .slotWait)
    (hs : ((s.chan c).reed r).slots = []) (hw : ((s.chan c).reed r).waiting = none) :
    ∃ u t', exec (.underflowPass c r) s = .next u ∧ s.onlyChan c u ∧ (s.chan c).passFrame r (u.chan c)
      ∧ ((u.chan c).reed r).tile = some t' ∧ t.again t' ∧ t'.uzDone = true ∧ t'.kind = .underflow ∧ t'.firstPass = some t.cur
      ∧ t'.ps = Tile.raiseSlabs t.ps t.cur.out.uzSlabs (-4)
      ∧ ((u.chan c).reed r).cnt.recompUz = sat32 ((s.chan c).reed r).cnt.recompUz 1 := by
  obtain ⟨frame, count, t', ht', pass⟩ := Channel.countedPass ht { recompUz := 1 } .tileRecomp (TileRun.lowered t)
  refine ⟨_, t', exec_underflowPass_of_slotWait (Channel.tileIn_eq_some ht hp) hs hw, s.onlyChan_setChan c _, ?_⟩
  rw [State.chan_setChan_self]
  exact ⟨frame, ht', pass.again rfl rfl rfl rfl rfl rfl, pass.uzDone, pass.kind, pass.firstPass, pass.ps, count.recompUz (sat32_le _ _)⟩

end

/-! ### Checksum mismatches -/

/-- What a recompute for a checksum mismatch makes of a tile before it runs: the same tile with one more such recompute, at the exponents
in force or with an overflow retry made along with it (03 R87). -/
structure TileRun.Rechecked (t t' : TileRun) : Prop where
  desc : t'.desc = t.desc
  entry : t'.entry = t.entry
  set : t'.set = t.set
  p : t'.p = t.p
  layer : t'.layer = t.layer
  chkRc : t'.chkRc = t.chkRc + 1
  suspect : t'.suspect = t.suspect
  ps : t'.ps = t.ps ∨ t'.ovfRc = t.ovfRc + 1

/-- Channel `k'` is `k` after the tile of Reed `r` has been computed again for a checksum mismatch. -/
structure Channel.Rechecks (r : ReedId) (k k' : Channel) : Prop where
  works : k.Works r k'
  count : (k.reed r).cnt.chkMismatch ≤ 0xFFFFFFFF → (k'.reed r).cnt.chkMismatch = (k.reed r).cnt.chkMismatch
  tile : ∀ t, (k.reed r).tile = some t → ∃ t', (k'.reed r).tile = some t' ∧ t.again t' ∧ t'.chkRc = t.chkRc + 1
    ∧ t'.suspect = t.suspect ∧ (t'.ps = t.ps ∨ t'.ovfRc = t.ovfRc + 1)

theorem Channel.extraPass_rechecks (k : Channel) (r : ReedId) (h : HoldCause) {f : TileRun → TileRun}
    (hf : ∀ t : TileRun, t.Rechecked (f t)) :
    k.Rechecks r (k.extraPass r h f) where
  works := k.extraPass_works r h f
  count := (k.extraPass_retries r h f).chkMismatch
  tile t ht := by
    obtain ⟨t', ht', pass⟩ := k.tile_extraPass r h f ht
    have start := hf t
    exact ⟨t', ht', pass.again start.desc start.entry start.set start.p start.layer rfl, pass.chkRc.trans start.chkRc,
      pass.suspect.trans start.suspect, start.ps.imp pass.ps.trans pass.ovfRc.trans⟩

theorem Channel.checksumPass_rechecks (k : Channel) (r : ReedId) (t : TileRun) (both : Bool) :
    k.Rechecks r (k.checksumPass r t both) := by
  unfold Channel.checksumPass
  split
  · next slabs _ =>
    have pass := ((k.countTile r t { recompOvf := 1 }).extraPass_rechecks r .errorRetry (f := fun t => { t with
      ps := Tile.raiseSlabs t.ps slabs 4, ovfRc := t.ovfRc + 1, chkRc := t.chkRc + 1, kind := .recompute })
      fun _ => ⟨rfl, rfl, rfl, rfl, rfl, rfl, rfl, .inr rfl⟩)
    refine ⟨(k.countTile_works r t _).trans pass.works, fun hle => ?_, fun u hu => pass.tile u (by simpa using hu)⟩
    have same : sat32 (k.reed r).cnt.chkMismatch 0 = (k.reed r).cnt.chkMismatch := Nat.min_eq_left hle
    have count := pass.count
    rw [Channel.reed_countTile] at count
    exact (count (sat32_le _ _)).trans same
  · exact k.extraPass_rechecks r .errorRetry fun _ => ⟨rfl, rfl, rfl, rfl, rfl, rfl, rfl, .inl rfl⟩

section
variable {s : State} {c : ChanId} {r : ReedId} {t : TileRun}

theorem exec_checksumMismatch_eq_self (h : (s.chan c).tileIn r .running = none) : exec (.checksumMismatch c r) s = .next s := by
  simp only [exec_checksumMismatch, execChecksumMismatch, h]

/-- The state in which a mismatch of a tile has been counted, and a free value drawn for what else its group held. -/
def State.countMismatch (s : State) (c : ChanId) (r : ReedId) (t : TileRun) : State :=
  (s.draw 2).2.modChan c (fun k => k.countTile r t { chkMismatch := 1 })

/-- What a mismatch writes under its cause (03 R85). -/
def mismatchErr (r : ReedId) (cause : Cause) : RawErr := { cause := cause, cls := .D, unit := 0, uidx := r.val, detail := anyDetail }

theorem exec_checksumMismatch_first (ht : (s.chan c).tileIn r .running = some t) (h : t.chkRc = 0) :
    exec (.checksumMismatch c r) s = .next ((s.countMismatch c r t).modChan c (fun k =>
      (k.raise (mismatchErr r .chkMismatch)).checksumPass r t ((s.draw 2).1 == 1))) := by
  simp only [exec_checksumMismatch, execChecksumMismatch, ht, h, if_true]
  rfl

/-- The channel whose Reed's Étude request stands at the head of the queue (03 R85; 18 R433). -/
def Channel.queueSuspect (k : Channel) (r : ReedId) : Channel :=
  { k with etude := { k.etude with queue := r.val :: k.etude.queue.filter (fun (x : Nat) => x != r.val) } }

/-- The second mismatch of a tile is written, and its tile marked (03 R85). -/
def Channel.markSuspect (k : Channel) (r : ReedId) : Channel :=
  (k.raise (mismatchErr r .chkSuspect)).modTile r (fun t => { t with suspect := true })

/-- What the third mismatch of a tile writes (03 R85). -/
def chkFailErr (r : ReedId) : RawErr :=
  { cause := .chkFail, cls := .S, unit := 0, uidx := r.val, detail := anyDetail, failureOf := some .chkSuspect, fixedClass := true }

/-- The third mismatch of a tile is written, and its Reed's slot is to be given away (03 R85). -/
def Channel.failReed (k : Channel) (r : ReedId) : Channel :=
  { k with err := (k.err.endRecovery 0 r.val [.chkMismatch] 2).push (chkFailErr r)
           etude := { k.etude with replace := k.etude.replace ++ [r.val] } }

theorem exec_checksumMismatch_second (ht : (s.chan c).tileIn r .running = some t) (h : t.chkRc = 1) :
    exec (.checksumMismatch c r) s = .next (((s.countMismatch c r t).suspectReed c r).modChan c (fun k =>
      (k.markSuspect r).checksumPass r t ((s.draw 2).1 == 1))) := by
  simp only [exec_checksumMismatch, execChecksumMismatch, ht, h, if_true, Nat.one_ne_zero, if_false]
  rfl

theorem exec_checksumMismatch_third (ht : (s.chan c).tileIn r .running = some t) (h : 2 ≤ t.chkRc) :
    exec (.checksumMismatch c r) s = .next ((s.countMismatch c r t).modChan c (fun k =>
      (k.failReed r).modTile r (fun t => { t with poisonAll := true, phase := .clean }))) := by
  simp only [exec_checksumMismatch, execChecksumMismatch, ht]
  rw [if_neg (by omega), if_neg (by omega)]
  rfl

theorem State.chan_countMismatch_self : (s.countMismatch c r t).chan c = (s.chan c).countTile r t { chkMismatch := 1 } :=
  State.chan_modChan_self _ c _

theorem State.chan_countMismatch_ne {d : ChanId} (hd : d ≠ c) : (s.countMismatch c r t).chan d = s.chan d :=
  State.chan_modChan_ne _ _ hd

theorem State.onlyChan_modChan_countMismatch (s : State) (c : ChanId) (r : ReedId) (t : TileRun) (f : Channel → Channel) :
    s.onlyChan c ((s.countMismatch c r t).modChan c f) :=
  ⟨rfl, fun _ hd => (State.chan_modChan_ne _ f hd).trans (State.chan_countMismatch_ne hd)⟩

/-- The save store's part of a channel with a Reed marked suspect. -/
def ChanStore.suspect (r : ReedId) (x : ChanStore) : ChanStore :=
  { x with health := modAt x.health r.val (fun (h : Health) => { h with state := 1 }) }

theorem State.store_suspectReed_self (s : State) (c : ChanId) (r : ReedId) : (s.suspectReed c r).store c = (s.store c).suspect r :=
  State.store_modStore_self s c (ChanStore.suspect r)

theorem State.store_suspectReed_ne (s : State) (r : ReedId) {c d : ChanId} (hd : d ≠ c) : (s.suspectReed c r).store d = s.store d :=
  State.store_modStore_ne s (ChanStore.suspect r) hd

/-- The second mismatch and a channel's work change nothing outside the channel but the health of the Reed. -/
theorem State.aroundChan_suspectReed (s : State) (c : ChanId) (r : ReedId) (t : TileRun) (f : Channel → Channel) :
    s.aroundChan c { ((s.countMismatch c r t).suspectReed c r).modChan c f with freeCtr := s.freeCtr } := by
  refine ⟨by simp only [State.suspectReed, State.countMismatch, State.modStore, State.modChan, State.setChan, State.draw],
    fun d hd => ⟨?_, State.store_suspectReed_ne (s.countMismatch c r t) r hd⟩⟩
  refine ((State.chan_modChan_ne _ f hd).trans (State.chan_modChan_ne _ _ hd)).trans ?_
  exact State.chan_countMismatch_ne hd

/-- A suspect Reed has STATE 1, and every other health record is as it was (18 R437). -/
theorem State.health_suspectReed (hl : (s.store c).health.length = 68) (q : Nat) :
    (s.suspectReed c r).health c q = if q = r.val then { s.health c q with state := 1 } else s.health c q := by
  have hr : r.val < (s.store c).health.length := by rw [hl]; exact r.isLt
  rw [State.health, State.health, State.store_suspectReed_self]
  by_cases hq : q = r.val
  · subst hq
    simp [ChanStore.suspect, modAt, List.getD_eq_getElem?_getD, hr]
  · simp [ChanStore.suspect, modAt, List.getD_eq_getElem?_getD, hq, Ne.symm hq]

/-- The count of a mismatch stays through the recompute. -/
theorem Channel.Rechecks.counted {k k₁ k' : Channel} (h : k₁.Rechecks r k')
    (hc : (k₁.reed r).cnt = (k.reed r).cnt.add { chkMismatch := 1 }) :
    (k'.reed r).cnt.chkMismatch = sat32 (k.reed r).cnt.chkMismatch 1 := by
  have count := h.count
  rw [hc] at count
  exact count (sat32_le _ _)

theorem checksumMismatch_first (ht : ((s.chan c).reed r).tile = some t) (hp : t.phase = .running) (h : t.chkRc = 0) :
    ∃ u t', exec (.checksumMismatch c r) s = .next u ∧ s.onlyChan c u ∧ (s.chan c).passFrame r (u.chan c)
      ∧ ((u.chan c).reed r).tile = some t' ∧ t.again t' ∧ t'.chkRc = 1 ∧ (t'.ps = t.ps ∨ t'.ovfRc = t.ovfRc + 1)
      ∧ ((u.chan c).reed r).cnt.chkMismatch = sat32 ((s.chan c).reed r).cnt.chkMismatch 1
      ∧ (u.chan c).wroteErr 0 r.val .chkMismatch .D := by
  have pass := (((s.chan c).countTile r t { chkMismatch := 1 }).raise (mismatchErr r .chkMismatch)).checksumPass_rechecks r t
    ((s.draw 2).1 == 1)
  obtain ⟨t', ht', hagain, hchk, -, hps⟩ := pass.tile t (by simpa using ht)
  refine ⟨_, t', exec_checksumMismatch_first (Channel.tileIn_eq_some ht hp) h, s.onlyChan_modChan_countMismatch c r t _, ?_⟩
  rw [State.chan_modChan_self, State.chan_countMismatch_self]
  refine ⟨(((s.chan c).countTile_works r t _).trans ((Channel.raise_loads _ r _).works.trans pass.works)).passFrame, ht', hagain,
    by rw [hchk, h], hps, pass.counted (by simp), ?_⟩
  exact Channel.wroteErr_of_has (pass.works.errs _ (Errors.has_push_self _ (mismatchErr r .chkMismatch)))

theorem State.chan_suspectReed_self (s : State) (c : ChanId) (r : ReedId) : (s.suspectReed c r).chan c = (s.chan c).queueSuspect r :=
  (State.chan_modChan_self _ c (fun k => k.queueSuspect r)).trans (congrArg (Channel.queueSuspect · r) (State.chan_modStore s c _ c))

theorem Channel.reed_queueSuspect (k : Channel) (r q : ReedId) : (k.queueSuspect r).reed q = k.reed q := rfl

theorem Channel.queueSuspect_passFrame (k : Channel) (r : ReedId) : k.passFrame r (k.queueSuspect r) := .of_fields rfl

theorem Channel.markSuspect_works (k : Channel) (r : ReedId) : k.Works r (k.markSuspect r) :=
  (k.raise_loads r _).works.trans (.modTile _ r _)

theorem Channel.tile_markSuspect (k : Channel) (r : ReedId) :
    ((k.markSuspect r).reed r).tile = (k.reed r).tile.map (fun t => { t with suspect := true }) := Channel.tile_modTile _ r _

theorem Channel.cnt_markSuspect (k : Channel) (r : ReedId) : ((k.markSuspect r).reed r).cnt = (k.reed r).cnt :=
  Channel.cnt_modTile _ r _

theorem Channel.reed_failReed (k : Channel) (r q : ReedId) : (k.failReed r).reed q = k.reed q := rfl

theorem Channel.failReed_passFrame (k : Channel) (r : ReedId) : k.passFrame r (k.failReed r) := .of_fields rfl

theorem checksumMismatch_second (ht : ((s.chan c).reed r).tile = some t) (hp : t.phase = .running) (h : t.chkRc = 1)
    (hl : (s.store c).health.length = 68) :
    ∃ u t', exec (.checksumMismatch c r) s = .next u ∧ s.aroundChan c { u with freeCtr := s.freeCtr }
      ∧ u.mp = s.mp ∧ u.meter = s.meter ∧ u.dev = s.dev ∧ (s.chan c).passFrame r (u.chan c)
      ∧ ((u.chan c).reed r).tile = some t' ∧ t.again t' ∧ t'.chkRc = 2 ∧ t'.suspect = true ∧ (t'.ps = t.ps ∨ t'.ovfRc = t.ovfRc + 1)
      ∧ (∀ q, u.health c q = if q = r.val then { s.health c q with state := 1 } else s.health c q)
      ∧ (u.chan c).etude.queue = r.val :: (s.chan c).etude.queue.filter (fun q => q != r.val)
      ∧ ((u.chan c).reed r).cnt.chkMismatch = sat32 ((s.chan c).reed r).cnt.chkMismatch 1
      ∧ (u.chan c).wroteErr 0 r.val .chkSuspect .D := by
  have hcounted := Channel.reed_countTile (s.chan c) r t { chkMismatch := 1 }
  have frame := ((s.chan c).countTile_works r t { chkMismatch := 1 }).passFrame
  have hexec := exec_checksumMismatch_second (Channel.tileIn_eq_some ht hp) h
  have hu := State.chan_modChan_self ((s.countMismatch c r t).suspectReed c r) c
    (fun k => (k.markSuspect r).checksumPass r t ((s.draw 2).1 == 1))
  rw [State.chan_suspectReed_self, State.chan_countMismatch_self] at hu
  generalize hk : (s.chan c).countTile r t { chkMismatch := 1 } = k at hcounted frame hu
  have mark := Channel.markSuspect_works (k.queueSuspect r) r
  have pass := ((k.queueSuspect r).markSuspect r).checksumPass_rechecks r t ((s.draw 2).1 == 1)
  have works := mark.trans pass.works
  obtain ⟨t', ht', hagain, hchk, hsus, hps⟩ := pass.tile { t with suspect := true } (by
    rw [Channel.tile_markSuspect, Channel.reed_queueSuspect, hcounted, ht, Option.map_some])
  refine ⟨_, t', hexec, s.aroundChan_suspectReed c r t _, rfl, rfl, rfl, ?_⟩
  rw [hu]
  refine ⟨frame.trans ((k.queueSuspect_passFrame r).trans works.passFrame), ht', hagain, by rw [hchk, h], hsus, hps,
    fun q => State.health_suspectReed (s := s.countMismatch c r t) hl q, ?_, pass.counted ?_, ?_⟩
  · rw [works.etude, ← hk]
    rfl
  · rw [Channel.cnt_markSuspect, Channel.reed_queueSuspect, hcounted]
  · exact Channel.wroteErr_of_has (pass.works.errs (mismatchErr r .chkSuspect) (Errors.has_push_self _ _))

/-- The third mismatch ends the tile with every chord poisoned, class S, and its Reed's slot is to be given away (03 R85). -/
theorem Channel.failReed_poisons (k : Channel) (r : ReedId) (t : TileRun) (ht : (k.reed r).tile = some t) :
    let k' := (k.failReed r).modTile r (fun t => { t with poisonAll := true, phase := .clean })
    k.passFrame r k' ∧ k'.mem = k.mem ∧ (k'.reed r).tile = some { t with poisonAll := true, phase := .clean }
      ∧ k'.etude = { k.etude with replace := k.etude.replace ++ [r.val] } ∧ (k'.reed r).cnt = (k.reed r).cnt
      ∧ k'.wroteErr 0 r.val .chkFail .S := by
  refine ⟨(k.failReed_passFrame r).trans (Channel.Works.modTile _ r _).passFrame, rfl, ?_, rfl, ?_,
    Channel.wroteErr_of_has (x := chkFailErr r) (Errors.has_push_self _ _)⟩
  · rw [Channel.tile_modTile, Channel.reed_failReed, ht, Option.map_some]
  · rw [Channel.cnt_modTile, Channel.reed_failReed]

theorem checksumMismatch_third (ht : ((s.chan c).reed r).tile = some t) (hp : t.phase = .running) (h : 2 ≤ t.chkRc) :
    ∃ u, exec (.checksumMismatch c r) s = .next u ∧ s.onlyChan c u ∧ (s.chan c).passFrame r (u.chan c) ∧ (u.chan c).mem = (s.chan c).mem
      ∧ ((u.chan c).reed r).tile = some { t with poisonAll := true, phase := .clean }
      ∧ (u.chan c).etude = { (s.chan c).etude with replace := (s.chan c).etude.replace ++ [r.val] }
      ∧ ((u.chan c).reed r).cnt.chkMismatch = sat32 ((s.chan c).reed r).cnt.chkMismatch 1
      ∧ (u.chan c).wroteErr 0 r.val .chkFail .S := by
  have hcounted := Channel.reed_countTile (s.chan c) r t { chkMismatch := 1 }
  have frame := ((s.chan c).countTile_works r t { chkMismatch := 1 }).passFrame
  have hcounted := Channel.reed_countTile (s.chan c) r t { chkMismatch := 1 }
  have frame := ((s.chan c).countTile_works r t { chkMismatch := 1 }).passFrame
  refine ⟨_, exec_checksumMismatch_third (Channel.tileIn_eq_some ht hp) h, s.onlyChan_modChan_countMismatch c r t _, ?_⟩
  rw [State.chan_modChan_self, State.chan_countMismatch_self]
  obtain ⟨frame', hmem, htile, hetude, hcnt, herr⟩ := Channel.failReed_poisons _ r t ((congrArg Reed.tile hcounted).trans ht)
  exact ⟨frame.trans frame', hmem, htile, hetude, congrArg ReedCnt.chkMismatch (hcnt.trans (congrArg Reed.cnt hcounted)), herr⟩

/-! ### Reloads -/

theorem exec_versionReloadDone_eq_self (h : (s.chan c).tileIn r .versionReload = none) : exec (.versionReloadDone c r) s = .next s := by
  refine congrArg _ (State.modChan_eq_self ?_)
  rw [h]

/-- A channel whose tile's operands have been reloaded, and the pass made again (08 R213). -/
def Channel.reloaded (k : Channel) (r : ReedId) (t : TileRun) : Channel :=
  (((k.reloadOperand r t t.desc.a false).reloadOperand r t t.desc.b true).modTile r (fun t => { t with versionRetry := 1 })).tilePass r

/-- A pass made again after a version reload has made that reload, and is the same tile's (03 R88). -/
theorem Channel.tile_reloaded {k : Channel} (ht : (k.reed r).tile = some t) :
    ∃ t', ((k.reloaded r t).score = k.score ∧ (k.reloaded r t).ports = k.ports) ∧ ((k.reloaded r t).reed r).tile = some t'
      ∧ t'.versionRetry = 1 ∧ t'.phase ≠ .versionReload
      ∧ t'.desc = t.desc ∧ t'.entry = t.entry ∧ t'.set = t.set ∧ t'.p = t.p ∧ t'.passes = t.passes := by
  have reload := (k.reloadOperand_recovers r t t.desc.a false).trans (Channel.reloadOperand_recovers _ r t t.desc.b true)
  unfold Channel.reloaded
  generalize (k.reloadOperand r t t.desc.a false).reloadOperand r t t.desc.b true = k₁ at reload ⊢
  have start : ((k₁.modTile r (fun t => { t with versionRetry := 1 })).reed r).tile = some { t with versionRetry := 1 } := by
    rw [Channel.tile_modTile, reload.tile, ht, Option.map_some]
  have pass := Channel.tilePass_passes (k₁.modTile r (fun t => { t with versionRetry := 1 })) r
  obtain ⟨t', ht', passed⟩ := pass.tile _ start
  exact ⟨t', ⟨pass.works.score.trans reload.score, pass.works.ports.trans reload.ports⟩, ht', passed.versionRetry,
    Channel.phase_tilePass_of_versionRetry _ r start Nat.one_ne_zero ht', (congrArg TileRun.desc passed.eq :),
    (congrArg TileRun.entry passed.eq :), (congrArg TileRun.set passed.eq :), (congrArg TileRun.p passed.eq :),
    (congrArg TileRun.passes passed.eq :)⟩

theorem exec_versionReloadDone_of_versionReload (ht : (s.chan c).tileIn r .versionReload = some t) :
    ∃ e, exec (.versionReloadDone c r) s = .next (s.setChan c { (s.chan c).reloaded r t with err := e }) := by
  by_cases hf : (((s.chan c).reloaded r t).tileIn r .failed).isSome
  · refine ⟨((s.chan c).reloaded r t).err, ?_⟩
    simp only [exec_versionReloadDone, execVersionReloadDone, State.modChan, ht]
    exact congrArg (fun k => Host.Outcome.next (s.setChan c k)) (if_pos hf)
  · refine ⟨((s.chan c).reloaded r t).err.endRecovery 0 r.val [.versionReload] 1, ?_⟩
    simp only [exec_versionReloadDone, execVersionReloadDone, State.modChan, ht]
    exact congrArg (fun k => Host.Outcome.next (s.setChan c k)) (if_neg hf)

theorem versionReloadDone_recomputes (ht : ((s.chan c).reed r).tile = some t) (hp : t.phase = .versionReload) :
    ∃ u t', exec (.versionReloadDone c r) s = .next u ∧ s.onlyChan c u ∧ (u.chan c).score = (s.chan c).score
      ∧ (u.chan c).ports = (s.chan c).ports ∧ ((u.chan c).reed r).tile = some t' ∧ t'.versionRetry = 1 ∧ t'.phase ≠ .versionReload
      ∧ t'.desc = t.desc ∧ t'.entry = t.entry ∧ t'.set = t.set ∧ t'.p = t.p ∧ t'.passes = t.passes := by
  obtain ⟨e, hu⟩ := exec_versionReloadDone_of_versionReload (Channel.tileIn_eq_some ht hp)
  obtain ⟨t', reload, ht', hretry, hphase, heq⟩ := Channel.tile_reloaded ht
  refine ⟨_, t', hu, s.onlyChan_setChan c _, ?_⟩
  rw [State.chan_setChan_self]
  exact ⟨reload.1, reload.2, ht', hretry, hphase, heq⟩

/-- The tile as the pass after a recovery of chords starts it (03 R86). -/
def TileRun.recovered (t : TileRun) : TileRun :=
  { t with redone := t.redone ++ t.redo, parRecovered := t.parRecovered || t.redo.any Redo.parity }

theorem exec_chordReloadDone_of_none (us : List Upset) (h : (s.chan c).tileIn r .chordReload = none) :
    exec (.chordReloadDone c r us) s = .next (s.setChan c ((s.chan c).disturbed us)) := by
  simp only [exec_chordReloadDone, execChordReloadDone, State.modChan, h]

theorem exec_chordReloadDone_of_error {us : List Upset} {e : RawErr} (ht : (s.chan c).tileIn r .chordReload = some t)
    (h : (s.chan c).recoverAll r 0 r.val t.redo = .error e) :
    exec (.chordReloadDone c r us) s = .next (s.setChan c (((s.chan c).disturbed us).failTile r e)) := by
  simp only [exec_chordReloadDone, execChordReloadDone, State.modChan, ht, h]

theorem exec_chordReloadDone_of_ninth {us : List Upset} {k' : Channel} (ht : (s.chan c).tileIn r .chordReload = some t)
    (h : (s.chan c).recoverAll r 0 r.val t.redo = .ok k') (hn : 8 ≤ t.passes) :
    exec (.chordReloadDone c r us) s =
      .next (s.setChan c (((s.chan c).disturbed us).failTile r ((t.redo.headD {}).failure 0 r.val))) := by
  simp only [exec_chordReloadDone, execChordReloadDone, State.modChan, ht, h, if_pos hn]

theorem exec_chordReloadDone_of_ok {us : List Upset} {k' : Channel} (ht : (s.chan c).tileIn r .chordReload = some t)
    (h : (s.chan c).recoverAll r 0 r.val t.redo = .ok k') (hn : t.passes < 8) :
    exec (.chordReloadDone c r us) s = .next (s.setChan c ((k'.disturbed us).extraPass r .errorRetry TileRun.recovered)) := by
  simp only [exec_chordReloadDone, execChordReloadDone, State.modChan, ht, h, if_neg (Nat.not_le.mpr hn)]
  rfl

/-- A recovery that fails is class S. -/
theorem Channel.cls_of_recoverAll_eq_error {k : Channel} {unit uidx : Nat} {l : List Redo} {e : RawErr}
    (h : k.recoverAll r unit uidx l = .error e) : e.cls = .S := by
  induction l generalizing k with
  | nil => cases h
  | cons x l ih =>
    rw [Channel.recoverAll] at h
    split at h
    · exact ih h
    · cases h
      rfl

theorem chordReloadDone_recomputes {us : List Upset} {k' : Channel} (ht : (s.chan c).tileIn r .chordReload = some t)
    (h : (s.chan c).recoverAll r 0 r.val t.redo = .ok k') (hn : t.passes < 8) :
    ∃ u, exec (.chordReloadDone c r us) s = .next u ∧ s.onlyChan c u ∧ (k'.disturbed us).passFrame r (u.chan c)
      ∧ ∀ t₁, ((k'.disturbed us).reed r).tile = some t₁ → ∃ t', ((u.chan c).reed r).tile = some t' ∧ t₁.again t'
        ∧ t'.redone = t₁.redone ++ t₁.redo ∧ (t'.parRecovered = (t₁.parRecovered || t₁.redo.any Redo.parity)) := by
  refine ⟨_, exec_chordReloadDone_of_ok ht h hn, s.onlyChan_setChan c _, ?_⟩
  rw [State.chan_setChan_self]
  refine ⟨(Channel.extraPass_works _ r _ _).passFrame, fun t₁ ht₁ => ?_⟩
  obtain ⟨t', ht', pass⟩ := Channel.tile_extraPass _ r .errorRetry TileRun.recovered ht₁
  exact ⟨t', ht', pass.again rfl rfl rfl rfl rfl rfl, pass.redone, pass.parRecovered⟩

theorem Channel.failTile_fails (k : Channel) (e : RawErr) (ht : (k.reed r).tile = some t) :
    ((k.failTile r e).reed r).tile = some { t with phase := .failed } ∧ (k.failTile r e).wroteErr 0 r.val e.cause e.cls := by
  refine ⟨?_, Channel.wroteErr_of_has (x := { e with unit := 0, uidx := r.val }) (Errors.has_push_self _ _)⟩
  rw [Channel.failTile, Channel.tile_modTile, Channel.reed_raise, ht, Option.map_some]

end

/-- Settles O43: each extra pass is `Channel.extraPass` on the tile as its cause leaves it, and a pass changes of its tile only what
`TileRun.Passed` allows and of its channel only what `Channel.Works` allows. -/
theorem tilePasses : Obligations.TilePasses := by
  unfold Obligations.TilePasses
  intro s c r
  refine ⟨fun h => ⟨exec_overflowRetry_eq_self fun t ht => ?idle, exec_checksumMismatch_eq_self h⟩,
    fun h => exec_underflowPass_eq_self (.inl h), exec_versionReloadDone_eq_self, fun us => ⟨exec_chordReloadDone_of_none us, ?chords⟩, ?tile⟩
  case idle =>
    rw [h] at ht
    cases ht
  case chords =>
    intro t ht hp
    have inPhase := Channel.tileIn_eq_some ht hp
    exact ⟨fun e h => ⟨exec_chordReloadDone_of_error inPhase h, Channel.cls_of_recoverAll_eq_error h⟩,
      fun k' h => ⟨exec_chordReloadDone_of_ninth inPhase h, chordReloadDone_recomputes inPhase h⟩⟩
  case tile =>
    intro t ht
    refine ⟨fun g slabs hp hr ho => ?overflow, fun hp h => exec_overflowRetry_eq_self fun u hu => ?clean, fun hp hs hw => ?underflow,
      fun h => exec_underflowPass_eq_self (.inr h), checksumMismatch_first ht, checksumMismatch_second ht, checksumMismatch_third ht,
      versionReloadDone_recomputes ht, fun e => Channel.failTile_fails _ e ht⟩
    case overflow =>
      obtain ⟨u, t', hu, honly, hframe, ht', hagain, hrc, hkind, hps, hcount⟩ :=
        overflowRetry_recomputes ht hp (TileRun.retrySlabs_eq_some hr ho)
      exact ⟨u, t', hu, honly, hframe, ht', hagain, hrc, hkind, hps ▸ Tile.length_raiseSlabs _ _ _,
        fun i hi => hps ▸ Tile.getD_raiseSlabs _ _ _ hi, hcount⟩
    case clean =>
      obtain rfl : t = u := Option.some.inj ((Channel.tileIn_eq_some ht hp).symm.trans hu)
      exact TileRun.retrySlabs_eq_none h
    case underflow =>
      obtain ⟨u, t', hu, honly, hframe, ht', hagain, hdone, hkind, hfirst, hps, hcount⟩ := underflowPass_recomputes ht hp hs hw
      refine ⟨u, t', hu, honly, hframe, ht', hagain, hdone, hkind, hfirst, fun i hi => ?_, hcount⟩
      rw [hps, Tile.getD_raiseSlabs _ _ _ hi]
      split <;> rfl

end Sys2Proof.Machine
end

section
/-! SUPPORT. The end of a pass: PAR_ERR may rise by more than one (03 R86, R93). -/

namespace Sys2Proof.Machine

open Sys2Proof

/-- A running tile of one reduction group with a parity error in an accumulator: its operands are the eight chords at the start of its
Reed's SRAM. -/
def parityTile : TileRun := { accParity := true, desc := { k := 16 } }

/-- Its Reed, with a disturbed bit in each of those chords. -/
def parityReed : Reed := { tile := some parityTile, badParity := (List.range 8).map (160 * ·) }

/-- The device with that Reed as Reed 0 of channel 0. -/
def parityState : State := State.reset.modChan 0 (fun k => k.modReed 0 (fun _ => parityReed))

theorem reed_parityState : (parityState.chan 0).reed 0 = parityReed :=
  (congrArg (Channel.reed · 0) (State.chan_modChan_self State.reset 0 _)).trans (Channel.reed_modReed_self _ 0 _)

/-- PAR_ERR of Reed 0 of channel 0 after a command that has a next state. -/
def parErrAfter : Host.Outcome State Fault Refusal → Option Nat
  | .next u => some ((u.chan 0).reed 0).cnt.parErr
  | _ => none

/-- The accumulator's error counts once, and each of the sixteen chord reads of the recompute's load counts once more. -/
theorem parErrAfter_tilePassEnd : parErrAfter (exec (.tilePassEnd 0 0) parityState) = some 17 := by decide

/-- Refutes O44: a parity error of an accumulator is said to raise PAR_ERR by one, but the recompute it brings loads its operands in the
same command, and a parity error that this load finds in Reed SRAM is counted too (03 R86, R93). -/
theorem not_tileEnds : ¬ Obligations.TileEnds := by
  unfold Obligations.TileEnds
  intro h
  obtain ⟨-, passEnd, -⟩ := h parityState 0 0
  have tile : ((parityState.chan 0).reed 0).tile = some parityTile := congrArg Reed.tile reed_parityState
  obtain ⟨-, parity, -⟩ := passEnd parityTile tile rfl
  obtain ⟨u, t', hu, -, -, -, count, -⟩ := parity (by decide) rfl
  rw [reed_parityState] at count
  have counted := parErrAfter_tilePassEnd
  rw [hu, parErrAfter, count] at counted
  exact absurd counted (by decide)

end Sys2Proof.Machine
end

section
/-! SUPPORT. Bits of words, folds that update places, and an accepted write of a channel's stop, said once for the blocks 0x3n00, 0x4n00
and 0x5n00 (14 R359; 21 R478 to R480). -/

namespace Sys2Proof.Machine

open Sys2Proof

/-- The bits of a number are the bits of the word it is the value of. -/
theorem bitOf_toNat {n : Nat} (v : BitVec n) (i : Nat) : bitOf v.toNat i = v.getLsbD i := by
  rw [BitVec.getLsbD, Nat.testBit_eq_decide_div_mod_eq]
  rfl

@[simp] theorem ofLe_singleton (b : Byte) : ofLe [b] = b.toNat := rfl

/-- A fold that updates the places of a list, each once, updates those places and no others. -/
theorem get_foldl_update {σ ι α : Type} [DecidableEq ι] {get : σ → ι → α} {upd : σ → ι → σ} {g : ι → α → α}
    (same : ∀ k i, get (upd k i) i = g i (get k i)) (other : ∀ k i j, j ≠ i → get (upd k i) j = get k j)
    {l : List ι} (hl : l.Nodup) (k : σ) (j : ι) :
    get (l.foldl upd k) j = if j ∈ l then g j (get k j) else get k j := by
  induction l generalizing k with
  | nil => rfl
  | cons i l ih =>
    obtain ⟨hi, hl⟩ := List.nodup_cons.mp hl
    rw [List.foldl_cons, ih hl]
    by_cases hj : j = i
    · subst hj
      simp [hi, same]
    · simp [hj, other k i j hj]

section
variable {c : ChanId} {index base : Nat} (stop : stopChan index = some c ∧ stopBase index = base)
  {s : State} {x : Session} {txid op sub : Nat} {d : List Byte} {o : WriteObs}
include stop

theorem State.applyStop_numerics (lo : 0x3000 ≤ base) (hi : base < 0x4000) :
    s.applyStop x txid op index sub d o = (some 0, s.setChan c ((s.chan c).applyNumerics base sub d)) := by
  obtain ⟨hc, rfl⟩ := stop
  simp only [State.applyStop, hc]
  rw [if_neg (Nat.not_lt.mpr lo), if_pos hi]

theorem State.applyStop_memory (lo : 0x4000 ≤ base) (hi : base < 0x5000) :
    s.applyStop x txid op index sub d o = s.liftChan c ((s.chan c).applyMemory base sub d) := by
  obtain ⟨hc, rfl⟩ := stop
  simp only [State.applyStop, hc]
  rw [if_neg (by omega), if_neg (Nat.not_lt.mpr lo), if_pos hi]

theorem State.applyStop_bell (lo : 0x5000 ≤ base) :
    s.applyStop x txid op index sub d o
      = s.liftChan c ((s.chan c).applyBell (s.power.standby || s.power.returning) base sub d) := by
  obtain ⟨hc, rfl⟩ := stop
  simp only [State.applyStop, hc]
  rw [if_neg (by omega), if_neg (by omega), if_neg (Nat.not_lt.mpr lo)]

end

/-- A write of a channel's stop that replaces the channel and nothing else is carried out. -/
theorem State.carried_setChan {s : State} {i : Instr} {q : Req} {c : ChanId} {base sub : Nat} {d : List Byte} {x : Session} {k : Channel}
    (h : s.accepts q false (ofChan c base) sub d x) (hi : exec i s = s.put q (ofChan c base) sub d)
    (lo : 0x2000 ≤ base) (hi' : base < 0x6000)
    (hu : (s.touch q).applyStop { x with idle := 0 } q.txid 2 (ofChan c base) sub d {} = (some 0, (s.touch q).setChan c k)) :
    s.carried i q 2 (ofChan c base) sub (s.setChan c k) :=
  State.carried_of h hi hu h.1.1 rfl (fun t => State.afterWrite_ofChan t c lo hi' sub d)

end Sys2Proof.Machine
end

section
/-! SUPPORT. The clear writes: counters of a channel, the Tuner's log and the error logs (05 R136, R137; 09 R259; 10 R286; 11 R315;
17 R415). -/

namespace Sys2Proof.Machine

open Sys2Proof

/-! ### Port counters -/

/-- The ports that a mask names with their counters at zero (10 R286). -/
def Channel.clearPorts (k : Channel) (mask : Nat) : Channel :=
  portIds.foldl (fun (k : Channel) p => if bitOf mask p.val then k.modPort p (fun q => { q with cnt := {} }) else k) k

theorem Channel.applyBell_clearPorts (k : Channel) (standby : Bool) (d : List Byte) :
    k.applyBell standby 0x5020 9 d = (0, k.clearPorts (ofLe d)) := rfl

theorem Channel.clearPorts_frame (k : Channel) (mask : Nat) : k.clearPorts mask = { k with ports := (k.clearPorts mask).ports } := by
  refine foldl_keeps (P := fun a : Channel => a = { k with ports := a.ports }) (fun a p ha => ?_) portIds rfl
  split
  · rw [ha]; rfl
  · exact ha

theorem Channel.port_clearPorts (k : Channel) (mask : Nat) (p : PortId) :
    (k.clearPorts mask).port p = if bitOf mask p.val then { k.port p with cnt := {} } else k.port p := by
  have all : p ∈ portIds := by revert p; decide
  refine (get_foldl_update (get := Channel.port) (g := fun p x => if bitOf mask p.val then { x with cnt := {} } else x)
    (fun k p => ?_) (fun k p j hj => ?_) (by decide) k p).trans (if_pos all)
  · split <;> simp
  · split
    · exact Channel.port_modPort_ne k _ hj
    · rfl

/-! ### Counters of a channel -/

theorem Channel.applyNumerics_clearCounters (k : Channel) : k.applyNumerics 0x3020 4 [1#8] = k.clearCounters := rfl

theorem Channel.applyNumerics_clearTunerLog (k : Channel) : k.applyNumerics 0x3020 4 [2#8] = k.clearTunerLog := rfl

theorem Channel.applyMemory_clear (k : Channel) :
    k.applyMemory 0x4010 2 [1#8] = (0, { k with mem := { k.mem with cnt := {}, farBytes := 0 } }) := rfl

theorem Channel.applyBell_clearColl (k : Channel) (standby : Bool) :
    k.applyBell standby 0x5010 9 [1#8] = (0, { k with coll := { k.coll with cnt := {} } }) := rfl

theorem Channel.reed_clearCounters (k : Channel) (r : ReedId) :
    k.clearCounters.reed r = { k.reed r with cnt := {}, qcnt := {}, valve := { (k.reed r).valve with cnt := {} } } := by
  simp only [Channel.reed, Channel.clearCounters, Vector.get_eq_getElem, Vector.getElem_map]

/-! ### Error logs -/

/-- The logs of the channels that a mask names are cleared (17 R415). -/
def State.clearChanLogs (s : State) (mask : Nat) : State :=
  chans.foldl (fun (s : State) c =>
    if bitOf mask c.val then s.modChan c (fun k => { k with err := { k.err with log := k.err.log.clear } }) else s) s

theorem State.clearLogs_eq (s : State) (mask : Nat) :
    s.clearLogs mask = if bitOf mask 4 then (s.clearChanLogs mask).modMp (fun m => { m with log := m.log.clear })
      else s.clearChanLogs mask := rfl

theorem State.clearChanLogs_frame (s : State) (mask : Nat) : s.clearChanLogs mask = { s with ch := (s.clearChanLogs mask).ch } := by
  refine foldl_keeps (P := fun a : State => a = { s with ch := a.ch }) (fun a c ha => ?_) chans rfl
  split
  · rw [ha]; rfl
  · exact ha

theorem State.mp_clearChanLogs (s : State) (mask : Nat) : (s.clearChanLogs mask).mp = s.mp := by
  rw [State.clearChanLogs_frame]

theorem State.chan_clearChanLogs (s : State) (mask : Nat) (c : ChanId) :
    (s.clearChanLogs mask).chan c
      = if bitOf mask c.val then { s.chan c with err := { (s.chan c).err with log := (s.chan c).err.log.clear } } else s.chan c := by
  have all : c ∈ chans := by revert c; decide
  refine (get_foldl_update (get := State.chan)
    (g := fun c k => if bitOf mask c.val then { k with err := { k.err with log := k.err.log.clear } } else k)
    (fun s c => ?_) (fun s c d hd => ?_) (by decide) s c).trans (if_pos all)
  · split <;> simp
  · split
    · exact State.chan_modChan_ne s _ hd
    · rfl

theorem State.clearChanLogs_touch (s : State) (q : Req) (mask : Nat) :
    (s.touch q).clearChanLogs mask = (s.clearChanLogs mask).touch q :=
  List.foldl_hom (State.touch · q) (fun s c => by split <;> rfl)

theorem State.clearLogs_touch (s : State) (q : Req) (mask : Nat) : (s.touch q).clearLogs mask = (s.clearLogs mask).touch q := by
  rw [State.clearLogs_eq, State.clearLogs_eq, State.clearChanLogs_touch]
  split <;> rfl

theorem State.chan_clearLogs (s : State) (mask : Nat) (c : ChanId) :
    (s.clearLogs mask).chan c
      = if bitOf mask c.val then { s.chan c with err := { (s.chan c).err with log := (s.chan c).err.log.clear } } else s.chan c := by
  rw [← State.chan_clearChanLogs, State.clearLogs_eq]
  split <;> rfl

theorem State.mp_clearLogs (s : State) (mask : Nat) :
    (s.clearLogs mask).mp = { s.mp with log := if bitOf mask 4 then s.mp.log.clear else s.mp.log } := by
  rw [State.clearLogs_eq]
  split
  · rw [State.modMp_mp, State.mp_clearChanLogs]
  · exact State.mp_clearChanLogs s mask

theorem State.clearLogs_frame (s : State) (mask : Nat) :
    s.clearLogs mask = { s with ch := (s.clearLogs mask).ch, mp := { s.mp with log := (s.clearLogs mask).mp.log } } := by
  have only : s.clearLogs mask = { s with ch := (s.clearLogs mask).ch, mp := (s.clearLogs mask).mp } := by
    rw [State.clearLogs_eq, State.clearChanLogs_frame]
    split <;> rfl
  have mp : (s.clearLogs mask).mp = { s.mp with log := (s.clearLogs mask).mp.log } := by rw [State.mp_clearLogs]
  rw [← mp]
  exact only

theorem State.applyStop_logClear (s : State) (x : Session) (txid op sub : Nat) (d : List Byte) (o : WriteObs) :
    s.applyStop x txid op 0x6001 sub d o = (some 0, s.clearLogs (ofLe d)) := rfl

/-! ### The six writes -/

section
variable {s : State} {q : Req} {c : ChanId} {x : Session}

theorem State.carried_portCountersClear {mask : BitVec 8} (h : s.accepts q false (ofChan c 0x5020) 9 [mask] x) :
    s.carried (.portCountersClear q c mask) q 2 (ofChan c 0x5020) 9 (s.setChan c ((s.chan c).clearPorts mask.toNat)) := by
  refine State.carried_setChan h rfl (by decide) (by decide) ?_
  rw [State.applyStop_bell (stopChan_ofChan c (by decide)) (by decide), Channel.applyBell_clearPorts, ofLe_singleton]
  rfl

theorem State.carried_collCountersClear (h : s.accepts q false (ofChan c 0x5010) 9 [1#8] x) :
    s.carried (.collCountersClear q c) q 2 (ofChan c 0x5010) 9
      (s.setChan c { s.chan c with coll := { (s.chan c).coll with cnt := {} } }) := by
  refine State.carried_setChan h rfl (by decide) (by decide) ?_
  rw [State.applyStop_bell (stopChan_ofChan c (by decide)) (by decide), Channel.applyBell_clearColl]
  rfl

theorem State.carried_memCountersClear (h : s.accepts q false (ofChan c 0x4010) 2 [1#8] x) :
    s.carried (.memCountersClear q c) q 2 (ofChan c 0x4010) 2
      (s.setChan c { s.chan c with mem := { (s.chan c).mem with cnt := {}, farBytes := 0 } }) := by
  refine State.carried_setChan h rfl (by decide) (by decide) ?_
  rw [State.applyStop_memory (stopChan_ofChan c (by decide)) (by decide) (by decide), Channel.applyMemory_clear]
  rfl

theorem State.carried_tunerClearCounters (h : s.accepts q false (ofChan c 0x3020) 4 [1#8] x) :
    s.carried (.tunerClearCounters q c) q 2 (ofChan c 0x3020) 4 (s.setChan c (s.chan c).clearCounters) := by
  refine State.carried_setChan h rfl (by decide) (by decide) ?_
  rw [State.applyStop_numerics (stopChan_ofChan c (by decide)) (by decide) (by decide),
    Channel.applyNumerics_clearCounters]
  rfl

theorem State.carried_tunerClearLog (h : s.accepts q false (ofChan c 0x3020) 4 [2#8] x) :
    s.carried (.tunerClearLog q c) q 2 (ofChan c 0x3020) 4 (s.setChan c (s.chan c).clearTunerLog) := by
  refine State.carried_setChan h rfl (by decide) (by decide) ?_
  rw [State.applyStop_numerics (stopChan_ofChan c (by decide)) (by decide) (by decide),
    Channel.applyNumerics_clearTunerLog]
  rfl

/-- Clearing logs leaves what decides whether datagrams can be sent, and the datagrams sent, as they are. -/
theorem State.carried_logClear {d : List Byte} (h : s.accepts q false 0x6001 0 d x) :
    s.carried (.logClear q d) q 2 0x6001 0 (s.clearLogs (ofLe d)) := by
  have sends : (s.clearLogs (ofLe d)).canSend = true := by
    rw [State.clearLogs_frame]
    exact h.1.1
  have sent : (s.clearLogs (ofLe d)).mp.sent = s.mp.sent := by rw [State.mp_clearLogs]
  refine State.carried_of (o := {}) h rfl ?_ sends sent (fun t => rfl)
  rw [State.applyStop_logClear, State.clearLogs_touch]

end

/-- Settles O11: each clear write that is accepted applies the clear it names, and the clear's own lemmas say what it leaves. -/
theorem clearWrites : Obligations.ClearWrites := by
  unfold Obligations.ClearWrites
  refine ⟨fun s q c x => ⟨fun mask h => ?ports, State.carried_collCountersClear, State.carried_memCountersClear, fun h => ?counters,
    State.carried_tunerClearLog⟩, fun s q x mask h => ?logs⟩
  case ports =>
    refine ⟨_, State.carried_portCountersClear h, Channel.clearPorts_frame _ _, fun p => ?_⟩
    rw [Channel.port_clearPorts, bitOf_toNat]
  case counters => exact ⟨_, State.carried_tunerClearCounters h, rfl, Channel.reed_clearCounters _⟩
  case logs =>
    refine ⟨_, State.carried_logClear h, State.clearLogs_frame _ _, fun c => ?_, ?_⟩
    · rw [State.chan_clearLogs, ofLe_singleton, bitOf_toNat]
      rfl
    · rw [State.mp_clearLogs, ofLe_singleton, bitOf_toNat]
      rfl

end Sys2Proof.Machine
end

section
/-! SUPPORT. What one Valve lane computes: the shifts as shifts of bit vectors, and the special cases of the lane functions, of QNT and
of DQ (06 R146, R149, R152). -/

namespace Sys2Proof.Lane

open Sys2Proof.Num

/-! ### Shifts -/

theorem shl_eq (a b : Nat) : shl a b = (BitVec.ofNat 16 a <<< (b % 16)).toNat := by
  simp [shl, BitVec.toNat_shiftLeft, Nat.shiftLeft_eq, Nat.mod_mul_mod]

theorem shr_eq (a b : Nat) : shr a b = (BitVec.ofNat 16 a >>> (b % 16)).toNat := by
  simp [shr, BitVec.toNat_ushiftRight, Nat.shiftRight_eq_div_pow]

theorem toSigned_eq_toInt (a : Nat) : toSigned 16 a = (BitVec.ofNat 16 a).toInt := by
  simp only [toSigned, BitVec.toInt_eq_toNat_cond, BitVec.toNat_ofNat]
  split <;> split <;> omega

theorem sar_eq (a b : Nat) : sar a b = ((BitVec.ofNat 16 a).sshiftRight (b % 16)).toNat := by
  rw [sar, toSigned_eq_toInt, BitVec.sshiftRight, BitVec.toNat_ofInt, Int.shiftRight_eq_div_pow, ofSigned]

/-! ### Functions -/

section
variable {ty : Ty} (hty : ty.isFloat = true)
include hty

/-- An infinity entry is the infinity in IEEE mode and the largest finite value in SAT mode (06 R149). -/
theorem infEntry_eq (e : Env) (neg : Bool) : infEntry e ty neg = (if neg then 0x8000 else 0)
    + if ty = .bf16 then (if e.ieee then 0x7F80 else 0x7F7F) else (if e.ieee then 0x7C00 else 0x7BFF) := by
  unfold infEntry
  generalize e.ieee = ieee
  obtain rfl | rfl := isFloat_iff.mp hty <;> cases ieee <;> cases neg <;> rfl

/-- One and minus one are exact in both float types. -/
theorem bits_fround_one (e : Env) (neg : Bool) : (fround e ty .rne (.fin neg 1 0) 0).bits
    = (if neg then 0x8000 else 0) + if ty = .bf16 then 0x3F80 else 0x3C00 := by
  unfold fround
  generalize e.ieee = ieee
  obtain rfl | rfl := isFloat_iff.mp hty <;> cases ieee <;> cases neg <;> rfl

end

section
variable (e : Env) {ty : Ty} (m : Rnd) {a : Nat} (free r8 : Nat)

theorem functions_of_nan (h : fval ty a = .nan) :
    exp2 e ty m a free r8 = { bits := nanBits ty } ∧ log2 e ty m a free r8 = { bits := nanBits ty }
      ∧ rcp e ty m a free r8 = { bits := nanBits ty } ∧ rsqrt e ty m a free r8 = { bits := nanBits ty }
      ∧ tanh e ty m a free r8 = { bits := nanBits ty } ∧ sigm e ty m a free r8 = { bits := nanBits ty } := by
  simp only [exp2, log2, rcp, rsqrt, tanh, sigm, h, and_self]

theorem functions_of_negative {n : Nat} {k : Int} (h : fval ty a = .fin true (n + 1) k) :
    log2 e ty m a free r8 = invalid ty ∧ rsqrt e ty m a free r8 = invalid ty := by
  simp only [log2, rsqrt, h, Nat.add_one_ne_zero, if_false, if_true, and_self]

theorem functions_of_zero {n : Bool} {k : Int} (h : fval ty a = .fin n 0 k) :
    rcp e ty m a free r8 = { bits := infEntry e ty n, fl := { dz := true } }
      ∧ rsqrt e ty m a free r8 = { bits := infEntry e ty n, fl := { dz := true } }
      ∧ log2 e ty m a free r8 = { bits := infEntry e ty true, fl := { dz := true } } := by
  simp only [rcp, rsqrt, log2, h, if_true, and_self]

theorem functions_of_negInf (h : fval ty a = .inf true) :
    exp2 e ty m a free r8 = { bits := 0 } ∧ sigm e ty m a free r8 = { bits := 0 }
      ∧ tanh e ty m a free r8 = fround e ty .rne (.fin true 1 0) 0 ∧ log2 e ty m a free r8 = invalid ty := by
  simp only [exp2, sigm, tanh, log2, h, and_self]

theorem functions_of_posInf (h : fval ty a = .inf false) :
    exp2 e ty m a free r8 = { bits := infEntry e ty false } ∧ sigm e ty m a free r8 = fround e ty .rne (.fin false 1 0) 0
      ∧ tanh e ty m a free r8 = fround e ty .rne (.fin false 1 0) 0 ∧ log2 e ty m a free r8 = { bits := infEntry e ty false } := by
  simp only [exp2, sigm, tanh, log2, h, and_self]

end

/-! ### QNT and DQ -/

section
variable (e : Env) {ty : Ty} {f : Fmt} (m : Rnd) {a : Nat} (b r8 : Nat)

theorem qnt_of_noCode (h : isFin (fval ty a) = false ∧ Fmt.hasNan f = false) : qnt e ty f m a b r8 = { bits := 0, pb := true } := by
  simp [qnt, h]

theorem pb_qnt_of_code (h : ¬ (isFin (fval ty a) = false ∧ Fmt.hasNan f = false)) : (qnt e ty f m a b r8).pb = false := by
  unfold qnt
  rw [if_neg (by simpa using h)]

theorem crushed_qnt_of_code (h : ¬ (isFin (fval ty a) = false ∧ Fmt.hasNan f = false)) :
    (qnt e ty f m a b r8).crushed = true
      ↔ isFin (fval ty a) = true ∧ isZero (fval ty a) = false ∧ (qnt e ty f m a b r8).bits = 0 := by
  unfold qnt
  rw [if_neg (by simpa using h)]
  simp [and_assoc]

theorem dq_of_nanCode : dq e ty f m a 0xFF r8 = { bits := nanBits ty } := if_pos rfl

theorem dq_of_zero {n : Bool} {k : Int} (hb : b ≠ 0xFF) (h : decode f a = .fin n 0 k) : dq e ty f m a b r8 = { bits := 0 } := by
  simp only [dq, if_neg hb, h, if_true]

end

end Sys2Proof.Lane
end

section
/-! SUPPORT. The lane-wise Valve instructions: copies and bitwise operations, shifts, lane functions, QNT and DQ (06 R146 to R152). -/

namespace Sys2Proof.Machine

open Sys2Proof Sys2Proof.Num

/-! ### The lane type of a word, and outcomes without a fault -/

/-- TY names the float types by the codes 0 and 1, INT16 by 2 and UINT16 by 3 (06 R144). -/
theorem laneTy_iff (w : Nat) :
    ((laneTy w).isFloat = true ↔ wTy w < 2) ∧ (laneTy w = .int16 ↔ wTy w = 2) ∧ (laneTy w = .uint16 ↔ wTy w = 3) := by
  have h : wTy w < 4 := Nat.mod_lt _ (by decide)
  unfold laneTy
  generalize wTy w = n at h
  interval_cases n <;> decide

theorem isFloat_laneTy_iff (w : Nat) : (laneTy w).isFloat = true ↔ wTy w < 2 := (laneTy_iff w).1

theorem floatOnly_eq (w : Nat) (i : LaneIn) (f : Lane.Res) :
    floatOnly w i f = if wTy w < 2 then LaneOut.ofRes f else LaneOut.open_ i := by
  simp only [floatOnly, isFloat_laneTy_iff]

/-- QNT is defined for float lanes and the formats of code 0 to 5. -/
theorem qnt_undefined_iff (w : Nat) :
    (5 < wImm w % 16 ∨ (!(laneTy w).isFloat) = true) ↔ ¬ (wTy w < 2 ∧ wImm w % 16 ≤ 5) := by
  rw [← isFloat_laneTy_iff, not_and_or, Bool.not_eq_true', Bool.not_eq_true, not_le, or_comm]

theorem fault_ite {p : Prop} [Decidable p] {x y : LaneOut} (hx : x.fault = false) (hy : y.fault = false) :
    (if p then x else y).fault = false := by split <;> assumption

/-! ### Completion -/

section
variable (s : State) (c : ChanId) (r : ReedId)

/-- A lane-wise instruction whose meaning is `out` and raises no fault in any lane completes with it. -/
theorem State.laneResult_of_noFault {op : Nat} {i : Instr} {draw : Nat → Bool} {f : Run → Nat → LaneIn → LaneOut}
    (hi : exec i s = .next (s.laneCmd c r op draw f)) {out : Run → Nat → Nat → LaneOut}
    (ho : ∀ x w l, f x w (s.laneIn c r x w (draw w) l) = out x w l) (hf : ∀ x w l, (out x w l).fault = false) :
    s.laneResult i c r op draw (fun _ _ => True) out :=
  s.laneResult_of c r op i draw f hi _ out (fun x w _ l _ _ => ho x w l) (fun x w _ l _ _ => hf x w l)

/-- A function of float lanes completes with its result, and on the integer types with a free value. -/
theorem State.laneResult_floatOnly {op : Nat} {i : Instr} (g : Lane.Env → Lane.Ty → Rnd → Nat → Nat → Nat → Lane.Res)
    (hi : exec i s = .next (s.laneCmd c r op (fun w => drawsFloat w)
      (fun x w i => floatOnly w i (g x.env (laneTy w) (laneRnd w) i.a i.free i.r8)))) :
    s.laneResult i c r op drawsFloat (fun _ _ => True) (fun x w l =>
      let j := s.laneIn c r x w (drawsFloat w) l
      if wTy w < 2 then LaneOut.ofRes (g x.env (Lane.Ty.ofCode (wTy w)) (rndOf (wRnd w)) j.a j.free j.r8)
      else LaneOut.open_ (s.laneIn c r x w false l)) :=
  s.laneResult_of_noFault c r hi (fun _ w _ => floatOnly_eq w _ _) (fun _ _ _ => fault_ite rfl rfl)

end

/-- Settles O1: what each instruction does in a lane is its meaning in the model, and none raises a fault. -/
theorem valveRawInstructions : Obligations.ValveRawInstructions := by
  unfold Obligations.ValveRawInstructions
  intro s c r
  refine ⟨?nop, ?mov, ?movi, ?sel, ?and, ?or, ?xor⟩
  all_goals exact s.laneResult_of_noFault c r rfl (fun _ _ _ => rfl) (fun _ _ _ => rfl)

/-- Settles O2: on its lane types each shift is the shift of 16-bit vectors. -/
theorem valveShifts : Obligations.ValveShifts := by
  unfold Obligations.ValveShifts
  intro s c r
  refine ⟨?shl, ?shr, ?sar⟩
  all_goals refine s.laneResult_of_noFault c r rfl (fun x w l => ?_) (fun _ _ _ => fault_ite rfl rfl)
  case shl =>
    simp only [isFloat_laneTy_iff, Lane.shl_eq, ← Nat.not_lt, ite_not]
    rfl
  case shr =>
    simp only [(laneTy_iff w).2.2, Lane.shr_eq]
    rfl
  case sar =>
    simp only [(laneTy_iff w).2.1, Lane.sar_eq]
    rfl

/-- Settles O7: each function is one of float lanes, and its special cases are those of `Lane`. -/
theorem valveFunctions : Obligations.ValveFunctions := by
  unfold Obligations.ValveFunctions
  refine ⟨fun s c r => ⟨?exp2, ?log2, ?rcp, ?rsqrt, ?tanh, ?sigm⟩, fun e ty m a free r8 hty => ?special⟩
  case exp2 => exact s.laneResult_floatOnly c r Lane.exp2 rfl
  case log2 => exact s.laneResult_floatOnly c r Lane.log2 rfl
  case rcp => exact s.laneResult_floatOnly c r Lane.rcp rfl
  case rsqrt => exact s.laneResult_floatOnly c r Lane.rsqrt rfl
  case tanh => exact s.laneResult_floatOnly c r Lane.tanh rfl
  case sigm => exact s.laneResult_floatOnly c r Lane.sigm rfl
  case special =>
    have hf : ty.isFloat = true := Lane.isFloat_iff.mpr hty
    dsimp only
    rw [← Lane.nanBits_eq hf]
    refine ⟨Lane.functions_of_nan e m free r8, fun n k => Lane.functions_of_negative e m free r8, fun n k h => ?zero, fun h => ?negInf,
      fun h => ?posInf⟩
    case zero =>
      have := Lane.functions_of_zero e m free r8 h
      rwa [Lane.infEntry_eq hf, Lane.infEntry_eq hf] at this
    case negInf =>
      obtain ⟨hexp, hsigm, htanh, hlog⟩ := Lane.functions_of_negInf e m free r8 h
      rw [hexp, hsigm, htanh, hlog, Lane.bits_fround_one hf]
      exact ⟨rfl, rfl, rfl, rfl⟩
    case posInf =>
      obtain ⟨hexp, hsigm, htanh, hlog⟩ := Lane.functions_of_posInf e m free r8 h
      rw [hexp, hsigm, htanh, hlog, Lane.bits_fround_one hf, Lane.infEntry_eq hf]
      exact ⟨Nat.zero_add _, Nat.zero_add _, Nat.zero_add _, Nat.zero_add _⟩

/-- Settles O8: QNT and DQ are the element quantiser and decoder on their formats, which poison, crush and give NaN as told. -/
theorem valveQuantise : Obligations.ValveQuantise := by
  unfold Obligations.ValveQuantise
  refine ⟨fun s c r => ⟨?qnt, ?dq⟩, fun e ty f m a b r8 => ⟨?pb, ?poisoned, ?crushed, ?nan, fun hb n k => Lane.dq_of_zero e m b r8 hb⟩⟩
  case qnt =>
    refine s.laneResult_of_noFault c r rfl (fun x w l => ?_) (fun x w l => ?_)
    · cases Fmt.ofId? (wImm w % 16) with
      | none => rfl
      | some f =>
        simp only [qnt_undefined_iff, ite_not]
        rfl
    · dsimp only
      split
      · exact fault_ite rfl rfl
      · rfl
  case dq =>
    refine s.laneResult_of_noFault c r rfl (fun x w l => ?_) (fun x w l => ?_)
    · cases Fmt.ofId? (wImm w % 16) with
      | none => rfl
      | some f => exact floatOnly_eq w _ _
    · dsimp only
      split
      · exact fault_ite rfl rfl
      · rfl
  case pb =>
    by_cases h : isFin (Lane.fval ty a) = false ∧ Fmt.hasNan f = false
    · exact iff_of_true (congrArg Lane.QRes.pb (Lane.qnt_of_noCode e m b r8 h)) h
    · exact iff_of_false (by simp [Lane.pb_qnt_of_code e m b r8 h]) h
  case poisoned =>
    intro hpb
    by_cases h : isFin (Lane.fval ty a) = false ∧ Fmt.hasNan f = false
    · rw [Lane.qnt_of_noCode e m b r8 h]
      exact ⟨rfl, rfl, rfl⟩
    · simp [Lane.pb_qnt_of_code e m b r8 h] at hpb
  case crushed =>
    by_cases h : isFin (Lane.fval ty a) = false ∧ Fmt.hasNan f = false
    · exact iff_of_false (by simp [Lane.qnt_of_noCode e m b r8 h]) (by simp [h.1])
    · exact Lane.crushed_qnt_of_code e m b r8 h
  case nan =>
    rintro rfl
    exact Lane.dq_of_nanCode e m r8

end Sys2Proof.Machine
end

section
/-! SUPPORT. A fault in a lane ends a Valve run, and the permutes fetch their lanes or fault (06 R146, R151, R154, R156). -/

namespace Sys2Proof.Machine

open Sys2Proof Sys2Proof.Num

/-! ### Faults -/

section
variable {s : State} {c : ChanId} {r : ReedId} {x : Run} {w op : Nat}

/-- The instruction that a run has reached acts on the channel, and the run advances. -/
theorem State.valveOp_of_run (hrun : ((s.chan c).reed r).valve.run = some x) (hab : x.abandoned = false) (hfa : x.failed = false)
    (hst : x.step < x.desc.e) (hw : w = x.prog.getD x.pc 0) (hop : wOp w = op) (body : (Nat → Nat) → Run → Nat → Channel → Channel) :
    s.valveOp c r op body = (s.setChan c ((body (fun i => Config.freeNat (s.freeCtr + i)) x w (s.chan c)).advance c r
      (fun i => Config.freeNat (s.freeCtr + (i + 256))))).drew valveFree := by
  unfold State.valveOp
  dsimp only
  rw [hrun]
  dsimp only
  rw [← hw, if_neg (by simp [hab, hfa, hst, hop])]

/-- A run that is over does not advance. -/
theorem Channel.advance_of_none {k : Channel} (h : (k.reed r).valve.run = none) (free : Nat → Nat) : k.advance c r free = k := by
  rw [Channel.advance, h]

/-- The error that a fault of a Valve writes (06 R156). -/
def valveFaultErr (r : ReedId) : RawErr := { cause := .valveFault, cls := .S, unit := 1, uidx := r.val, detail := anyDetail }

/-- A fault ends the run with its status word and an error of class S (06 R154, R156). -/
theorem Channel.valveFault_ends {k : Channel} (h : (k.reed r).valve.run = some x) (pc lane : Nat) :
    ((k.valveFault r pc lane).reed r).valve.run = none
      ∧ ((k.valveFault r pc lane).reed r).valve.status = x.statusWord (some (pc, lane))
      ∧ (k.valveFault r pc lane).wroteErr 1 r.val .valveFault .S := by
  unfold Channel.valveFault
  rw [h]
  exact ⟨by simp [Channel.countValve], by simp [Channel.countValve],
    Channel.wroteErr_of_has (x := valveFaultErr r) (Errors.has_push_self _ _)⟩

/-- The first lane that raises a fault ends a lane-wise instruction. -/
theorem Channel.laneOp_of_fault (k : Channel) (c : ChanId) (r : ReedId) (free : Nat → Nat) (x : Run) (w : Nat)
    (f : LaneIn → LaneOut) {l : Nat} (hl : l < 256) (he : x.executes w l = true)
    (hf : ∀ j, j ≤ l → x.executes w j = true →
      (f { lane := j, a := x.lane (wVa w) j, b := x.second w j, c := x.lane (wVc w) j, free := free j }).fault = decide (j = l)) :
    k.laneOp c r free x w false f = k.valveFault r x.pc l := by
  unfold Channel.laneOp
  dsimp only
  generalize houts : List.map (fun p => Option.map Prod.fst p) _ = outs
  have out : ∀ j (hj : j < outs.length), j ≤ l → outs[j].any LaneOut.fault = decide (j = l) := by
    intro j hj hjl
    subst houts
    simp only [List.getElem_map, List.getElem_range]
    by_cases hx : x.executes w j = true
    · simpa [hx] using hf j hjl hx
    · have : j ≠ l := by rintro rfl; exact hx he
      simp [hx, this]
  have len : outs.length = 256 := by simp [← houts]
  have first : outs.zipIdx.find? (fun p => p.1.any LaneOut.fault) = some (outs[l], l) := by
    rw [List.find?_eq_some_iff_getElem]
    refine ⟨by simpa using out l (by omega) le_rfl, l, by simpa [len] using hl, by simp, fun j hj => ?_⟩
    have := out j (by omega) hj.le
    simpa [hj.ne] using this
  rw [first]

/-- A lane-wise instruction that draws nothing and whose first fault is in lane `l` ends the run. -/
theorem State.laneCmd_faults {i : Instr} {f : Run → Nat → LaneIn → LaneOut}
    (hi : exec i s = .next (s.laneCmd c r op (fun _ => false) f)) (h : s.atInstr c r op x w) {l : Nat} (hl : l < 256)
    (he : x.executes w l = true)
    (hf : ∀ j, j ≤ l → x.executes w j = true → (f x w (s.laneIn c r x w false j)).fault = decide (j = l)) :
    ∃ t, exec i s = .next t ∧ s.onlyChan c t ∧ ((t.chan c).reed r).valve.run = none
      ∧ ((t.chan c).reed r).valve.status = x.statusWord (some (x.pc, l)) ∧ (t.chan c).wroteErr 1 r.val .valveFault .S := by
  obtain ⟨hrun, hab, hfa, hst, hw, hop, -⟩ := h
  have ends := Channel.valveFault_ends hrun x.pc l
  rw [State.laneCmd, State.valveOp_of_run hrun hab hfa hst hw hop, Channel.laneOp_of_fault _ _ _ _ _ _ _ hl he hf,
    Channel.advance_of_none ends.1] at hi
  refine ⟨_, hi, ⟨rfl, fun d hd => State.chan_setChan_ne _ _ hd⟩, ?_⟩
  rw [State.chan_drew, State.chan_setChan_self]
  exact ends

end

/-! ### Permutes -/

/-- In strict mode an index beyond VL is a fault, and nothing else is (06 R151). -/
theorem fault_permLane_strict {a : Nat → Nat} {vl ix : Nat} : (permLane a true vl ix).fault = !decide (ix < vl) := by
  unfold permLane
  by_cases h : ix < vl <;> simp [h, rawOut]

/-- Of the lanes up to the first whose index lies beyond VL, only that one raises the fault. -/
theorem fault_permLane_first {a : Nat → Nat} {strict : Bool} {vl l j : Nat} {ix : Nat → Nat} {ex : Nat → Bool} (hs : strict = true)
    (hl : vl ≤ ix l) (before : ∀ j, j < l → ex j = true → ix j < vl) (hj : j ≤ l) (he : ex j = true) :
    (permLane a strict vl (ix j)).fault = decide (j = l) := by
  subst hs
  rw [fault_permLane_strict]
  obtain rfl | hlt := hj.eq_or_lt
  · simpa using hl
  · simpa [hlt.ne] using before j hlt he

/-- A permute whose indices are in range, or that runs in fast mode, fetches its lanes. -/
theorem permLane_eq {a : Nat → Nat} {strict : Bool} {vl ix : Nat} (h : strict = false ∨ ix < vl) :
    permLane a strict vl ix = if ix < vl then { bits := some (a ix) } else { bits := some 0, oor := true } := by
  obtain rfl | h := h
  · rfl
  · rw [if_pos h]
    exact if_pos h

/-- Settles O4: the lanes of a permute fetch what their indices name, and in strict mode the first index beyond VL ends the run. -/
theorem valvePermutes : Obligations.ValvePermutes := by
  unfold Obligations.ValvePermutes
  intro s c r
  refine ⟨?perm, ?permx, ?permFault, ?permxFault⟩
  case perm =>
    refine s.laneResult_of c r 0x12 _ _ _ rfl _ _ (fun x w ok l hl he => permLane_eq (ok.imp_right fun h => h l hl he))
      (fun x w _ l _ _ => fault_ite rfl rfl)
  case permx =>
    refine s.laneResult_of c r 0x13 _ _ _ rfl _ _ (fun x w ok l hl he => ?_)
      (fun x w _ l _ _ => fault_ite rfl (fault_ite rfl rfl))
    by_cases big : 256 ≤ wImm w
    · simp only [if_pos big]
    · simp only [if_neg big]
      exact permLane_eq ((ok.resolve_left big).imp_right fun h => h l hl he)
  case permFault =>
    rintro x w l h strict ⟨hl, he, hix, before⟩
    exact State.laneCmd_faults rfl h hl he fun j hj hje => fault_permLane_first strict hix before hj hje
  case permxFault =>
    rintro x w l h strict small ⟨hl, he, hix, before⟩
    refine State.laneCmd_faults rfl h hl he fun j hj hje => ?_
    simp only [if_neg (Nat.not_le.mpr small)]
    exact fault_permLane_first (ix := fun j => j ^^^ wImm w) strict hix before hj hje

end Sys2Proof.Machine
end

section
/-! SUPPORT. What the streams and the Drone of a Valve leave alone: all but memories, Reeds, errors and what the Tuner observes, and of
their own Reed its run, output slots and status words (06 R140, R153, R155 to R159). -/

namespace Sys2Proof.Machine

open Sys2Proof Sys2Proof.Num

/-! ### The relation -/

/-- Between two channels the Valve of Reed `r` has worked on data: memories, Reeds, errors and what the Tuner observes may differ, but not
the Reed's run, output slots and status words. -/
structure Channel.ValveWorks (r : ReedId) (k k' : Channel) : Prop where
  frame : k.dataFrame k'
  run : (k'.reed r).valve.run = (k.reed r).valve.run
  slots : (k'.reed r).slots = (k.reed r).slots
  words : (k'.reed r).words = (k.reed r).words

namespace Channel.dataFrame

theorem trans {a b c : Channel} (h : a.dataFrame b) (h' : b.dataFrame c) : a.dataFrame c :=
  Eq.trans h' (congrArg (fun (k : Channel) => { k with mem := c.mem, reeds := c.reeds, err := c.err, tun := c.tun }) h)

end Channel.dataFrame

namespace Channel.ValveWorks

variable {r : ReedId} {a b c k k' : Channel}

theorem refl (k : Channel) : k.ValveWorks r k := ⟨rfl, rfl, rfl, rfl⟩

theorem trans (h : a.ValveWorks r b) (h' : b.ValveWorks r c) : a.ValveWorks r c :=
  ⟨h.frame.trans h'.frame, h'.run.trans h.run, h'.slots.trans h.slots, h'.words.trans h.words⟩

/-- Changes of memory, errors and what the Tuner observes. -/
theorem of_fields (hk : k' = { k with mem := k'.mem, err := k'.err, tun := k'.tun }) : k.ValveWorks r k' := by
  have hr : k'.reed r = k.reed r := (congrArg (Channel.reed · r) hk :)
  have hf : k'.reeds = k.reeds := (congrArg Channel.reeds hk :)
  refine ⟨?_, by rw [hr], by rw [hr], by rw [hr]⟩
  rw [Channel.dataFrame, hf]
  exact hk

theorem modReed (k : Channel) (r : ReedId) {f : Reed → Reed} (hv : (f (k.reed r)).valve.run = (k.reed r).valve.run)
    (hs : (f (k.reed r)).slots = (k.reed r).slots) (hw : (f (k.reed r)).words = (k.reed r).words) : k.ValveWorks r (k.modReed r f) :=
  ⟨rfl, by simpa using hv, by simpa using hs, by simpa using hw⟩

theorem modValve (k : Channel) (r : ReedId) {f : Valve → Valve} (h : (f (k.reed r).valve).run = (k.reed r).valve.run) :
    k.ValveWorks r (k.modValve r f) := modReed k r h rfl rfl

theorem ite {p : Prop} [Decidable p] {x y : Channel} (hx : k.ValveWorks r x) (hy : k.ValveWorks r y) :
    k.ValveWorks r (if p then x else y) := by split <;> assumption

/-- A fold whose every step is work of the Valve. -/
theorem foldl {α β : Type} {g : α → Channel} {f : α → β → α} (hf : ∀ x y, (g x).ValveWorks r (g (f x y))) (l : List β) (x : α) :
    (g x).ValveWorks r (g (l.foldl f x)) :=
  foldl_keeps (P := fun y => (g x).ValveWorks r (g y)) (fun y z hy => hy.trans (hf y z)) l (.refl _)

end Channel.ValveWorks

/-! ### Errors, writes and counts -/

section
variable (k : Channel) (c : ChanId) (r : ReedId)

theorem Channel.frameErrors_valveWorks : k.ValveWorks r k.frameErrors :=
  .trans (b := { k with mem := { k.mem with hits := [] } }) (.of_fields rfl)
    (.foldl (g := id) (fun _ _ => .of_fields rfl) k.mem.hits _)

theorem Channel.writeBytes_valveWorks (unit uidx e space addr : Nat) (bs : List Byte) :
    k.ValveWorks r (k.writeBytes unit uidx r e space addr bs) := by
  have fault : k.ValveWorks r (k.addrFault unit uidx addr) := .of_fields rfl
  unfold Channel.writeBytes
  dsimp only
  refine .ite (.refl k) (.ite (.ite (.of_fields rfl) fault) (.ite (.ite (.modReed k r rfl rfl rfl) fault) (.ite ?_ fault)))
  exact .trans (b := { k with mem := k.mem.store space addr bs }) (.of_fields rfl) (Channel.frameErrors_valveWorks _ r)

theorem Channel.putChord_valveWorks (entry tIx n : Nat) (ch : Chord) : k.ValveWorks r (k.putChord r entry tIx n ch) :=
  k.writeBytes_valveWorks r _ _ _ _ _ _

theorem Channel.putDrone_valveWorks (x : Run) (p : Nat) (f : Fmt) (ch : Chord) : k.ValveWorks r (k.putDrone r x p f ch) := by
  unfold Channel.putDrone
  split
  · exact .refl k
  · exact k.writeBytes_valveWorks r _ _ _ _ _ _

theorem Channel.observe_valveWorks (layer : Nat) (f : Obs → Obs) : k.ValveWorks r (k.observe layer f) := .of_fields rfl

theorem Channel.countValve_valveWorks (n : ValveCnt) : k.ValveWorks r (k.countValve r n) := .modValve k r rfl

theorem Channel.stepEvents_valveWorks (x : Run) : k.ValveWorks r (k.stepEvents r x) := by
  have count := k.countValve_valveWorks r x.stepCounts
  exact .ite count (count.trans (Channel.observe_valveWorks _ r _ _))

theorem Channel.countQuant_valveWorks (layer place : Nat) (n : QGrid.Counts) : k.ValveWorks r (k.countQuant r layer place n) :=
  .trans (.modReed k r rfl rfl rfl) (.of_fields rfl)

/-! ### Output streams -/

theorem Channel.quantDraw_valveWorks (draws : Nat → Bool) : k.ValveWorks r (k.quantDraw c r draws).2 := by
  unfold Channel.quantDraw
  dsimp only
  exact .modValve k r rfl

theorem Channel.quantGroup_valveWorks (free : Nat → Nat) (x : Run) (st : StreamDesc) (group : List HeldChord) :
    k.ValveWorks r (k.quantGroup c r free x st group) := by
  unfold Channel.quantGroup
  dsimp only
  refine .trans ?_ (Channel.countQuant_valveWorks _ r _ _ _)
  refine .trans ?draw (.foldl (g := id) (fun k _ => k.putChord_valveWorks r _ _ _ _) _ _)
  refine .foldl (g := fun (a : List (List Nat) × Channel) => a.2) (fun a h => ?_) group ([], k)
  split
  · exact a.2.quantDraw_valveWorks c r _
  · exact .refl _

theorem Channel.writeRaw_valveWorks (free : Nat → Nat) (x : Run) (st : StreamDesc) (group : List HeldChord) :
    k.ValveWorks r (k.writeRaw r free x st group) :=
  .foldl (g := id) (fun k _ => k.putChord_valveWorks r _ _ _ _) _ _

theorem Channel.streamFlush_valveWorks (free : Nat → Nat) (x : Run) (j : Nat) (st : StreamDesc) (force : Bool) :
    k.ValveWorks r (k.streamFlush c r free x j st force).1 :=
  .foldl (g := id) (fun k _ => .ite (k.writeRaw_valveWorks r _ x st _) (k.quantGroup_valveWorks c r _ x st _)) _ _

end

/-! ### A run and its channel at the end of an element step -/

/-- Between two runs output streams have been written: only what they hold back and which chords are written differ (06 R153). -/
def Run.Wrote (x x' : Run) : Prop := x' = { x with held := x'.held, written := x'.written }

/-- Between two runs streams and Drone have done their work at the end of an element step (06 R153, R157). -/
def Run.Emitted (x x' : Run) : Prop :=
  x' = { x with drones := x'.drones, held := x'.held, written := x'.written, sums := x'.sums, qpsn := x'.qpsn }

theorem Run.Wrote.refl (x : Run) : x.Wrote x := rfl

theorem Run.Wrote.trans {x y z : Run} (h : x.Wrote y) (h' : y.Wrote z) : x.Wrote z :=
  Eq.trans h' (congrArg (fun (x : Run) => { x with held := z.held, written := z.written }) h)

theorem Run.Wrote.emitted {x y : Run} (h : x.Wrote y) : x.Emitted y := by
  rw [Run.Wrote] at h
  rw [h]
  rfl

theorem Run.Emitted.refl (x : Run) : x.Emitted x := rfl

theorem Run.Emitted.trans {x y z : Run} (h : x.Emitted y) (h' : y.Emitted z) : x.Emitted z :=
  Eq.trans h' (congrArg (fun (x : Run) =>
    { x with drones := z.drones, held := z.held, written := z.written, sums := z.sums, qpsn := z.qpsn }) h)

section
variable (k : Channel) (c : ChanId) (r : ReedId) (free : Nat → Nat) (x : Run)

theorem Channel.streamOut_works (j : Nat) : k.ValveWorks r (k.streamOut c r free x j).1 ∧ x.Wrote (k.streamOut c r free x j).2 := by
  unfold Channel.streamOut
  split
  · exact ⟨.refl k, .refl x⟩
  · dsimp only
    split
    · exact ⟨k.putChord_valveWorks r _ _ _ _, rfl⟩
    · split
      · exact ⟨.refl k, .refl x⟩
      · exact ⟨k.streamFlush_valveWorks c r _ _ _ _ _, rfl⟩

theorem Channel.poisonEvents_works : k.ValveWorks r (k.poisonEvents r x).1 ∧ x.Emitted (k.poisonEvents r x).2 := by
  unfold Channel.poisonEvents
  dsimp only
  split
  · dsimp only
    exact ⟨(k.countValve_valveWorks r _).trans (Channel.observe_valveWorks _ r _ _), rfl⟩
  · exact ⟨.refl k, .refl x⟩

theorem Channel.droneStep_works (last : Bool) (j : Nat) :
    k.ValveWorks r (k.droneStep r free x last j).1 ∧ x.Emitted (k.droneStep r free x last j).2 := by
  unfold Channel.droneStep
  dsimp only
  split
  · exact ⟨.refl k, rfl⟩
  · exact ⟨.trans (.ite (.refl k) (k.countValve_valveWorks r _)) (.ite (.refl _) (.modValve _ r rfl)), rfl⟩

/-- The work of streams and Drone at the end of an element step, one after the other. -/
def Channel.stepWork : Channel × Run :=
  let s := k.poisonEvents r x
  let s := s.1.streamOut c r free s.2 0
  let s := s.1.streamOut c r (fun i => free (i + groupFree)) s.2 1
  (List.range 8).foldl (fun (t : Channel × Run) j =>
    t.1.droneStep r (fun i => free (i + 2 * groupFree)) t.2 (decide (s.2.desc.e ≤ s.2.step + 1)) j) s

theorem Channel.stepWork_works :
    k.ValveWorks r (k.stepWork c r free x).1 ∧ x.Emitted (k.stepWork c r free x).2 := by
  refine foldl_keeps (P := fun (t : Channel × Run) => k.ValveWorks r t.1 ∧ x.Emitted t.2) (fun t j h => ?drone) _ ?streams
  case drone =>
    have drone := t.1.droneStep_works r (fun i => free (i + 2 * groupFree)) t.2
    exact ⟨h.1.trans (drone _ j).1, h.2.trans (drone _ j).2⟩
  case streams =>
    have poison := k.poisonEvents_works r x
    have first := (k.poisonEvents r x).1.streamOut_works c r free (k.poisonEvents r x).2 0
    have second := Channel.streamOut_works ((k.poisonEvents r x).1.streamOut c r free (k.poisonEvents r x).2 0).1 c r
      (fun i => free (i + groupFree)) ((k.poisonEvents r x).1.streamOut c r free (k.poisonEvents r x).2 0).2 1
    exact ⟨(poison.1.trans first.1).trans second.1, (poison.2.trans first.2.emitted).trans second.2.emitted⟩

/-- A run at the start of its next element step (06 R140, R141, R150). -/
def Run.nextStep (x : Run) : Run :=
  { x with step := x.step + 1, pc := 0, pb := List.replicate 256 false, xf := List.replicate 256 0, oorLanes := []
           gather := [none, none] }

theorem Channel.endElementStep_eq : k.endElementStep c r free x
    = ((k.stepWork c r free x).1.stepEvents r (k.stepWork c r free x).2).modRun r (fun _ => (k.stepWork c r free x).2.nextStep) := by
  unfold Channel.endElementStep Channel.stepWork
  generalize List.range 8 = accumulators
  rfl

variable {k r x} in
/-- At the end of an element step the next one is up, and streams and Drone have done their work. -/
theorem Channel.endElementStep_works (h : (k.reed r).valve.run.isSome = true) :
    k.dataFrame (k.endElementStep c r free x) ∧ ∃ y, x.Emitted y
      ∧ ((k.endElementStep c r free x).reed r).valve.run = some y.nextStep := by
  obtain ⟨work, emitted⟩ := k.stepWork_works c r free x
  have works := work.trans (Channel.stepEvents_valveWorks _ r (k.stepWork c r free x).2)
  obtain ⟨z, hz⟩ := Option.isSome_iff_exists.mp h
  rw [Channel.endElementStep_eq]
  generalize (k.stepWork c r free x).1.stepEvents r (k.stepWork c r free x).2 = k' at works ⊢
  refine ⟨works.frame.trans rfl, _, emitted, ?_⟩
  simp only [Channel.modRun, Channel.reed_modValve_self, works.run, hz, Option.map_some]

end

end Sys2Proof.Machine
end

section
/-! SUPPORT. The Valve instructions IN, OUT and DRN (06 R146, R153, R157, R158, R161). -/

namespace Sys2Proof.Machine

open Sys2Proof Sys2Proof.Num

/-! ### The next instruction of a run -/

section
variable {s : State} {k : Channel} {c : ChanId} {r : ReedId} {x : Run} {w op : Nat}

/-- A change of the run of a Valve that has one. -/
theorem Channel.modRun_of_run (h : (k.reed r).valve.run = some x) (f : Run → Run) :
    k.modRun r f = k.modValve r (fun v => { v with run := some (f x) }) :=
  Channel.modValve_congr k r (by rw [h]; rfl)

theorem Channel.modReed_eq_self {f : Reed → Reed} (h : f (k.reed r) = k.reed r) : k.modReed r f = k := by
  rw [Channel.modReed, h, Channel.reed, Vector.get_eq_getElem, Vector.set_getElem_self]

theorem Channel.modRun_id (k : Channel) (r : ReedId) : k.modRun r id = k := by
  rw [Channel.modRun, Channel.modValve]
  refine Channel.modReed_eq_self ?_
  rw [Option.map_id, id]

theorem Channel.run_modRun (f : Run → Run) : ((k.modRun r f).reed r).valve.run = (k.reed r).valve.run.map f := by
  rw [Channel.modRun, Channel.reed_modValve_self]

/-- A run that is abandoned or failed does not advance (06 R161). -/
theorem Channel.advance_of_stopped (h : (k.reed r).valve.run = some x) (hs : x.abandoned = true ∨ x.failed = true) (free : Nat → Nat) :
    k.advance c r free = k := by
  rw [Channel.advance, h]
  exact if_pos (by simpa using hs)

theorem Channel.advance_of_lt (h : (k.reed r).valve.run = some x) (hab : x.abandoned = false) (hfa : x.failed = false)
    (hpc : x.pc + 1 < x.desc.n) (free : Nat → Nat) : k.advance c r free = k.modRun r (fun x => { x with pc := x.pc + 1 }) := by
  rw [Channel.advance, h]
  dsimp only
  rw [if_neg (by simp [hab, hfa]), if_pos hpc]

theorem State.atInstr.valveOp_eq (h : s.atInstr c r op x w) (body : (Nat → Nat) → Run → Nat → Channel → Channel) :
    s.valveOp c r op body = (s.setChan c ((body (fun i => Config.freeNat (s.freeCtr + i)) x w (s.chan c)).advance c r
      (fun i => Config.freeNat (s.freeCtr + (i + 256))))).drew valveFree := by
  obtain ⟨hrun, hab, hfa, hst, hw, hop, -⟩ := h
  exact State.valveOp_of_run hrun hab hfa hst hw hop body

/-- An instruction that changes the run only steps it on. -/
theorem State.onlyRun_valveOp (h : s.atInstr c r op x w) {body : (Nat → Nat) → Run → Nat → Channel → Channel} {f : Run → Run}
    (hbody : ∀ free, body free x w (s.chan c) = (s.chan c).modRun r f)
    (hf : f x = { x with gather := (f x).gather, drones := (f x).drones }) :
    s.onlyRun c r (s.valveOp c r op body) { f x with pc := x.pc + 1 } := by
  obtain ⟨hrun, hab, hfa, -, -, -, hpc⟩ := id h
  have run : (((s.chan c).modRun r f).reed r).valve.run = some (f x) := by rw [Channel.run_modRun, hrun]; rfl
  have pc : (f x).pc = x.pc := (congrArg Run.pc hf :)
  rw [h.valveOp_eq, hbody, Channel.advance_of_lt run ((congrArg Run.abandoned hf :).trans hab) ((congrArg Run.failed hf :).trans hfa)
    (by rw [pc, (congrArg Run.desc hf :)]; exact hpc)]
  refine ⟨⟨rfl, fun d hd => State.chan_setChan_ne _ _ hd⟩, ?_⟩
  rw [State.chan_drew, State.chan_setChan_self, Channel.modRun_of_run run, Channel.modRun_of_run hrun, Channel.modValve_modValve, pc]

/-- An instruction that acts lane by lane on a channel `k` whose lanes do `out` steps the run on with that result. -/
theorem State.onlyLanes_valveOp (h : s.atInstr c r op x w) {body : (Nat → Nat) → Run → Nat → Channel → Channel} {draw : Bool}
    {f : LaneIn → LaneOut} (hbody : ∀ free, body free x w (s.chan c) = k.laneOp c r free x w draw f) {out : Nat → LaneOut}
    (ho : ∀ l, f ((s.setChan c k).laneIn c r x w draw l) = out l) (hf : ∀ l, (out l).fault = false) :
    ∃ x', x.laneStep x' w out ∧ (s.setChan c k).onlyLanes c r (s.valveOp c r op body) x w draw out x' := by
  obtain ⟨-, hab, hfa, -, -, -, hpc⟩ := id h
  obtain ⟨x₁, lfsr, hk, hl0, hl, ha₁, hf₁, hp₁, hstep⟩ :=
    Channel.laneOp_run k c r (fun i => Config.freeNat (s.freeCtr + i)) x w draw f out
      (fun l _ _ => (ho l) ▸ (by unfold State.laneIn; rw [State.chan_setChan_self]; cases draw <;> rfl)) (fun l _ _ => hf l)
  have hd : x₁.desc = x.desc := (congrArg Run.desc hstep.1 :)
  have run : (((k.modValve r (fun v => { v with run := some x₁, lfsr := lfsr })).countLanes r x w out).reed r).valve.run = some x₁ := by
    rw [Channel.run_countLanes, Channel.reed_modValve_self]
  refine ⟨{ x₁ with pc := x.pc + 1 }, hstep, ?_⟩
  rw [h.valveOp_eq, hbody, hk, Channel.advance_of_lt run (ha₁.trans hab) (hf₁.trans hfa) (by rw [hp₁, hd]; exact hpc),
    Channel.modRun_countLanes, Channel.modRun, Channel.modValve_modValve]
  refine ⟨⟨rfl, fun d hd => by simp [hd]⟩, lfsr, ?_, fun h => ?_, fun l h => ?_⟩
  · simp [hp₁]
  · rw [State.chan_setChan_self]; exact hl0 h
  · rw [State.chan_setChan_self]; exact hl l h

end

/-! ### IN -/

section
variable {s : State} {k : Channel} {c : ChanId} {r : ReedId} {x : Run} {w : Nat}

/-- A run is stopped: its Valve holds it, but abandoned or ended by an error (06 R161). -/
def Channel.RunStopped (k : Channel) (r : ReedId) : Prop :=
  ∃ x, (k.reed r).valve.run = some x ∧ (x.abandoned = true ∨ x.failed = true)

theorem Channel.runStopped_abandonRun {y : Run} (h : (k.reed r).valve.run = some y) (x : Run) (redo : Option Redo) :
    (k.abandonRun r x redo).RunStopped r := by
  unfold Channel.abandonRun
  split
  · exact ⟨_, by rw [Channel.run_modRun, h]; rfl, .inr rfl⟩
  · have tagged := (Channel.tagEntry_loads (k.raise { cause := .valveRestart, cls := .D, unit := 1, uidx := r.val, detail := anyDetail })
      r x.entry .errorRetry).works.valve
    exact ⟨_, by rw [Channel.run_modRun, tagged, Channel.reed_raise, h]; rfl, .inl rfl⟩

/-- What a stream gives to the run of a Valve: a chord, which leaves the Valve as it is, or the end of the run's work (06 R161). -/
def Channel.Delivers (k : Channel) (r : ReedId) (given : ChordRead × Fmt × XNum × Bool × Channel) : Prop :=
  (given.2.2.2.1 = true → (given.2.2.2.2.reed r).valve = (k.reed r).valve) ∧ (given.2.2.2.1 = false → given.2.2.2.2.RunStopped r)

theorem Channel.delivers_streamChord {y : Run} (h : (k.reed r).valve.run = some y) (x : Run) (st : StreamDesc) :
    k.Delivers r (k.streamChord r x st) := by
  have stops : ∀ {k' : Channel}, k.Loads r k' → ∀ redo, k.Delivers r (.fault, .bf16, zero false, false, k'.abandonRun r x redo) :=
    fun hl redo => ⟨nofun, fun _ => Channel.runStopped_abandonRun (hl.works.valve ▸ h) x redo⟩
  have goes : ∀ {k' : Channel} {cr f ts}, k.Loads r k' → k.Delivers r (cr, f, ts, true, k') := fun hl => ⟨fun _ => hl.works.valve, nofun⟩
  unfold Channel.streamChord
  dsimp only
  split
  · refine iteInduction (motive := k.Delivers r) (fun _ => stops ?_ _) fun _ => goes (.refl k)
    exact (k.readError_loads r _ _ _ _ _ _ _).trans (Channel.countAt_loads _ r _ _ _)
  · split
    · exact stops (k.raise_loads r _) _
    · next ix want _ =>
      have read := k.readChord_loads r 1 r.val (k.tensor ix) (st.first + x.step) x.redone
      have count := fun (k : Channel) => Channel.Loads.modReed k r (f := fun y => { y with cnt := y.cnt.add { fmtFault := 1 } })
        rfl rfl rfl (ReedCnt.sameRetries_add _ rfl rfl rfl)
      have observe : ∀ (k : Channel) layer f, k.Loads r (k.observe layer f) := fun k _ _ => .of_fields rfl (.refl _) fun _ h => h
      refine iteInduction (motive := k.Delivers r) (fun _ => stops (read.trans ?parity) _) fun _ =>
        iteInduction (motive := k.Delivers r) (fun _ => stops (read.trans (Channel.raise_loads _ r _)) _) fun _ => goes ?bad
      case parity => exact .ite id (Channel.countAt_loads _ r _ _ _) (.refl _)
      case bad => exact .ite id (read.trans (((count _).trans (Channel.countAt_loads _ r _ _ _)).trans (observe _ _ _))) read

variable {st : StreamDesc} {cr : ChordRead} {f : Fmt} {ts : XNum}

/-- The codes of a chord as a raw stream delivers them: zeros when it cannot be used (06 R153). -/
def rawIn (cr : ChordRead) : List Nat := match cr with | .good ch => ch.codes | _ => List.replicate 256 0

/-- What a lane of a decoding stream receives (06 R153). -/
def decodedIn (x : Run) (st : StreamDesc) (f : Fmt) (ts : XNum) (cr : ChordRead) (i : LaneIn) : LaneOut :=
  LaneOut.ofRes (toLane x.env (Lane.Ty.ofCode st.ty) (rndOf st.rnd)
    (plusZero ((Chord.readElements f ts cr).getD i.lane (zero false))) i.r8)

theorem Channel.valveIn_of_none (h : x.desc.ins.getD (wImm w % 4) none = none) (free : Nat → Nat) :
    k.valveIn c r free x w = k.laneOp c r free x w false LaneOut.open_ := by
  rw [Channel.valveIn, h]

theorem Channel.valveIn_of_stop {k' : Channel} (h : x.desc.ins.getD (wImm w % 4) none = some st)
    (hc : k.streamChord r x st = (cr, f, ts, false, k')) (free : Nat → Nat) : k.valveIn c r free x w = k' := by
  rw [Channel.valveIn, h]
  dsimp only
  rw [hc]
  rfl

theorem Channel.valveIn_of_chord {k' : Channel} (h : x.desc.ins.getD (wImm w % 4) none = some st)
    (hc : k.streamChord r x st = (cr, f, ts, true, k')) (free : Nat → Nat) :
    k.valveIn c r free x w = k'.laneOp c r free x w (st.mode != 0 && rndOf st.rnd == .sr)
      (fun i => if st.mode = 0 then { bits := some ((rawIn cr).getD i.lane 0) } else decodedIn x st f ts cr i) := by
  rw [Channel.valveIn, h]
  dsimp only
  rw [hc]
  by_cases hm : st.mode = 0
  · simp only [hm, if_true, bne_self_eq_false, Bool.false_and]
    rfl
  · simp only [if_neg hm, bne_iff_ne.mpr hm, Bool.true_and]
    rfl

end

/-! ### OUT -/

/-- The lanes that a stream has gathered in an element step after an OUT (06 R153). -/
def Run.gathered (x : Run) (w : Nat) : List Nat :=
  let old := match x.gather.getD (wImm w % 2) none with | some g => g.2 | none => List.replicate 256 0
  (old.zipIdx).map (fun (o, l) => if x.executes w l then x.lane (wVa w) l else o)

theorem Run.getD_gathered {x : Run} {w l : Nat} (hg : ∀ g, x.gather.getD (wImm w % 2) none = some g → g.2.length = 256) (hl : l < 256)
    (he : x.executes w l = true) : (x.gathered w).getD l 0 = x.lane (wVa w) l := by
  unfold Run.gathered
  generalize hold : (match x.gather.getD (wImm w % 2) none with | some g => g.2 | none => List.replicate 256 0) = old
  have len : old.length = 256 := by
    subst hold
    split
    · next g h => exact hg g h
    · exact List.length_replicate
  simp [List.getD_eq_getElem?_getD, len, hl, he]

theorem Channel.valveOut_eq (k : Channel) (r : ReedId) (x : Run) (w : Nat) :
    k.valveOut r x w = k.modRun r (fun y => { y with gather := setAt y.gather (wImm w % 2) (some (wTy w, x.gathered w)) }) := rfl

/-! ### DRN -/

theorem getD_modAt_self {α : Type} (a : List α) {i : Nat} (f : α → α) (d : α) (h : i < a.length) :
    (modAt a i f).getD i d = f (a.getD i d) := by
  simp [modAt, List.getD_eq_getElem?_getD, h]

theorem getD_modAt_ne {α : Type} (a : List α) {i j : Nat} (f : α → α) (d : α) (h : j ≠ i) : (modAt a i f).getD j d = a.getD j d := by
  simp [modAt, List.getD_eq_getElem?_getD, h.symm]

theorem groupLanes_pos (code : Nat) : 0 < groupLanes code := by
  unfold groupLanes
  split <;> decide

/-- The lanes of group `g` are the `n` lanes from `n * g` on. -/
theorem take_drop_range_eq_filter {n : Nat} (hn : 0 < n) (g m : Nat) :
    ((List.range m).drop (n * g)).take n = (List.range m).filter (fun l => l / n == g) := by
  induction m with
  | zero => simp
  | succ m ih =>
    have div : (m / n == g) = true ↔ n * g ≤ m ∧ m < n * g + n := by
      rw [beq_iff_eq, Nat.div_eq_iff hn, Nat.mul_comm g n]
      omega
    rw [List.range_succ, List.filter_append, ← ih, List.drop_append, List.take_append, List.length_range, List.length_drop,
      List.length_range]
    congr 1
    rw [List.filter_singleton]
    by_cases h : n * g ≤ m ∧ m < n * g + n
    · rw [div.mpr h, Nat.sub_eq_zero_of_le h.1]
      exact List.take_of_length_le (by simp; omega)
    · rw [eq_false_of_ne_true (mt div.mp h)]
      obtain h | h := not_and_or.mp h
      · rw [List.drop_of_length_le (by simp; omega)]
        exact List.take_nil
      · rw [Nat.sub_eq_zero_of_le (show n ≤ m - n * g by omega)]
        rfl

/-- A tap folds the taps of each group into it. -/
theorem DroneAcc.getD_groups_tap {a : DroneAcc} {g : Nat} (hg : g < a.groups.length) (strict : Bool) (d : DroneDesc)
    (taps : List (Option XNum)) : (a.tap strict d taps).groups.getD g {} = (a.groups.getD g {}).fold strict d.opr a.steps
      (groupLanes d.group * g) ((taps.drop (groupLanes d.group * g)).take (groupLanes d.group)) := by
  have some : a.groups.isEmpty = false := List.isEmpty_eq_false_iff_exists_mem.mpr ⟨_, List.getElem_mem hg⟩
  unfold DroneAcc.tap
  simp [some, hg]

/-- The taps of a group that are there are those of its executing lanes. -/
theorem length_filter_isSome_taps {n : Nat} (hn : 0 < n) (g : Nat) (ex : Nat → Bool) (v : Nat → XNum) :
    (((((List.range 256).map (fun l => if ex l then some (v l) else none)).drop (n * g)).take n).filter Option.isSome).length
      = ((List.range 256).filter (fun l => l / n == g && ex l)).length := by
  have tapped : (Option.isSome ∘ fun l => if ex l then some (v l) else none) = ex := by
    funext l
    cases h : ex l <;> simp [h]
  rw [← List.map_drop, ← List.map_take, take_drop_range_eq_filter hn, List.filter_map, List.length_map, List.filter_filter, tapped]
  simp only [Bool.and_comm]

/-- A tap of COUNT adds its executing lanes to each group (06 R158). -/
theorem DroneAcc.count_tap {a : DroneAcc} {d : DroneDesc} (ho : d.opr = 5) {g : Nat} (hg : g < a.groups.length) (strict : Bool)
    (ex : Nat → Bool) (v : Nat → XNum) :
    ((a.tap strict d ((List.range 256).map (fun l => if ex l then some (v l) else none))).groups.getD g {}).count
      = min ((a.groups.getD g {}).count + ((List.range 256).filter (fun l => l / groupLanes d.group == g && ex l)).length) 0xFFFFFFFF := by
  rw [DroneAcc.getD_groups_tap hg, ho, ← length_filter_isSome_taps (groupLanes_pos d.group) g ex v]
  rfl

/-- What the lanes tap into an accumulator (06 R157). -/
def Run.taps (x : Run) (w : Nat) : List (Option XNum) :=
  (List.range 256).map (fun l => if x.executes w l then
    some (if wTy w < 2 then Lane.fval (laneTy w) (x.lane (wVa w) l) else ofInt (Lane.ival (laneTy w) (x.lane (wVa w) l)) 0) else none)

theorem Channel.valveDrn_of_zero {k : Channel} {r : ReedId} {x : Run} {w : Nat} (h : (x.desc.drones.getD (wImm w % 8) {}).opr = 0) :
    k.valveDrn r x w = k := if_pos h

theorem Channel.valveDrn_of_ne_zero {k : Channel} {r : ReedId} {x : Run} {w : Nat} (h : (x.desc.drones.getD (wImm w % 8) {}).opr ≠ 0) :
    k.valveDrn r x w = k.modRun r (fun y => { y with
      drones := modAt y.drones (wImm w % 8) (fun a => a.tap y.set.strict (x.desc.drones.getD (wImm w % 8) {}) (x.taps w)) }) := by
  unfold Channel.valveDrn Run.taps
  dsimp only
  rw [if_neg h]
  simp only [← isFloat_laneTy_iff]
  rfl

/-! ### The statement -/

section
variable {s : State} {c : ChanId} {r : ReedId} {x : Run} {w : Nat}

theorem State.setChan_chan (s : State) (c : ChanId) : s.setChan c (s.chan c) = s := State.modChan_eq_self (f := id) rfl

/-- IN of a stream that cannot deliver its chord leaves what reading it left, with the run stopped (06 R161). -/
theorem State.exec_in_of_stop (h : s.atInstr c r 0x1B x w) {st : StreamDesc} {cr : ChordRead} {f : Fmt} {ts : XNum} {k : Channel}
    (hst : x.desc.ins.getD (wImm w % 4) none = some st) (hc : (s.chan c).streamChord r x st = (cr, f, ts, false, k)) :
    k.RunStopped r ∧ exec (.in_ c r) s = .next ((s.setChan c k).drew valveFree) := by
  have stopped : k.RunStopped r := by
    have := (s.chan c).delivers_streamChord h.1 x st
    rw [hc] at this
    exact this.2 rfl
  obtain ⟨y, hrun, hstop⟩ := id stopped
  refine ⟨stopped, congrArg Host.Outcome.next (Eq.trans (h.valveOp_eq _) ?_)⟩
  rw [Channel.valveIn_of_stop hst hc, Channel.advance_of_stopped hrun hstop]

end

/-- Settles O9: IN and its chord act lane by lane or stop the run, OUT gathers lanes, and DRN taps them group by group. -/
theorem valveStreamInstructions : Obligations.ValveStreamInstructions := by
  unfold Obligations.ValveStreamInstructions
  intro s c r x w
  refine ⟨fun h st cr f ts k hst hc => ?chord, fun h hst => ?noStream, fun h st cr f ts k hst hc => ?stop, fun h => ?out, fun h => ?drn⟩
  case chord =>
    obtain ⟨x', hx, ht⟩ := State.onlyLanes_valveOp (body := fun free x w k => k.valveIn c r free x w) h
      (Channel.valveIn_of_chord hst hc) (out := fun l =>
      if st.mode = 0 then { bits := some ((rawIn cr).getD l 0) }
      else decodedIn x st f ts cr ((s.setChan c k).laneIn c r x w (st.mode != 0 && rndOf st.rnd == .sr) l))
      (fun _ => rfl) (fun _ => fault_ite rfl rfl)
    exact ⟨_, x', rfl, hx, ht⟩
  case noStream =>
    have lanes := State.onlyLanes_valveOp (k := s.chan c) (body := fun free x w k => k.valveIn c r free x w) h
      (Channel.valveIn_of_none hst) (fun _ => rfl) (fun _ => rfl)
    rw [State.setChan_chan] at lanes
    obtain ⟨x', hx, ht⟩ := lanes
    exact ⟨_, x', rfl, hx, ht⟩
  case stop =>
    obtain ⟨⟨x', hrun, hstop⟩, he⟩ := State.exec_in_of_stop h hst hc
    refine ⟨_, x', he, ⟨rfl, fun d hd => State.chan_setChan_ne _ _ hd⟩, ?_⟩
    rw [State.chan_drew, State.chan_setChan_self]
    exact ⟨rfl, hrun, hstop⟩
  case out =>
    have only := State.onlyRun_valveOp (body := fun _ x w k => k.valveOut r x w) h (fun _ => Channel.valveOut_eq (s.chan c) r x w) rfl
    refine ⟨_, _, rfl, only, rfl, fun hj hg => ?_, fun j hj => ?_⟩
    · exact ⟨_, getD_setAt_self _ _ _ hj, fun l => Run.getD_gathered hg⟩
    · exact getD_setAt_ne _ _ _ hj
  case drn =>
    by_cases ho : (x.desc.drones.getD (wImm w % 8) {}).opr = 0
    · have only := State.onlyRun_valveOp (body := fun _ x w k => k.valveDrn r x w) (f := id) h
        (fun _ => (Channel.valveDrn_of_zero ho).trans (Channel.modRun_id _ r).symm) rfl
      exact ⟨_, _, rfl, only, rfl, fun hn => absurd ho hn, fun h5 => absurd (ho.symm.trans h5) (by decide), fun _ _ => rfl⟩
    · have only := State.onlyRun_valveOp (body := fun _ x w k => k.valveDrn r x w) h (fun _ => Channel.valveDrn_of_ne_zero ho) rfl
      refine ⟨_, _, rfl, only, rfl, fun _ hj => ?tap, fun h5 hj g hg => ?count, fun i hi => ?other⟩
      case tap => exact getD_modAt_self _ _ _ hj
      case count =>
        rw [getD_modAt_self _ _ _ hj]
        exact DroneAcc.count_tap h5 hg _ _ _
      case other => exact getD_modAt_ne _ _ _ (hi.resolve_right ho)

end Sys2Proof.Machine
end

section
/-! SUPPORT. The last instruction of a program does what it does elsewhere: no Valve instruction looks at the length of its program, and
after the last one the element step ends (06 R140). -/

namespace Sys2Proof.Machine

open Sys2Proof Sys2Proof.Num

/-! ### A program of another length -/

/-- The run with a program of `n` instructions. -/
def Run.withLength (n : Nat) (x : Run) : Run := { x with desc := { x.desc with n := n } }

/-- A Valve with the program of its run made `n` instructions long. -/
def Valve.withLength (n : Nat) (v : Valve) : Valve := { v with run := v.run.map (Run.withLength n) }

/-- The channel with the program of a Valve's run made `n` instructions long. -/
def Channel.lengthen (k : Channel) (r : ReedId) (n : Nat) : Channel := k.modValve r (Valve.withLength n)

section
variable (k : Channel) (r : ReedId)

theorem Channel.modRun_modRun (f g : Run → Run) : (k.modRun r f).modRun r g = k.modRun r (fun x => g (f x)) := by
  rw [Channel.modRun, Channel.modRun, Channel.modValve_modValve, Channel.modRun]
  congr 1
  funext v
  exact congrArg (fun run => { v with run := run }) (Option.map_map g f v.run)

/-- A change of a Valve and one of another part of its Reed change places. -/
theorem Channel.modReed_modValve (g : Reed → Reed) (f : Valve → Valve)
    (hg : ∀ y v, g { y with valve := v } = { g y with valve := v }) (hv : ∀ y, (g y).valve = y.valve) :
    (k.modValve r f).modReed r g = (k.modReed r g).modValve r f := by
  rw [Channel.modValve, Channel.modReed_modReed, Channel.modValve, Channel.modReed_modReed]
  congr 1
  funext y
  rw [hg, hv]

/-! A read of data does not see the Valves: it gives the same whatever they hold, and leaves them alone. -/

section
variable (f : Valve → Valve) (unit uidx : Nat)

theorem Channel.frameErrors_modValve : (k.modValve r f).frameErrors = k.frameErrors.modValve r f :=
  List.foldl_hom (fun k => Channel.modValve k r f) (init := { k with mem := { k.mem with hits := [] } })
    (g₁ := fun k n => k.raise { cause := .eccFrame, cls := .C, unit := 5, detail := n, ended := some 1 }) (fun _ _ => rfl)

theorem Channel.readBytes_modValve (space addr n : Nat) : (k.modValve r f).readBytes unit uidx r space addr n
    = Prod.map id (fun k => k.modValve r f) (k.readBytes unit uidx r space addr n) := by
  unfold Channel.readBytes
  dsimp only
  rw [Channel.reed_modValve_self, Channel.modValve_mem, apply_ite (Prod.map _ _), apply_ite (Prod.map _ _), apply_ite (Prod.map _ _)]
  refine ite_congr rfl (fun _ => rfl) fun _ => ite_congr rfl (fun _ => congrArg (Prod.mk _) ?_) fun _ => rfl
  exact Channel.frameErrors_modValve { k with mem := (k.mem.load space addr n).2 } r f

theorem Channel.readError_modValve (done : List Redo) (x : Redo) (cause : Cause) (cls : ErrClass) (detail : Nat) :
    (k.modValve r f).readError unit uidx r done x cause cls detail
      = Prod.map id (fun k => k.modValve r f) (k.readError unit uidx r done x cause cls detail) := by
  have count : (if cause = .parity ∧ 3 ≤ x.space then
        (k.modValve r f).modReed r (fun y => { y with cnt := { y.cnt with parErr := sat32 y.cnt.parErr 1 } }) else k.modValve r f)
      = (if cause = .parity ∧ 3 ≤ x.space then
        k.modReed r (fun y => { y with cnt := { y.cnt with parErr := sat32 y.cnt.parErr 1 } }) else k).modValve r f := by
    rw [apply_ite (fun k => Channel.modValve k r f)]
    exact ite_congr rfl (fun _ => k.modReed_modValve r _ f (fun _ _ => rfl) (fun _ => rfl)) fun _ => rfl
  unfold Channel.readError
  rw [count]
  generalize (if cause = .parity ∧ 3 ≤ x.space then
    k.modReed r (fun y => { y with cnt := { y.cnt with parErr := sat32 y.cnt.parErr 1 } }) else k) = k'
  dsimp only
  rw [apply_ite (Prod.map _ _)]
  rfl

theorem Channel.readChord_modValve (t : TensorDesc) (i : Nat) (done : List Redo) : (k.modValve r f).readChord unit uidx r t i done
    = Prod.map id (fun k => k.modValve r f) (k.readChord unit uidx r t i done) := by
  unfold Channel.readChord
  dsimp only
  rw [Channel.readBytes_modValve, apply_ite (Prod.map _ _), apply_ite (Prod.map _ _)]
  refine ite_congr rfl (fun _ => rfl) fun _ => ite_congr rfl (fun _ => rfl) fun _ => ?_
  dsimp only [Prod.map_fst, Prod.map_snd, id]
  have crc : ∀ (p : Prop) [Decidable p] (k : Channel) cls, (if p then (k.modValve r f).countCrc cls else k.modValve r f)
      = (if p then k.countCrc cls else k).modValve r f := fun p _ k cls =>
    (apply_ite (fun k => Channel.modValve k r f) p (k.countCrc cls) k).symm
  rw [crc, Channel.readError_modValve]
  generalize Channel.readError _ _ _ _ _ _ _ _ _ = found
  rfl

end

variable (n : Nat) (x : Run)

theorem Channel.tagEntry_modValve (f : Valve → Valve) (entry : Nat) (h : HoldCause) :
    (k.modValve r f).tagEntry entry h = (k.tagEntry entry h).modValve r f := by
  unfold Channel.tagEntry
  rw [Channel.modValve_flights]
  cases k.flights.find? (fun (f : Flight) => f.entry == entry) with
  | none => rfl
  | some g =>
    dsimp only
    rw [apply_ite (fun k => Channel.modValve k r f)]
    refine ite_congr rfl (fun _ => rfl) fun _ => ?_
    cases g.token <;> rfl

variable {n} in
theorem Channel.modRun_lengthen {g : Run → Run} (hg : ∀ x, g (x.withLength n) = (g x).withLength n) :
    (k.lengthen r n).modRun r g = (k.modRun r g).lengthen r n :=
  ((k.modRun_modRun r (Run.withLength n) g).trans (congrArg (k.modRun r) (funext hg))).trans
    (k.modRun_modRun r g (Run.withLength n)).symm

variable {n} in
theorem Channel.modValve_lengthen {g g' : Valve → Valve} (hg : ∀ v, g' (v.withLength n) = (g v).withLength n) :
    (k.lengthen r n).modValve r g' = (k.modValve r g).lengthen r n := by
  rw [Channel.lengthen, Channel.lengthen, Channel.modValve_modValve, Channel.modValve_modValve]
  simp only [hg]

variable {n} in
theorem Channel.countQuant_lengthen {g g' : Valve → Valve} (hg : ∀ v, g' (v.withLength n) = (g v).withLength n) (layer place : Nat)
    (q : QGrid.Counts) : ((k.lengthen r n).modValve r g').countQuant r layer place q
      = ((k.modValve r g).countQuant r layer place q).lengthen r n := by
  rw [Channel.modValve_lengthen k r hg]
  exact congrArg (fun k => Channel.quantAt k layer place q) ((k.modValve r g).modReed_modValve r
    (fun y => { y with qcnt := y.qcnt.add q }) _ (fun _ _ => rfl) (fun _ => rfl))

theorem Channel.abandonRun_lengthen (redo : Option Redo) :
    (k.lengthen r n).abandonRun r (x.withLength n) redo = (k.abandonRun r x redo).lengthen r n := by
  cases redo with
  | none => exact k.modRun_lengthen r (fun _ => rfl)
  | some y =>
    have tag := (k.raise { cause := .valveRestart, cls := .D, unit := 1, uidx := r.val, detail := anyDetail }).tagEntry_modValve r
      (Valve.withLength n) x.entry .errorRetry
    exact (congrArg (fun k => Channel.modRun k r _) tag).trans (Channel.modRun_lengthen _ r (fun _ => rfl))

/-- A stream delivers the same chord to a run whatever the length of its program. -/
theorem Channel.streamChord_lengthen (st : StreamDesc) : (k.lengthen r n).streamChord r (x.withLength n) st
    = Prod.map id (Prod.map id (Prod.map id (Prod.map id (fun k => k.lengthen r n)))) (k.streamChord r x st) := by
  have slots : ((k.lengthen r n).reed r).slots = (k.reed r).slots := by rw [Channel.lengthen, Channel.reed_modValve_self]
  have stop : ∀ {k k' : Channel} {redo : Option Redo}, k' = k.lengthen r n →
      (ChordRead.fault, Fmt.bf16, zero false, false, k'.abandonRun r (x.withLength n) redo)
        = Prod.map id (Prod.map id (Prod.map id (Prod.map id (fun k => k.lengthen r n))))
          (ChordRead.fault, Fmt.bf16, zero false, false, k.abandonRun r x redo) := by
    rintro k _ redo rfl
    exact congrArg _ (congrArg _ (congrArg _ (congrArg _ (k.abandonRun_lengthen r n x redo))))
  unfold Channel.streamChord
  rw [slots, show (x.withLength n).src = x.src from rfl]
  cases x.src.bind fun o => if o.otensor = st.tensor then some o else none with
  | some o =>
    dsimp only
    rw [apply_ite (Prod.map _ _)]
    refine ite_congr rfl (fun _ => ?_) fun _ => rfl
    rw [show (x.withLength n).redone = x.redone from rfl, Channel.lengthen, Channel.readError_modValve]
    generalize k.readError _ _ _ _ _ _ _ _ = found
    exact stop rfl
  | none =>
    dsimp only
    rw [show (k.lengthen r n).readTensor ((k.lengthen r n).entry (x.withLength n).entry).mb st.tensor false
      = k.readTensor (k.entry x.entry).mb st.tensor false from rfl]
    cases k.readTensor (k.entry x.entry).mb st.tensor false with
    | none => exact stop rfl
    | some p =>
      obtain ⟨ix, want⟩ := p
      have read : (k.lengthen r n).readChord 1 r.val r ((k.lengthen r n).tensor ix) (st.first + (x.withLength n).step)
          (x.withLength n).redone = Prod.map id (fun k => k.lengthen r n) (k.readChord 1 r.val r (k.tensor ix) (st.first + x.step) x.redone) :=
        k.readChord_modValve r _ _ _ _ _ _
      dsimp only
      rw [read, show (k.lengthen r n).tensor ix = k.tensor ix from rfl]
      generalize k.readChord 1 r.val r (k.tensor ix) (st.first + x.step) x.redone = found
      obtain ⟨ci, k₁⟩ := found
      dsimp only [Prod.map_apply, id]
      rw [apply_ite (Prod.map _ _), apply_ite (Prod.map _ _)]
      refine ite_congr rfl (fun _ => stop ?_) fun _ => ite_congr rfl (fun _ => stop rfl) fun _ => ?_
      · rw [apply_ite (fun k => Channel.lengthen k r n)]
        rfl
      · refine congrArg _ (congrArg _ (congrArg _ (congrArg _ (Eq.trans (ite_congr rfl (fun _ => ?_) fun _ => rfl)
          (apply_ite (fun k => Channel.lengthen k r n) _ _ _).symm))))
        have count : (k₁.lengthen r n).countReed r { fmtFault := 1 } = (k₁.countReed r { fmtFault := 1 }).lengthen r n :=
          k₁.modReed_modValve r _ _ (fun _ _ => rfl) (fun _ => rfl)
        rw [count]
        rfl

end

/-! ### Instructions -/

section
variable (x : Run) (n w l : Nat)

@[simp] theorem Run.layer_withLength : (x.withLength n).layer = x.layer := rfl
@[simp] theorem Run.executes_withLength : (x.withLength n).executes w l = x.executes w l := rfl
@[simp] theorem Run.lane_withLength (v : Nat) : (x.withLength n).lane v l = x.lane v l := rfl
@[simp] theorem Run.second_withLength : (x.withLength n).second w l = x.second w l := rfl

end

/-- Between two runs of a Valve the instruction and the step reached are the same, and whether the run goes on. -/
structure Run.SamePlace (x x' : Run) : Prop where
  desc : x'.desc = x.desc
  pc : x'.pc = x.pc
  step : x'.step = x.step
  abandoned : x'.abandoned = x.abandoned
  failed : x'.failed = x.failed

/-- The Valve has no run that goes on. -/
def Channel.noneGoing (k : Channel) (r : ReedId) : Prop :=
  ∀ y, (k.reed r).valve.run = some y → y.abandoned = true ∨ y.failed = true

/-- What an instruction does does not depend on the length of the program: with another length it ends or abandons the run, or it does the
same, and leaves the run where it is. -/
def IgnoresLength (r : ReedId) (body : (Nat → Nat) → Run → Nat → Channel → Channel) : Prop :=
  ∀ free x w k n, (k.reed r).valve.run = some x →
    (body free (x.withLength n) w (k.lengthen r n)).noneGoing r
      ∨ (body free (x.withLength n) w (k.lengthen r n) = (body free x w k).lengthen r n
        ∧ ∃ y, ((body free x w k).reed r).valve.run = some y ∧ x.SamePlace y)

section
variable {k : Channel} {c : ChanId} {r : ReedId}

theorem Channel.run_lengthen {x : Run} (h : (k.reed r).valve.run = some x) (n : Nat) :
    ((k.lengthen r n).reed r).valve.run = some (x.withLength n) := by
  rw [Channel.lengthen, Channel.reed_modValve_self]
  exact congrArg (Option.map (Run.withLength n)) h

/-- An instruction that changes what a run has gathered or tapped. -/
theorem ignoresLength_modRun {body : (Nat → Nat) → Run → Nat → Channel → Channel} {f : Run → Nat → Run → Run}
    (hb : ∀ free x w k, body free x w k = k.modRun r (f x w)) (hx : ∀ x w n, f (Run.withLength n x) w = f x w)
    (hf : ∀ x w n y, f x w (Run.withLength n y) = (f x w y).withLength n) (hp : ∀ x w, Run.SamePlace x (f x w x)) :
    IgnoresLength r body := by
  intro free x w k n hrun
  refine .inr ⟨?_, f x w x, ?_, hp x w⟩
  · rw [hb, hb, hx, Channel.modRun_lengthen k r (hf x w n)]
  · rw [hb, Channel.run_modRun, hrun]
    rfl

theorem Channel.noneGoing_of_none (h : (k.reed r).valve.run = none) : k.noneGoing r := fun _ hy => nomatch h.symm.trans hy

theorem Channel.laneOp_lengthen {x : Run} (hrun : (k.reed r).valve.run = some x) (free : Nat → Nat) (w n : Nat) (draw : Bool)
    (f : LaneIn → LaneOut) :
    ((k.lengthen r n).laneOp c r free (x.withLength n) w draw f).noneGoing r
      ∨ ((k.lengthen r n).laneOp c r free (x.withLength n) w draw f = (k.laneOp c r free x w draw f).lengthen r n
        ∧ ∃ y, ((k.laneOp c r free x w draw f).reed r).valve.run = some y ∧ x.SamePlace y) := by
  have source : ∀ l, ((k.lengthen r n).reed r).valve.source (k.lengthen r n).bind.seed c r l
      = (k.reed r).valve.source k.bind.seed c r l := fun l => by
    rw [Channel.lengthen, Channel.reed_modValve_self]
    rfl
  unfold Channel.laneOp
  simp only [source, Run.executes_withLength, Run.lane_withLength, Run.second_withLength, Run.layer_withLength]
  generalize List.map _ (List.range 256) = per
  split
  · exact .inl (Channel.noneGoing_of_none (Channel.valveFault_ends (Channel.run_lengthen hrun n) _ _).1)
  · refine .inr ⟨?same, _, (Channel.ValveWorks.ite (.refl _) (Channel.countQuant_valveWorks _ r _ _ _)).run.trans
      (congrArg (fun (y : Reed) => y.valve.run) (Channel.reed_modValve_self k r _)), ⟨rfl, rfl, rfl, rfl, rfl⟩⟩
    case same =>
      rw [apply_ite (fun k => Channel.lengthen k r n)]
      refine ite_congr rfl (fun _ => Channel.modValve_lengthen k r fun _ => rfl) fun _ => ?_
      refine Channel.countQuant_lengthen k r ?_ _ _ _
      exact fun _ => rfl

theorem ignoresLength_lanes {draw : Nat → Bool} {f : Run → Nat → LaneIn → LaneOut} (hf : ∀ x n, f (Run.withLength n x) = f x) :
    IgnoresLength r (fun free x w k => k.laneOp c r free x w (draw w) (f x w)) := by
  intro free x w k n hrun
  dsimp only
  rw [hf]
  exact Channel.laneOp_lengthen hrun free w n (draw w) (f x w)

theorem ignoresLength_valveOut : IgnoresLength r (fun _ x w k => k.valveOut r x w) :=
  ignoresLength_modRun (fun _ x w k => k.valveOut_eq r x w) (fun _ _ _ => rfl) (fun _ _ _ _ => rfl) (fun _ _ => ⟨rfl, rfl, rfl, rfl, rfl⟩)

/-- What DRN does to a run whose word is `w` (06 R157). -/
def Run.tapped (x : Run) (w : Nat) (y : Run) : Run :=
  if (x.desc.drones.getD (wImm w % 8) {}).opr = 0 then y
  else { y with drones := modAt y.drones (wImm w % 8) (fun a =>
    a.tap y.set.strict (x.desc.drones.getD (wImm w % 8) {}) (x.taps w)) }

theorem ignoresLength_valveDrn : IgnoresLength r (fun _ x w k => k.valveDrn r x w) := by
  refine ignoresLength_modRun (f := Run.tapped) (fun _ x w k => ?body) (fun _ _ _ => rfl) (fun x w n y => ?length) (fun x w => ?place)
  case body =>
    by_cases h : (x.desc.drones.getD (wImm w % 8) {}).opr = 0
    · rw [Channel.valveDrn_of_zero h, show x.tapped w = id from funext fun _ => if_pos h, Channel.modRun_id]
    · rw [Channel.valveDrn_of_ne_zero h]
      exact congrArg _ (funext fun _ => (if_neg h).symm)
  case length =>
    unfold Run.tapped
    split <;> rfl
  case place =>
    unfold Run.tapped
    split <;> exact ⟨rfl, rfl, rfl, rfl, rfl⟩

theorem ignoresLength_valveIn : IgnoresLength r (fun free x w k => k.valveIn c r free x w) := by
  intro free x w k n hrun
  have run := Channel.run_lengthen hrun n
  dsimp only
  cases hst : x.desc.ins.getD (wImm w % 4) none with
  | none =>
    rw [Channel.valveIn_of_none hst, Channel.valveIn_of_none (x := x.withLength n) hst]
    exact Channel.laneOp_lengthen hrun free w n false LaneOut.open_
  | some st =>
    have longer := k.streamChord_lengthen r n x st
    have delivers := k.delivers_streamChord hrun x st
    have stops := ((k.lengthen r n).delivers_streamChord run (x.withLength n) st).2
    rcases hc : k.streamChord r x st with ⟨cr, f, ts, go, k'⟩
    rw [hc] at longer delivers
    cases go with
    | false =>
      rw [Channel.valveIn_of_stop (x := x.withLength n) hst longer]
      rw [longer] at stops
      obtain ⟨y, hy, stopped⟩ := stops rfl
      exact .inl fun z hz => Option.some.inj (hy.symm.trans hz) ▸ stopped
    | true =>
      rw [Channel.valveIn_of_chord hst hc, Channel.valveIn_of_chord (x := x.withLength n) hst longer]
      exact Channel.laneOp_lengthen ((congrArg Valve.run (delivers.1 rfl)).trans hrun) free w n _ _

end

end Sys2Proof.Machine
end

section
/-! SUPPORT. The Valve instructions act alike whatever the length of the program, and after the last one the element step ends (06 R140). -/

namespace Sys2Proof.Machine

open Sys2Proof Sys2Proof.Num

/-! ### The Valve instructions -/

/-- An instruction of a Valve with its opcode: it acts on the run that has reached it, whatever the length of the program. -/
def IsValveForm (c : ChanId) (r : ReedId) (op : Nat) (i : Instr) : Prop :=
  ∃ body, IgnoresLength r body ∧ ∀ s, exec i s = .next (s.valveOp c r op body)

section
variable {s : State} {c : ChanId} {r : ReedId} {x : Run} {w op : Nat} {i : Instr}

theorem isValveForm_of_lanes {draw : Nat → Bool} {f : Run → Nat → LaneIn → LaneOut}
    (he : ∀ s, exec i s = .next (s.laneCmd c r op draw f)) (hf : ∀ x n, f (Run.withLength n x) = f x) : IsValveForm c r op i :=
  ⟨_, ignoresLength_lanes hf, he⟩

theorem isValveForm_of_mem_valveForms (h : (op, i) ∈ valveForms c r) : IsValveForm c r op i := by
  have all : ∀ p ∈ valveForms c r, IsValveForm c r p.1 p.2 := by
    simp only [valveForms, List.forall_mem_cons]
    refine ⟨?nop, ?add, ?sub, ?mul, ?fma, ?min, ?max, ?cmp, ?sel, ?exp2, ?log2, ?rcp, ?rsqrt, ?tanh, ?sigm, ?cvt, ?qnt, ?dq,
      ?perm, ?permx, ?shl, ?shr, ?sar, ?and, ?or, ?xor, ?mov, ?input, ?output, ?tap, ?movi, List.forall_mem_nil _⟩
    case input => exact ⟨_, ignoresLength_valveIn, fun _ => rfl⟩
    case output => exact ⟨_, ignoresLength_valveOut, fun _ => rfl⟩
    case tap => exact ⟨_, ignoresLength_valveDrn, fun _ => rfl⟩
    all_goals exact isValveForm_of_lanes (fun _ => rfl) (fun _ _ => rfl)
  exact all _ h

/-- A command that is not the instruction the run has reached does nothing (06 R140). -/
theorem State.valveOp_eq_self (h : ∀ x w, ¬ s.atInstr c r op x w ∧ ¬ s.atLast c r op x w)
    (body : (Nat → Nat) → Run → Nat → Channel → Channel) : s.valveOp c r op body = s := by
  unfold State.valveOp
  dsimp only
  split
  · rfl
  · next x hrun =>
    refine if_pos ?_
    by_contra going
    simp only [Bool.or_eq_true, decide_eq_true_eq, bne_iff_ne, not_or, Bool.not_eq_true, not_le, not_not] at going
    obtain ⟨⟨⟨hab, hfa⟩, hst⟩, hop⟩ := going
    obtain ⟨hat, hlast⟩ := h x (x.prog.getD x.pc 0)
    by_cases hpc : x.pc + 1 < x.desc.n
    · exact hat ⟨hrun, hab, hfa, hst, rfl, hop, hpc⟩
    · exact hlast ⟨hrun, hab, hfa, hst, rfl, hop, not_lt.mp hpc⟩

/-! ### The last instruction -/

theorem Channel.advance_of_noneGoing {k : Channel} (h : k.noneGoing r) (free : Nat → Nat) : k.advance c r free = k := by
  cases hrun : (k.reed r).valve.run with
  | none => exact Channel.advance_of_none hrun free
  | some y => exact Channel.advance_of_stopped hrun (h y hrun) free

theorem Channel.advance_of_last {k : Channel} (h : (k.reed r).valve.run = some x) (hab : x.abandoned = false) (hfa : x.failed = false)
    (hpc : x.desc.n ≤ x.pc + 1) (free : Nat → Nat) : k.advance c r free = k.endElementStep c r free x := by
  rw [Channel.advance, h]
  dsimp only
  rw [if_neg (by simp [hab, hfa]), if_neg (Nat.not_lt.mpr hpc)]

/-- The last instruction does what it does where another one follows, and then the element step ends (06 R140). -/
theorem IgnoresLength.advance_last {body : (Nat → Nat) → Run → Nat → Channel → Channel} (hb : IgnoresLength r body) {k : Channel}
    (hrun : (k.reed r).valve.run = some x) (hab : x.abandoned = false) (hfa : x.failed = false) (hpc : x.desc.n ≤ x.pc + 1)
    (free free' : Nat → Nat) {k₁ : Channel} {x₁ : Run}
    (hk₁ : (body free (x.withLength (x.pc + 2)) w (k.lengthen r (x.pc + 2))).advance c r free' = k₁)
    (hrun₁ : (k₁.reed r).valve.run = some x₁) (hab₁ : x₁.abandoned = false) (hfa₁ : x₁.failed = false) :
    k₁.dataFrame ((body free x w k).advance c r free') ∧ x₁.step = x.step ∧ ∃ z, { x₁ with desc := x.desc, pc := x.pc }.Emitted z
      ∧ (((body free x w k).advance c r free').reed r).valve.run = some z.nextStep := by
  rcases hb free x w k (x.pc + 2) hrun with gone | ⟨same, y, hy, place⟩
  · rw [Channel.advance_of_noneGoing gone] at hk₁
    simpa [hab₁, hfa₁] using gone x₁ (hk₁ ▸ hrun₁)
  · have hy' := Channel.run_lengthen hy (x.pc + 2)
    have follows : (y.withLength (x.pc + 2)).pc + 1 < (y.withLength (x.pc + 2)).desc.n := by
      show y.pc + 1 < x.pc + 2
      rw [place.pc]
      omega
    rw [same, Channel.advance_of_lt hy' (place.abandoned.trans hab) (place.failed.trans hfa) follows] at hk₁
    rw [Channel.advance_of_last hy (place.abandoned.trans hab) (place.failed.trans hfa) (by rw [place.desc, place.pc]; exact hpc)]
    obtain ⟨frame, z, emitted, hz⟩ := Channel.endElementStep_works c free' (Option.isSome_iff_exists.mpr ⟨y, hy⟩)
    have hx₁ : { y.withLength (x.pc + 2) with pc := y.pc + 1 } = x₁ := by
      rw [← hk₁, Channel.run_modRun, hy'] at hrun₁
      exact Option.some.inj hrun₁
    have restored : { x₁ with desc := x.desc, pc := x.pc } = y := by
      rw [← hx₁, ← place.desc, ← place.pc]
      rfl
    refine ⟨?_, ?_, z, restored ▸ emitted, hz⟩
    · rw [← hk₁]
      exact frame
    · rw [← hx₁]
      exact place.step

end

end Sys2Proof.Machine
end

section
/-! SUPPORT. The completion of an action, and the end of a Valve run (06 R140, R153, R154, R157, R159; 07 R168). -/

namespace Sys2Proof.Machine

open Sys2Proof Sys2Proof.Num

/-! ### Completion of an action (07 R168) -/

theorem Channel.token_modToken_self (k : Channel) (n : Nat) {f : Token → Token} (h : f (k.token n) ≠ {}) :
    (k.modToken n f).token n = f (k.token n) := by
  rw [Channel.modToken, Channel.token, SMap.set, if_neg h, SMap.get_put_self]

theorem Channel.landEntry_frame (k : Channel) (i : Nat) :
    k.landEntry i = { k with flights := (k.landEntry i).flights, tokens := (k.landEntry i).tokens } := by
  unfold Channel.landEntry
  split
  · rfl
  · next f _ => cases f.token <;> rfl

theorem Channel.landed_landEntry (k : Channel) (i : Nat) : k.landed (k.landEntry i) i := by
  cases hf : k.flights.find? (fun (g : Flight) => g.entry == i) with
  | none =>
    have same : k.landEntry i = k := by rw [Channel.landEntry, hf]
    refine ⟨fun f hm => ?_, fun f n h => nomatch hf.symm.trans h⟩
    rw [same] at hm
    simpa using List.find?_eq_none.mp hf f hm
  | some f =>
    have eq : k.landEntry i = ({ k with flights := k.flights.filter (fun (g : Flight) => g.entry != i) }).setToken f.token := by
      rw [Channel.landEntry, hf]
    rw [eq]
    refine ⟨fun g hm => ?_, fun g n h hn => ?_⟩
    · have : g ∈ k.flights.filter (fun (g : Flight) => g.entry != i) := by cases h : f.token <;> simpa [h, Channel.setToken] using hm
      simpa using (List.mem_filter.mp this).2
    · obtain rfl : f = g := Option.some.inj (hf.symm.trans h)
      rw [hn, Channel.setToken, Channel.token_modToken_self _ _ (by simp)]
      exact ⟨rfl, rfl⟩

/-! ### The end of a run -/

/-- A Reed whose Valve's run `x` is over: its output slot is free, and PERM_OOR stands in the status word of the tile consumed (06 R154). -/
def Reed.endRun (x : Run) (y : Reed) : Reed :=
  let own := fun (n : Nat) => match x.src with | some o => n == o.tile.entry | none => false
  { y with
    slots := y.slots.eraseP (fun o => own o.tile.entry)
    words := (match x.src, x.permOor with
      | some o, true => modWord o.tile.entry (fun w => withBit w 16) y.words
      | _, _ => y.words)
    valve := { y.valve with run := none, status := x.statusWord none } }

section
variable {x : Run} {y : Reed} {o : OutSlot}

theorem find?_modWord {entry : Nat} {f : Nat → Nat} {l : List TileWord} {w : TileWord} (h : l.find? (fun z => z.entry == entry) = some w) :
    (modWord entry f l).find? (fun z => z.entry == entry) = some { w with word := f w.word } := by
  induction l with
  | nil => cases h
  | cons z l ih =>
    rw [modWord]
    by_cases hz : z.entry = entry
    · rw [List.find?_cons_of_pos (by simpa using hz)] at h
      rw [if_pos hz, List.find?_cons_of_pos (by simpa using hz), Option.some.inj h]
    · rw [List.find?_cons_of_neg (by simpa using hz)] at h
      rw [if_neg hz, List.find?_cons_of_neg (by simpa using hz), ih h]

theorem bitOf_withBit_self (v i : Nat) : bitOf (withBit v i) i = true := by
  unfold withBit
  by_cases h : bitOf v i = true
  · rw [if_pos h, h]
  · rw [if_neg h]
    unfold bitOf at h ⊢
    rw [Nat.add_div_right _ (Nat.two_pow_pos i)]
    simp only [beq_iff_eq] at h ⊢
    omega

theorem Reed.endRun_of_none (h : x.src = none) : (y.endRun x).slots = y.slots ∧ (y.endRun x).words = y.words := by
  unfold Reed.endRun
  rw [h]
  exact ⟨List.eraseP_of_forall_not (by simp), rfl⟩

theorem Reed.slots_endRun_of_some (h : x.src = some o) :
    (y.endRun x).slots = y.slots.eraseP (fun z => z.tile.entry == o.tile.entry) := by
  unfold Reed.endRun
  rw [h]

/-- PERM_OOR of the run is mirrored into the word of the tile it consumed (06 R154). -/
theorem Reed.words_endRun_of_some (h : x.src = some o) {w : TileWord} (hw : y.words.find? (fun z => z.entry == o.tile.entry) = some w) :
    ∃ w', (y.endRun x).words.find? (fun z => z.entry == o.tile.entry) = some w'
      ∧ bitOf w'.word 16 = (bitOf w.word 16 || x.permOor) := by
  unfold Reed.endRun
  rw [h]
  cases hp : x.permOor with
  | false => exact ⟨w, hw, (Bool.or_false _).symm⟩
  | true => exact ⟨_, find?_modWord hw, by simp [bitOf_withBit_self]⟩

end

section
variable {k : Channel} (c : ChanId) {r : ReedId} (free : Nat → Nat) {x : Run}

theorem Channel.droneChords_valveWorks (k : Channel) (r : ReedId) (x : Run) : k.ValveWorks r (k.droneChords r x) :=
  .foldl (g := id) (fun k _ => k.putDrone_valveWorks r x _ _ _) _ _

/-- What output stream `j` of a run still holds is written, unless it went to XMAP at each step (06 R153). -/
def Channel.flushStream (r : ReedId) (x : Run) (s : Channel × Run) (j n : Nat) : Channel × Run :=
  match x.desc.outs.getD j none with
  | some st => if st.xmap then s else s.1.streamFlush c r (fun i => free (groupFree * n + i)) s.2 j st true
  | none => s

theorem Channel.flushStream_works (r : ReedId) (x : Run) (s : Channel × Run) (j n : Nat) :
    s.1.ValveWorks r (Channel.flushStream c free r x s j n).1 ∧ s.2.Wrote (Channel.flushStream c free r x s j n).2 := by
  unfold Channel.flushStream
  split
  · split
    · exact ⟨.refl _, .refl _⟩
    · exact ⟨s.1.streamFlush_valveWorks c r _ _ _ _ _, rfl⟩
  · exact ⟨.refl _, .refl _⟩

theorem Channel.flushRun_eq (k : Channel) (r : ReedId) (x : Run) : k.flushRun c r free x
    = Channel.flushStream c free r x (Channel.flushStream c free r x (k, x) 0 0) 1 (x.held.getD 0 []).length := rfl

theorem Channel.flushRun_works (k : Channel) (r : ReedId) (x : Run) :
    k.ValveWorks r (k.flushRun c r free x).1 ∧ x.Wrote (k.flushRun c r free x).2 := by
  have first := Channel.flushStream_works c free r x (k, x) 0 0
  have second := Channel.flushStream_works c free r x (Channel.flushStream c free r x (k, x) 0 0) 1 (x.held.getD 0 []).length
  rw [Channel.flushRun_eq]
  exact ⟨first.1.trans second.1, first.2.trans second.2⟩

/-- The Tuner observes the sums of a run (06 R159). -/
def Channel.observeSums (k : Channel) (x : Run) : Channel :=
  x.sums.foldl (fun (k : Channel) p => k.observe x.layer (fun o => { o with sums := modAt o.sums p.1 (fun s => add false s p.2) })) k

theorem Channel.observeSums_valveWorks (k : Channel) (r : ReedId) (x : Run) : k.ValveWorks r (k.observeSums x) := by
  unfold Channel.observeSums
  refine .foldl (g := id) (fun k _ => ?_) x.sums k
  exact k.observe_valveWorks r x.layer _

/-- The end of a run: streams and Drone are served, the Reed's run is over, and the action of its entry has completed. -/
theorem Channel.completeRun_eq (k : Channel) (r : ReedId) (x : Run) : k.completeRun c r free x
    = ((((k.flushRun c r free x).1.droneChords r (k.flushRun c r free x).2).observeSums (k.flushRun c r free x).2).modReed r
        (Reed.endRun (k.flushRun c r free x).2)).landEntry (k.flushRun c r free x).2.entry := rfl

/-- Streams and Drone change data only before a run ends. -/
theorem Channel.completeRun_works (k : Channel) (r : ReedId) (x : Run) : ∃ k' y, k.ValveWorks r k' ∧ x.Wrote y
    ∧ k.completeRun c r free x = (k'.modReed r (Reed.endRun y)).landEntry y.entry := by
  obtain ⟨works, wrote⟩ := k.flushRun_works c free r x
  exact ⟨_, _, (works.trans (Channel.droneChords_valveWorks _ r _)).trans (Channel.observeSums_valveWorks _ r _), wrote,
    k.completeRun_eq c free r x⟩

end

end Sys2Proof.Machine
end

section
/-! SUPPORT. The last instruction of a program, the end of a run, its restart, and scalar writes (06 R140 to R142, R150, R154, R161;
07 R168). -/

namespace Sys2Proof.Machine

open Sys2Proof Sys2Proof.Num

/-! ### The last instruction of a program -/

section
variable {s : State} {k : Channel} {c : ChanId} {r : ReedId} {x : Run} {w op : Nat} {i : Instr}

theorem Channel.modValve_withLength (h : (k.reed r).valve.run = some x) (n : Nat) :
    k.modValve r (fun v => { v with run := some { x with desc := { x.desc with n := n } } }) = k.lengthen r n :=
  (Channel.modRun_of_run h (Run.withLength n)).symm

/-- A run that starts its next element step has only its place and what the step gathered changed (06 R140, R141, R150). -/
theorem Run.nextStep_of_emitted {y z : Run} (h : y.Emitted z) :
    z.nextStep = { y with
      step := y.step + 1, pc := 0, xf := z.nextStep.xf, pb := z.nextStep.pb, gather := z.nextStep.gather, oorLanes := []
      drones := z.nextStep.drones, held := z.nextStep.held, written := z.nextStep.written, sums := z.nextStep.sums
      qpsn := z.nextStep.qpsn } := by
  rw [Run.Emitted] at h
  rw [h]
  rfl

theorem getD_replicate_self {α : Type} (n l : Nat) (a : α) : (List.replicate n a).getD l a = a := by
  rw [List.getD_eq_getElem?_getD, List.getElem?_getD_replicate_default_eq]

/-- After an element step exception registers, PB bits and gathered lanes are clear (06 R140, R150). -/
theorem Run.nextStep_clear (z : Run) : (∀ l, z.nextStep.xf.getD l 0 = 0) ∧ (∀ l, z.nextStep.pb.getD l false = false)
    ∧ ∀ j, z.nextStep.gather.getD j none = none :=
  ⟨fun l => getD_replicate_self 256 l 0, fun l => getD_replicate_self 256 l false, fun j => getD_replicate_self 2 j none⟩

/-- The last instruction does what it does where another one follows, and the element step ends. -/
theorem State.atLast.valveOp (h : s.atLast c r op x w) {body : (Nat → Nat) → Run → Nat → Channel → Channel} (hb : IgnoresLength r body)
    {t₁ : State} {x₁ : Run} (ht₁ : (s.setChan c ((s.chan c).lengthen r (x.pc + 2))).valveOp c r op body = t₁)
    (hrun₁ : ((t₁.chan c).reed r).valve.run = some x₁) (hab₁ : x₁.abandoned = false) (hfa₁ : x₁.failed = false) :
    (t₁.chan c).dataFrame ((s.valveOp c r op body).chan c) ∧ s.onlyChan c (s.valveOp c r op body) ∧ x₁.step = x.step
      ∧ ∃ z, { x₁ with desc := x.desc, pc := x.pc }.Emitted z
        ∧ (((s.valveOp c r op body).chan c).reed r).valve.run = some z.nextStep := by
  obtain ⟨hrun, hab, hfa, hst, hw, hop, hpc⟩ := h
  have hrunLong : (((s.setChan c ((s.chan c).lengthen r (x.pc + 2))).chan c).reed r).valve.run = some (x.withLength (x.pc + 2)) := by
    rw [State.chan_setChan_self]
    exact Channel.run_lengthen hrun _
  rw [State.valveOp_of_run hrunLong hab hfa hst hw hop, State.chan_setChan_self, State.setChan_freeCtr] at ht₁
  subst ht₁
  rw [State.chan_drew, State.chan_setChan_self] at hrun₁ ⊢
  rw [State.valveOp_of_run hrun hab hfa hst hw hop, State.chan_drew, State.chan_setChan_self]
  obtain ⟨frame, step, z, emitted, hz⟩ := hb.advance_last hrun hab hfa hpc _ _ rfl hrun₁ hab₁ hfa₁
  exact ⟨frame, ⟨rfl, fun d hd => State.chan_setChan_ne _ _ hd⟩, step, z, emitted, hz⟩

end

/-! ### VRUN_COMPLETE -/

section
variable {s : State} {k : Channel} {c : ChanId} {r : ReedId} {x : Run}

theorem execVrunComplete_of_not_done (hrun : ((s.chan c).reed r).valve.run = some x) (h : x.done = false) :
    exec (.vrunComplete c r) s = .next s := by
  show execVrunComplete c r s = .next s
  unfold execVrunComplete
  rw [hrun]
  exact if_neg (by simp [h])

theorem execVrunComplete_of_done (hrun : ((s.chan c).reed r).valve.run = some x) (h : x.done = true) : ∃ free n,
    exec (.vrunComplete c r) s = .next ((s.setChan c ((s.chan c).completeRun c r free x)).drew n) := by
  refine ⟨fun i => Config.freeNat (s.freeCtr + i), groupFree * ((x.held.getD 0 []).length + (x.held.getD 1 []).length), ?_⟩
  show execVrunComplete c r s = _
  unfold execVrunComplete
  rw [hrun]
  exact if_pos h

theorem Channel.reed_landEntry (k : Channel) (n : Nat) (q : ReedId) : (k.landEntry n).reed q = k.reed q := by
  rw [Channel.landEntry_frame]
  rfl

/-- The work of a Valve does not touch the actions in flight. -/
theorem Channel.ValveWorks.landed {k k₁ k₂ : Channel} {n : Nat} (h : k.ValveWorks r k₁) {f : Reed → Reed}
    (hl : (k₁.modReed r f).landed k₂ n) : k.landed k₂ n := by
  have flights : (k₁.modReed r f).flights = k.flights := (congrArg Channel.flights h.frame :)
  rw [Channel.landed, flights] at hl
  exact hl

theorem Channel.ValveWorks.dataFrame_landEntry {k k₁ : Channel} (h : k.ValveWorks r k₁) (f : Reed → Reed) (n : Nat) :
    k.dataFrame { (k₁.modReed r f).landEntry n with flights := k.flights, tokens := k.tokens } := by
  have done : ({ (k₁.modReed r f).landEntry n with flights := k.flights, tokens := k.tokens } : Channel)
      = { k₁.modReed r f with flights := k.flights, tokens := k.tokens } := by
    rw [Channel.landEntry_frame]
  rw [done]
  exact (congrArg (fun (k' : Channel) => { k'.modReed r f with flights := k.flights, tokens := k.tokens }) h.frame :)

/-- The run of a Valve ends: what becomes of the Reed's run, its output slots and its status words (06 R140, R154; 07 R168). -/
theorem Channel.completeRun_ends (k : Channel) (c : ChanId) (r : ReedId) (free : Nat → Nat) (x : Run) :
    k.landed (k.completeRun c r free x) x.entry
      ∧ k.dataFrame { k.completeRun c r free x with flights := k.flights, tokens := k.tokens }
      ∧ ∃ y y', (k.completeRun c r free x).reed r = Reed.endRun y y' ∧ x.Wrote y ∧ y'.slots = (k.reed r).slots
        ∧ y'.words = (k.reed r).words := by
  obtain ⟨k₁, y, works, wrote, eq⟩ := k.completeRun_works c free r x
  have entry : y.entry = x.entry := (congrArg Run.entry wrote :)
  rw [eq, ← entry]
  refine ⟨works.landed (Channel.landed_landEntry _ _), works.dataFrame_landEntry _ _, y, k₁.reed r, ?_, wrote, works.slots, works.words⟩
  rw [Channel.reed_landEntry, Channel.reed_modReed_self]

end

/-! ### VALVE_RESTART -/

section
variable {s : State} {k k₁ : Channel} {c : ChanId} {r : ReedId} {x : Run}

/-- What VALVE_RESTART does to a channel. -/
def Channel.restarted (k : Channel) (r : ReedId) : Channel :=
  match (k.reed r).valve.run with
  | none => k
  | some x => if x.abandoned then k.restartRun r x else k

theorem exec_valveRestart (s : State) (c : ChanId) (r : ReedId) :
    exec (.valveRestart c r) s = .next (s.setChan c ((s.chan c).restarted r)) := rfl

theorem exec_valveRestart_of_not_abandoned (h : ∀ x, ((s.chan c).reed r).valve.run = some x → x.abandoned = false) :
    exec (.valveRestart c r) s = .next s := by
  have same : (s.chan c).restarted r = s.chan c := by
    unfold Channel.restarted
    cases hrun : ((s.chan c).reed r).valve.run with
    | none => rfl
    | some x => exact if_neg (by simp [h x hrun])
  exact (exec_valveRestart s c r).trans (congrArg _ (State.modChan_eq_self (f := fun k => k.restarted r) same))

theorem exec_valveRestart_of_abandoned (hrun : ((s.chan c).reed r).valve.run = some x) (hab : x.abandoned = true) :
    exec (.valveRestart c r) s = .next (s.setChan c ((s.chan c).restartRun r x)) := by
  have restarts : (s.chan c).restarted r = (s.chan c).restartRun r x := by
    rw [Channel.restarted, hrun]
    exact if_pos hab
  rw [exec_valveRestart, restarts]

/-- The tile output a run consumes, as the Reed's output buffer holds it now. -/
def Channel.srcNow (k : Channel) (r : ReedId) (x : Run) : Option OutSlot :=
  x.src.bind (fun o => ((k.reed r).slots.find? (fun (y : OutSlot) => y.tile.entry == o.tile.entry)).or (some o))

theorem Channel.srcNow_eq_none : k.srcNow r x = none ↔ x.src = none := by
  unfold Channel.srcNow
  cases x.src <;> simp

/-- The abandoned run as it starts again on channel `k`. -/
def Channel.freshRun (k : Channel) (r : ReedId) (x : Run) : Run := { x.restart with src := k.srcNow r x }

/-- A Valve that starts run `y`. -/
def Valve.starts (y : Run) (v : Valve) : Valve := { v with run := some y, records := [] }

/-- A recovered run starts again. -/
theorem Channel.restartRun_of_ok (h : k.recoverAll r 1 r.val x.redo = .ok k₁) : ∃ err,
    k.restartRun r x = { k₁.modValve r (Valve.starts (k₁.freshRun r x)) with err := err } := by
  unfold Channel.restartRun
  rw [h]
  exact ⟨_, rfl⟩

theorem Channel.restartRun_of_error {e : RawErr} (h : k.recoverAll r 1 r.val x.redo = .error e) :
    k.restartRun r x = (k.raise e).modRun r (fun x => { x with abandoned := false, failed := true }) := by
  unfold Channel.restartRun
  rw [h]

theorem getD_replicate_getD {α : Type} (m n v l : Nat) (a : α) : ((List.replicate m (List.replicate n a)).getD v []).getD l a = a := by
  by_cases hv : v < m
  · rw [List.getD_replicate _ hv, getD_replicate_self]
  · rw [List.getD_eq_default (List.replicate m (List.replicate n a)) [] (by simpa using hv), List.getD_nil]

/-- The registers of a run that starts again are zero (06 R141, R161). -/
theorem Channel.freshRun_registers (k : Channel) (r : ReedId) (x : Run) :
    (∀ v l, (k.freshRun r x).lane v l = 0) ∧ ∀ p l, (k.freshRun r x).predAt p l = false :=
  ⟨fun v l => getD_replicate_getD 16 256 v l 0, fun p l => getD_replicate_getD 4 256 p l false⟩

end

/-- Settles O10: the last instruction is followed by the end of its element step, which changes data only; the end of a run is the work of
its streams and Drone, the end of the Reed's run and the landing of its entry; a restart is a recovery and a fresh run. -/
theorem valveStepAndRunEnds : Obligations.ValveStepAndRunEnds := by
  unfold Obligations.ValveStepAndRunEnds
  refine ⟨?last, ?other, fun s c r => ⟨?early, ?complete, ?going, fun x hrun hab => ⟨?restart, ?fails⟩, ?scalar⟩⟩
  case last =>
    intro s c r x w op i hi h y longer t₁ x₁ ht₁ hrun₁ hab₁ hfa₁
    obtain ⟨body, ignores, hexec⟩ := isValveForm_of_mem_valveForms hi
    have long : longer = s.setChan c ((s.chan c).lengthen r (x.pc + 2)) :=
      congrArg (s.setChan c) (Channel.modValve_withLength h.1 (x.pc + 2))
    rw [hexec, long] at ht₁
    obtain ⟨frame, only, step, z, emitted, hz⟩ := h.valveOp ignores (Host.Outcome.next.inj ht₁) hrun₁ hab₁ hfa₁
    refine ⟨_, z.nextStep, hexec s, hz, only, frame, ?_, z.nextStep_clear⟩
    rw [← step]
    exact Run.nextStep_of_emitted emitted
  case other =>
    intro s c r op i hi h
    obtain ⟨body, -, hexec⟩ := isValveForm_of_mem_valveForms hi
    rw [hexec, State.valveOp_eq_self h]
  case early =>
    intro x hrun h
    refine execVrunComplete_of_not_done hrun ?_
    rcases h with h | h | h <;> simp [Run.done, h]
  case complete =>
    intro x hrun hab hfa hst
    obtain ⟨free, n, eq⟩ := execVrunComplete_of_done hrun (by simp [Run.done, hab, hfa, hst])
    obtain ⟨landed, frame, y, y', reed, wrote, slots, words⟩ := (s.chan c).completeRun_ends c r free x
    have src : y.src = x.src := (congrArg Run.src wrote :)
    have oor : y.permOor = x.permOor := (congrArg Run.permOor wrote :)
    have status : y.statusWord none = x.statusWord none := by rw [wrote]; rfl
    refine ⟨_, eq, ⟨rfl, fun d hd => State.chan_setChan_ne _ _ hd⟩, ?_⟩
    rw [State.chan_drew, State.chan_setChan_self, reed]
    refine ⟨rfl, status, landed, frame, fun o ho => ⟨?slots, fun w hw => ?words⟩, fun ho => ?none⟩
    case slots => rw [Reed.slots_endRun_of_some (src.trans ho), slots]
    case words =>
      obtain ⟨w', find, bit⟩ := Reed.words_endRun_of_some (src.trans ho) (words ▸ hw)
      exact ⟨w', find, fun _ => oor ▸ bit⟩
    case none =>
      obtain ⟨hs, hw⟩ := Reed.endRun_of_none (y := y') (src.trans ho)
      exact ⟨hs.trans slots, hw.trans words⟩
  case going => exact exec_valveRestart_of_not_abandoned
  case restart =>
    intro k₁ h
    obtain ⟨lanes, preds⟩ := k₁.freshRun_registers r x
    obtain ⟨err, eq⟩ := Channel.restartRun_of_ok h
    refine ⟨_, k₁.freshRun r x, exec_valveRestart_of_abandoned hrun hab, State.onlyChan_setChan _ _ _, ?_⟩
    rw [State.chan_setChan_self, eq]
    refine ⟨?_, rfl, lanes, preds, Channel.srcNow_eq_none.symm, rfl, fun q hq => Channel.reed_modValve_ne k₁ _ hq⟩
    exact congrArg (fun (y : Reed) => y.valve.run) (Channel.reed_modValve_self k₁ r (Valve.starts (k₁.freshRun r x)))
  case fails =>
    intro e h
    refine ⟨_, exec_valveRestart_of_abandoned hrun hab, State.onlyChan_setChan _ _ _, ?_, Channel.cls_of_recoverAll_eq_error h⟩
    rw [State.chan_setChan_self, Channel.restartRun_of_error h]
  case scalar => exact fun _ _ _ => rfl

end Sys2Proof.Machine
end

section
/-! SUPPORT. Binding the slots of a channel to healthy Reeds at its start (01 R16; 18 R432, R503). -/

namespace Sys2Proof.Machine

open Sys2Proof

/-- Between two states slots of channel `c` have been bound to other Reeds, column mappings have come in use, and Reeds have become due
for a test: nothing else of the device changes (01 R16; 18 R437, R503). -/
structure State.Rebinds (c : ChanId) (s t : State) : Prop where
  frame : t = { s with ch := t.ch, mram := { s.mram with chan := t.mram.chan } }
  others : ∀ d, d ≠ c → t.chan d = s.chan d ∧ t.store d = s.store d
  chan : t.chan c = { s.chan c with
    slotMap := (t.chan c).slotMap, etude := { (s.chan c).etude with queue := (t.chan c).etude.queue } }
  store : t.store c = { s.store c with health := (t.store c).health }
  health : (t.store c).health.length = (s.store c).health.length
  state : ∀ r, (t.health c r).state = (s.health c r).state
  repair : ∀ r, (t.health c r).repair = (s.health c r).repair
  repairOn : ∀ r, (s.health c r).repairOn = true → (t.health c r).repairOn = true

namespace State.Rebinds

variable {c : ChanId} {s t u : State}

theorem refl (s : State) : s.Rebinds c s :=
  ⟨rfl, fun _ _ => ⟨rfl, rfl⟩, rfl, rfl, rfl, fun _ => rfl, fun _ => rfl, fun _ h => h⟩

theorem trans (h : s.Rebinds c t) (h' : t.Rebinds c u) : s.Rebinds c u where
  frame := h'.frame.trans (congrArg (fun (x : State) => { x with ch := u.ch, mram := { x.mram with chan := u.mram.chan } }) h.frame)
  others d hd := ⟨(h'.others d hd).1.trans (h.others d hd).1, (h'.others d hd).2.trans (h.others d hd).2⟩
  chan := h'.chan.trans (congrArg (fun (k : Channel) =>
    { k with slotMap := (u.chan c).slotMap, etude := { k.etude with queue := (u.chan c).etude.queue } }) h.chan)
  store := h'.store.trans (congrArg (fun (x : ChanStore) => { x with health := (u.store c).health }) h.store)
  health := h'.health.trans h.health
  state r := (h'.state r).trans (h.state r)
  repair r := (h'.repair r).trans (h.repair r)
  repairOn r hr := h'.repairOn r (h.repairOn r hr)

theorem isHealthy (h : s.Rebinds c t) (r : Nat) : t.isHealthy c r = s.isHealthy c r := by
  unfold State.isHealthy
  rw [h.state]

/-- A change of the channel's slots and of its Reeds due for a test. -/
theorem modChan (s : State) {f : Channel → Channel}
    (hf : f (s.chan c) = { s.chan c with
      slotMap := (f (s.chan c)).slotMap, etude := { (s.chan c).etude with queue := (f (s.chan c)).etude.queue } }) :
    s.Rebinds c (s.modChan c f) where
  frame := rfl
  others d hd := ⟨State.chan_modChan_ne s f hd, rfl⟩
  chan := by rw [State.chan_modChan_self]; exact hf
  store := rfl
  health := rfl
  state _ := rfl
  repair _ := rfl
  repairOn _ h := h

/-- A change of the Reeds' health that keeps their states and mappings and undoes no mapping. -/
theorem modStore (s : State) (l : List Health) (hl : l.length = (s.store c).health.length)
    (hst : ∀ r, (l.getD r {}).state = (s.health c r).state) (hr : ∀ r, (l.getD r {}).repair = (s.health c r).repair)
    (hon : ∀ r, (s.health c r).repairOn = true → (l.getD r {}).repairOn = true) :
    s.Rebinds c (s.modStore c (fun x => { x with health := l })) := by
  have new : ∀ r, (s.modStore c (fun x => { x with health := l })).health c r = l.getD r {} := fun r => by
    simp only [State.health, State.store_modStore_self]
  refine ⟨rfl, fun d hd => ⟨rfl, State.store_modStore_ne s _ hd⟩, rfl, ?_, ?_, fun r => ?_, fun r => ?_, fun r => ?_⟩
  · rw [State.store_modStore_self]
  · rw [State.store_modStore_self]; exact hl
  · rw [new]; exact hst r
  · rw [new]; exact hr r
  · rw [new]; exact hon r

/-- A fold whose every step rebinds, rebinds. -/
theorem foldl {α : Type} {f : State → α → State} (hf : ∀ (s : State) a, s.Rebinds c (f s a)) (l : List α) (s : State) : s.Rebinds c (l.foldl f s) :=
  foldl_keeps (P := fun t => s.Rebinds c t) (fun t a h => h.trans (hf t a)) l (.refl s)

end State.Rebinds

section
variable (s : State) (c : ChanId)

theorem State.setMap_rebinds (m : List Nat) : s.Rebinds c (s.setMap c m) := by
  have spare : ∀ (l : List Health) (r : Nat), let l' := (l.zipIdx).map (fun h => { h.1 with spare := h.1.state != 2 && !m.contains h.2 })
      l'.getD r {} = { l.getD r {} with spare := (l'.getD r {}).spare } := by
    intro l r
    by_cases hr : r < l.length <;> simp [List.getD_eq_getElem?_getD, hr]
  have map : s.Rebinds c (s.modChan c (fun k => { k with slotMap := m })) := .modChan s rfl
  refine map.trans (.modStore _ _ (by simp) (fun r => ?_) (fun r => ?_) (fun r hr => ?_))
  · rw [spare]; rfl
  · rw [spare]; rfl
  · rw [spare]; exact hr

@[simp] theorem State.slotMap_setMap (m : List Nat) : ((s.setMap c m).chan c).slotMap = m := by
  simp only [State.setMap, State.chan_modStore, State.chan_modChan_self]

/-! ### Column mappings come in use (01 R16; 18 R437) -/

/-- The recorded mapping of a Reed comes in use, and a suspect Reed is due for its retest. -/
def State.useRepair (s : State) (c : ChanId) (r : Nat) : State :=
  let due := (s.health c r).state == 1 && !(s.chan c).etude.queue.contains r
  (s.modHealth c r (fun h => { h with repairOn := true })).modChan c (fun k =>
    if due then { k with etude := { k.etude with queue := k.etude.queue ++ [r] } } else k)

theorem State.useRepairs_eq : s.useRepairs c
    = (allReeds.filter (fun r => (s.health c r).repair.isSome && !(s.health c r).repairOn)).foldl (fun s r => s.useRepair c r) s := rfl

theorem State.useRepair_rebinds (r : Nat) : s.Rebinds c (s.useRepair c r) := by
  have mapped : ∀ (l : List Health) (q : Nat), (modAt l r (fun h => { h with repairOn := true })).getD q {}
      = { l.getD q {} with repairOn := (l.getD q {}).repairOn || decide (q = r ∧ r < l.length) } := by
    intro l q
    by_cases hq : q = r
    · subst hq
      by_cases hl : q < l.length <;> simp [modAt, List.getD_eq_getElem?_getD, hl]
    · rw [getD_modAt_ne _ _ _ hq]
      simp [hq]
  have store : s.Rebinds c (s.modHealth c r (fun h => { h with repairOn := true })) := by
    refine .modStore s (modAt (s.store c).health r (fun h => { h with repairOn := true })) (by simp [modAt]) ?_ ?_ ?_ <;> intro q <;>
      rw [mapped]
    · rfl
    · rfl
    · exact fun h => by simpa using .inl h
  refine store.trans (.modChan _ ?_)
  split <;> rfl

theorem State.useRepairs_rebinds : s.Rebinds c (s.useRepairs c) := .foldl (fun s r => s.useRepair_rebinds c r) _ s

theorem State.slotMap_useRepairs : ((s.useRepairs c).chan c).slotMap = (s.chan c).slotMap := by
  refine foldl_keeps (P := fun (t : State) => (t.chan c).slotMap = (s.chan c).slotMap) (fun t r h => ?_) _ rfl
  simp only [State.chan_modChan_self]
  split <;> exact h

theorem State.repairOn_useRepair_self {r : Nat} (h : r < (s.store c).health.length) :
    ((s.useRepair c r).health c r).repairOn = true := by
  simp only [State.useRepair, State.modHealth, State.health, State.store_modChan, State.store_modStore_self,
    getD_modAt_self _ _ _ h]

/-- Every Reed with a recorded mapping uses it from the channel's start on. -/
theorem State.repairOn_useRepairs {r : Nat} (hr : r < 68) (hl : (s.store c).health.length = 68)
    (h : (s.health c r).repair.isSome = true) : ((s.useRepairs c).health c r).repairOn = true := by
  by_cases on : (s.health c r).repairOn = true
  · exact (s.useRepairs_rebinds c).repairOn r on
  have mem : r ∈ allReeds.filter (fun r => (s.health c r).repair.isSome && !(s.health c r).repairOn) := by
    simp [allReeds, hr, h, on]
  obtain ⟨l₁, l₂, split⟩ := List.append_of_mem mem
  have before := State.Rebinds.foldl (fun s r => State.useRepair_rebinds s c r) l₁ s
  rw [State.useRepairs_eq, split, List.foldl_append, List.foldl_cons]
  refine (State.Rebinds.foldl (fun s r => State.useRepair_rebinds s c r) l₂ _).repairOn r ?_
  exact State.repairOn_useRepair_self _ c (by rw [before.health, hl]; exact hr)

/-! ### Slots take healthy Reeds (18 R503) -/

/-- A slot whose Reed is not healthy takes a healthy spare while there is one. -/
def State.rebindReed (s : State) (c : ChanId) (r : Nat) : State :=
  if r = 0xFF ∨ s.isHealthy c r then s
  else match s.freeSpares c with
    | sp :: _ => s.swapSlot c r sp
    | [] => s

theorem State.rebindSlots_eq : s.rebindSlots c
    = (s.chan c).slotMap.foldl (fun s r => s.rebindReed c r) (s.useRepairs c) := by
  rw [← s.slotMap_useRepairs c]
  rfl

theorem State.rebindReed_rebinds (r : Nat) : s.Rebinds c (s.rebindReed c r) := by
  unfold State.rebindReed
  split
  · exact .refl s
  · split
    · exact s.setMap_rebinds c _
    · exact .refl s

theorem State.rebindSlots_rebinds : s.Rebinds c (s.rebindSlots c) := by
  rw [State.rebindSlots_eq]
  exact (s.useRepairs_rebinds c).trans (.foldl (fun s r => s.rebindReed_rebinds c r) _ _)

/-- A slot map in which every slot has its old Reed, or in the place of one that is not healthy a healthy one that no slot had
(18 R503). -/
def State.rebound (s : State) (c : ChanId) (old new : List Nat) : Prop :=
  ∀ n, new.getD n 0xFF = old.getD n 0xFF
    ∨ s.isHealthy c (old.getD n 0xFF) = false ∧ s.isHealthy c (new.getD n 0xFF) = true ∧ new.getD n 0xFF ∉ old

variable {s c} in
/-- A spare is healthy and has no slot. -/
theorem State.mem_freeSpares {r : Nat} (h : r ∈ s.freeSpares c) : r < 68 ∧ s.isHealthy c r = true ∧ r ∉ (s.chan c).slotMap := by
  simp only [State.freeSpares, State.healthyReeds, allReeds, List.mem_filter, List.mem_range, Bool.and_eq_true] at h
  obtain ⟨⟨hr, healthy⟩, free, -⟩ := h
  exact ⟨hr, healthy, by simpa using free⟩

variable {s c} in
/-- A healthy Reed that no slot holds now had no slot before. -/
theorem State.rebound.not_mem {old new : List Nat} (h : s.rebound c old new) {r : Nat} (hr : r ≠ 0xFF)
    (healthy : s.isHealthy c r = true) (free : r ∉ new) : r ∉ old := by
  intro mem
  obtain ⟨n, hn⟩ := List.mem_iff_getElem?.mp mem
  have at_n : old.getD n 0xFF = r := by simp [List.getD_eq_getElem?_getD, hn]
  rcases h n with same | ⟨sick, -⟩
  · refine free (List.mem_iff_getElem?.mpr ⟨n, ?_⟩)
    rw [at_n, List.getD_eq_getElem?_getD] at same
    cases hx : new[n]? with
    | none => simp [hx] at same; exact absurd same.symm hr
    | some x => simpa [hx] using same
  · rw [at_n, healthy] at sick
    cases sick

variable {s c} in
theorem State.rebound.rebindReed {t : State} {old : List Nat} (ht : s.Rebinds c t) (h : s.rebound c old (t.chan c).slotMap) (r : Nat) :
    s.rebound c old ((t.rebindReed c r).chan c).slotMap := by
  unfold State.rebindReed
  split
  · exact h
  next sick =>
    obtain ⟨hr, sick⟩ := not_or.mp sick
    rw [ht.isHealthy, Bool.not_eq_true] at sick
    split
    next sp rest spares =>
      obtain ⟨hsp, healthy, free⟩ := State.mem_freeSpares (spares ▸ List.mem_cons_self : sp ∈ t.freeSpares c)
      rw [ht.isHealthy] at healthy
      intro n
      have moved : ((t.swapSlot c r sp).chan c).slotMap.getD n 0xFF
          = if (t.chan c).slotMap.getD n 0xFF = r then sp else (t.chan c).slotMap.getD n 0xFF := by
        rw [State.swapSlot, State.slotMap_setMap]
        by_cases hn : n < (t.chan c).slotMap.length <;> simp [List.getD_eq_getElem?_getD, hn, Ne.symm hr]
      rw [moved]
      split
      next here =>
        rcases h n with same | ⟨-, well, -⟩
        · exact .inr ⟨by rw [← same, here]; exact sick, healthy, h.not_mem (by omega) healthy free⟩
        · rw [here, sick] at well
          cases well
      · exact h n
    · exact h

theorem State.rebindSlots_rebound : s.rebound c (s.chan c).slotMap ((s.rebindSlots c).chan c).slotMap := by
  rw [State.rebindSlots_eq]
  have start := s.useRepairs_rebinds c
  refine (foldl_keeps (P := fun (t : State) => s.Rebinds c t ∧ s.rebound c (s.chan c).slotMap (t.chan c).slotMap)
    (fun t r h => ⟨h.1.trans (t.rebindReed_rebinds c r), State.rebound.rebindReed h.1 h.2 r⟩) _ ⟨start, fun n => ?_⟩).2
  rw [State.slotMap_useRepairs]
  exact .inl rfl

theorem State.repairOn_rebindSlots {r : Nat} (hr : r < 68) (hl : (s.store c).health.length = 68)
    (h : (s.health c r).repair.isSome = true) : ((s.rebindSlots c).health c r).repairOn = true := by
  rw [State.rebindSlots_eq]
  exact (State.Rebinds.foldl (fun s r => s.rebindReed_rebinds c r) _ _).repairOn r (s.repairOn_useRepairs c hr hl h)

end

end Sys2Proof.Machine
end

section
/-! SUPPORT. Loading, starting and stopping a score (07 R185, R187, R188). -/

namespace Sys2Proof.Machine

open Sys2Proof

/-! ### The start of a score -/

theorem mem_chans (c : ChanId) : c ∈ chans := by revert c; decide

/-- With a channel running, out of FAULT and Last Breath, the device is RUNNING (20 R463). -/
theorem State.settle_of_running {s : State} {c : ChanId} (dev : s.dev ≠ 5) (awake : s.power.lb = none) (run : (s.chan c).st = .run) :
    s.settle = { s with dev := 2 } := by
  have any : chans.any (fun c => (s.chan c).st == .run || (s.chan c).st == .stopping) = true :=
    List.any_eq_true.mpr ⟨c, mem_chans c, by simp [run]⟩
  unfold State.settle
  rw [if_neg dev, awake, if_neg (by simp), if_pos any]

/-- A channel that starts at a phrase, with no token set or with its tokens as they are. -/
def Channel.startAt (k : Channel) (fresh : Bool) (phrase : Nat) : Channel :=
  { k with
    st := .run, tokens := if fresh then [] else k.tokens, scalarTok := if fresh then false else k.scalarTok
    ww := { k.ww with phrase := phrase, beat := 0, boundaryDue := true, started := true, hold := none } }

/-- A start from phrase 0 (mode 1) or from the step. -/
def State.start (s : State) (c : ChanId) (mode : Nat) : State := if mode = 1 then s.startScore c else s.startStep c

theorem State.start_eq (s : State) (c : ChanId) (mode : Nat) : s.start c mode
    = ((s.rebindSlots c).modChan c (fun k => k.startAt (mode = 1) (if mode = 1 then 0 else k.ww.stepPhrase))).settle := by
  unfold State.start
  split
  next h => subst h; rfl
  next h => simp only [h, Channel.startAt, decide_false]; rfl

section
variable {s : State} (c : ChanId) (mode : Nat)

/-- In an awake device a start binds the slots anew (to give `b`), puts the channel at its phrase, and the device is RUNNING. -/
structure State.Starts (s : State) (c : ChanId) (mode : Nat) (b : State) : Prop where
  binds : s.Rebinds c b
  rebound : s.rebound c (s.chan c).slotMap (b.chan c).slotMap
  mapped : ∀ r, r < 68 → (s.store c).health.length = 68 → (s.health c r).repair.isSome = true → (b.health c r).repairOn = true
  frame : s.start c mode = { b with ch := (s.start c mode).ch, dev := 2 }
  chan : (s.start c mode).chan c = (b.chan c).startAt (mode = 1) (if mode = 1 then 0 else (b.chan c).ww.stepPhrase)
  others : ∀ d, d ≠ c → (s.start c mode).chan d = b.chan d

theorem State.start_of_awake (dev : s.dev ≠ 5) (awake : s.power.lb = none) : s.Starts c mode (s.rebindSlots c) := by
  have binds := s.rebindSlots_rebinds c
  have starts : s.start c mode = { (s.rebindSlots c).modChan c
      (fun k => k.startAt (mode = 1) (if mode = 1 then 0 else k.ww.stepPhrase)) with dev := 2 } := by
    rw [State.start_eq]
    refine State.settle_of_running (c := c) ?_ ?_ (by rw [State.chan_modChan_self]; rfl)
    · rw [State.modChan_dev, binds.frame]; exact dev
    · rw [State.modChan_power, binds.frame]; exact awake
  refine ⟨binds, s.rebindSlots_rebound c, fun r => s.repairOn_rebindSlots c, ?_, ?_, fun d hd => ?_⟩ <;> rw [starts]
  · rfl
  · exact State.chan_modChan_self (s.rebindSlots c) c (fun k => k.startAt (mode = 1) (if mode = 1 then 0 else k.ww.stepPhrase))
  · exact State.chan_modChan_ne (s.rebindSlots c) (fun k => k.startAt (mode = 1) (if mode = 1 then 0 else k.ww.stepPhrase)) hd

end

/-! ### Writes of the score control stop -/

section
variable {s : State} {q : Req} {c : ChanId} {x : Session} {d : List Byte}

theorem State.applyStop_channel (c : ChanId) {base : Nat} (hb : stopChan (ofChan c base) = some c ∧ stopBase (ofChan c base) = base)
    (lo : base < 0x3000) (s : State) (x : Session) (txid op sub : Nat) (d : List Byte) (o : WriteObs) :
    s.applyStop x txid op (ofChan c base) sub d o = (some (s.applyChannel c base sub d).1, (s.applyChannel c base sub d).2) := by
  simp only [State.applyStop, hb.1, hb.2, lo, if_true]

theorem State.applyStop_score (c : ChanId) (s : State) (x : Session) (txid op sub : Nat) (d : List Byte) (o : WriteObs) :
    s.applyStop x txid op (ofChan c 0x2010) sub d o
      = (some (s.applyChannel c 0x2010 sub d).1, (s.applyChannel c 0x2010 sub d).2) :=
  State.applyStop_channel c (stopChan_ofChan c (by decide)) (by decide) s x txid op sub d o

theorem State.carried_loadScore (h : s.accepts q false (ofChan c 0x2010) 1 d x)
    (may : ((s.chan c).st = .ready ∨ (s.chan c).st = .loaded) ∧ (s.chan c).bind.bound = true ∧ (s.chan c).load ≠ 1) :
    s.carried (.loadScore q c d) q 2 (ofChan c 0x2010) 1
      (s.setChan c { s.chan c with load := 1, loading := some (fieldLe d 0 8, fieldLe d 8 4) }) := by
  refine State.carried_setChan h rfl (by decide) (by decide) ?_
  obtain ⟨st, bound, idle⟩ := may
  have free : (((s.touch q).chan c).st != .ready && ((s.touch q).chan c).st != .loaded || !((s.touch q).chan c).bind.bound
      || ((s.touch q).chan c).load == 1) = false := by
    show ((s.chan c).st != .ready && (s.chan c).st != .loaded || !(s.chan c).bind.bound || (s.chan c).load == 1) = false
    rcases st with st | st <;> simp [st, bound, idle]
  rw [State.applyStop_score]
  simp only [State.applyChannel, free]
  rfl

theorem State.refused_loadScore (h : s.accepts q false (ofChan c 0x2010) 1 d x)
    (may : ¬ (((s.chan c).st = .ready ∨ (s.chan c).st = .loaded) ∧ (s.chan c).bind.bound = true ∧ (s.chan c).load ≠ 1)) :
    s.refusedWith (.loadScore q c d) q 2 (ofChan c 0x2010) 1 0x0608 := by
  refine State.refusedWith_of (o := {}) h rfl (by decide) ?_
  have busy : (((s.touch q).chan c).st != .ready && ((s.touch q).chan c).st != .loaded || !((s.touch q).chan c).bind.bound
      || ((s.touch q).chan c).load == 1) = true := by
    show ((s.chan c).st != .ready && (s.chan c).st != .loaded || !(s.chan c).bind.bound || (s.chan c).load == 1) = true
    simp only [Bool.or_eq_true, Bool.and_eq_true, bne_iff_ne, beq_iff_eq, Bool.not_eq_true']
    by_contra none
    simp only [not_or, not_and_or, not_not] at none
    exact may ⟨none.1.1, by simpa using none.1.2, none.2⟩
  rw [State.applyStop_score]
  simp only [State.applyChannel, busy]
  rfl

/-- A write that is admitted and whose value the checks refuse changes nothing but what the answer does. -/
theorem State.refusedWith_of_body {i : Instr} {index sub n : Nat} (h : s.admits q 2 index sub x)
    (hi : exec i s = s.writeStop q false {} index sub d) (hn : n ≠ 0)
    (body : writeBody q 2 false {} index sub d { x with idle := 0 } (s.touch q) = (abort n, s.touch q)) :
    s.refusedWith i q 2 index sub n := by
  have run : exec i s = .next ((s.touch q).answer q 2 index sub (abort n)) := by
    refine (hi.trans (State.serve_admitted h _ _)).trans ?_
    simp only [Bool.false_eq_true, if_false, body, abort, Option.some.injEq, hn]
  refine ⟨_, run, State.talked_trans (State.talked_touch s q) (State.talked_answer _ _ _ _ _ _), ?_⟩
  exact State.replied_answer (u := s.touch q) h.1 q 2 index sub n [] (fun _ => rfl)

theorem stopRow_loadScore (c : ChanId) : stopRow (ofChan c 0x2010) 1 = some ⟨0x2010, 1, .wo, .blob 16, false⟩ := by revert c; decide

/-- A value in the last four bytes of LOAD_SCORE's argument is out of range (14 R359, step 7). -/
theorem State.refused_loadScore_value (h : s.admits q 2 (ofChan c 0x2010) 1 x) (len : d.length = 16) (tail : fieldLe d 12 4 ≠ 0) :
    s.refusedWith (.loadScore q c d) q 2 (ofChan c 0x2010) 1 0x0606 := by
  have stop := stopChan_ofChan c (b := 0x2010) (by decide)
  have bad : (s.touch q).valueBad (ofChan c 0x2010) 1 d = true := by
    simp only [State.valueBad, stop.1, stop.2]
    simpa using tail
  have length : (s.touch q).lengthBad (ofChan c 0x2010) 1 16 = false := by
    simp only [State.lengthBad, stop.1, stop.2]
    rfl
  refine State.refusedWith_of_body h rfl (by decide) ?_
  unfold writeBody
  rw [stopRow_loadScore]
  simp [length, bad, len, StopType.check]

/-- What the server does with a start: it is refused, or the score starts. -/
theorem State.applyStop_start (c : ChanId) (s : State) (x : Session) (txid op : Nat) {mode : Nat} (hm : mode = 1 ∨ mode = 2) (o : WriteObs) :
    s.applyStop x txid op (ofChan c 0x2010) 2 [byteOf mode] o
      = if s.startForbidden c mode then (some 0x0608, s) else (some 0, s.start c mode) := by
  have value : ofLe [byteOf mode] = mode := by rcases hm with rfl | rfl <;> rfl
  rw [State.applyStop_score]
  simp only [State.applyChannel, value]
  by_cases no : s.startForbidden c mode = true
  · simp only [no, if_true]
  · rcases hm with rfl | rfl <;> simp only [no] <;> rfl

/-- The command of a start. -/
def startInstr (q : Req) (c : ChanId) (mode : Nat) : Instr := if mode = 1 then .startFromPhrase0 q c else .startFromStep q c

theorem exec_startInstr {mode : Nat} (hm : mode = 1 ∨ mode = 2) :
    exec (startInstr q c mode) s = s.writeStop q false {} (ofChan c 0x2010) 2 [byteOf mode] := by
  rcases hm with rfl | rfl <;> rfl

theorem State.refused_start {mode : Nat} (hm : mode = 1 ∨ mode = 2) (h : s.accepts q false (ofChan c 0x2010) 2 [byteOf mode] x)
    (no : s.startForbidden c mode = true) : s.refusedWith (startInstr q c mode) q 2 (ofChan c 0x2010) 2 0x0608 := by
  refine State.refusedWith_of h (exec_startInstr hm) (by decide) ?_
  have no : (s.touch q).startForbidden c mode = true := no
  rw [State.applyStop_start c _ _ _ _ hm, no]
  rfl

/-- An accepted request reaches a device that is not in Last Breath and not in FAULT. -/
theorem State.accepts.awake {index sub : Nat} (h : s.accepts q false index sub d x) : s.power.lb = none ∧ s.dev ≠ 5 := by
  obtain ⟨admits, -, r, -, -, -, -, -, fault⟩ := h
  have send := admits.1
  refine ⟨?_, fun dev => ?_⟩
  · simp only [State.canSend, Bool.and_eq_true, Option.isNone_iff_eq_none] at send
    exact send.2
  · simp [State.faultForbids, dev] at fault

theorem State.carriedBy_start {mode : Nat} (hm : mode = 1 ∨ mode = 2) (h : s.accepts q false (ofChan c 0x2010) 2 [byteOf mode] x)
    (may : s.startForbidden c mode = false) :
    s.carriedBy (((s.touch q).start c mode).answer q 2 (ofChan c 0x2010) 2 {}) (startInstr q c mode) q 2 (ofChan c 0x2010) 2
      (fun u => u.start c mode) := by
  obtain ⟨lb, dev⟩ := h.awake
  have may : (s.touch q).startForbidden c mode = false := may
  refine ⟨?_, rfl, ?_⟩
  · refine ((exec_startInstr hm).trans (State.writeStop_accepted h _)).trans ?_
    simp only [Bool.false_eq_true, if_false, State.applyStop_start c _ _ _ _ hm, may, if_true]
    rw [State.afterWrite_ofChan _ c (by decide) (by decide)]
  · have starts := State.start_of_awake (s := s.touch q) c mode dev lb
    have mp : ((s.touch q).start c mode).mp = (s.touch q).mp := (congrArg State.mp starts.frame :).trans (congrArg State.mp starts.binds.frame :)
    have power : ((s.touch q).start c mode).power = s.power :=
      (congrArg State.power starts.frame :).trans (congrArg State.power starts.binds.frame :)
    have send : ((s.touch q).start c mode).canSend = true := by
      rw [State.canSend, mp, power]
      exact h.1.1
    obtain ⟨n, before, after, sent⟩ := State.replied_answer send q 2 (ofChan c 0x2010) 2 0 [] (fun _ => rfl)
    refine ⟨n, before, after, ?_⟩
    rw [mp] at sent
    exact sent

end

/-- Settles O12: each write of the stop is refused by its condition or applied, and a start binds the slots and then sets channel and
device. -/
theorem scoreControl : Obligations.ScoreControl := by
  intro s q c x k
  refine ⟨fun d h => ⟨State.carried_loadScore h, State.refused_loadScore h⟩, fun d => State.refused_loadScore_value, fun mode hm h => ?start,
    fun no => ?forbidden, fun d h => ?stop⟩
  case start =>
    refine ⟨fun may => ⟨_, State.carriedBy_start hm h may, ?_⟩, State.refused_start hm h⟩
    obtain ⟨lb, dev⟩ := h.awake
    obtain ⟨binds, rebound, mapped, frame, started, others⟩ := State.start_of_awake (s := s.touch q) c mode dev lb
    generalize (s.touch q).rebindSlots c = b at *
    have chan : (((s.touch q).start c mode).answer q 2 (ofChan c 0x2010) 2 {}).chan c
        = (b.chan c).startAt (mode = 1) (if mode = 1 then 0 else (b.chan c).ww.stepPhrase) := by
      rw [State.chan_answer, started]
    have store : ∀ d, (((s.touch q).start c mode).answer q 2 (ofChan c 0x2010) 2 {}).store d = b.store d := fun d => by
      rw [State.store_answer, frame]
      rfl
    have health : ∀ r, (((s.touch q).start c mode).answer q 2 (ofChan c 0x2010) 2 {}).health c r = b.health c r := fun r => by
      rw [State.health, store]
      rfl
    refine ⟨⟨?_, ?_⟩, ?_, fun d hd => ⟨?_, ?_⟩, ?_, fun r => ⟨?_, ?_, fun hr hl some => ?_⟩, ?_, ?_, ?_, ?_, ?_, ?_, ?_⟩
    · rw [chan, binds.chan]
      rcases hm with rfl | rfl <;> rfl
    · rw [chan]
      exact rebound
    · rw [State.answer_dev, frame]
    · rw [State.chan_answer, others d hd]
      exact (binds.others d hd).1
    · rw [store]
      exact (binds.others d hd).2
    · rw [store]
      exact binds.store
    · rw [health]
      exact binds.state r
    · rw [health]
      exact binds.repair r
    · rw [health]
      exact mapped r hr hl some
    · rw [State.answer_pins, frame]
      exact (congrArg State.pins binds.frame :)
    · rw [State.answer_power, frame]
      exact (congrArg State.power binds.frame :)
    · rw [State.answer_fuses, frame]
      exact (congrArg State.fuses binds.frame :)
    · rw [State.answer_meter, frame]
      exact (congrArg State.meter binds.frame :)
    · rw [State.answer_pending, frame]
      exact (congrArg State.pending binds.frame :)
    · rw [State.answer_freeCtr, frame]
      exact (congrArg State.freeCtr binds.frame :)
    · rw [State.answer_mram, frame]
      exact (congrArg State.mram binds.frame :)
  case forbidden =>
    have all : ∀ mode, s.startForbidden c mode = true := fun mode => by
      rcases no with st | load
      · simp [State.startForbidden, show (s.chan c).st ≠ .loaded from st]
      · simp [State.startForbidden, show (s.chan c).load = 1 from load]
    exact ⟨all 1, all 2⟩
  case stop =>
    exact State.carried_setChan h rfl (by decide) (by decide) (by rw [State.applyStop_score]; rfl)

end Sys2Proof.Machine
end

section
/-! SUPPORT. A hold watchdog's entry that the error log loses at once (07 R174; 11 R311, R314; 17 R413 to R415). -/

namespace Sys2Proof.Machine

open Sys2Proof

/-- An error of class D in handling whose entry a clear has taken from the log (17 R415). -/
def clearedParity : ErrEntry := { cause := .parity, cls := .D, seq := 1 }

/-- A channel that holds a beat, with 255 such errors in handling, an empty log, and DATA ports that are down without a spare. -/
def heldChannel : Channel :=
  { st := .run, ww := { hold := some .other }
    err := { handling := List.replicate 255 { entry := clearedParity } }
    paths := { plan := some { ports := List.replicate 8 { role := roleData } }
               disc := { results := List.replicate 8 (7, 0, 0) } } }

/-- A device whose channel 0 is that channel. -/
def heldState : State := State.setChan {} 0 heldChannel

/-- The watchdog's STEP_ABORT ends the 255 errors, which are logged again behind the watchdog's entry (17 R415), and the loss of a path
that follows is logged as the 257th entry: the ring drops its oldest, the watchdog's (17 R413, R414). -/
theorem holdTimeout_entry_lost :
    ((heldState.firmwareError 0 .holdTimeout .S 7 0 anyDetail).chan 0).err.log.ring.all (fun e => e.cause != .holdTimeout) = true := by
  decide +kernel

/-- Refutes O42: with 255 errors in handling that the log no longer holds, and no path for the repeat, the entry of the hold watchdog is
dropped from the ring of 256 entries before its command ends. -/
theorem not_windwayEvents : ¬ Obligations.WindwayEvents := by
  intro h
  obtain ⟨-, -, -, -, -, ⟨-, fires, repeats⟩, -⟩ := h heldState 0
  have holding : (heldState.chan 0).ww.hold.isSome = true
      ∧ ((heldState.chan 0).st = .run ∨ ((heldState.chan 0).st = .loaded ∧ (heldState.chan 0).resume = true)) := ⟨rfl, .inl rfl⟩
  obtain ⟨t, run, -, -, -, -, -, -, -, -, -, -, -, e, mem, cause, -⟩ := repeats holding (.inl rfl) rfl (by decide)
  obtain rfl : heldState.firmwareError 0 .holdTimeout .S 7 0 anyDetail = t := Host.Outcome.next.inj ((fires holding).symm.trans run)
  have other := List.all_eq_true.mp holdTimeout_entry_lost e mem
  rw [cause] at other
  cases other

end Sys2Proof.Machine
end

section
/-! SUPPORT. A write that runs past the last byte of the far tier (09 R231, R234, R253). -/

namespace Sys2Proof.Machine

open Sys2Proof

/-- A channel whose far tier ends inside a line of 256 bytes, after its first byte. The bring-up of the port keeps whole pages
(09 R253), but neither `Mem.sound` nor the statement asks for that. -/
def oneByteTier : Channel := { mem := { cxlCap := 1, class1 := [(0, { valid := true })] } }

/-- A range is tested by the first byte of each of its lines: two bytes pass, of which only the first has a place in the tier. -/
theorem oneByteTier_mapped : oneByteTier.mem.mapped true 1 0 2 = true := by decide

/-- The second byte is written all the same, behind the tier's end. -/
theorem oneByteTier_overrun :
    (oneByteTier.writeBytes 2 0 0 0 1 0 [1#8, 1#8]).mem.byte (farBase + 1) ≠ oneByteTier.mem.byte (farBase + 1) := by
  decide

/-- Refutes O45: a write to a space whose capacity is no multiple of 256 bytes also changes a byte that no address of the write
translates to. -/
theorem not_movers : ¬ Obligations.Movers := by
  intro h
  have sound : oneByteTier.mem.sound := ⟨⟨rfl, rfl⟩, fun _ hl => (List.not_mem_nil hl).elim, .nil⟩
  obtain ⟨-, ⟨elsewhere, -⟩, -⟩ := (h.2.2 oneByteTier 2 0 0 0 0 [1#8, 1#8]).2.2 1 (by decide) sound oneByteTier_mapped
  refine oneByteTier_overrun (elsewhere (farBase + 1) fun i q hi place => ?_)
  have first : oneByteTier.mem.place 1 0 = some { key := farBase, cls := 0, lock := false } := by decide
  have second : oneByteTier.mem.place 1 1 = none := by decide
  obtain rfl | rfl : i = 0 ∨ i = 1 := by simp at hi; omega
  · obtain rfl := Option.some.inj (first.symm.trans place)
    decide
  · cases second.symm.trans place

end Sys2Proof.Machine
end

section
/-! SUPPORT. What the Windway goes by, which no unit's work on data changes: reads, writes, errors and recoveries (07 R165 to R168). -/

namespace Sys2Proof.Machine

open Sys2Proof

/-! ### The relation -/

/-- What the Windway goes by: the channel's state, its registers and score, the Windway's own state, the scalars and the version state
kept, and the actions in flight, each with its entry, unit and token. -/
structure Control where
  st : ChState
  resume : Bool
  live : Rwp
  shadow : Rwp
  score : Option Score
  ww : Windway
  scalarTok : Bool
  scalarQ : List (Option ReedId × Nat × Nat)
  verSnap : Option Versions
  flying : List (Nat × Nat × Option Nat)

/-- The control state of a channel. -/
def Channel.control (k : Channel) : Control :=
  { st := k.st, resume := k.resume, live := k.live, shadow := k.shadow, score := k.score, ww := k.ww, scalarTok := k.scalarTok
    scalarQ := k.scalarQ, verSnap := k.verSnap, flying := k.flights.map (fun f => (f.entry, f.unit, f.token)) }

/-- Between two channels nothing has happened that the Windway goes by. -/
structure Channel.Steady (k k' : Channel) : Prop where
  control : k'.control = k.control

namespace Channel.Steady

variable {a b c k k' : Channel}

theorem refl (k : Channel) : k.Steady k := ⟨rfl⟩

theorem trans (h : a.Steady b) (h' : b.Steady c) : a.Steady c := ⟨h'.control.trans h.control⟩

/-- Of two ways to go on, each is steady. -/
theorem ite {α : Type} (g : α → Channel) {p : Prop} [Decidable p] {x y : α} (hx : k.Steady (g x)) (hy : k.Steady (g y)) :
    k.Steady (g (if p then x else y)) := by
  split <;> assumption

/-- Of two channels to go on with, each is steady. -/
theorem pick {p : Prop} [Decidable p] {x y : Channel} (hx : k.Steady x) (hy : k.Steady y) : k.Steady (if p then x else y) := by
  split <;> assumption

/-- A fold whose every step is steady, is steady. -/
theorem foldl {α β : Type} {g : α → Channel} {f : α → β → α} (hf : ∀ x y, (g x).Steady (g (f x y))) (l : List β) (x : α) :
    (g x).Steady (g (l.foldl f x)) :=
  foldl_keeps (P := fun y => (g x).Steady (g y)) (fun y z hy => hy.trans (hf y z)) l (.refl _)

theorem of_valveWorks {r : ReedId} (h : k.ValveWorks r k') : k.Steady k' := by
  have frame := h.frame
  rw [Channel.dataFrame] at frame
  rw [frame]
  exact ⟨rfl⟩

theorem st (h : k.Steady k') : k'.st = k.st := congrArg Control.st h.control
theorem live (h : k.Steady k') : k'.live = k.live := congrArg Control.live h.control
theorem shadow (h : k.Steady k') : k'.shadow = k.shadow := congrArg Control.shadow h.control
theorem score (h : k.Steady k') : k'.score = k.score := congrArg Control.score h.control
theorem ww (h : k.Steady k') : k'.ww = k.ww := congrArg Control.ww h.control

end Channel.Steady

/-! ### Reads, writes and errors -/

section
variable (k : Channel) (r : ReedId)

theorem Channel.frameErrors_steady (k : Channel) (r : ReedId) : k.Steady k.frameErrors := .of_valveWorks (k.frameErrors_valveWorks r)

theorem Channel.writeBytes_steady (unit uidx e space addr : Nat) (bs : List Byte) :
    k.Steady (k.writeBytes unit uidx r e space addr bs) := .of_valveWorks (k.writeBytes_valveWorks r unit uidx e space addr bs)

theorem Channel.addrFault_steady (unit uidx addr : Nat) : k.Steady (k.addrFault unit uidx addr) := ⟨rfl⟩

theorem Channel.readBytes_steady (unit uidx space addr n : Nat) : k.Steady (k.readBytes unit uidx r space addr n).2 := by
  have found : k.Steady ({ k with mem := (k.mem.load space addr n).2 } : Channel) := ⟨rfl⟩
  unfold Channel.readBytes
  split
  · exact .ite Prod.snd (.refl k) (k.addrFault_steady _ _ _)
  · exact .ite Prod.snd (found.trans (Channel.frameErrors_steady _ r)) (k.addrFault_steady _ _ _)

theorem Channel.raise_steady (x : RawErr) : k.Steady (k.raise x) := ⟨rfl⟩

theorem Channel.countCrc_steady (cls : Nat) : k.Steady (k.countCrc cls) := ⟨rfl⟩

theorem Channel.modReed_steady (f : Reed → Reed) : k.Steady (k.modReed r f) := ⟨rfl⟩

theorem Channel.readError_steady (unit uidx : Nat) (done : List Redo) (x : Redo) (cause : Cause) (cls : ErrClass) (detail : Nat) :
    k.Steady (k.readError unit uidx r done x cause cls detail).2 := by
  have count : k.Steady (if cause = .parity ∧ 3 ≤ x.space then
      k.modReed r (fun y => { y with cnt := { y.cnt with parErr := sat32 y.cnt.parErr 1 } }) else k) :=
    .pick (k.modReed_steady r _) (.refl k)
  unfold Channel.readError
  dsimp only
  split
  · exact count.trans (Channel.raise_steady _ _)
  · exact count.trans ⟨rfl⟩

theorem Channel.readChord_steady (unit uidx : Nat) (t : TensorDesc) (i : Nat) (done : List Redo) :
    k.Steady (k.readChord unit uidx r t i done).2 := by
  have read := k.readBytes_steady r unit uidx t.space (Score.chordAddr t i) (Score.chordSize t)
  have crc : ∀ (k : Channel) (p : Prop) [Decidable p] cls, k.Steady (if p then k.countCrc cls else k) := fun k p _ cls =>
    .pick (k.countCrc_steady cls) (.refl k)
  unfold Channel.readChord
  dsimp only
  split
  · exact read
  · split
    · exact read
    · exact (read.trans (crc _ _ _)).trans (Channel.readError_steady _ r _ _ _ _ _ _ _)

theorem Channel.countQuant_steady (layer place : Nat) (c : QGrid.Counts) : k.Steady (k.countQuant r layer place c) := ⟨rfl⟩

theorem Channel.tagToken_steady (t : Option Nat) (h : HoldCause) : k.Steady (k.tagToken t h) := by cases t <;> exact ⟨rfl⟩

/-- A tag changes no action in flight but for its tag. -/
theorem Channel.tagEntry_steady (entry : Nat) (h : HoldCause) : k.Steady (k.tagEntry entry h) := by
  have tags : ∀ l : List Flight, (l.map (fun g => if g.entry == entry then { g with tag := some h } else g)).map
      (fun f => (f.entry, f.unit, f.token)) = l.map (fun f => (f.entry, f.unit, f.token)) := fun l => by
    rw [List.map_map]
    refine List.map_congr_left fun g _ => ?_
    simp only [Function.comp]
    split <;> rfl
  unfold Channel.tagEntry
  split
  · exact .refl k
  · refine .pick (.refl k) (.trans ?_ (Channel.tagToken_steady _ _ h))
    exact ⟨congrArg (fun l => { k.control with flying := l }) (tags k.flights)⟩

theorem Channel.tagTile_steady (h : HoldCause) : k.Steady (k.tagTile r h) := by
  unfold Channel.tagTile
  split
  · exact k.tagEntry_steady _ h
  · exact .refl k

/-! ### Recoveries -/

theorem Channel.healParity_steady (space addr n : Nat) : k.Steady (k.healParity r space addr n) := .pick ⟨rfl⟩ ⟨rfl⟩

variable {k r} in
theorem Channel.recomputeSlot_steady {k' : Channel} {entry : Nat} (h : k.recomputeSlot r entry = some k') : k.Steady k' := by
  unfold Channel.recomputeSlot at h
  split at h
  · cases h
  · dsimp only at h
    split at h
    · cases h
    · split at h
      · cases h
      · cases h
        exact ⟨rfl⟩

variable {k r} in
theorem Channel.recover_steady {k' : Channel} {x : Redo} (h : k.recover r x = some k') : k.Steady k' := by
  have put : ∀ {e : Nat} {o : Option (List Byte)},
      o.map (fun bs => (k.writeBytes 0 r.val r e x.space x.addr bs).healParity r x.space x.addr x.len) = some k' → k.Steady k' := by
    intro e o h
    obtain ⟨bs, -, rfl⟩ := Option.map_eq_some_iff.mp h
    exact (k.writeBytes_steady r _ _ _ _ _ _).trans (Channel.healParity_steady _ r _ _ _)
  unfold Channel.recover at h
  dsimp only at h
  split at h
  · split at h
    · cases h
    · split at h
      · split at h
        · exact put h
        · cases h
          exact k.healParity_steady r _ _ _
      · obtain ⟨e, -, h⟩ := Option.bind_eq_some_iff.mp h
        exact put h
  · split at h
    · split at h
      · cases h
      · exact put h
    · split at h
      · exact Channel.recomputeSlot_steady h
      · cases h
        exact ⟨rfl⟩

theorem Channel.readNow_steady (unit uidx : Nat) (t : TensorDesc) (i : Nat) : k.Steady (k.readNow unit uidx r t i).2.2 := by
  have read := fun (k : Channel) done => k.readChord_steady r unit uidx t i done
  unfold Channel.readNow
  refine .trans (read k []) ?_
  obtain ⟨x, k₁⟩ := k.readChord unit uidx r t i []
  dsimp only
  split
  · exact .refl k₁
  · next y _ =>
    split
    · exact ⟨rfl⟩
    · next k₂ h => exact (Channel.recover_steady h).trans ((read k₂ [y]).trans (.pick (.refl _) ⟨rfl⟩))

theorem Channel.readPlace_steady (unit uidx space addr n : Nat) : k.Steady (k.readPlace unit uidx r space addr n).2 := by
  have read := fun (k : Channel) => k.readBytes_steady r unit uidx space addr n
  have done : ∀ (k : Channel) (e : Errors), k.Steady { k with err := e } := fun _ _ => ⟨rfl⟩
  unfold Channel.readPlace
  refine .trans (read k) ?_
  obtain ⟨res, k₁⟩ := k.readBytes unit uidx r space addr n
  dsimp -zeta only
  split
  · exact .refl k₁
  · extract_lets x t parity
    have fails := k₁.readError_steady r unit uidx [] x (if parity then .parity else .memUncorr)
      (if parity then .D else uncorrClass t.isSome res.cls ((t.getD {}).role)) (if parity then anyDetail else addr / pageBytes)
    generalize k₁.readError unit uidx r [] x _ _ _ = y at fails ⊢
    obtain ⟨y, k₂⟩ := y
    dsimp only
    split
    · exact fails
    · refine fails.trans ?_
      split
      · exact k₂.raise_steady _
      · next k₃ h => exact ((Channel.recover_steady h).trans (read k₃)).trans (done _ _)

end

end Sys2Proof.Machine
end

section
/-! SUPPORT. The cue of a tile and of a Valve run changes nothing that the Windway goes by (03 R72 to R76; 06 R142, R145, R160). -/

namespace Sys2Proof.Machine

open Sys2Proof Sys2Proof.Num

section
variable (k : Channel) (r : ReedId)

/-! ### Operands of a tile -/

theorem Channel.shareChords_steady (t : TensorDesc) (n : Nat) (done : List Redo) : k.Steady (k.shareChords r t n done).2.2.2 := by
  let chan : List ChordRead × Bool × List Redo × Channel → Channel := fun a => a.2.2.2
  unfold Channel.shareChords
  refine .ite chan (k.addrFault_steady _ _ _) (.foldl (g := chan) (fun a i => ?_) _ ([], false, [], k))
  exact .ite chan (.refl _) (Channel.readChord_steady _ r _ _ _ _ _)

theorem Channel.tableOutliers_steady (o : OpndDesc) (kLen : Nat) (want : Option Nat) (done : List Redo) (lines : List (List Tile.Elem)) :
    k.Steady (k.tableOutliers r o kLen want done lines).2.2.2.2.2 := by
  unfold Channel.tableOutliers
  split
  · exact .refl k
  · next at_ _ =>
    refine .foldl (g := fun (a : List (List Tile.Elem) × Nat × Bool × Bool × List Redo × Channel) => a.2.2.2.2.2) (fun a i => ?_) _
      (lines, 0, false, false, [], k)
    have read := Channel.readBytes_steady a.2.2.2.2.2 r 0 r.val 3 (at_ + Chord.outTableSize * i) Chord.outTableSize
    dsimp only
    split <;> dsimp only
    · exact read
    · exact read.trans (Channel.readError_steady _ r _ _ _ _ _ _ _)
    · exact read
    · exact read
    · exact read.trans ((Channel.countCrc_steady _ 0).trans (Channel.readError_steady _ r _ _ _ _ _ _ _))

theorem Channel.loadStored_steady (t : TileRun) (o : OpndDesc) (isB : Bool) (want : Option Nat) :
    k.Steady (k.loadStored r t o isB want).2 := by
  have share := k.shareChords_steady r
  unfold Channel.loadStored
  refine .ite Prod.snd (share _ _ _) ?_
  exact .ite (fun (a : List (List Tile.Elem) × Nat × Bool × Bool × List Redo × Channel) => a.2.2.2.2.2)
    ((share _ _ _).trans (Channel.tableOutliers_steady _ r _ _ _ _ _)) (share _ _ _)

theorem Channel.window_steady (unit uidx : Nat) (done : List Redo) (ts : XNum) (ix : Nat) (want : Option Nat) (r0 c0 nr nc : Nat) :
    k.Steady (k.window unit uidx r done ts ix want r0 c0 nr nc).2 := by
  let chan : List (Option (List XNum)) × Window × Channel → Channel := fun a => a.2.2
  unfold Channel.window
  refine .foldl (g := chan) (fun a p => ?_) _ ([], {}, k)
  have read := fun t n => Channel.readChord_steady a.2.2 r unit uidx t n done
  exact .ite chan (.refl _) (.ite chan (.ite chan (read _ _) (read _ _)) (.refl _))

theorem Channel.loadWide_steady (t : TileRun) (o : OpndDesc) (isB : Bool) (wide : Nat × Option Nat) (rung : Nat) :
    k.Steady (k.loadWide r t o isB wide rung).2 := by
  have window := k.window_steady r 0 r.val t.redone (scaleIn t.scales wide.1) wide.1 wide.2
  have read : ∀ {p : Prop} [Decidable p] {a b c d a' b' c' d'}, k.Steady
      (if p then k.window 0 r.val r t.redone (scaleIn t.scales wide.1) wide.1 wide.2 a b c d
        else k.window 0 r.val r t.redone (scaleIn t.scales wide.1) wide.1 wide.2 a' b' c' d').2 :=
    .ite Prod.snd (window _ _ _ _) (window _ _ _ _)
  unfold Channel.loadWide
  exact .ite Prod.snd read (.ite Prod.snd read (read.trans (Channel.writeBytes_steady _ r _ _ _ _ _ _)))

variable {k r} in
theorem Channel.loadOperand_steady {t : TileRun} {o : OpndDesc} {isB climb : Bool} {x : Loaded × Channel}
    (h : k.loadOperand r t o isB climb = some x) : k.Steady x.2 := by
  unfold Channel.loadOperand at h
  split at h
  · cases h
  · split at h
    · cases h
      exact k.loadStored_steady r _ _ _ _
    · split at h
      · cases h
      · cases h
        exact k.loadWide_steady r _ _ _ _ _

/-! ### A pass and the cue -/

theorem Channel.modTile_steady (f : TileRun → TileRun) : k.Steady (k.modTile r f) := ⟨rfl⟩

theorem Channel.failTile_steady (e : RawErr) : k.Steady (k.failTile r e) := ⟨rfl⟩

theorem Channel.countTile_steady (t : TileRun) (c : ReedCnt) : k.Steady (k.countTile r t c) := ⟨rfl⟩

theorem Channel.redoStop_steady (t : TileRun) (l : List Redo) : k.Steady (k.redoStop r t l) := by
  have count : k.Steady (k.countLayer t { parErr := (l.filter (fun x => x.parity && x.space == 3)).length }) := ⟨rfl⟩
  exact (count.trans (Channel.tagTile_steady _ r _)).trans (Channel.modTile_steady _ r _)

theorem Channel.versionStop_steady (t : TileRun) : k.Steady (k.versionStop r t) := by
  unfold Channel.versionStop
  refine .pick (k.failTile_steady r _) (.pick (k.failTile_steady r _) ?_)
  exact ((k.raise_steady _).trans (Channel.tagTile_steady _ r _)).trans (Channel.modTile_steady _ r _)

theorem Channel.bookPass_steady (t : TileRun) (kept : Kept) (la lb : Loaded) (fresh : Bool) :
    k.Steady (k.bookPass r t kept la lb fresh) := by
  unfold Channel.bookPass
  extract_lets ob faults kept₁ counted
  have keep : k.Steady kept₁ := k.modTile_steady r _
  have count : kept₁.Steady counted := kept₁.countTile_steady r t _
  refine (keep.trans count).trans (.pick ?_ (.refl _))
  have skip : ∀ (k : Channel) (n : Nat),
      k.Steady { k with tun := { k.tun with cnt := { k.tun.cnt with dynSkip := sat32 k.tun.cnt.dynSkip n } } } := fun _ _ => ⟨rfl⟩
  exact ((counted.countQuant_steady r _ _ _).trans (Channel.countQuant_steady _ r _ _ _)).trans (skip _ _)

theorem Channel.copyPass_steady (t : TileRun) : k.Steady (k.copyPass r t) := by
  unfold Channel.copyPass
  extract_lets +onlyGivenNames d
  split
  · exact k.failTile_steady r _
  · next ix want _ =>
    extract_lets +onlyGivenNames m lr len mts
    have window := k.window_steady r 0 r.val t.redone mts ix want
    have read := Channel.Steady.ite (p := lr = true) Prod.snd (window d.m0 0 128 len) (window 0 d.n0 len 128)
    generalize (if lr = true then k.window 0 r.val r t.redone mts ix want d.m0 0 128 len
      else k.window 0 r.val r t.redone mts ix want 0 d.n0 len 128) = x at read ⊢
    obtain ⟨w, k₁⟩ := x
    refine read.trans (.pick (k₁.modTile_steady r _) (.pick (k₁.redoStop_steady r _ _) (.pick (k₁.versionStop_steady r t) ?_)))
    extract_lets +onlyGivenNames vals pads li
    obtain ⟨lines, pads, saturated⟩ := throughCrook t 0 vals pads
    dsimp -zeta only
    extract_lets rung f q eff s fault sections tabled copied counted
    have table : k₁.Steady tabled := by
      unfold tabled
      split
      · exact .pick (k₁.writeBytes_steady r _ _ _ _ _ _) (.refl k₁)
      · exact .refl k₁
    have copy : tabled.Steady copied := tabled.modTile_steady r _
    have count : copied.Steady counted := copied.countTile_steady r t _
    exact table.trans (copy.trans (count.trans (Channel.countQuant_steady _ r _ _ _)))

theorem Channel.tilePass_steady : k.Steady (k.tilePass r) := by
  unfold Channel.tilePass
  split
  · exact .refl k
  next t _ =>
    refine .trans (k.modTile_steady r TileRun.started) (.pick (Channel.copyPass_steady _ r t) ?_)
    extract_lets bad
    have fail : (k.modTile r TileRun.started).Steady bad := Channel.failTile_steady _ r _
    split
    · exact fail
    · next la k₁ hA =>
      have readA : (k.modTile r TileRun.started).Steady k₁ := Channel.loadOperand_steady hA
      split
      · exact fail
      · next lb k₂ hB =>
        exact (readA.trans (Channel.loadOperand_steady hB)).trans (.pick (k₂.modTile_steady r _) (.pick (k₂.redoStop_steady r t _)
          (.pick (k₂.versionStop_steady r t) (k₂.bookPass_steady r t _ la lb _))))

theorem Channel.cueTile_steady (i : Nat) : k.Steady (k.cueTile r i) := by
  unfold Channel.cueTile
  refine .trans ?_ (Channel.tilePass_steady _ r)
  exact .trans (k.modReed_steady r _) (.pick (Channel.tagTile_steady _ r .tileRecomp) (.refl _))

/-! ### A Valve run -/

theorem Channel.modValve_steady (f : Valve → Valve) : k.Steady (k.modValve r f) := ⟨rfl⟩

theorem Channel.countValve_steady (n : ValveCnt) : k.Steady (k.countValve r n) := ⟨rfl⟩

theorem Channel.valveFault_steady (pc lane : Nat) : k.Steady (k.valveFault r pc lane) := by
  have put := fun (k : Channel) entry t n ch => Channel.Steady.of_valveWorks (k.putChord_valveWorks r entry t n ch)
  have drone := fun (k : Channel) x p f ch => Channel.Steady.of_valveWorks (k.putDrone_valveWorks r x p f ch)
  have events := fun (k : Channel) x => Channel.Steady.of_valveWorks (k.stepEvents_valveWorks r x)
  unfold Channel.valveFault
  split
  · exact .refl k
  next x _ =>
    extract_lets poison poisoned drones counted ended
    have poison : ∀ (k : Channel) (j : Nat), k.Steady (poison k j) := fun k j => by
      unfold poison
      split
      · exact .refl k
      · exact .foldl (g := id) (fun k n => .pick (.refl k) (put k _ _ _ _)) _ k
    have outs : k.Steady poisoned := (poison k 0).trans (poison _ 1)
    have drained : poisoned.Steady drones := .foldl (g := id) (fun k _ => drone k x _ _ _) _ poisoned
    have stop : counted.Steady ended := counted.modValve_steady r _
    exact ((outs.trans drained).trans ((events drones x).trans stop)).trans
      ((ended.countValve_steady r _).trans (Channel.raise_steady _ _))

theorem Channel.cueRun_steady (i : Nat) : k.Steady (k.cueRun r i) := by
  unfold Channel.cueRun
  extract_lets e d v words src x cued
  have cue : k.Steady cued := ⟨rfl⟩
  exact cue.trans (.pick (cued.valveFault_steady r _ _) (.refl cued))

end

end Sys2Proof.Machine
end

section
/-! SUPPORT. What Bells send and what collectives do changes nothing that the Windway goes by (10 R279; 11 R289 to R309). -/

namespace Sys2Proof.Machine

open Sys2Proof Sys2Proof.Num

section
variable (k : Channel) (w : Self)

/-! ### Single fields -/

theorem Channel.steady_mem (m : Mem) : k.Steady { k with mem := m } := ⟨rfl⟩

theorem Channel.steady_coll (x : Colls) : k.Steady { k with coll := x } := ⟨rfl⟩

theorem Channel.modPort_steady (p : PortId) (f : Port → Port) : k.Steady (k.modPort p f) := ⟨rfl⟩

theorem Channel.setColl_steady (x : Coll) : k.Steady (k.setColl x) := ⟨rfl⟩

theorem Channel.collCount_steady (f : CollCnt → CollCnt) : k.Steady (k.collCount f) := ⟨rfl⟩

theorem Channel.collError_steady (cause : Cause) (cls : ErrClass) (unit port cseq : Nat) :
    k.Steady (k.collError cause cls unit port cseq) := ⟨rfl⟩

theorem Channel.collVersion_steady (uidx : Nat) : k.Steady (k.collVersion uidx) := ⟨rfl⟩

theorem Channel.formatFault_steady (layer : Nat) : k.Steady (k.formatFault layer) := ⟨rfl⟩

theorem Channel.portCount_steady (p : PortId) (f : PortCnt → PortCnt) : k.Steady (k.portCount p f) := ⟨rfl⟩

/-- An action that had to be tried again takes the tag of a retry. -/
theorem Channel.tagRetry_steady (retried : Bool) (entry : Nat) :
    k.Steady (if retried then k.tagEntry entry .errorRetry else k) := .pick (k.tagEntry_steady entry _) (.refl k)

/-! ### Packets -/

theorem Channel.sendPacket_steady (p : PortId) (owner : Option Nat) (typ vc dpos dch : Nat) (bs : List (List Byte)) :
    k.Steady (k.sendPacket w p owner typ vc dpos dch bs) := by
  unfold Channel.sendPacket
  split
  · exact .refl k
  · exact k.modPort_steady p _

theorem Channel.sendTo_steady (port typ vc : Nat) (l : List (List (List Byte))) : k.Steady (k.sendTo w port typ vc l) := by
  unfold Channel.sendTo
  split
  · exact .refl k
  · split
    · exact .refl k
    · exact .foldl (g := id) (fun k _ => k.sendPacket_steady w _ _ _ _ _ _ _) l k

/-- Packets sent on several ports. -/
theorem Channel.sendEach_steady (ports : List Nat) (typ vc : Nat) (l : List (List (List Byte))) :
    k.Steady (ports.foldl (fun (k : Channel) p => k.sendTo w p typ vc l) k) :=
  .foldl (g := id) (fun k p => k.sendTo_steady w p typ vc l) ports k

/-- Packets sent on a port, where there is one. -/
theorem Channel.sendUp_steady (port : Option Nat) (typ vc : Nat) (l : List (List (List Byte))) :
    k.Steady (match port with | some p => k.sendTo w p typ vc l | none => k) := by
  cases port with
  | none => exact .refl k
  | some p => exact k.sendTo_steady w p typ vc l

/-! ### SEND and RECV -/

theorem Channel.sendBytes_steady (p : PortId) (i : Nat) (e : Entry) (ix : Nat) (want : Option Nat) :
    k.Steady (k.sendBytes p i e ix want).2 := by
  unfold Channel.sendBytes
  refine .foldl (g := fun (a : Option (List Byte) × Channel) => a.2) (fun a j => ?_) _ (some [], k)
  split
  · exact .refl _
  · have read := a.2.readNow_steady 0 3 p.val (k.storedTensor (Score.sendAt k.pool e.desc).tensor ix)
      ((Score.sendAt k.pool e.desc).first + j)
    generalize a.2.readNow 3 p.val 0 _ _ = y at read ⊢
    obtain ⟨x, retried, k₁⟩ := y
    exact (read.trans (k₁.tagRetry_steady retried i)).trans
      (.ite Prod.snd (.refl _) (.ite Prod.snd (Channel.collVersion_steady _ _) (.refl _)))

theorem Channel.launchSend_steady (i : Nat) (e : Entry) : k.Steady (k.launchSend w i e) := by
  unfold Channel.launchSend
  extract_lets d p partner path
  split
  · exact k.raise_steady _
  · exact k.collVersion_steady _
  · next q ix want _ _ =>
    have read := k.sendBytes_steady p i e ix want
    generalize k.sendBytes p i e ix want = y at read ⊢
    obtain ⟨_ | bs, k₁⟩ := y
    · exact read
    · dsimp -zeta only
      extract_lets k₂
      have posted : k₁.Steady k₂ := k₁.modPort_steady q _
      refine (read.trans posted).trans ?_
      exact .foldl (g := id) (fun k _ => k.sendPacket_steady w _ _ _ _ _ _ _) _ _

theorem Channel.launchRecv_steady (i : Nat) (e : Entry) : k.Steady (k.launchRecv i e) := by
  unfold Channel.launchRecv
  exact k.modPort_steady _ _

/-! ### SRC and the scale table -/

theorem Channel.srcChord_steady (entry uidx : Nat) (t : TensorDesc) (want : Option Nat) (i : Nat) :
    k.Steady (k.srcChord entry uidx t want i).2 := by
  have read := k.readNow_steady 0 3 uidx t i
  unfold Channel.srcChord
  generalize k.readNow 3 uidx 0 t i = y at read ⊢
  obtain ⟨x, retried, k₁⟩ := y
  refine (read.trans (k₁.tagRetry_steady retried entry)).trans ?_
  exact .ite Prod.snd (.refl _) (.ite Prod.snd (Channel.collVersion_steady _ _) (.pick (Channel.formatFault_steady _ _) (.refl _)))

theorem Channel.srcBlocks_steady (entry uidx : Nat) (d : CollDesc) : k.Steady (k.srcBlocks entry uidx d).2 := by
  unfold Channel.srcBlocks
  split
  · exact k.collVersion_steady _
  · refine .foldl (g := fun (a : Option (List (List XNum)) × Channel) => a.2) (fun a i => ?_) _ (some [], k)
    split
    · exact .refl _
    · exact a.2.srcChord_steady _ _ _ _ _

theorem Channel.readTable_steady (uidx : Nat) (d : CollDesc) : k.Steady (k.readTable uidx d).2 := by
  have read := k.readPlace_steady 0 3 uidx 0 d.stab 16
  unfold Channel.readTable
  split
  · exact .refl k
  · generalize k.readPlace 3 uidx 0 0 d.stab 16 = y at read ⊢
    obtain ⟨_ | b, k₁⟩ := y
    · exact read
    · exact read.trans (.ite Prod.snd (k₁.readPlace_steady 0 _ _ _ _ _) (.refl k₁))

theorem Channel.writeTable_steady (uidx entry stab step : Nat) (codes : List Nat) :
    k.Steady (k.writeTable uidx entry stab step codes) := by
  have write := fun (k : Channel) addr bs => k.writeBytes_steady 0 3 uidx entry 0 addr bs
  unfold Channel.writeTable
  exact .trans (.trans (.pick ((k.steady_mem _).trans (write _ _ _)) (.refl k)) (write _ _ _)) (write _ _ _)

/-! ### Passes and exchanges -/

theorem Channel.openPass_steady (x : Coll) (secondary : Bool) (pass : Nat) (f : Flow) : k.Steady (k.openPass w x secondary pass f) := by
  unfold Channel.openPass
  extract_lets cseq one opened
  have one : ∀ (k : Channel) port n, k.Steady (one k port n) := fun k port n => .pick (.refl k) (k.sendTo_steady w _ _ _ _)
  have up : k.Steady opened := by
    unfold opened
    split
    · exact one k _ _
    · exact .refl k
  exact up.trans (.pick (.foldl (g := id) (fun k p => one k p _) _ _) (.refl _))

theorem Channel.sendFlow_steady (x : Coll) (secondary : Bool) (o : FlowOut) : k.Steady (k.sendFlow w x secondary o) := by
  unfold Channel.sendFlow
  exact ((k.sendUp_steady w _ _ _ _).trans (Channel.sendEach_steady _ w _ _ _ _)).trans (Channel.collCount_steady _ _)

theorem Channel.hopReceived_steady (x : Coll) (first : Nat) (bs : List I8A) : k.Steady (k.hopReceived w x first bs).2 := by
  unfold Channel.hopReceived
  refine .ite Prod.snd (.refl k) (.ite Prod.snd ?_ (.refl k))
  split
  · exact k.sendTo_steady w _ _ _ _
  · exact .refl k

theorem Channel.settleDual_steady (x : Coll) : k.Steady (k.settleDual x).2 := by
  unfold Channel.settleDual
  split
  · exact .refl k
  · exact .ite Prod.snd (.refl k) (.ite Prod.snd (.refl k) ((k.collCount_steady _).trans (Channel.collError_steady _ _ _ _ _ _)))

theorem Channel.sendTotals_steady (x : Coll) (up down : Option (Nat × Nat)) : k.Steady (k.sendTotals w x up down) := by
  unfold Channel.sendTotals
  extract_lets pl sent
  have up : k.Steady sent := by
    unfold sent
    split
    · exact k.sendTo_steady w _ _ _ _
    · exact .refl k
  refine up.trans ?_
  split
  · exact sent.sendEach_steady w _ _ _ _
  · exact .refl sent

theorem Channel.digestIn_steady (x : Coll) (src con res : Nat) : k.Steady (k.digestIn w x src con res).2 := by
  unfold Channel.digestIn
  split
  · exact .refl k
  · next d _ =>
    obtain ⟨d', up, down⟩ := d.recv (k.isParent x true src) con res
    dsimp -zeta only
    extract_lets y sent
    have send : k.Steady sent := k.sendTotals_steady w y up down
    split
    · exact .ite Prod.snd send (send.trans ((sent.collCount_steady _).trans (Channel.collError_steady _ _ _ _ _ _)))
    · exact send

theorem Channel.startDigest_steady (x : Coll) : k.Steady (k.startDigest w x).2 := by
  unfold Channel.startDigest
  obtain ⟨con, res⟩ := x.digests (digWeights k.bind.seed k.step x.desc.bucket (32 * x.codes.length))
  dsimp -zeta only
  obtain ⟨d, up⟩ := DigFlow.start { rank := x.rankOn true, p := x.desc.p, tree := x.desc.tree, con := con, res := res }
  dsimp -zeta only
  extract_lets early y sent
  have send : k.Steady sent := k.sendTotals_steady w y up none
  exact send.trans (.foldl (g := fun (a : Coll × Channel) => a.2) (fun a e => a.2.digestIn_steady w _ _ _ _) early (y, sent))

theorem Channel.sendItems_steady (x : Coll) (stage : Nat) (o : FlowOut) : k.Steady (k.sendItems w x stage o) :=
  (k.sendUp_steady w _ _ _ _).trans (Channel.sendEach_steady _ w _ _ _ _)

theorem Channel.startExchange_steady (x : Coll) (stage : Nat) (items : List I8A) : k.Steady (k.startExchange w x stage items).2 :=
  k.sendItems_steady w x stage _

theorem Channel.exchangeIn_steady (x : Coll) (src off : Nat) (data : List Byte) : k.Steady (k.exchangeIn w x src off data).2 := by
  unfold Channel.exchangeIn
  split
  · exact .refl k
  · exact k.sendItems_steady w x _ _

theorem Channel.startPass_steady (x : Coll) (secondary : Bool) (pass : Nat) (own : List I8A) :
    k.Steady (k.startPass w x secondary pass own).2 :=
  (k.openPass_steady w x secondary pass _).trans (Channel.sendFlow_steady _ w x secondary _)

theorem Channel.blocksIn_steady (x : Coll) (pass port src first : Nat) (bs : List I8A) :
    k.Steady (k.blocksIn w x pass port src first bs).2 := by
  unfold Channel.blocksIn
  extract_lets wait
  split
  · split
    · exact .refl k
    · exact (k.sendFlow_steady w _ _ _).trans (Channel.settleDual_steady _ _)
  · refine .ite Prod.snd (.refl k) (.ite Prod.snd (.refl k) ?_)
    refine (k.hopReceived_steady w x first bs).trans (.trans ?_ (Channel.sendFlow_steady _ w _ _ _))
    exact .pick (Channel.collError_steady _ _ _ _ _ _) (.refl _)

theorem Channel.takeEarly_steady (x : Coll) : k.Steady (k.takeEarly w x).2 :=
  .foldl (g := fun (a : Coll × Channel) => a.2) (fun a _ => a.2.blocksIn_steady w _ _ _ _ _ _) x.early ({ x with early := [] }, k)

theorem Channel.startMain_steady (x : Coll) (codes : List Nat) : k.Steady (k.startMain w x codes).2 := by
  have read := k.srcBlocks_steady x.entry x.port x.desc
  unfold Channel.startMain
  generalize k.srcBlocks x.entry x.port x.desc = y at read ⊢
  obtain ⟨_ | g, k₁⟩ := y
  · exact read
  · dsimp -zeta only
    extract_lets d own located sampled y z
    have start := k₁.startPass_steady w y false 0 own
    generalize k₁.startPass w y false 0 own = p at start ⊢
    obtain ⟨f, k₂⟩ := p
    have dual := k₂.startPass_steady w z true 4 own
    generalize k₂.startPass w z true 4 own = p at dual ⊢
    obtain ⟨f, k₃⟩ := p
    refine (read.trans start).trans (.trans ?_ (Channel.takeEarly_steady _ w _))
    refine .ite Prod.snd (dual.trans ?_) (.refl k₂)
    exact k₃.collCount_steady fun c => { c with dualSamples := sat32 c.dualSamples 1 }

/-! ### Collectives -/

theorem Channel.passTaken_steady (x : Coll) (states : List Nat) : k.Steady (k.passTaken w x states).2 := by
  unfold Channel.passTaken
  dsimp -zeta only
  extract_lets got ended exhausted result flagged first inPass y ovfs counted
  have count : k.Steady counted := k.collCount_steady _
  have dual := counted.settleDual_steady y
  generalize counted.settleDual y = p at dual ⊢
  obtain ⟨z, k₁⟩ := p
  refine (count.trans dual).trans (.ite Prod.snd ?_ ?_)
  · have digest := k₁.startDigest_steady w { z with passesDone := true }
    generalize k₁.startDigest w { z with passesDone := true } = p at digest ⊢
    obtain ⟨z, k₂⟩ := p
    exact digest.trans (.ite Prod.snd (k₂.startExchange_steady w _ _ _) (.refl k₂))
  · have read := k₁.srcBlocks_steady z.entry z.port z.desc
    generalize k₁.srcBlocks z.entry z.port z.desc = p at read ⊢
    obtain ⟨_ | g, k₂⟩ := p
    · exact read
    · dsimp -zeta only
      extract_lets codes own contrib again k₃
      have start := k₃.startPass_steady w again false again.pass own
      generalize k₃.startPass w again false again.pass own = p at start ⊢
      obtain ⟨f, k₄⟩ := p
      exact read.trans (((k₂.collCount_steady _).trans start).trans (k₄.takeEarly_steady w _))

theorem Channel.exchangeDone_steady (x : Coll) (stage : Nat) (f : Flow) : k.Steady (k.exchangeDone w x stage f).2 := by
  unfold Channel.exchangeDone
  split
  · exact (k.writeTable_steady _ _ _ _ _).trans (Channel.startMain_steady _ w _ _)
  · exact k.passTaken_steady w _ _
  · exact .refl k
  · exact .refl k

theorem Channel.passComplete_steady (x : Coll) : k.Steady (k.passComplete w x).2 :=
  .ite Prod.snd (k.startExchange_steady w _ _ _) (k.passTaken_steady w _ _)

theorem Channel.collAdvance_steady (fuel : Nat) (a : Coll × Channel) : a.2.Steady (Channel.collAdvance w fuel a).2 := by
  induction fuel generalizing a with
  | zero => exact .refl _
  | succ fuel ih =>
    unfold Channel.collAdvance
    refine .ite Prod.snd (.refl _) ?_
    split
    · exact .ite Prod.snd ((a.2.exchangeDone_steady w _ _ _).trans (ih _)) (.refl _)
    · exact .ite Prod.snd ((a.2.passComplete_steady w _).trans (ih _)) (.refl _)

theorem Channel.advanceColl_steady (x : Coll) : k.Steady (k.advanceColl w x) :=
  (Channel.collAdvance_steady w collFuel (x, k)).trans (Channel.setColl_steady _ _)

theorem Channel.gatherItems_steady (x : Coll) : k.Steady (k.gatherItems x).2 := by
  unfold Channel.gatherItems
  dsimp -zeta only
  extract_lets d
  split
  · exact k.collVersion_steady _
  · refine .foldl (g := fun (a : Option (List I8A) × Channel) => a.2) (fun a i => ?_) _ (some _, k)
    split
    · exact .refl _
    · exact a.2.srcChord_steady _ _ _ _ _

theorem Channel.collLaunch_steady (entry : Nat) : k.Steady (k.collLaunch w entry) := by
  unfold Channel.collLaunch
  extract_lets e d cseq ports held x colls k₀ lost
  have base : k.Steady k₀ := k.steady_coll _
  have lost : ∀ k : Channel, k.Steady (lost k) := fun k => k.setColl_steady _
  refine base.trans (.pick ?_ ?_)
  · have read := k₀.gatherItems_steady x
    generalize k₀.gatherItems x = p at read ⊢
    obtain ⟨_ | items, k₁⟩ := p
    · exact read.trans (lost k₁)
    · exact (read.trans (k₁.startExchange_steady w x 3 items)).trans (Channel.setColl_steady _ _)
  · have read := k₀.readTable_steady x.port d
    generalize k₀.readTable x.port d = p at read ⊢
    obtain ⟨_ | _ | codes, k₁⟩ := p
    · exact read.trans (lost k₁)
    · have source := k₁.srcBlocks_steady entry x.port d
      refine read.trans ?_
      dsimp -zeta only
      generalize k₁.srcBlocks entry x.port d = p at source ⊢
      obtain ⟨_ | g, k₂⟩ := p
      · exact source.trans (lost k₂)
      · exact source.trans (((k₂.collCount_steady _).trans (Channel.startExchange_steady _ w x 0 _)).trans
          (Channel.advanceColl_steady _ w _))
    · exact read.trans ((k₁.startMain_steady w x codes).trans (Channel.advanceColl_steady _ w _))

theorem Channel.sendVerdict_steady (entry : Nat) : k.Steady (k.sendVerdict w entry) := by
  unfold Channel.sendVerdict
  split
  · exact (k.startExchange_steady w _ _ _).trans (Channel.steady_coll _ _)
  · exact .refl k

/-! ### Packets that come in -/

variable {k} in
theorem Channel.exchangePacket_steady {k' : Channel} {mtag src off : Nat} {data : List Byte}
    (h : k.exchangePacket w mtag src off data = some k') : k.Steady k' := by
  unfold Channel.exchangePacket at h
  extract_lets isFor at h
  split at h
  · cases h
    exact (k.exchangeIn_steady w _ _ _ _).trans (Channel.advanceColl_steady _ w _)
  · split at h
    · cases h
      exact (k.exchangeIn_steady w _ _ _ _).trans (Channel.steady_coll _ _)
    · cases h
  · cases h

variable {k} in
theorem Channel.collOpen_steady {k' : Channel} {p : PortId} {src : Nat} {pl : List Byte} (h : k.collOpen p src pl = some k') :
    k.Steady k' := by
  unfold Channel.collOpen at h
  extract_lets cseq pass count same note checked colls opened at h
  have note : ∀ (k : Channel) b, k.Steady (note k b) := fun k b => k.modPort_steady p _
  have checked : ∀ k : Channel, k.Steady (checked k) := fun k =>
    .pick (.refl k) ((k.collCount_steady _).trans (Channel.collError_steady _ _ _ _ _ _))
  split at h
  · cases h
    exact ((k.collCount_steady _).trans (checked _)).trans (note _ true)
  · split at h
    · cases h
    · cases h
      have open_ : k.Steady opened := by
        unfold opened
        split
        · exact .pick (.refl k) (k.setColl_steady _)
        · exact k.steady_coll _
      exact (open_.trans (checked _)).trans (note _ false)

theorem Channel.reduceIn_steady (p : PortId) (src : Nat) (payloads : List (List Byte)) : k.Steady (k.reduceIn w p src payloads) := by
  unfold Channel.reduceIn
  dsimp -zeta only
  extract_lets parts blocks first ofSrc staleNow
  split
  · exact .refl k
  · refine .pick (.refl k) ?_
    extract_lets k₁
    have took : k.Steady k₁ := k.modPort_steady p _
    refine .trans took ?_
    split
    · exact .refl _
    · exact (Channel.blocksIn_steady _ w _ _ _ _ _ _).trans (Channel.advanceColl_steady _ w _)

theorem Channel.portDown_steady (p : PortId) : k.Steady (k.portDown p) := by
  unfold Channel.portDown
  refine .pick (.refl k) ?_
  extract_lets fails lost named
  have down : k.Steady lost := k.modPort_steady p _
  have name : lost.Steady named := .pick (.refl _) ⟨rfl⟩
  exact (down.trans name).trans (.pick (Channel.raise_steady _ _) (.refl _))

theorem Channel.digestPacket_steady (src : Nat) (pl : List Byte) : k.Steady (k.digestPacket w src pl) := by
  unfold Channel.digestPacket
  split
  · exact .refl k
  · refine .pick ((k.digestIn_steady w _ _ _ _).trans (Channel.setColl_steady _ _)) (.pick (.pick (.refl k) ?_) (.refl k))
    extract_lets a located
    have locate : k.Steady located := (k.collCount_steady _).trans (Channel.raise_steady _ _)
    refine locate.trans ?_
    split
    · exact Channel.portDown_steady _ _
    · exact .refl _

end

end Sys2Proof.Machine
end

section
/-! SUPPORT. Errors, step ends and packets that come in leave the Windway's counts of beats as they are, and the other channels
(10 R277; 11 R312; 17 R403 to R416). -/

namespace Sys2Proof.Machine

open Sys2Proof

/-! ### The relations -/

/-- The counts of beats and of held beats are the same. -/
structure Channel.SameCounts (k k' : Channel) : Prop where
  beats : k'.ww.beats = k.ww.beats
  held : k'.ww.held = k.ww.held

namespace Channel.SameCounts

variable {a b c k : Channel}

theorem refl (k : Channel) : k.SameCounts k := ⟨rfl, rfl⟩

theorem trans (h : a.SameCounts b) (h' : b.SameCounts c) : a.SameCounts c := ⟨h'.beats.trans h.beats, h'.held.trans h.held⟩

theorem of_steady (h : a.Steady b) : a.SameCounts b := ⟨congrArg Windway.beats h.ww, congrArg Windway.held h.ww⟩

theorem pick {p : Prop} [Decidable p] {x y : Channel} (hx : k.SameCounts x) (hy : k.SameCounts y) : k.SameCounts (if p then x else y) := by
  split <;> assumption

end Channel.SameCounts

/-- Between two states only channel `c` has changed of the channels, and not its counts of beats. -/
structure State.Counted (c : ChanId) (s s' : State) : Prop where
  others : ∀ d, d ≠ c → s'.chan d = s.chan d
  here : (s.chan c).SameCounts (s'.chan c)

namespace State.Counted

variable {c : ChanId} {s t u : State}

theorem refl (s : State) : s.Counted c s := ⟨fun _ _ => rfl, .refl _⟩

theorem trans (h : s.Counted c t) (h' : t.Counted c u) : s.Counted c u :=
  ⟨fun d hd => (h'.others d hd).trans (h.others d hd), h.here.trans h'.here⟩

theorem of_chan (h : ∀ d, t.chan d = s.chan d) : s.Counted c t := ⟨fun d _ => h d, by rw [h c]; exact .refl _⟩

theorem setChan {k : Channel} (h : (s.chan c).SameCounts k) : s.Counted c (s.setChan c k) :=
  ⟨fun _ hd => State.chan_setChan_ne s k hd, by simpa using h⟩

theorem modChan (s : State) {f : Channel → Channel} (h : ∀ k : Channel, k.SameCounts (f k)) : s.Counted c (s.modChan c f) :=
  setChan (h _)

theorem ite {α : Type} (g : α → State) {p : Prop} [Decidable p] {x y : α} (hx : s.Counted c (g x)) (hy : s.Counted c (g y)) :
    s.Counted c (g (if p then x else y)) := by
  split <;> assumption

theorem pick {p : Prop} [Decidable p] (ht : s.Counted c t) (hu : s.Counted c u) : s.Counted c (if p then t else u) := by
  split <;> assumption

theorem foldl {β : Type} {f : State → β → State} (hf : ∀ x y, State.Counted c x (f x y)) (l : List β) (s : State) :
    s.Counted c (l.foldl f s) :=
  foldl_keeps (P := fun x => s.Counted c x) (fun x y hx => hx.trans (hf x y)) l (.refl s)

end State.Counted

section
variable (s : State) (c : ChanId)

/-! ### Errors -/

theorem State.notify_counted (index sub : Nat) (sees : Session → Bool) (payload : Session → List Byte) :
    s.Counted c (s.notify index sub sees payload) := .of_chan fun d => s.chan_notify index sub sees payload d

theorem State.modStore_counted (d : ChanId) (f : ChanStore → ChanStore) : s.Counted c (s.modStore d f) := .of_chan fun _ => rfl

theorem State.drew_counted (n : Nat) : s.Counted c (s.drew n) := .of_chan fun _ => rfl

theorem State.chan_settle (d : ChanId) : s.settle.chan d = s.chan d := by
  unfold State.settle
  split_ifs <;> rfl

theorem State.settle_counted : s.Counted c s.settle := .of_chan s.chan_settle

theorem State.notifyErr_counted (e : ErrEntry) : s.Counted c (s.notifyErr c e) := s.notify_counted c _ _ _ _

theorem State.appendErr_counted (e : ErrEntry) : s.Counted c (s.appendErr c e) := by
  refine .trans ?_ (State.notifyErr_counted _ c e)
  refine .modChan s fun k => ?_
  exact ⟨rfl, rfl⟩

theorem State.finishErrs_counted (hit : ErrEntry → Bool) (outcome : Nat) : s.Counted c (s.finishErrs c hit outcome) := by
  unfold State.finishErrs
  extract_lets done s₁
  have ended : s.Counted c s₁ := .modChan s fun _ => ⟨rfl, rfl⟩
  exact ended.trans (.foldl (fun s _ => s.notifyErr_counted c _) done s₁)

theorem State.notifyTuner_counted (e : TunerEv) : s.Counted c (s.notifyTuner c e) := .pick (s.notify_counted c _ _ _ _) (.refl s)

theorem State.tunerEvent_counted (e : TunerEv) : s.Counted c (s.tunerEvent c e) := by
  refine .trans ?_ (State.notifyTuner_counted _ c _)
  refine .modChan s fun k => ?_
  exact ⟨rfl, rfl⟩

theorem State.logEntry_counted (x : RawErr) (outcome : Nat) : s.Counted c (s.logEntry c x outcome).2 := by
  have drawn : ∀ (s : State) (p : Prop) [Decidable p] n i, s.Counted c (if p then s.draw n else (i, s)).2 := fun s p _ n i =>
    .ite Prod.snd (.of_chan fun _ => rfl) (.refl s)
  have uidx := drawn s (x.unit = 5) 3 x.uidx
  unfold State.logEntry
  generalize (if x.unit = 5 then s.draw 3 else (x.uidx, s)) = a at uidx ⊢
  obtain ⟨ix, s₁⟩ := a
  have detail := drawn s₁ (x.detail = anyDetail) (2 ^ 32) x.detail
  dsimp -zeta only
  generalize (if x.detail = anyDetail then s₁.draw (2 ^ 32) else (x.detail, s₁)) = a at detail ⊢
  obtain ⟨dt, s₂⟩ := a
  dsimp -zeta only
  extract_lets y s₃ e s₄
  have failure : s₂.Counted c s₃ := by
    unfold s₃
    split
    · exact s₂.finishErrs_counted c _ _
    · exact .refl s₂
  have append : s₃.Counted c s₄ := s₃.appendErr_counted c e
  refine ((uidx.trans detail).trans (failure.trans append)).trans (.ite Prod.snd ?_ (.refl s₄))
  dsimp only
  refine .modChan s₄ fun k => ?_
  exact ⟨rfl, rfl⟩

theorem Channel.jobAction_counts (k : Channel) (cause : Cause) : k.SameCounts (k.jobAction cause) :=
  .pick (.pick ⟨rfl, rfl⟩ (.refl k)) ⟨rfl, rfl⟩

theorem Channel.dropCkpt_counts (k : Channel) : k.SameCounts k.dropCkpt := by
  unfold Channel.dropCkpt
  split
  · exact .refl k
  · exact ⟨rfl, rfl⟩

theorem State.stepFailure_counted : s.Counted c (s.stepFailure c) :=
  (s.modStore_counted c c _).trans (.modChan _ Channel.dropCkpt_counts)

theorem State.logJob_counted (x : RawErr) : s.Counted c (s.logJob c x) := by
  have log := s.logEntry_counted c x (if (s.chan c).running || !waitsForHost x.cause then 0 else 4)
  unfold State.logJob
  generalize s.logEntry c x _ = a at log ⊢
  obtain ⟨e, s₁⟩ := a
  have act : s₁.Counted c (s₁.modChan c (fun k => k.jobAction x.cause)) := .modChan s₁ fun k => k.jobAction_counts x.cause
  exact (log.trans act).trans (State.stepFailure_counted _ c)

theorem State.requestRollback_counted : s.Counted c (s.requestRollback c).1 := by
  unfold State.requestRollback
  refine .ite Prod.fst ((s.tunerEvent_counted c _).trans (State.logJob_counted _ c _)) ?_
  dsimp only
  refine .modChan s fun k => ?_
  exact ⟨rfl, rfl⟩

/-! ### The end of a step -/

theorem Channel.substitute_counts (k : Channel) : k.SameCounts k.substitute.1 := by
  refine foldl_keeps (P := fun (a : Channel × Bool) => k.SameCounts a.1) (fun a _ h => h.trans ?_) portIds (.refl k)
  extract_lets k₁
  split
  · split
    · exact ⟨rfl, rfl⟩
    · split
      · exact ⟨rfl, rfl⟩
      · exact .refl _
  · exact .refl _

theorem Channel.sendCtrl_steady (k : Channel) (w : Self) (but : Option PortId) (payload : List Byte) :
    k.Steady (k.sendCtrl w but payload) :=
  .foldl (g := id) (fun k _ => .pick (k.sendPacket_steady w _ _ _ _ _ _ _) (.refl k)) portIds k

theorem Channel.endStep_counts (k : Channel) (locate : Option Nat) : k.SameCounts (k.endStep locate) := ⟨rfl, rfl⟩

theorem State.stepAbort_counted (cause cseq : Nat) (arrived : Option (PortId × List Byte)) :
    s.Counted c (s.stepAbort c cause cseq arrived) := by
  unfold State.stepAbort
  dsimp -zeta only
  extract_lets k w payload locate s₁ s₂ s₃ s₄ s₅ s₆ s₇
  refine .pick (.refl s) ?_
  have fields : ∀ (k : Channel) x e, k.SameCounts { k with coll := x, err := e } := fun _ _ _ => ⟨rfl, rfl⟩
  have ended : s.Counted c s₁ := .modChan s fun k => (k.endStep_counts locate).trans
    ((Channel.SameCounts.of_steady (Channel.sendCtrl_steady _ w (arrived.map Prod.fst) payload)).trans (fields _ _ _))
  have settled : s₁.Counted c s₄ :=
    ((s₁.finishErrs_counted c _ _).trans (s₂.finishErrs_counted c _ _)).trans (s₃.stepFailure_counted c)
  have paths : s₄.Counted c s₅ := .setChan (s₄.chan c).substitute_counts
  have lost : s₅.Counted c s₆ := .pick (.refl _) (State.logJob_counted _ c _)
  refine ((ended.trans settled).trans (paths.trans lost)).trans (.pick ?_ (.refl s₆))
  have limit : s₆.Counted c s₇ := s₆.logJob_counted c _
  refine (limit.trans (s₇.requestRollback_counted c)).trans (.pick (.refl _) (.trans ?_ (State.settle_counted _ c)))
  refine .modChan _ fun k => ?_
  exact ⟨rfl, rfl⟩

/-- A class J error of a channel's firmware. -/
theorem State.logError_counted_of_job {x : RawErr} (hc : x.cls = .J) (he : x.ended = none) (cseq : Nat) :
    s.Counted c (s.logError c x cseq) := by
  unfold State.logError
  rw [he, hc]
  refine .pick (s.logEntry_counted c x 5) ?_
  exact .pick ((s.logJob_counted c x).trans (State.stepAbort_counted _ c _ _ _)) (s.logJob_counted c x)

theorem State.abortIn_counted (p : PortId) (pl : List Byte) : s.Counted c (s.abortIn c p pl) := by
  unfold State.abortIn
  extract_lets s₁ k step att
  have count : s.Counted c s₁ := .modChan s fun k => .of_steady (k.collCount_steady _)
  refine count.trans (.pick (s₁.stepAbort_counted c _ _ _) ?_)
  split
  · exact .pick (s₁.logError_counted_of_job c rfl rfl _) (.refl s₁)
  · exact .refl s₁

/-! ### Packets that come in -/

theorem Channel.landEntry_counts (k : Channel) (i : Nat) : k.SameCounts (k.landEntry i) := by
  rw [k.landEntry_frame i]
  exact ⟨rfl, rfl⟩

theorem Channel.dataIn_counts {k k' : Channel} {w : Self} {p : PortId} {flits src : Nat} {body : List Byte}
    (h : k.dataIn w p flits src body = some k') : k.SameCounts k' := by
  unfold Channel.dataIn at h
  extract_lets n mtag off at h
  split at h
  · next he =>
    cases h
    exact .of_steady (Channel.exchangePacket_steady w he)
  · split at h
    · split at h
      · cases h
        exact .refl k
      · cases h
    · next at_ r _ =>
      extract_lets t size len data k₁ over_ got counted at h
      have wrote : k.Steady k₁ := k.writeBytes_steady 0 _ _ _ _ _ _
      split at h
      · cases h
        exact .of_steady (wrote.trans (((k₁.portCount_steady p _).trans (Channel.modPort_steady _ at_ _)).trans
          (Channel.raise_steady _ _)))
      · split at h
        · cases h
          exact (Channel.SameCounts.of_steady (wrote.trans (k₁.modPort_steady at_ _))).trans (Channel.landEntry_counts _ _)
        · cases h
          exact .of_steady (wrote.trans (k₁.modPort_steady at_ _))

variable {s c} in
theorem State.consume_counted {s' : State} {p : PortId} {fs : List Flit} {src : Nat} {body : List Byte}
    (h : s.consume c p fs src body = some s') : s.Counted c s' := by
  unfold State.consume at h
  extract_lets k w at h
  split at h
  · obtain ⟨k', hk, rfl⟩ := Option.map_eq_some_iff.mp h
    exact .setChan (Channel.dataIn_counts hk)
  · cases h
    exact .setChan (.of_steady (k.reduceIn_steady w _ _ _))
  · cases h
    exact .setChan (.of_steady (k.digestPacket_steady w _ _))
  · split at h
    · cases h
      exact s.abortIn_counted c _ _
    · obtain ⟨k', hk, rfl⟩ := Option.map_eq_some_iff.mp h
      exact .setChan (.of_steady (Channel.collOpen_steady hk))
    · cases h
      exact .refl s

end

end Sys2Proof.Machine
end

section
/-! SUPPORT. The receive buffers worked off, and a step that ends: the Windway's counts of beats stay, and the other channels
(10 R277; 05 R127 to R134; 08 R208 to R212). -/

namespace Sys2Proof.Machine

open Sys2Proof

/-! ### The receive buffers -/

theorem Channel.dropHead_steady (k : Channel) (p : PortId) (v n : Nat) : k.Steady (k.dropHead p v n) := k.modPort_steady p _

theorem Channel.accepted_steady (k : Channel) (src epoch vc pctr : Nat) : k.Steady (k.accepted src epoch vc pctr) := ⟨rfl⟩

section
variable {s s' : State} {c : ChanId}

theorem State.serviceVc_counted {p : PortId} {v : Nat} (h : s.serviceVc c p v = some s') : s.Counted c s' := by
  have put : ∀ {k : Channel}, (s.chan c).Steady k → some (s.setChan c k) = some s' → s.Counted c s' := by
    intro k hk h
    cases h
    exact .setChan (.of_steady hk)
  unfold State.serviceVc at h
  dsimp -zeta only at h
  extract_lets k q put_ w at h
  split at h
  · cases h
  next fs complete _ =>
  extract_lets f n done at h
  have drop : k.Steady done := k.dropHead_steady p v n
  have count : ∀ g, k.Steady (done.portCount p g) := fun g => drop.trans (done.portCount_steady p g)
  split at h
  · exact put (count _) h
  split at h
  · split at h
    · split at h
      · exact put (drop.trans (Channel.modPort_steady _ _ _)) h
      · exact put (count _) h
    · exact put (count _) h
  split at h
  · exact put (count _) h
  split at h
  · exact put (count _) h
  generalize tailOf fs = tail at h
  obtain ⟨src, epoch, pctr⟩ := tail
  dsimp -zeta only at h
  split at h
  · exact put ((k.portCount_steady p _).trans (Channel.modPort_steady _ p _)) h
  next key q' _ =>
  extract_lets used k₁ done₁ ready at h
  have use : ∀ k : Channel, k.Steady (used k) := fun k => k.modPort_steady p _
  have count₁ : ∀ g, k.Steady (done₁.portCount p g) := fun g => (drop.trans (use done)).trans (done₁.portCount_steady p g)
  split at h
  · exact put (count₁ _) h
  split at h
  · exact put ((count₁ _).trans (Channel.raise_steady _ _)) h
  next body _ =>
  have prepared : s.Counted c (s.setChan c ready) := .setChan (.of_steady ((use k).trans (k₁.accepted_steady _ _ _ _)))
  split at h
  · next s₁ hs =>
    cases h
    exact (prepared.trans (State.consume_counted hs)).trans (.modChan s₁ fun k => .of_steady (k.dropHead_steady p v n))
  · split at h
    · exact put ((use k).trans ((k₁.modPort_steady p _).trans (Channel.collCount_steady _ _))) h
    · cases h

theorem State.servicePort_counted (c : ChanId) (p : PortId) (fuel : Nat) (s : State) : s.Counted c (State.servicePort c p fuel s) := by
  induction fuel generalizing s with
  | zero => exact .refl s
  | succ fuel ih =>
    unfold State.servicePort
    extract_lets q order
    refine .pick (.refl s) ?_
    split
    · next s₁ hs =>
      obtain ⟨v, -, hv⟩ := List.exists_of_findSome?_eq_some hs
      exact (State.serviceVc_counted hv).trans (ih s₁)
    · exact .refl s

theorem State.serviceAll_counted (s : State) (c : ChanId) : s.Counted c (s.serviceAll c) :=
  .foldl (fun s p => State.servicePort_counted c p 600 s) portIds s

end

/-! ### The end of a step -/

section
variable (s : State) (c : ChanId)

theorem Channel.buildVerdict_steady (k : Channel) (free : Nat → Int) : k.Steady (k.buildVerdict free) := ⟨rfl⟩

theorem State.tunerLog_counted (e : TunerEv) : s.Counted c (s.tunerLog c e) := by
  refine .trans ?_ (State.tunerEvent_counted _ c e)
  refine .modChan s fun k => ?_
  exact ⟨rfl, rfl⟩

theorem Channel.stepDone_counts (k : Channel) (voided : Bool) (layers : SMap Layer) : k.SameCounts (k.stepDone voided layers) := by
  unfold Channel.stepDone
  extract_lets next k₁ tun k₂ due
  have write : k.Steady k₁ := .foldl (g := id) (fun k d => k.writeTable_steady _ _ _ _ _) _ k
  have layer : k₁.SameCounts k₂ := ⟨rfl, rfl⟩
  refine (Channel.SameCounts.of_steady write).trans (layer.trans ?_)
  exact ⟨rfl, rfl⟩

theorem State.commit_counted : s.Counted c (s.commit c) := by
  have log : ∀ (s : State) (l : List TunerEv), s.Counted c (l.foldl (fun (s : State) e => s.tunerLog c e) s) := fun s l =>
    .foldl (fun s e => s.tunerLog_counted c e) l s
  have logIf : ∀ (s : State) (p : Prop) [Decidable p] e, s.Counted c (if p then s.tunerLog c e else s) := fun s p _ e =>
    .pick (s.tunerLog_counted c e) (.refl s)
  unfold State.commit
  dsimp -zeta only
  extract_lets asked s₁ k t voided reach rolls step clamps s₂ s₃ s₄ s₅ s₆ s₇ lost s₈ s₉
  have built : s.Counted c s₁ := .pick (.refl s)
    (.trans (.modChan s fun k => .of_steady (k.buildVerdict_steady _)) (State.drew_counted _ c _))
  have rolled : s₁.Counted c (if rolls then s₁.requestRollback c else (s₁, false)).1 :=
    .ite Prod.fst (s₁.requestRollback_counted c) (.refl s₁)
  have noted : s₁.Counted c s₅ := (((rolled.trans (log _ _)).trans (logIf s₂ _ _)).trans (logIf s₃ _ _)).trans (logIf s₄ _ _)
  have clamped : s₅.Counted c s₆ := by
    refine .foldl (fun s x => .trans ?_ (State.tunerLog_counted _ c _)) clamps s₅
    refine .modChan s fun k => ?_
    exact ⟨rfl, rfl⟩
  have forgot : ∀ k : Channel, k.SameCounts { k with tun := { k.tun with lostStep := 0 } } := fun _ => ⟨rfl, rfl⟩
  have folded : s₆.Counted c s₈ :=
    (log _ _).trans (.pick (.refl s₇) ((State.Counted.modChan s₇ forgot).trans (State.tunerLog_counted _ c _)))
  have asked_ : s₈.Counted c s₉ := .pick (s₈.logJob_counted c _) (.refl s₈)
  refine ((built.trans noted).trans (clamped.trans folded)).trans (asked_.trans ?_)
  exact (State.Counted.modChan s₉ fun k => k.stepDone_counts voided _).trans (State.modStore_counted _ c c _)

/-! ### Launches -/

theorem State.noteCommit_counted (step : Nat) : s.Counted c (s.noteCommit c step) := by
  unfold State.noteCommit
  extract_lets due
  refine .modChan s fun k => ?_
  exact ⟨rfl, rfl⟩

theorem Channel.recordRungs_steady (k : Channel) : k.Steady k.recordRungs := ⟨rfl⟩

theorem State.launchVerdict_counted (entry : Nat) : s.Counted c (s.launchVerdict c entry) := by
  refine .trans (.modChan s fun k => .of_steady ?_) (State.drew_counted _ c _)
  exact (k.buildVerdict_steady _).trans (.trans (.pick (Channel.recordRungs_steady _) (.refl _)) (Channel.sendVerdict_steady _ _ _))

theorem Channel.openVersion_counts (k : Channel) (entry : Nat) : k.SameCounts (k.openVersion entry) := by
  refine .trans ?_ (Channel.landEntry_counts _ entry)
  exact ⟨rfl, rfl⟩

theorem Channel.launchVersion_counts (k : Channel) (i : Nat) (e : Entry) : k.SameCounts (k.launchVersion i e) := by
  have fault : k.SameCounts (k.raise { cause := .versionFault, cls := .S, unit := 8, detail := anyDetail }) := .of_steady (k.raise_steady _)
  have land : ∀ v, k.SameCounts ({ k with ver := v }.landEntry i) := fun v => by
    refine .trans ?_ (Channel.landEntry_counts _ i)
    exact ⟨rfl, rfl⟩
  unfold Channel.launchVersion
  split
  · split
    · exact land _
    · exact fault
  · split
    · exact land _
    · exact fault
  · exact .pick fault (.pick (k.openVersion_counts i) (.of_steady (k.tagEntry_steady i _)))

theorem State.launchChnt_counted (i : Nat) (e : Entry) : s.Counted c (s.launchChnt c i e) := by
  unfold State.launchChnt
  split
  · refine .trans (.trans ?_ (State.launchVerdict_counted _ c i)) (State.serviceAll_counted _ c)
    exact .modChan s fun k => .of_steady (k.tagEntry_steady i _)
  · refine .modChan s fun k => .trans ?_ (.of_steady (Channel.tagEntry_steady _ i _))
    exact ⟨rfl, rfl⟩
  · extract_lets k s₁
    have land : s.Counted c (s.modChan c (fun k => k.landEntry i)) := .modChan s fun k => k.landEntry_counts i
    have ended : s.Counted c s₁ := land.trans (State.commit_counted _ c)
    exact .pick ended (ended.trans (s₁.noteCommit_counted c _))
  · exact .modChan s fun k => k.launchVersion_counts i e

end

end Sys2Proof.Machine
end

section
/-! SUPPORT. The launch of a beat's entries: what the Windway goes by stays, and each action is in flight with its unit and token
(07 R166, R167). -/

namespace Sys2Proof.Machine

open Sys2Proof

/-! ### One entry -/

/-- The control state without the actions in flight. -/
def Control.grounded (x : Control) : Control := { x with flying := [] }

/-- Between two channels entry `i` has been launched, or has landed: no other action in flight is lost. -/
structure Channel.Launches (i : Nat) (k k' : Channel) : Prop where
  grounded : k'.control.grounded = k.control.grounded
  flying : ∀ f ∈ k.control.flying, f.1 ≠ i → f ∈ k'.control.flying

namespace Channel.Launches

variable {i : Nat} {a b c k k' : Channel}

theorem refl (k : Channel) : k.Launches i k := ⟨rfl, fun _ hf _ => hf⟩

theorem trans (h : a.Launches i b) (h' : b.Launches i c) : a.Launches i c :=
  ⟨h'.grounded.trans h.grounded, fun f hf hi => h'.flying f (h.flying f hf hi) hi⟩

theorem of_steady (h : a.Steady b) : a.Launches i b := ⟨congrArg Control.grounded h.control, fun _ hf _ => h.control ▸ hf⟩

end Channel.Launches

theorem Channel.fly_launches (k : Channel) (unit i : Nat) (t : Option Nat) : k.Launches i (k.fly unit i t) := by
  refine ⟨rfl, fun _ hf _ => ?_⟩
  show _ ∈ (k.flights ++ [_]).map (fun f : Flight => (f.entry, f.unit, f.token))
  rw [List.map_append]
  exact List.mem_append_left _ hf

/-- The action launched is in flight. -/
theorem Channel.mem_flying_fly (k : Channel) (unit i : Nat) (t : Option Nat) : (i, unit, t) ∈ (k.fly unit i t).control.flying := by
  show _ ∈ (k.flights ++ [_]).map (fun f : Flight => (f.entry, f.unit, f.token))
  simp

theorem Channel.setToken_steady (k : Channel) (t : Option Nat) : k.Steady (k.setToken t) := by
  cases t <;> exact ⟨rfl⟩

theorem Channel.landEntry_launches (k : Channel) (i : Nat) : k.Launches i (k.landEntry i) := by
  unfold Channel.landEntry
  split
  · exact .refl k
  · refine .trans ?_ (.of_steady (Channel.setToken_steady _ _))
    refine ⟨rfl, fun f hf hi => ?_⟩
    obtain ⟨g, hg, rfl⟩ := List.mem_map.mp hf
    exact List.mem_map.mpr ⟨g, List.mem_filter.mpr ⟨hg, by simpa using hi⟩, rfl⟩

theorem Channel.launchTag_steady (k : Channel) (i : Nat) (e : Entry) : k.Steady (k.launchTag i e) :=
  .pick (k.tagEntry_steady i _) (.pick (k.tagEntry_steady i _) (.refl k))

section
variable (s : State) (c : ChanId) (x : Nat × Entry)

/-- An entry with its flight, before its unit takes it up. -/
theorem State.fly_launches : (s.chan c).Launches x.1 (((s.chan c).fly x.2.unit x.1 x.2.sets).launchTag x.1 x.2) :=
  (Channel.fly_launches _ _ _ _).trans (.of_steady (Channel.launchTag_steady _ _ _))

theorem State.launch_counted : s.Counted c (s.launch c x) := by
  obtain ⟨i, e⟩ := x
  unfold State.launch
  dsimp -zeta only
  extract_lets s₁
  have fly : s.Counted c s₁ := .modChan s fun k =>
    .trans (b := k.fly e.unit i e.sets) ⟨rfl, rfl⟩ (.of_steady (Channel.launchTag_steady _ i e))
  refine fly.trans ?_
  split
  · refine .modChan s₁ fun k => .of_steady ?_
    split
    · exact k.cueTile_steady _ i
    · exact .refl k
  · refine .modChan s₁ fun k => .of_steady ?_
    split
    · exact k.cueRun_steady _ i
    · exact .refl k
  · exact .refl s₁
  · exact .refl s₁
  · exact .refl s₁
  · exact .refl s₁
  · exact .modChan s₁ fun k => .of_steady (k.launchSend_steady _ i e)
  · exact .trans (.modChan s₁ fun k => .of_steady (k.launchRecv_steady i e)) (State.serviceAll_counted _ c)
  · exact .trans (.modChan s₁ fun k => .of_steady (k.collLaunch_steady _ i)) (State.serviceAll_counted _ c)
  · exact s₁.launchChnt_counted c i e
  · exact .modChan s₁ fun k => k.landEntry_counts i

variable {x} in
/-- The launch of an entry that no RECV, collective or Chanter takes up. -/
theorem State.launch_launches (h8 : x.2.action ≠ 8) (h9 : x.2.action ≠ 9) (hA : x.2.action ≠ 0x0A) :
    (s.chan c).Launches x.1 ((s.launch c x).chan c) := by
  obtain ⟨i, e⟩ := x
  have fly := s.fly_launches c (i, e)
  unfold State.launch
  dsimp -zeta only
  extract_lets s₁
  have flown : (s.chan c).Launches i (s₁.chan c) := by simpa [s₁] using fly
  split
  · rw [State.chan_modChan_self]
    refine flown.trans (.of_steady ?_)
    split
    · exact Channel.cueTile_steady _ _ i
    · exact .refl _
  · rw [State.chan_modChan_self]
    refine flown.trans (.of_steady ?_)
    split
    · exact Channel.cueRun_steady _ _ i
    · exact .refl _
  · exact flown
  · exact flown
  · exact flown
  · exact flown
  · rw [State.chan_modChan_self]
    exact flown.trans (.of_steady (Channel.launchSend_steady _ _ i e))
  · next h => exact absurd h h8
  · next h => exact absurd h h9
  · next h => exact absurd h hA
  · rw [State.chan_modChan_self]
    exact flown.trans (Channel.landEntry_launches _ i)

variable {x} in
/-- What a mover works on is in flight. -/
theorem State.mem_flying_launch (h3 : 3 ≤ x.2.action) (h6 : x.2.action ≤ 6) :
    (x.1, x.2.unit, x.2.sets) ∈ ((s.launch c x).chan c).control.flying := by
  obtain ⟨i, e⟩ := x
  have only : s.launch c (i, e) = s.modChan c (fun k => (k.fly e.unit i e.sets).launchTag i e) := by
    have : e.action = 3 ∨ e.action = 4 ∨ e.action = 5 ∨ e.action = 6 := by dsimp only at h3 h6; omega
    unfold State.launch
    rcases this with h | h | h | h <;> simp [h]
  rw [only, State.chan_modChan_self, (Channel.launchTag_steady _ i e).control]
  exact Channel.mem_flying_fly _ _ _ _

end

/-! ### All entries of a beat -/

/-- The launch of one of a beat's entries: none once the step has ended. -/
def State.launchNext (c : ChanId) (s : State) (x : Nat × Entry) : State :=
  if (s.chan c).st == .run && (s.chan c).ww.beat != 0 then s.launch c x else s

section
variable {c : ChanId} {es : List (Nat × Entry)}

theorem State.launchAll_counted (s : State) (es : List (Nat × Entry)) : s.Counted c (es.foldl (State.launchNext c) s) :=
  .foldl (fun s x => .pick (s.launch_counted c x) (.refl s)) es s

theorem State.launchNext_of_running {s : State} (run : (s.chan c).st = .run) (beat : (s.chan c).ww.beat ≠ 0) (x : Nat × Entry) :
    State.launchNext c s x = s.launch c x := by
  simp [State.launchNext, run, beat]

variable (s : State) (plain : ∀ x ∈ es, x.2.action ≠ 8 ∧ x.2.action ≠ 9 ∧ x.2.action ≠ 0x0A)
include plain

theorem State.grounded_launchAll : ((es.foldl (State.launchNext c) s).chan c).control.grounded = (s.chan c).control.grounded := by
  induction es generalizing s with
  | nil => rfl
  | cons x es ih =>
    obtain ⟨h8, h9, hA⟩ := plain x (by simp)
    rw [List.foldl_cons, ih _ fun y hy => plain y (by simp [hy]), State.launchNext]
    split
    · exact (s.launch_launches c h8 h9 hA).grounded
    · rfl

/-- While the step runs, no action in flight of an entry outside the beat is lost, and what a mover works on is in flight. -/
theorem State.flying_launchAll (run : (s.chan c).st = .run) (beat : (s.chan c).ww.beat ≠ 0) (distinct : (es.map Prod.fst).Nodup) :
    (∀ f ∈ (s.chan c).control.flying, f.1 ∉ es.map Prod.fst → f ∈ ((es.foldl (State.launchNext c) s).chan c).control.flying)
    ∧ ∀ x ∈ es, 3 ≤ x.2.action → x.2.action ≤ 6 →
        (x.1, x.2.unit, x.2.sets) ∈ ((es.foldl (State.launchNext c) s).chan c).control.flying := by
  induction es generalizing s with
  | nil => exact ⟨fun f hf _ => hf, by simp⟩
  | cons x es ih =>
    obtain ⟨h8, h9, hA⟩ := plain x (by simp)
    have launch := s.launch_launches c h8 h9 hA
    have run' : ((s.launch c x).chan c).st = .run := (congrArg Control.st launch.grounded :).trans run
    have beat' : ((s.launch c x).chan c).ww.beat ≠ 0 := by
      rw [show ((s.launch c x).chan c).ww = (s.chan c).ww from congrArg Control.ww launch.grounded]
      exact beat
    rw [List.map_cons, List.nodup_cons] at distinct
    obtain ⟨kept, flown⟩ := ih (s.launch c x) (fun y hy => plain y (by simp [hy])) run' beat' distinct.2
    rw [List.foldl_cons, State.launchNext_of_running run beat]
    refine ⟨fun f hf hi => ?_, fun y hy h3 h6 => ?_⟩
    · rw [List.map_cons, List.mem_cons, not_or] at hi
      exact kept f (launch.flying f hf hi.1) hi.2
    · rcases List.mem_cons.mp hy with rfl | hy
      · exact kept _ (s.mem_flying_launch c h3 h6) distinct.1
      · exact flown y hy h3 h6

end

end Sys2Proof.Machine
end

section
/-! SUPPORT. A beat that issues, and one that is held (07 R167, R171 to R175; 06 R142; 08 R215). -/

namespace Sys2Proof.Machine

open Sys2Proof

/-! ### What issues before the entries launch -/

/-- Pending scalar writes have taken effect and the beat is counted. -/
def Channel.counted (k : Channel) : Channel :=
  { k.applyScalars with ww := { k.ww with beats := wrap64 (k.ww.beats + 1), hold := none } }

/-- A step begins where its first beat issues. -/
def Channel.begun (k : Channel) : Channel := if k.ww.beat = 0 ∧ k.phrase.stepStart then k.beginStep else k

/-- The Windway stands at the next beat, or at a boundary. -/
def Channel.passBeat (k : Channel) : Channel :=
  { k with ww := { k.ww with beat := k.ww.beat + 1, boundaryDue := decide (k.phrase.len ≤ k.ww.beat + 1) } }

/-- The channel once a beat has issued, before its entries launch. -/
def Channel.issued (es : List (Nat × Entry)) (k : Channel) : Channel :=
  es.foldl (fun (k : Channel) x => k.launchToken x.2.sets) k.counted.begun.passBeat

theorem State.issue_eq (s : State) (c : ChanId) : s.issue c =
    ((s.chan c).beatEntries.foldl (State.launchNext c) (s.modChan c (Channel.issued (s.chan c).beatEntries))).settle := rfl

section
variable (k : Channel)

theorem Channel.launchToken_steady (t : Option Nat) : k.Steady (k.launchToken t) := by
  cases t <;> exact ⟨rfl⟩

theorem Channel.issued_steady (es : List (Nat × Entry)) : k.counted.begun.passBeat.Steady (k.issued es) :=
  .foldl (g := id) (f := fun (k : Channel) (x : Nat × Entry) => k.launchToken x.2.sets) (fun k _ => k.launchToken_steady _) es _

theorem Channel.writeScalar_steady (x : Option ReedId × Nat × Nat) : k.Steady (k.writeScalar x) := by
  unfold Channel.writeScalar
  split
  · exact k.modValve_steady _ _
  · exact ⟨rfl⟩

theorem Channel.writeScalar_ver (x : Option ReedId × Nat × Nat) : (k.writeScalar x).ver = k.ver := by
  unfold Channel.writeScalar
  split <;> rfl

/-- Pending scalar writes that take effect change nothing else that the Windway goes by. -/
theorem Channel.applyScalars_control : k.applyScalars.control = { k.control with scalarQ := [] } :=
  congrArg (fun x : Control => { x with scalarQ := [] })
    (Channel.Steady.foldl (g := id) (fun k x => k.writeScalar_steady x) k.scalarQ k).control

theorem Channel.applyScalars_ver : k.applyScalars.ver = k.ver :=
  foldl_keeps (P := fun a : Channel => a.ver = k.ver) (fun a x h => (a.writeScalar_ver x).trans h) k.scalarQ rfl

theorem Channel.counted_control : k.counted.control =
    { k.control with scalarQ := [], ww := { k.ww with beats := wrap64 (k.ww.beats + 1), hold := none } } :=
  congrArg (fun x : Control => { x with ww := { k.ww with beats := wrap64 (k.ww.beats + 1), hold := none } }) k.applyScalars_control

variable {k} in
theorem Channel.phrase_of_control {k' : Channel} (hs : k'.score = k.score) (hw : k'.ww.phrase = k.ww.phrase) : k'.phrase = k.phrase := by
  rw [Channel.phrase, Channel.phraseAt, hs, hw]
  rfl

theorem Channel.counted_phrase : k.counted.phrase = k.phrase :=
  Channel.phrase_of_control (congrArg Control.score k.counted_control :) rfl

theorem Channel.passBeat_control : k.passBeat.control =
    { k.control with ww := { k.ww with beat := k.ww.beat + 1, boundaryDue := decide (k.phrase.len ≤ k.ww.beat + 1) } } := rfl

theorem Channel.beginStep_control : k.beginStep.control =
    { k.control with st := .run, resume := false, scalarTok := false, verSnap := some k.ver
                     ww := { k.ww with stepPhrase := k.ww.phrase, resumed := false } } := rfl

/-- What the Windway goes by once a beat has issued: in a step that begins, and elsewhere. -/
theorem Channel.issued_control (es : List (Nat × Entry)) : (k.issued es).control =
    if k.ww.beat = 0 ∧ k.phrase.stepStart then
      { k.control with
        st := .run, resume := false, scalarQ := [], scalarTok := false, verSnap := some k.ver
        ww := { k.ww with beats := wrap64 (k.ww.beats + 1), hold := none, stepPhrase := k.ww.phrase, resumed := false
                          beat := k.ww.beat + 1, boundaryDue := decide (k.phrase.len ≤ k.ww.beat + 1) } }
    else
      { k.control with
        scalarQ := []
        ww := { k.ww with beats := wrap64 (k.ww.beats + 1), hold := none
                          beat := k.ww.beat + 1, boundaryDue := decide (k.phrase.len ≤ k.ww.beat + 1) } } := by
  rw [(k.issued_steady es).control, Channel.begun, k.counted_phrase]
  have beat : k.counted.ww.beat = k.ww.beat := rfl
  rw [beat]
  split
  · rw [Channel.passBeat_control, Channel.beginStep_control, k.counted_control,
      show k.counted.beginStep.phrase = k.phrase from k.counted_phrase, show k.counted.ver = k.ver from k.applyScalars_ver]
    rfl
  · rw [Channel.passBeat_control, k.counted_control, k.counted_phrase]
    rfl

/-- A channel whose beat has issued is in RUN where it was, or where a step begins. -/
theorem Channel.issued_st (es : List (Nat × Entry)) (h : k.st = .run ∨ (k.ww.beat = 0 ∧ k.phrase.stepStart = true)) :
    (k.issued es).st = .run := by
  have st : (k.issued es).st = _ := congrArg Control.st (k.issued_control es)
  rw [st]
  split
  · rfl
  · next hb => exact h.resolve_right hb

theorem Channel.issued_ww (es : List (Nat × Entry)) : (k.issued es).ww =
    { k.ww with beats := wrap64 (k.ww.beats + 1), hold := none, beat := k.ww.beat + 1
                boundaryDue := decide (k.phrase.len ≤ k.ww.beat + 1)
                stepPhrase := (k.issued es).ww.stepPhrase, resumed := (k.issued es).ww.resumed } := by
  have ww : (k.issued es).ww = _ := congrArg Control.ww (k.issued_control es)
  rw [ww]
  split <;> rfl

/-- The entries of a beat have each an index of their own. -/
theorem Channel.nodup_beatEntries : (k.beatEntries.map Prod.fst).Nodup := by
  unfold Channel.beatEntries
  split
  · exact List.nodup_nil
  · next sc _ =>
    rw [List.map_map]
    generalize (sc.entries.drop k.phrase.first).take k.phrase.count = l
    have ix : (l.zipIdx.map Prod.snd).Nodup := by
      rw [List.zipIdx_map_snd]
      exact List.nodup_range'
    have chosen := ix.sublist ((List.filter_sublist (p := fun (x : Entry × Nat) => x.1.beat == k.ww.beat)).map Prod.snd)
    have shift : Function.Injective fun i => k.phrase.first + i := fun _ _ h => Nat.add_left_cancel h
    have flat := chosen.map shift
    rw [List.map_map] at flat
    exact flat

end

/-! ### A beat that is held -/

/-- The cause with the lower code. -/
def lowerCause (a b : HoldCause) : HoldCause := if HoldCause.code b < HoldCause.code a then b else a

theorem lowerCause_mem (a b : HoldCause) : lowerCause a b = a ∨ lowerCause a b = b := by
  unfold lowerCause
  split
  · exact .inr rfl
  · exact .inl rfl

theorem code_lowerCause (a b : HoldCause) :
    HoldCause.code (lowerCause a b) ≤ HoldCause.code a ∧ HoldCause.code (lowerCause a b) ≤ HoldCause.code b := by
  unfold lowerCause
  split <;> omega

/-- The lowest of the causes that follow a first one is one of them, and none is lower. -/
theorem foldl_lowerCause (hs : List HoldCause) (a : HoldCause) :
    hs.foldl lowerCause a ∈ a :: hs ∧ ∀ g ∈ a :: hs, HoldCause.code (hs.foldl lowerCause a) ≤ HoldCause.code g := by
  induction hs generalizing a with
  | nil => simp
  | cons b hs ih =>
    obtain ⟨mem, least⟩ := ih (lowerCause a b)
    obtain ⟨lea, leb⟩ := code_lowerCause a b
    have first := least _ List.mem_cons_self
    rw [List.foldl_cons]
    refine ⟨?_, fun g hg => ?_⟩
    · rcases List.mem_cons.mp mem with h | h
      · rw [h]
        rcases lowerCause_mem a b with h | h <;> simp [h]
      · simp [h]
    · rcases List.mem_cons.mp hg with rfl | hg
      · exact first.trans lea
      · rcases List.mem_cons.mp hg with rfl | hg
        · exact first.trans leb
        · exact least g (List.mem_cons_of_mem _ hg)

/-- Where something is missing, the lowest cause is one of what is missing. -/
theorem lowestCause_of_ne_nil {l : List HoldCause} (h : l ≠ []) :
    ∃ a, lowestCause l = some a ∧ a ∈ l ∧ ∀ g ∈ l, HoldCause.code a ≤ HoldCause.code g := by
  cases l with
  | nil => exact absurd rfl h
  | cons a hs => exact ⟨_, rfl, foldl_lowerCause hs a⟩

theorem code_lt_eight (h : HoldCause) : HoldCause.code h < 8 := by cases h <;> decide

/-- A held beat is counted under its cause, and its first test as a hold event. -/
theorem Windway.getD_heldBeat (w : Windway) (h : HoldCause) (hb : w.causeBeats.length = 8) (he : w.causeEvents.length = 8) (i : Nat) :
    (w.heldBeat h).causeBeats.getD i 0 =
      (if i = HoldCause.code h then Nat.min (w.causeBeats.getD i 0 + 1) 0xFFFFFFFFFFFFFFFF else w.causeBeats.getD i 0)
    ∧ (w.heldBeat h).causeEvents.getD i 0 =
      (if i = HoldCause.code h ∧ w.hold = none then Nat.min (w.causeEvents.getD i 0 + 1) 0xFFFFFFFF else w.causeEvents.getD i 0) := by
  have lt := code_lt_eight h
  unfold Windway.heldBeat
  dsimp only
  by_cases hi : i = HoldCause.code h
  · subst hi
    refine ⟨?_, ?_⟩
    · rw [getD_modAt_self _ _ _ (by omega), if_pos rfl]
      rfl
    · cases w.hold with
      | none =>
        rw [if_pos (by rfl), getD_modAt_self _ _ _ (by omega), if_pos ⟨rfl, rfl⟩]
        rfl
      | some g => simp
  · refine ⟨?_, ?_⟩
    · rw [getD_modAt_ne _ _ _ hi, if_neg hi]
    · rw [if_neg (c := i = HoldCause.code h ∧ w.hold = none) fun h => hi h.1]
      split
      · exact getD_modAt_ne _ _ _ hi
      · rfl

end Sys2Proof.Machine
end

section
/-! SUPPORT. A phrase boundary: what begins there leaves what the Windway goes by as it is, but for what the boundary itself changes
(07 R177, R188, R189; 13 R338; 18 R434, R435; 01 R21). -/

namespace Sys2Proof.Machine

open Sys2Proof

/-! ### Checkpoints, windows, exchanges of Reeds and bin changes -/

/-- Nothing has happened that the Windway goes by, and no line has entered or left the write-combining buffer. -/
structure Channel.Rests (k k' : Channel) : Prop where
  steady : k.Steady k'
  wcb : k'.mem.wcb = k.mem.wcb

namespace Channel.Rests

variable {a b c k : Channel}

theorem refl (k : Channel) : k.Rests k := ⟨.refl k, rfl⟩

theorem trans (h : a.Rests b) (h' : b.Rests c) : a.Rests c := ⟨h.steady.trans h'.steady, h'.wcb.trans h.wcb⟩

theorem etude (k : Channel) (e : Etude) : k.Rests { k with etude := e } := ⟨⟨rfl⟩, rfl⟩

end Channel.Rests

section
variable (s : State) (c : ChanId)

/-- A channel changed in a way that rests. -/
theorem State.modChan_rests {f : Channel → Channel} (h : ∀ k : Channel, k.Rests (f k)) : (s.chan c).Rests ((s.modChan c f).chan c) := by
  rw [State.chan_modChan_self]
  exact h _

theorem State.startCkpt_rests : (s.chan c).Rests ((s.startCkpt c).chan c) := by
  unfold State.startCkpt
  rw [State.chan_modStore]
  refine s.modChan_rests c fun k => ?_
  exact ⟨⟨rfl⟩, rfl⟩

theorem State.ckptBoundary_rests : (s.chan c).Rests ((s.ckptBoundary c).chan c) := by
  unfold State.ckptBoundary
  extract_lets k
  split
  · exact .refl _
  · split
    · refine s.modChan_rests c fun k => ?_
      exact ⟨⟨rfl⟩, rfl⟩
    · exact s.startCkpt_rests c

theorem State.ckptNext_rests : (s.chan c).Rests ((s.ckptNext c).chan c) := by
  unfold State.ckptNext
  split
  · exact s.startCkpt_rests c
  · exact .refl _

theorem State.startRun_rests (r : Nat) : (s.chan c).Rests ((s.startRun c r).chan c) :=
  (s.modComp 2 Component.switch).modChan_rests c fun k => .etude k _

theorem State.startTests_rests : (s.chan c).Rests ((s.startTests c).chan c) := by
  unfold State.startTests
  extract_lets k
  split
  · exact .refl _
  · split
    · exact s.startRun_rests c _
    · exact .refl _

theorem State.openWindow_rests : (s.chan c).Rests ((s.openWindow c).chan c) := by
  unfold State.openWindow
  extract_lets k fixed s₁
  split
  · exact .refl _
  · exact (s.modChan_rests c fun k => .etude k _).trans (s₁.startTests_rests c)

theorem State.setMap_rests (m : List Nat) : (s.chan c).Rests ((s.setMap c m).chan c) := by
  unfold State.setMap
  rw [State.chan_modStore]
  refine s.modChan_rests c fun k => ?_
  exact ⟨⟨rfl⟩, rfl⟩

theorem State.swapSlot_rests (old new : Nat) : (s.chan c).Rests ((s.swapSlot c old new).chan c) := s.setMap_rests c _

theorem State.abandonRun_rests : (s.chan c).Rests ((s.abandonRun c).chan c) := by
  unfold State.abandonRun
  split
  · exact s.modChan_rests c fun k => .etude k _
  · next x _ =>
    extract_lets s₁ s₂
    have log : (s.chan c).Rests (s₁.chan c) := s.modChan_rests c fun k => .etude k _
    have over_ : (s₁.chan c).Rests (s₂.chan c) := s₁.modChan_rests c fun k => .etude k _
    exact (log.trans over_).trans ((s₂.modHealth c x.reed _).setMap_rests c _)

theorem State.rotate_rests : (s.chan c).Rests ((s.rotate c).chan c) := by
  unfold State.rotate
  extract_lets k
  split
  · exact .refl _
  · split
    · exact (s.swapSlot_rests c _ _).trans (State.modChan_rests _ c fun k => .etude k _)
    · exact .refl _

theorem State.replaceFailed_rests : (s.chan c).Rests ((s.replaceFailed c).chan c) := by
  unfold State.replaceFailed
  extract_lets todo s₁
  have replaced : (s.chan c).Rests (s₁.chan c) := by
    refine foldl_keeps (P := fun t : State => (s.chan c).Rests (t.chan c)) (fun t r h => h.trans ?_) todo (.refl _)
    split
    · exact .refl _
    · split
      · exact t.swapSlot_rests c _ _
      · split
        · split
          · exact (t.abandonRun_rests c).trans (State.swapSlot_rests _ c _ _)
          · exact .refl _
        · exact .refl _
  exact replaced.trans (s₁.modChan_rests c fun k => .etude k _)

theorem State.retune_rests : (s.chan c).Rests ((s.retune c).chan c) := by
  unfold State.retune
  extract_lets b
  split
  · exact .refl _
  · refine s.modChan_rests c fun k => ?_
    exact ⟨⟨rfl⟩, rfl⟩

end

/-! ### The boundary itself -/

section
variable (k : Channel)

theorem Channel.frameErrors_rests : k.Rests k.frameErrors := ⟨k.frameErrors_steady 0, (k.frameErrors_loads 0).works.mem.wcb⟩

/-- A phrase is entered: pending shadows are in force, no written line is held back, and the Windway stands at beat 0. -/
theorem Channel.enterPhrase_enters (p : Nat) :
    (k.enterPhrase p).live = k.shadow ∧ (k.enterPhrase p).mem.wcb = [] ∧ (k.enterPhrase p).st = k.st
    ∧ (k.enterPhrase p).ww = { k.ww with phrase := p, beat := 0, boundaryDue := false } := by
  have out : ({ k with mem := k.mem.flush } : Channel).Rests ({ k with mem := k.mem.flush } : Channel).frameErrors :=
    Channel.frameErrors_rests _
  have steady : k.Steady ({ k with mem := k.mem.flush } : Channel).frameErrors := (k.steady_mem _).trans out.steady
  have wcb : (({ k with mem := k.mem.flush } : Channel).frameErrors).mem.wcb = [] := out.wcb
  unfold Channel.enterPhrase
  generalize ({ k with mem := k.mem.flush } : Channel).frameErrors = k₁ at steady wcb ⊢
  have entered : k₁.shadow = k.shadow ∧ k₁.mem.wcb = [] ∧ k₁.st = k.st
      ∧ ({ k₁.ww with phrase := p, beat := 0, boundaryDue := false } : Windway)
        = { k.ww with phrase := p, beat := 0, boundaryDue := false } :=
    ⟨steady.shadow, wcb, steady.st, by rw [steady.ww]⟩
  dsimp only
  split <;> exact entered

theorem Channel.upset_steady (u : Upset) : k.Steady (k.upset u) := by
  unfold Channel.upset
  extract_lets onReed
  have reed : ∀ f, k.Steady (onReed f) := fun f => by
    unfold onReed
    split
    · exact k.modReed_steady _ f
    · exact .refl k
  split
  · exact reed _
  · exact k.steady_mem _
  · exact k.steady_mem _
  · exact reed _
  · exact reed _
  · exact k.steady_mem _

theorem Channel.disturbed_steady (us : List Upset) : k.Steady (k.disturbed us) :=
  .foldl (g := id) (fun k u => k.upset_steady u) us k

end

/-- The phrase that is over when a boundary is due has ended at its last beat; its end is where a stop asked for there takes effect. -/
def Channel.stopsHere (k : Channel) : Prop := k.phrase.len ≤ k.ww.beat ∧ (k.ww.stopAt = k.ww.phrase ∨ k.ww.stopAt = 0xFFFE)

/-- What a boundary leaves of the channel. -/
structure Channel.Bounded (k k' : Channel) : Prop where
  live : k'.live = k.shadow
  wcb : k'.mem.wcb = []
  beat : k'.ww.beat = 0
  due : k'.ww.boundaryDue = false
  next : k.phrase.len ≤ k.ww.beat → k'.ww.phrase = k.phrase.next
  same : ¬ k.phrase.len ≤ k.ww.beat → k'.ww.phrase = k.ww.phrase
  stop : k.stopsHere → k'.st = .stopping
  run : ¬ k.stopsHere → k'.st = k.st

theorem State.passBoundary_bounded (s : State) (c : ChanId) : (s.chan c).Bounded ((s.passBoundary c).chan c) := by
  unfold State.passBoundary
  extract_lets k p ended stop s₁ s₂ s₃
  have endedIff : ended = true ↔ k.phrase.len ≤ k.ww.beat := decide_eq_true_iff
  have stopIff : stop = true ↔ k.stopsHere := by simp [stop, Channel.stopsHere, endedIff]
  have before : k.Rests (s₂.chan c) := by
    refine .trans ?_ (s₁.ckptNext_rests c)
    unfold s₁
    split
    · exact (s.ckptBoundary_rests c).trans (State.openWindow_rests _ c)
    · exact .refl k
  obtain ⟨live, wcb, st, ww⟩ := (s₂.chan c).enterPhrase_enters (if ended then p.next else (s₂.chan c).ww.phrase)
  rw [before.steady.shadow] at live
  rw [before.steady.st] at st
  rw [before.steady.ww] at live wcb st ww
  have entered : s₃.chan c = (s₂.chan c).enterPhrase (if ended then p.next else k.ww.phrase) := by
    rw [← before.steady.ww]
    exact s₂.chan_modChan_self c _
  rw [← entered] at live wcb st ww
  have next : k.phrase.len ≤ k.ww.beat → (s₃.chan c).ww.phrase = k.phrase.next := fun h => by rw [ww, if_pos (endedIff.mpr h)]
  have same : ¬ k.phrase.len ≤ k.ww.beat → (s₃.chan c).ww.phrase = k.ww.phrase := fun h => by rw [ww, if_neg (mt endedIff.mp h)]
  have beat : (s₃.chan c).ww.beat = 0 := by rw [ww]
  have due : (s₃.chan c).ww.boundaryDue = false := by rw [ww]
  split
  · next h =>
    rw [State.chan_settle, State.chan_modChan_self]
    exact ⟨live, wcb, beat, due, next, same, fun _ => rfl, fun hs => absurd (stopIff.mp h) hs⟩
  · next h =>
    have rest : (s₃.chan c).Rests _ :=
      ((s₃.replaceFailed_rests c).trans (State.rotate_rests _ c)).trans (State.retune_rests _ c)
    have ww' := rest.steady.ww
    exact ⟨rest.steady.live.trans live, rest.wcb.trans wcb, by rw [ww', beat], by rw [ww', due], fun h => by rw [ww', next h],
      fun h => by rw [ww', same h], fun hs => absurd (stopIff.mpr hs) h, fun _ => rest.steady.st.trans st⟩

end Sys2Proof.Machine
end

section
/-! O41: the test of a beat, which issues it or holds it (07 R166 to R177). -/

namespace Sys2Proof.Machine

open Sys2Proof

/-! ### A beat that issues -/

section
variable (s : State) (c : ChanId)

theorem State.chan_issue_ne {d : ChanId} (h : d ≠ c) : (s.issue c).chan d = s.chan d := by
  rw [State.issue_eq, State.chan_settle, (State.launchAll_counted _ _).others d h, State.chan_modChan_ne s _ h]

theorem State.issue_counts :
    ((s.issue c).chan c).ww.beats = wrap64 ((s.chan c).ww.beats + 1) ∧ ((s.issue c).chan c).ww.held = (s.chan c).ww.held := by
  obtain ⟨beats, held⟩ := (State.launchAll_counted (c := c)
    (s.modChan c (Channel.issued (s.chan c).beatEntries)) (s.chan c).beatEntries).here
  rw [State.chan_modChan_self, Channel.issued_ww] at beats held
  rw [State.issue_eq, State.chan_settle]
  exact ⟨beats, held⟩

variable {s c} (plain : ∀ x ∈ (s.chan c).beatEntries, x.2.action ≠ 8 ∧ x.2.action ≠ 9 ∧ x.2.action ≠ 0x0A)
include plain

/-- Launches alone change nothing that the Windway goes by but the actions in flight. -/
theorem State.grounded_issue :
    ((s.issue c).chan c).control.grounded = ((s.chan c).issued (s.chan c).beatEntries).control.grounded := by
  rw [State.issue_eq, State.chan_settle, State.grounded_launchAll _ plain, State.chan_modChan_self]

theorem State.issue_ww : ((s.issue c).chan c).ww = ((s.chan c).issued (s.chan c).beatEntries).ww :=
  (congrArg Control.ww (State.grounded_issue plain) :)

/-- A step that begins is in RUN, keeps its version state and has taken its scalar token back. -/
theorem State.issue_begins (beat : (s.chan c).ww.beat = 0) (start : (s.chan c).phrase.stepStart = true) :
    ((s.issue c).chan c).st = .run ∧ ((s.issue c).chan c).resume = false ∧ ((s.issue c).chan c).verSnap = some (s.chan c).ver
    ∧ ((s.issue c).chan c).scalarTok = false ∧ ((s.issue c).chan c).ww.stepPhrase = (s.chan c).ww.phrase := by
  have g := State.grounded_issue plain
  rw [Channel.issued_control, if_pos ⟨beat, start⟩] at g
  exact ⟨(congrArg Control.st g :), (congrArg Control.resume g :), (congrArg Control.verSnap g :), (congrArg Control.scalarTok g :),
    (congrArg (fun x : Control => x.ww.stepPhrase) g :)⟩

theorem State.issue_scalarQ : ((s.issue c).chan c).scalarQ = [] := by
  have g := congrArg Control.scalarQ (State.grounded_issue plain)
  refine g.trans ?_
  rw [Channel.issued_control]
  split <;> rfl

/-- What the beat's movers work on is in flight, on their units and with the tokens they produce. -/
theorem State.issue_flies (run : (s.chan c).st = .run ∨ ((s.chan c).ww.beat = 0 ∧ (s.chan c).phrase.stepStart = true))
    {x : Nat × Entry} (hx : x ∈ (s.chan c).beatEntries) (h3 : 3 ≤ x.2.action) (h6 : x.2.action ≤ 6) :
    ∃ f ∈ ((s.issue c).chan c).flights, f.entry = x.1 ∧ f.unit = x.2.unit ∧ f.token = x.2.sets := by
  have st : ((s.modChan c (Channel.issued (s.chan c).beatEntries)).chan c).st = .run := by
    rw [State.chan_modChan_self]
    exact Channel.issued_st _ _ run
  have beat : ((s.modChan c (Channel.issued (s.chan c).beatEntries)).chan c).ww.beat ≠ 0 := by
    rw [State.chan_modChan_self, Channel.issued_ww]
    exact Nat.succ_ne_zero _
  have flown := (State.flying_launchAll _ plain st beat (Channel.nodup_beatEntries _)).2 x hx h3 h6
  obtain ⟨f, hf, he⟩ := List.mem_map.mp flown
  rw [State.issue_eq, State.chan_settle]
  simp only [Prod.mk.injEq] at he
  exact ⟨f, hf, he⟩

end

/-! ### The test -/

/-- What a boundary leaves depends on what the Windway goes by. -/
theorem Channel.Bounded.of_steady {k k₁ k' : Channel} (h : k.Steady k₁) (hb : k₁.Bounded k') : k.Bounded k' := by
  have phrase : k₁.phrase = k.phrase := Channel.phrase_of_control h.score (congrArg Windway.phrase h.ww)
  have stops : k₁.stopsHere = k.stopsHere := by rw [Channel.stopsHere, phrase, h.ww, Channel.stopsHere]
  obtain ⟨live, wcb, beat, due, next, same, stop, run⟩ := hb
  rw [h.ww, phrase] at next same
  rw [stops] at stop run
  exact ⟨live.trans h.shadow, wcb, beat, due, next, same, stop, fun hs => (run hs).trans h.st⟩

section
variable (s : State) (c : ChanId) (o : BeatObs)

theorem State.beatState_bounded (due : (s.chan c).ww.boundaryDue = true) : (s.chan c).Bounded ((s.beatState c o).chan c) := by
  unfold State.beatState
  extract_lets s₁
  have disturbed : (s.chan c).Steady (s₁.chan c) := by
    unfold s₁
    rw [State.chan_modChan_self]
    refine ((s.chan c).disturbed_steady o.upsets).trans ?_
    exact ⟨rfl⟩
  have due₁ : (s₁.chan c).ww.boundaryDue = true := by rw [disturbed.ww, due]
  rw [if_pos due₁]
  exact .of_steady disturbed (s₁.passBoundary_bounded c)

variable {s c o} in
theorem execBeatTest_of_not_mayTest (h : s.mayTest c = false) : exec (.beatTest c o) s = .next s := by
  show execBeatTest c o s = _
  simp [execBeatTest, h]

/-- A test in the state in which the beat is tested. -/
def State.testBeat (u : State) (c : ChanId) (o : BeatObs) : Host.Outcome State Fault Refusal :=
  if !u.mayTest c then .next u
  else match lowestCause ((u.chan c).missing o.starved) with
    | none => .next (u.issue c)
    | some h =>
      let only := (u.chan c).ww.hold.isSome && ((u.chan c).missing o.starved).all (· == .scalar)
      .next (u.modChan c (fun k => { (if only then k.applyScalars else k) with ww := k.ww.heldBeat h }))

variable {s c o} in
theorem execBeatTest_of_mayTest (h : s.mayTest c = true) : exec (.beatTest c o) s = (s.beatState c o).testBeat c o := by
  show execBeatTest c o s = _
  simp only [execBeatTest, h, State.testBeat]
  rfl

variable {u : State} {c o}

theorem State.testBeat_of_not_mayTest (h : u.mayTest c = false) : u.testBeat c o = .next u := by
  rw [State.testBeat, h]
  rfl

theorem State.testBeat_of_missing_nil (h : u.mayTest c = true) (hm : (u.chan c).missing o.starved = []) :
    u.testBeat c o = .next (u.issue c) := by
  rw [State.testBeat, h, hm]
  rfl

/-- The hold in progress waits only for scalar tokens. -/
def Channel.scalarHold (k : Channel) (starved : Bool) : Prop := k.ww.hold.isSome = true ∧ ∀ g ∈ k.missing starved, g = .scalar

theorem State.testBeat_of_lowest (h : u.mayTest c = true) {a : HoldCause} (low : lowestCause ((u.chan c).missing o.starved) = some a) :
    ((u.chan c).scalarHold o.starved →
      u.testBeat c o = .next (u.setChan c { (u.chan c).applyScalars with ww := (u.chan c).ww.heldBeat a }))
    ∧ (¬ (u.chan c).scalarHold o.starved →
      u.testBeat c o = .next (u.setChan c { u.chan c with ww := (u.chan c).ww.heldBeat a })) := by
  have only : ((u.chan c).ww.hold.isSome && ((u.chan c).missing o.starved).all (· == .scalar)) = true
      ↔ (u.chan c).scalarHold o.starved := by
    simp [Channel.scalarHold]
  rw [State.testBeat, h, low]
  dsimp only [State.modChan]
  constructor
  · intro hs
    rw [if_pos (only.mpr hs)]
    rfl
  · intro hs
    rw [if_neg (mt only.mp hs)]
    rfl

end

/-- Settles O41: what is disturbed and a boundary that is due change no more than the Windway's own place, and a launch no more than what
is in flight; a beat that is held counts under the lowest cause. -/
theorem beatTests : Obligations.BeatTests := by
  intro s c o
  refine ⟨execBeatTest_of_not_mayTest, fun may => ?_⟩
  have test := execBeatTest_of_mayTest (o := o) may
  intro u k
  refine ⟨?boundary, fun h => test.trans (State.testBeat_of_not_mayTest h),
    fun may' => ⟨fun nothing => ?issues, fun something => ?held⟩⟩
  case boundary =>
    intro k₀ ended due
    obtain ⟨live, wcb, beat, due', next, same, stop, run⟩ := s.beatState_bounded c o due
    exact ⟨live, wcb, beat, due', next, same, fun he hs => stop ⟨he, hs⟩, fun h => run fun hs => h.elim (absurd hs.1)
      fun hn => hs.2.elim hn.1 hn.2⟩
  case issues =>
    obtain ⟨beats, held⟩ := u.issue_counts c
    refine ⟨u.issue c, test.trans (State.testBeat_of_missing_nil may' nothing), rfl, fun d hd => u.chan_issue_ne c hd, beats, held,
      fun plain => ?_⟩
    have ww := State.issue_ww plain
    rw [Channel.issued_ww] at ww
    exact ⟨by rw [ww], by rw [ww], State.issue_scalarQ plain, by rw [ww]; exact decide_eq_true_iff, State.issue_begins plain,
      fun run x hx h3 h6 => State.issue_flies plain run hx h3 h6⟩
  case held =>
    obtain ⟨h, low, mem, least⟩ := lowestCause_of_ne_nil something
    obtain ⟨scalar, others⟩ := State.testBeat_of_lowest may' low
    exact ⟨k.ww.heldBeat h, h, mem, least, ⟨fun only => test.trans (scalar only), fun only => test.trans (others only)⟩, rfl,
      fun hb he i => k.ww.getD_heldBeat h hb he i⟩

end Sys2Proof.Machine
end

section
/-! SUPPORT. Requests to the Chanter that wait: a buffer that OPEN may take, the agreement on a verdict, and the scalar writes of a step
(05 R131; 06 R142; 08 R208; 13 R340). -/

namespace Sys2Proof.Machine

open Sys2Proof

/-- A version may be opened when no reader and no checkpoint refers to the buffer of version CUR + 1 (13 R340). -/
theorem Versions.canOpen_iff (v : Versions) :
    v.canOpen = true ↔ if (v.cur + 1) % 2 = 0 then v.ref0 = 0 ∧ v.ckref0 = 0 else v.ref1 = 0 ∧ v.ckref1 = 0 := by
  unfold Versions.canOpen
  split <;> simp

section
variable {s : State} {c : ChanId} {f : Flight}

/-! ### OPEN (08 R208) -/

theorem execOpenGranted_of_no_flight (h : (s.chan c).chntFlight 3 = none) : exec (.openGranted c) s = .next s := by
  refine congrArg Host.Outcome.next (State.modChan_eq_self ?_)
  rw [h]

theorem execOpenGranted_of_flight (h : (s.chan c).chntFlight 3 = some f) (closed : (s.chan c).ver.opened = false)
    (free : (s.chan c).ver.canOpen = true) :
    exec (.openGranted c) s = .next (s.setChan c ((s.chan c).openVersion f.entry)) := by
  refine congrArg (fun k => Host.Outcome.next (s.setChan c k)) ?_
  simp only [h, closed, free, Bool.not_false, Bool.and_self, if_true]

theorem execOpenGranted_of_waiting (h : (s.chan c).chntFlight 3 = some f)
    (waits : (s.chan c).ver.opened = true ∨ (s.chan c).ver.canOpen ≠ true) : exec (.openGranted c) s = .next s := by
  refine congrArg Host.Outcome.next (State.modChan_eq_self ?_)
  rw [h]
  exact if_neg (by simpa [or_comm, imp_iff_not_or] using waits)

theorem Channel.openVersion_frame (k : Channel) (i : Nat) :
    k.openVersion i = { k with ver := { k.ver with opened := true }, verRungs := (k.openVersion i).verRungs
                               flights := (k.openVersion i).flights, tokens := (k.openVersion i).tokens } := by
  unfold Channel.openVersion
  rw [Channel.landEntry_frame]
  rfl

theorem Channel.landed_openVersion (k : Channel) (i : Nat) : k.landed (k.openVersion i) i :=
  ({ k with ver := { k.ver with opened := true } }.recordRungs).landed_landEntry i

/-! ### VERDICT (05 R131) -/

/-- The record of a VERDICT request is agreed on: the exchange is over, and the request has completed. -/
def Channel.agree (k : Channel) (a : Nat × List (Nat × Nat × Nat)) (entry : Nat) : Channel :=
  { k with tun := { k.tun with agreed := some a }, coll := { k.coll with verdict := none } }.landEntry entry

theorem Channel.agree_frame (k : Channel) (a : Nat × List (Nat × Nat × Nat)) (i : Nat) :
    k.agree a i = { k with tun := { k.tun with agreed := some a }, coll := { k.coll with verdict := none }
                           flights := (k.agree a i).flights, tokens := (k.agree a i).tokens } := by
  unfold Channel.agree
  rw [Channel.landEntry_frame]

theorem Channel.landed_agree (k : Channel) (a : Nat × List (Nat × Nat × Nat)) (i : Nat) : k.landed (k.agree a i) i :=
  { k with tun := { k.tun with agreed := some a }, coll := { k.coll with verdict := none } }.landed_landEntry i

variable {us : List Upset}

theorem execVerdictAgreed_of_no_request
    (h : ((s.disturbed c us).chan c).chntFlight 4 = none ∨ ((s.disturbed c us).chan c).tun.agreed ≠ none) :
    exec (.verdictAgreed c us) s = .next (s.disturbed c us) := by
  refine congrArg Host.Outcome.next (State.modChan_eq_self ?_)
  obtain h | h := h
  · rw [h]
  · obtain ⟨a, ha⟩ := Option.ne_none_iff_exists'.mp h
    rw [ha]
    cases ((s.disturbed c us).chan c).chntFlight 4 <;> rfl

theorem execVerdictAgreed_of_agreed (h : ((s.disturbed c us).chan c).chntFlight 4 = some f)
    (fresh : ((s.disturbed c us).chan c).tun.agreed = none) {a : Nat × List (Nat × Nat × Nat)}
    (ha : ((s.disturbed c us).chan c).agreedRecord f.entry = some a) :
    exec (.verdictAgreed c us) s
      = .next ((s.disturbed c us).setChan c (((s.disturbed c us).chan c).agree a f.entry)) := by
  refine congrArg (fun k => Host.Outcome.next ((s.disturbed c us).setChan c k)) ?_
  simp only [h, fresh, ha]
  rfl

theorem execVerdictAgreed_of_not_agreed (h : ((s.disturbed c us).chan c).chntFlight 4 = some f)
    (fresh : ((s.disturbed c us).chan c).tun.agreed = none) (ha : ((s.disturbed c us).chan c).agreedRecord f.entry = none) :
    exec (.verdictAgreed c us) s = .next (s.disturbed c us) := by
  refine congrArg Host.Outcome.next (State.modChan_eq_self ?_)
  rw [h, fresh]
  simp only [ha]

/-- On one channel alone the record agreed on is the channel's own. -/
theorem Channel.agreedRecord_alone {k : Channel} {i : Nat} (h : k.verdictDesc (k.entry i).desc = none) :
    k.agreedRecord i = k.tun.verdict := by
  rw [Channel.agreedRecord, h]

/-- Over a COLL descriptor it is what the exchange has brought, once that is complete. -/
theorem Channel.agreedRecord_exchange {k : Channel} {i : Nat} {x : Coll} {y z} (h : k.verdictDesc (k.entry i).desc ≠ none)
    (hx : k.coll.verdict = some x) (hz : x.xch = some (y, z)) :
    k.agreedRecord i = if z.complete then some z.verdict else none := by
  obtain ⟨d, hd⟩ := Option.ne_none_iff_exists'.mp h
  rw [Channel.agreedRecord, hd, hx]
  simp only [hz]

/-! ### SCALARS (06 R142) -/

/-- The scalar token is granted, and the SCALARS request has completed. -/
def Channel.grantScalars (k : Channel) (entry : Nat) : Channel := { k with scalarTok := true }.landEntry entry

theorem Channel.grantScalars_frame (k : Channel) (i : Nat) :
    k.grantScalars i = { k with scalarTok := true, flights := (k.grantScalars i).flights, tokens := (k.grantScalars i).tokens } := by
  unfold Channel.grantScalars
  rw [Channel.landEntry_frame]

theorem Channel.landed_grantScalars (k : Channel) (i : Nat) : k.landed (k.grantScalars i) i :=
  { k with scalarTok := true }.landed_landEntry i

theorem execScalarsDone_of_waiting (h : (s.chan c).chntFlight 5 = none ∨ (s.chan c).scalarQ ≠ []) :
    exec (.scalarsDone c) s = .next s := by
  refine congrArg Host.Outcome.next (State.modChan_eq_self ?_)
  cases hf : (s.chan c).chntFlight 5 with
  | none => rfl
  | some f =>
    have waiting : (s.chan c).scalarQ ≠ [] := h.resolve_left (by simp [hf])
    exact if_pos (by simpa using waiting)

theorem execScalarsDone_of_flight (h : (s.chan c).chntFlight 5 = some f) (done : (s.chan c).scalarQ = []) :
    exec (.scalarsDone c) s = .next (s.setChan c ((s.chan c).grantScalars f.entry)) := by
  refine congrArg (fun k => Host.Outcome.next (s.setChan c k)) ?_
  simp only [h]
  exact if_neg (by simp [done])

end

end Sys2Proof.Machine
end

section
/-! O46: Chanter requests that wait, and a rollback (05 R128, R131; 06 R142; 08 R208; 13 R340; 17 R407). -/

namespace Sys2Proof.Machine

open Sys2Proof

/-! ### A rollback (05 R128; 17 R407) -/

theorem State.settle_frame (s : State) : s.settle = { s with dev := s.settle.dev } := by
  unfold State.settle
  split_ifs <;> rfl

/-- Giving up the checkpoint being written changes the reference counts of checkpoints and the service only (13 R340). -/
theorem Channel.dropCkpt_frame (k : Channel) :
    k.dropCkpt = { k with ver := { k.ver with ckref0 := k.dropCkpt.ver.ckref0, ckref1 := k.dropCkpt.ver.ckref1 }
                          svc := { k.svc with ckpt := k.dropCkpt.svc.ckpt } } := by
  unfold Channel.dropCkpt
  split
  · rfl
  · next r _ => by_cases even : r.version % 2 = 0 <;> simp only [even, if_true, if_false]

/-- No checkpoint that is writing or provisional is left (17 R420). -/
theorem ChanStore.state_of_mem_discardCkpts {t : ChanStore} {x : Ckpt} (h : x ∈ t.discardCkpts.ckpts) : x.state ≠ 1 ∧ x.state ≠ 2 := by
  obtain ⟨y, -, rfl⟩ := List.mem_map.mp h
  by_cases unclean : y.state = 1 ∨ y.state = 2
  · simp [unclean]
  · rw [if_neg unclean]
    exact not_or.mp unclean

/-- A rollback is due on a channel that runs or that resumes from Last Breath (11 R313; 17 R407). -/
def Channel.rolls (k : Channel) : Prop :=
  k.ww.rollbackDue = true ∧ (k.st = .run ∨ k.st = .stopping ∨ (k.st = .loaded ∧ k.resume = true))

/-- A rollback of channel `c`: the step has failed, and the restart service takes over. -/
def State.rolledBack (s : State) (c : ChanId) : State := ((s.stepFailure c).modChan c Channel.rollBack).settle

section
variable {s : State} {c : ChanId}

theorem execRollback_of_rolls (h : (s.chan c).rolls) : exec (.rollback c) s = .next (s.rolledBack c) :=
  if_pos (by simpa [Channel.rolls, or_assoc] using h)

theorem execRollback_of_not_rolls (h : ¬ (s.chan c).rolls) : exec (.rollback c) s = .next s :=
  if_neg (by simpa [Channel.rolls, or_assoc] using h)

variable (s c)

theorem State.chan_rolledBack : (s.rolledBack c).chan c = (s.chan c).dropCkpt.rollBack := by
  rw [State.rolledBack, State.chan_settle, State.chan_modChan_self, State.stepFailure, State.chan_modChan_self, State.chan_modStore]

theorem State.chan_rolledBack_ne {d : ChanId} (h : d ≠ c) : (s.rolledBack c).chan d = s.chan d := by
  rw [State.rolledBack, State.chan_settle, State.chan_modChan_ne _ _ h, State.stepFailure, State.chan_modChan_ne _ _ h,
    State.chan_modStore]

theorem State.mp_rolledBack : (s.rolledBack c).mp = s.mp := by
  rw [State.rolledBack, State.settle_frame]
  rfl

theorem State.meter_rolledBack : (s.rolledBack c).meter = s.meter := by
  rw [State.rolledBack, State.settle_frame]
  rfl

theorem State.mram_rolledBack : (s.rolledBack c).mram = (s.modStore c ChanStore.discardCkpts).mram := by
  rw [State.rolledBack, State.settle_frame]
  rfl

theorem State.store_rolledBack : (s.rolledBack c).store c = (s.store c).discardCkpts := by
  rw [State.store, State.mram_rolledBack]
  exact State.store_modStore_self s c _

theorem State.store_rolledBack_ne {d : ChanId} (h : d ≠ c) : (s.rolledBack c).store d = s.store d := by
  rw [State.store, State.mram_rolledBack]
  exact State.store_modStore_ne s _ h

theorem State.aroundChan_rolledBack : s.aroundChan c (s.rolledBack c) := by
  refine ⟨?_, fun d hd => ⟨s.chan_rolledBack_ne c hd, s.store_rolledBack_ne c hd⟩⟩
  rw [State.rolledBack, State.settle_frame]
  rfl

end

/-- Settles O46: each waiting request completes by landing its entry, and a rollback is a step failure followed by `Channel.rollBack`. -/
theorem chanterEvents : Obligations.ChanterEvents := by
  intro s c k unread
  have unread_iff : k.ver.canOpen = true ↔ unread := k.ver.canOpen_iff
  refine ⟨execOpenGranted_of_no_flight, fun f hf => ⟨fun closed free => ?opens, fun waits => ?waits⟩, fun us => ?verdict,
    execScalarsDone_of_waiting, fun f hf done => ?scalars, execRollback_of_not_rolls, fun due => ?rolls⟩
  case opens =>
    exact ⟨_, execOpenGranted_of_flight hf closed (unread_iff.mpr free), k.openVersion_frame _, k.landed_openVersion _⟩
  case waits => exact execOpenGranted_of_waiting hf (waits.imp_right (mt unread_iff.mp))
  case verdict =>
    intro ends s' k'
    refine ⟨execVerdictAgreed_of_no_request, fun f hf fresh => ⟨fun a ha => ?_, execVerdictAgreed_of_not_agreed hf fresh,
      Channel.agreedRecord_alone, fun x y z => Channel.agreedRecord_exchange⟩⟩
    exact ⟨_, execVerdictAgreed_of_agreed hf fresh ha, k'.agree_frame a _, k'.landed_agree a _⟩
  case scalars =>
    exact ⟨_, execScalarsDone_of_flight hf done, k.grantScalars_frame _, k.landed_grantScalars _⟩
  case rolls =>
    refine ⟨s.rolledBack c, execRollback_of_rolls due, s.aroundChan_rolledBack c, s.mp_rolledBack c, s.meter_rolledBack c, ?_⟩
    rw [s.chan_rolledBack c, s.store_rolledBack c, (s.chan c).dropCkpt_frame]
    exact ⟨rfl, rfl, rfl, rfl, fun _ => rfl, rfl, rfl, rfl, rfl, rfl, rfl, rfl, rfl, rfl,
      fun x => ChanStore.state_of_mem_discardCkpts⟩

end Sys2Proof.Machine
end

section
/-! O59: the canonical form of every memory of the device, kept by the operations on its parts (09 R231, R243; 03 R62). -/

namespace Sys2Proof.Machine

open Sys2Proof

/-! ### What the form depends on -/

/-- The form of one copy of the phrase-bound stops: its routing and isolation tables. -/
def Rwp.canonical (w : Rwp) : Prop := SMap.wf 0 w.routes = true ∧ SMap.wf false w.isolate = true

/-- The result of a command, where there is a next state, has every memory in canonical form. -/
def outcomeCanonical : Host.Outcome State Fault Refusal → Prop
  | .next t => t.canonical
  | _ => True

/-- A fold over operations on a part `g` of what it carries keeps a property that each of them keeps. -/
theorem foldl_keeps_on {α β γ : Type} {P : γ → Prop} (g : α → γ) {f : α → β → α} (l : List β) {a : α} (h : P (g a))
    (hf : ∀ a b, P (g a) → P (g (f a b))) : P (g (l.foldl f a)) :=
  foldl_keeps (P := fun a => P (g a)) hf l h

theorem vector_forall_get_set {α : Type} {n : Nat} {P : α → Prop} {v : Vector α n} {x : α} (h : ∀ i, P (v.get i)) (i : Fin n) (hx : P x) :
    ∀ j, P ((v.set i x).get j) := fun j => by
  by_cases hj : j = i
  · subst hj
    rwa [vector_get_set_self]
  · rw [vector_get_set_ne v x hj]
    exact h j

theorem vector_forall_get_map {α β : Type} {n : Nat} {P : α → Prop} {Q : β → Prop} {v : Vector α n} {f : α → β} (h : ∀ i, P (v.get i))
    (hf : ∀ x, P x → Q (f x)) : ∀ i, Q ((v.map f).get i) := fun i => by
  have hi := hf _ (h i)
  rw [Vector.get_eq_getElem] at hi ⊢
  rwa [Vector.getElem_map]

namespace Channel.canonical

variable {k k' : Channel}

theorem mem (h : k.canonical) : k.mem.canonical := h.1

theorem reed (h : k.canonical) (r : ReedId) : (k.reed r).sram.wf = true := h.2.1 r

theorem shadow (h : k.canonical) : k.shadow.canonical := h.2.2 _ (.inl rfl)

theorem live (h : k.canonical) : k.live.canonical := h.2.2 _ (.inr rfl)

theorem of_parts (hm : k.mem.canonical) (hr : ∀ r, (k.reed r).sram.wf = true) (hs : k.shadow.canonical) (hl : k.live.canonical) :
    k.canonical := by
  refine ⟨hm, hr, ?_⟩
  rintro w (rfl | rfl)
  · exact hs
  · exact hl

/-- A channel with the memories of another has their form. -/
theorem same (h : k.canonical)
    (e : (k'.mem, k'.reeds, k'.shadow, k'.live) = (k.mem, k.reeds, k.shadow, k.live)) : k'.canonical := by
  simp only [Prod.mk.injEq] at e
  obtain ⟨hm, hr, hs, hl⟩ := e
  exact canonical_of_eq h hm hr hs hl

/-- Of two ways to go on, each has the form. -/
theorem ite {α : Type} (g : α → Channel) {p : Prop} [Decidable p] {x y : α} (hx : (g x).canonical) (hy : (g y).canonical) :
    (g (if p then x else y)).canonical := by
  split <;> assumption

/-- Of two channels to go on with, each has the form. -/
theorem either {p : Prop} [Decidable p] {x y : Channel} (hx : x.canonical) (hy : y.canonical) :
    (if p then x else y).canonical := ite id hx hy

theorem of_snd {α : Type} {p : α × Channel} {a : α} (e : p = (a, k)) (h : p.2.canonical) : k.canonical := by
  rw [e] at h
  exact h

theorem of_fst {α : Type} {p : Channel × α} {a : α} (e : p = (k, a)) (h : p.1.canonical) : k.canonical := by
  rw [e] at h
  exact h

theorem withMem {m : Mem} (h : k.canonical) (hm : m.canonical) : ({ k with mem := m } : Channel).canonical := ⟨hm, h.2⟩

theorem modReed {r : ReedId} {f : Reed → Reed} (h : k.canonical) (hf : (f (k.reed r)).sram.wf = true) :
    (k.modReed r f).canonical :=
  ⟨h.1, vector_forall_get_set (P := fun x : Reed => x.sram.wf = true) h.2.1 r hf, h.2.2⟩

/-- A Reed changed in anything but its SRAM. -/
theorem modReed_of_sram {r : ReedId} {f : Reed → Reed} (h : k.canonical) (hf : (f (k.reed r)).sram = (k.reed r).sram) :
    (k.modReed r f).canonical := h.modReed (by rw [hf]; exact h.reed r)

/-- Every Reed changed. -/
theorem mapReeds {f : Reed → Reed} (h : k.canonical) (hf : ∀ x : Reed, x.sram.wf = true → (f x).sram.wf = true) :
    ({ k with reeds := k.reeds.map f } : Channel).canonical :=
  ⟨h.1, vector_forall_get_map (P := fun x : Reed => x.sram.wf = true) (Q := fun x : Reed => x.sram.wf = true) h.2.1 hf, h.2.2⟩

theorem modValve {r : ReedId} {f : Valve → Valve} (h : k.canonical) : (k.modValve r f).canonical := h.modReed_of_sram rfl

theorem modPort {p : PortId} {f : Port → Port} (h : k.canonical) : (k.modPort p f).canonical := h

theorem modToken {t : Nat} {f : Token → Token} (h : k.canonical) : (k.modToken t f).canonical := h

end Channel.canonical

namespace State.canonical

variable {s t : State}

/-- A state with the channels of another has their form. -/
theorem of_ch (e : t.ch = s.ch) (h : s.canonical) : t.canonical := fun c => by
  have hc := h c
  unfold State.chan at hc ⊢
  rwa [e]

theorem of_chan (e : ∀ c, t.chan c = s.chan c) (h : s.canonical) : t.canonical := fun c => by
  rw [e c]
  exact h c

theorem of_snd {α : Type} {p : α × State} {a : α} (e : p = (a, t)) (h : p.2.canonical) : t.canonical := by
  rw [e] at h
  exact h

theorem of_fst {α : Type} {p : State × α} {a : α} (e : p = (t, a)) (h : p.1.canonical) : t.canonical := by
  rw [e] at h
  exact h

theorem setChan {c : ChanId} {k : Channel} (h : s.canonical) (hk : k.canonical) : (s.setChan c k).canonical :=
  vector_forall_get_set h c hk

theorem modChan {c : ChanId} {f : Channel → Channel} (h : s.canonical) (hf : (f (s.chan c)).canonical) :
    (s.modChan c f).canonical := h.setChan hf

/-- A channel changed in anything but its memories. -/
theorem modChan_same {c : ChanId} {f : Channel → Channel} (h : s.canonical)
    (e : ∀ k, ((f k).mem, (f k).reeds, (f k).shadow, (f k).live) = (k.mem, k.reeds, k.shadow, k.live)) : (s.modChan c f).canonical :=
  h.modChan ((h c).same (e _))

theorem modStore {c : ChanId} {f : ChanStore → ChanStore} (h : s.canonical) : (s.modStore c f).canonical := h

theorem modMp {f : Mouthpiece → Mouthpiece} (h : s.canonical) : (s.modMp f).canonical := h

theorem modMeter {f : Meter → Meter} (h : s.canonical) : (s.modMeter f).canonical := h

theorem modComp {i : Nat} {f : Component → Component} (h : s.canonical) : (s.modComp i f).canonical := h

theorem draw {n : Nat} (h : s.canonical) : (s.draw n).2.canonical := h

theorem drew {n : Nat} (h : s.canonical) : (s.drew n).canonical := h

/-- Of two ways to go on, each has the form. -/
theorem ite {α : Type} (g : α → State) {p : Prop} [Decidable p] {x y : α} (hx : (g x).canonical) (hy : (g y).canonical) :
    (g (if p then x else y)).canonical := by
  split <;> assumption

/-- Of two states to go on with, each has the form. -/
theorem either {p : Prop} [Decidable p] {x y : State} (hx : x.canonical) (hy : y.canonical) :
    (if p then x else y).canonical := ite id hx hy

/-- Every channel of a list changed in a way that keeps the form. -/
theorem foldChans {f : State → ChanId → State} {l : List ChanId} (h : s.canonical)
    (hf : ∀ (s : State) c, s.canonical → (f s c).canonical) : (l.foldl f s).canonical := foldl_keeps hf l h

end State.canonical

/-! ### Tokens, actions in flight and errors -/

namespace Channel.canonical

variable {k : Channel}

theorem launchToken {t : Option Nat} (h : k.canonical) : (k.launchToken t).canonical := by cases t <;> exact h

theorem setToken {t : Option Nat} (h : k.canonical) : (k.setToken t).canonical := by cases t <;> exact h

theorem tagToken {t : Option Nat} {c : HoldCause} (h : k.canonical) : (k.tagToken t c).canonical := by cases t <;> exact h

theorem fly {unit entry : Nat} {t : Option Nat} (h : k.canonical) : (k.fly unit entry t).canonical := h

theorem tagFlight {unit : Nat} {c : HoldCause} (h : k.canonical) : (k.tagFlight unit c).canonical := by
  unfold Channel.tagFlight
  split
  · exact h
  · exact tagToken (h.same (by with_reducible rfl))

theorem landEntry {entry : Nat} (h : k.canonical) : (k.landEntry entry).canonical := by
  unfold Channel.landEntry
  split
  · exact h
  · exact setToken (h.same (by with_reducible rfl))

theorem tagEntry {entry : Nat} {c : HoldCause} (h : k.canonical) : (k.tagEntry entry c).canonical := by
  unfold Channel.tagEntry
  split
  · exact h
  · exact .either h (tagToken (h.same (by with_reducible rfl)))

theorem raise {x : RawErr} (h : k.canonical) : (k.raise x).canonical := h

/-! ### Reads and writes of the units -/

theorem addrFault {unit uidx addr : Nat} (h : k.canonical) : (k.addrFault unit uidx addr).canonical := h

theorem frameErrors (h : k.canonical) : k.frameErrors.canonical := foldl_keeps (fun _ _ h => raise h) _ h

theorem load {space addr n : Nat} (h : k.canonical) : (k.mem.load space addr n).2.canonical :=
  Mem.canonical_of_eq h.mem (k.mem.load_memories space addr n).1 (k.mem.load_memories space addr n).2

theorem readBytes {unit uidx : Nat} {r : ReedId} {space addr n : Nat} (h : k.canonical) :
    (k.readBytes unit uidx r space addr n).2.canonical := by
  unfold Channel.readBytes
  split
  · exact .ite Prod.snd h h.addrFault
  · exact .ite Prod.snd (h.withMem h.load).frameErrors h.addrFault

theorem writeBytes {unit uidx : Nat} {r : ReedId} {e space addr : Nat} {bs : List Byte} (h : k.canonical) :
    (k.writeBytes unit uidx r e space addr bs).canonical := by
  unfold Channel.writeBytes
  have chest : (k.mem.chest.write addr bs).wf = true := Memory.wf_write addr bs h.mem.2
  have sram : ((k.reed r).sram.write addr bs).wf = true := Memory.wf_write addr bs (h.reed r)
  refine .either h (.either (.either ?_ h.addrFault) (.either (.either (h.modReed sram) h.addrFault) (.either ?_ h.addrFault)))
  · exact h.withMem ⟨h.mem.1, chest⟩
  · exact (h.withMem (Mem.store_canonical space addr bs h.mem)).frameErrors

theorem countCrc {cls : Nat} (h : k.canonical) : (k.countCrc cls).canonical := h

theorem heal {space addr n : Nat} {m : Mem} (h : m.canonical) : (m.heal space addr n).canonical := by
  refine foldl_keeps (fun m p hm => ?_) _ h
  split
  · refine foldl_keeps (fun m c hm => ?_) _ hm
    exact Mem.canonical_of_eq hm rfl rfl
  · exact hm

theorem healParity {r : ReedId} {space addr n : Nat} (h : k.canonical) : (k.healParity r space addr n).canonical :=
  .either h (h.modReed_of_sram rfl)

theorem readError {unit uidx : Nat} {r : ReedId} {done : List Redo} {x : Redo} {cause : Cause} {cls : ErrClass} {detail : Nat}
    (h : k.canonical) : (k.readError unit uidx r done x cause cls detail).2.canonical := by
  unfold Channel.readError
  have counted : (if cause = .parity ∧ 3 ≤ x.space then
      k.modReed r (fun y => { y with cnt := { y.cnt with parErr := sat32 y.cnt.parErr 1 } }) else k).canonical :=
    .either (h.modReed_of_sram rfl) h
  exact .ite Prod.snd counted.raise counted

theorem readChord {unit uidx : Nat} {r : ReedId} {t : TensorDesc} {i : Nat} {done : List Redo} (h : k.canonical) :
    (k.readChord unit uidx r t i done).2.canonical := by
  unfold Channel.readChord
  exact .ite Prod.snd h.readBytes (.ite Prod.snd h.readBytes (readError (.either h.readBytes.countCrc h.readBytes)))

theorem upset {u : Upset} (h : k.canonical) : (k.upset u).canonical := by
  unfold Channel.upset
  extract_lets onReed
  have reed : ∀ f : Reed → Reed, (∀ x, (f x).sram = x.sram) → (onReed f).canonical := fun f hf => by
    unfold onReed
    split
    · exact h.modReed_of_sram (hf _)
    · exact h
  split
  · exact reed _ fun _ => rfl
  · exact h
  · exact h
  · exact reed _ fun _ => rfl
  · refine reed _ fun x => ?_
    unfold Reed.upsetSlot
    split
    · rfl
    · split <;> rfl
  · exact h

end Channel.canonical

theorem State.canonical.disturbed {s : State} {c : ChanId} {us : List Upset} (h : s.canonical) : (s.disturbed c us).canonical :=
  foldl_keeps (fun _ _ h => h.modChan (h c).upset) us h

end Sys2Proof.Machine
end

section
/-! O59: links, notices, errors and the ending of steps keep every memory in canonical form. -/

namespace Sys2Proof.Machine

open Sys2Proof

/-! ### Ports and discovery -/

namespace Channel.canonical

variable {k : Channel}

theorem sendPacket {w : Self} {p : PortId} {owner : Option Nat} {typ vc dpos dch : Nat} {l : List (List Byte)} (h : k.canonical) :
    (k.sendPacket w p owner typ vc dpos dch l).canonical := by
  unfold Channel.sendPacket
  split
  · exact h
  · exact h.modPort

theorem accepted {src epoch vc pctr : Nat} (h : k.canonical) : (k.accepted src epoch vc pctr).canonical := h

theorem setResult {p : PortId} {result reason partner : Nat} (h : k.canonical) : (k.setResult p result reason partner).canonical := h

/-- Every port changed in turn. -/
theorem foldPorts {f : Channel → PortId → Channel} {l : List PortId} (h : k.canonical)
    (hf : ∀ (k : Channel) p, k.canonical → (f k p).canonical) : (l.foldl f k).canonical := foldl_keeps hf l h

theorem endDiscovery (h : k.canonical) : k.endDiscovery.canonical := by
  unfold Channel.endDiscovery
  exact (h.foldPorts fun _ _ h => .either h.setResult h).same (by with_reducible rfl)

theorem settleDiscovery (h : k.canonical) : k.settleDiscovery.canonical := by
  unfold Channel.settleDiscovery
  exact .either (.either h.endDiscovery h) (.either (h.same (by with_reducible rfl)) h)

theorem startDiscovery (h : k.canonical) : k.startDiscovery.canonical := by
  unfold Channel.startDiscovery
  exact foldPorts (h.same (by with_reducible rfl)) fun _ _ h => h.modPort

theorem wakePorts (h : k.canonical) : k.wakePorts.canonical := by
  unfold Channel.wakePorts
  have woken : ∀ {k : Channel} {f : Channel → PortId → Port → Port}, k.canonical →
      (portIds.foldl (fun k p => k.modPort p (f k p)) k).canonical := fun h => h.foldPorts fun _ _ h => h.modPort
  exact .either (woken (woken h)) (woken h)

theorem substitute (h : k.canonical) : k.substitute.1.canonical := by
  refine foldl_keeps_on Prod.fst portIds h fun a p ha => .ite Prod.fst ?_ ha
  split
  · exact ha
  · exact .ite Prod.fst ha ha

theorem portDown {p : PortId} (h : k.canonical) : (k.portDown p).canonical := by
  unfold Channel.portDown
  have told : ∀ (k : Channel) (q : Prop) [Decidable q] n, k.canonical → (if q then k else k.setResult p 7 0 n).canonical :=
    fun k q _ n h => .either h h.setResult
  exact .either h (.either (told _ _ _ h.modPort).raise (told _ _ _ h.modPort))

end Channel.canonical

/-! ### Datagrams, notices and logs -/

namespace State.canonical

variable {s : State} {c : ChanId}

theorem modSession {i : Nat} {f : Session → Session} (h : s.canonical) : (s.modSession i f).canonical := h

theorem send {r : Reply} (h : s.canonical) : (s.send r).canonical := h.of_chan (s.chan_send r)

theorem respond {r : Reply} (h : s.canonical) : (s.respond r).canonical := h.of_chan (s.chan_respond r)

theorem notify {index sub : Nat} {sees : Session → Bool} {payload : Session → List Byte} (h : s.canonical) :
    (s.notify index sub sees payload).canonical := h.of_chan (s.chan_notify index sub sees payload)

theorem notifyErr {e : ErrEntry} (h : s.canonical) : (s.notifyErr c e).canonical := h.notify

theorem notifyMpErr {e : ErrEntry} (h : s.canonical) : (s.notifyMpErr e).canonical := h.notify

theorem notifyTuner {e : TunerEv} (h : s.canonical) : (s.notifyTuner c e).canonical := .either h.notify h

theorem tunerEvent {e : TunerEv} (h : s.canonical) : (s.tunerEvent c e).canonical :=
  (h.modChan_same fun _ => by with_reducible rfl).notifyTuner

theorem settle (h : s.canonical) : s.settle.canonical := h.of_chan s.chan_settle

theorem appendErr {e : ErrEntry} (h : s.canonical) : (s.appendErr c e).canonical :=
  (h.modChan_same fun _ => by with_reducible rfl).notifyErr

theorem finishErrs {hit : ErrEntry → Bool} {outcome : Nat} (h : s.canonical) : (s.finishErrs c hit outcome).canonical :=
  foldl_keeps (fun _ _ h => notifyErr h) _ (h.modChan_same fun _ => by with_reducible rfl)

end State.canonical

/-! ### The end of a step, a halt and a device fault -/

namespace Channel.canonical

variable {k : Channel}

theorem dropCkpt (h : k.canonical) : k.dropCkpt.canonical := by
  unfold Channel.dropCkpt
  split <;> exact h

theorem abandon (h : k.canonical) : k.abandon.canonical := by
  unfold Channel.abandon
  exact (h.mapReeds (f := Reed.quiet) fun _ hx => hx).same (by with_reducible rfl)

theorem endStep {locate : Option Nat} (h : k.canonical) : (k.endStep locate).canonical := by
  unfold Channel.endStep
  exact h.abandon.same (by with_reducible rfl)

theorem sendCtrl {w : Self} {but : Option PortId} {payload : List Byte} (h : k.canonical) : (k.sendCtrl w but payload).canonical :=
  h.foldPorts fun _ _ h => .either h.sendPacket h

theorem halt (h : k.canonical) : k.halt.canonical := by
  unfold Channel.halt
  refine .either h ((dropCkpt (h.abandon.foldPorts fun k p h => ?_)).same (by with_reducible rfl))
  split
  · exact h
  · exact h.modPort

theorem jobAction {cause : Cause} (h : k.canonical) : (k.jobAction cause).canonical := .either (.either h h) h

end Channel.canonical

namespace State.canonical

variable {s : State} {c : ChanId}

theorem stepFailure (h : s.canonical) : (s.stepFailure c).canonical := h.modStore.modChan (h c).dropCkpt

theorem haltChannel {keep : ErrEntry → Bool} (h : s.canonical) : (s.haltChannel c keep).canonical :=
  (h.modChan (h c).halt).modStore.finishErrs.settle

theorem deviceFault (h : s.canonical) : s.deviceFault.canonical := by
  unfold State.deviceFault
  exact foldChans h fun _ _ h => (h.haltChannel.modChan_same fun _ => by with_reducible rfl)

/-- A free value drawn in some cases only. -/
theorem drawIf {p : Prop} {_ : Decidable p} {n a : Nat} (h : s.canonical) : (if p then s.draw n else (a, s)).2.canonical :=
  .ite Prod.snd h.draw h

theorem logEntry {x : RawErr} {outcome : Nat} (h : s.canonical) : (s.logEntry c x outcome).2.canonical := by
  unfold State.logEntry
  split
  next hix =>
    split
    next s₂ hdt =>
      have drawn := of_snd hdt (of_snd hix h.drawIf).drawIf
      extract_lets _ s₃
      have ended : s₃.canonical := by
        unfold s₃
        split
        · exact drawn.finishErrs
        · exact drawn
      exact .ite Prod.snd (ended.appendErr.modChan_same fun _ => by with_reducible rfl) ended.appendErr

theorem logJob {x : RawErr} (h : s.canonical) : (s.logJob c x).canonical := by
  unfold State.logJob
  split
  next hs =>
    have logged := of_snd hs h.logEntry
    exact (logged.modChan (logged c).jobAction).stepFailure

theorem requestRollback (h : s.canonical) : (s.requestRollback c).1.canonical := by
  unfold State.requestRollback
  exact .ite Prod.fst h.tunerEvent.logJob (h.modChan_same fun _ => by with_reducible rfl)

theorem stepAbort {cause cseq : Nat} {arrived : Option (PortId × List Byte)} (h : s.canonical) :
    (s.stepAbort c cause cseq arrived).canonical := by
  unfold State.stepAbort
  extract_lets k w payload locate s₁ s₂ s₃ s₄
  have ended : s₄.canonical := (h.modChan ((h c).endStep.sendCtrl.same (by with_reducible rfl))).finishErrs.finishErrs.stepFailure
  refine .either h ?_
  split
  next k₁ ok hk =>
    extract_lets s₅ s₆
    have path : s₅.canonical := ended.setChan (.of_fst hk (ended c).substitute)
    have lost : s₆.canonical := .either path path.logJob
    refine .either ?_ lost
    split
    next hs =>
      have asked := of_fst hs lost.logJob.requestRollback
      exact .either asked (asked.modChan_same fun _ => by with_reducible rfl).settle

theorem logError {x : RawErr} {cseq : Nat} (h : s.canonical) : (s.logError c x cseq).canonical := by
  unfold State.logError
  extract_lets k
  split
  · exact h.logEntry
  · refine .either h.logEntry ?_
    split
    · exact h.logEntry
    · exact h.logEntry
    · refine .either h.logEntry ?_
      split
      next hs => exact (of_snd hs h.logEntry).stepAbort
    · exact .either h.logJob.stepAbort h.logJob
    · split
      next hs => exact (of_snd hs h.logEntry).haltChannel
    · exact h.logEntry.deviceFault

theorem firmwareError {cause : Cause} {cls : ErrClass} {unit uidx detail : Nat} (h : s.canonical) :
    (s.firmwareError c cause cls unit uidx detail).canonical := h.logError

theorem logMp {cause : Cause} {cls : ErrClass} {unit pclk outcome : Nat} (h : s.canonical) :
    (s.logMp cause cls unit pclk outcome).canonical := (modMp h).notifyMpErr

theorem rollbackDone (h : s.canonical) : (s.rollbackDone c).canonical := h.finishErrs.finishErrs

end State.canonical

end Sys2Proof.Machine
end

section
/-! O59: the passes of a tile, its recomputes, its release and the recovery of what it cannot read keep every memory in canonical form
(03 R62 to R93; 08 R213; 09 R238). -/

namespace Sys2Proof.Machine

open Sys2Proof

theorem Reed.sram_drop (x : Reed) : x.drop.sram = x.sram := by
  unfold Reed.drop
  split
  · split <;> rfl
  · rfl

/-! ### Loads -/

namespace Channel.canonical

variable {k : Channel} {r : ReedId}

theorem shareChords {t : TensorDesc} {n : Nat} {done : List Redo} (h : k.canonical) : (k.shareChords r t n done).2.2.2.canonical := by
  unfold Channel.shareChords
  refine ite (fun a : List ChordRead × Bool × List Redo × Channel => a.2.2.2) h.addrFault ?_
  refine foldl_keeps_on (fun a : List ChordRead × Bool × List Redo × Channel => a.2.2.2) _ h fun a i ha => ?_
  split
  · exact ha
  · exact ha.readChord

theorem tableOutliers {o : OpndDesc} {kLen : Nat} {want : Option Nat} {done : List Redo} {lines : List (List Tile.Elem)}
    (h : k.canonical) : (k.tableOutliers r o kLen want done lines).2.2.2.2.2.canonical := by
  unfold Channel.tableOutliers
  split
  · exact h
  · refine foldl_keeps_on (P := Channel.canonical)
      (fun a : List (List Tile.Elem) × Nat × Bool × Bool × List Redo × Channel => a.2.2.2.2.2) _ h fun a i ha => ?_
    dsimp -zeta only
    extract_lets x
    have read := ha.readBytes (unit := 0) (uidx := r.val) (r := r) (space := 3) (addr := x.addr) (n := x.len)
    generalize a.2.2.2.2.2.readBytes 0 r.val r 3 x.addr x.len = y at read ⊢
    obtain ⟨res, k₁⟩ := y
    dsimp only at read ⊢
    split
    · exact read
    · exact read.readError
    · exact read
    · exact read
    · exact read.countCrc.readError

theorem loadStored {t : TileRun} {o : OpndDesc} {isB : Bool} {want : Option Nat} (h : k.canonical) :
    (k.loadStored r t o isB want).2.canonical := by
  unfold Channel.loadStored
  refine ite Prod.snd h.shareChords ?_
  exact ite (fun x : List (List Tile.Elem) × Nat × Bool × Bool × List Redo × Channel => x.2.2.2.2.2) h.shareChords.tableOutliers
    h.shareChords

theorem window {unit uidx : Nat} {done : List Redo} {ts : XNum} {ix : Nat} {want : Option Nat} {r0 c0 nr nc : Nat} (h : k.canonical) :
    (k.window unit uidx r done ts ix want r0 c0 nr nc).2.canonical := by
  unfold Channel.window
  refine foldl_keeps_on (P := Channel.canonical) (fun a : List (Option (List XNum)) × Window × Channel => a.2.2) _ h fun a p ha => ?_
  dsimp only
  split
  · exact ha
  · split
    · split <;> exact ha.readChord
    · exact ha

theorem loadWide {t : TileRun} {o : OpndDesc} {isB : Bool} {wide : Nat × Option Nat} {rung : Nat} (h : k.canonical) :
    (k.loadWide r t o isB wide rung).2.canonical := by
  have read : ∀ {p : Prop} {_ : Decidable p} {a b c d a' b' c' d'},
      (if p then k.window 0 r.val r t.redone (scaleIn t.scales wide.1) wide.1 wide.2 a b c d
      else k.window 0 r.val r t.redone (scaleIn t.scales wide.1) wide.1 wide.2 a' b' c' d').2.canonical := .ite Prod.snd h.window h.window
  unfold Channel.loadWide
  exact .ite Prod.snd read (.ite Prod.snd read read.writeBytes)

theorem loadOperand {t : TileRun} {o : OpndDesc} {isB climb : Bool} {x : Loaded × Channel} (h : k.canonical)
    (hx : k.loadOperand r t o isB climb = some x) : x.2.canonical := by
  unfold Channel.loadOperand at hx
  split at hx
  · cases hx
  · split at hx
    · cases hx
      exact h.loadStored
    · split at hx
      · cases hx
      · cases hx
        exact h.loadWide

/-! ### Passes -/

theorem modTile {f : TileRun → TileRun} (h : k.canonical) : (k.modTile r f).canonical := h.modReed_of_sram rfl

theorem tagTile {c : HoldCause} (h : k.canonical) : (k.tagTile r c).canonical := by
  unfold Channel.tagTile
  split
  · exact h.tagEntry
  · exact h

theorem countReed {c : ReedCnt} (h : k.canonical) : (k.countReed r c).canonical := h.modReed_of_sram rfl

theorem countAt {layer prod : Nat} {c : ReedCnt} (h : k.canonical) : (k.countAt layer prod c).canonical := h

theorem countLayer {t : TileRun} {c : ReedCnt} (h : k.canonical) : (k.countLayer t c).canonical := h

theorem countTile {t : TileRun} {c : ReedCnt} (h : k.canonical) : (k.countTile r t c).canonical := h.countReed.countLayer

theorem observe {layer : Nat} {f : Obs → Obs} (h : k.canonical) : (k.observe layer f).canonical := h

theorem quantAt {layer place : Nat} {c : QGrid.Counts} (h : k.canonical) : (k.quantAt layer place c).canonical := h

theorem formatFault {layer : Nat} (h : k.canonical) : (k.formatFault layer).canonical := h

theorem countQuant {layer place : Nat} {c : QGrid.Counts} (h : k.canonical) : (k.countQuant r layer place c).canonical :=
  (h.modReed_of_sram rfl).quantAt

theorem failTile {e : RawErr} (h : k.canonical) : (k.failTile r e).canonical := h.raise.modTile

theorem redoStop {t : TileRun} {l : List Redo} (h : k.canonical) : (k.redoStop r t l).canonical := h.countLayer.tagTile.modTile

theorem versionStop {t : TileRun} (h : k.canonical) : (k.versionStop r t).canonical :=
  .either h.failTile (.either h.failTile h.raise.tagTile.modTile)

theorem bookPass {t : TileRun} {kept : Kept} {la lb : Loaded} {fresh : Bool} (h : k.canonical) :
    (k.bookPass r t kept la lb fresh).canonical := by
  unfold Channel.bookPass
  exact .either (h.modTile.countTile.countQuant.countQuant.same (by with_reducible rfl)) h.modTile.countTile

theorem copyPass {t : TileRun} (h : k.canonical) : (k.copyPass r t).canonical := by
  unfold Channel.copyPass
  extract_lets +onlyGivenNames d
  split
  · exact h.failTile
  · next ix want _ =>
    extract_lets +onlyGivenNames m lr len mts
    have window := fun r0 c0 nr nc => h.window (unit := 0) (uidx := r.val) (r := r) (done := t.redone) (ts := mts) (ix := ix)
      (want := want) (r0 := r0) (c0 := c0) (nr := nr) (nc := nc)
    have read := ite (p := lr = true) Prod.snd (window d.m0 0 128 len) (window 0 d.n0 len 128)
    generalize (if lr = true then k.window 0 r.val r t.redone mts ix want d.m0 0 128 len
      else k.window 0 r.val r t.redone mts ix want 0 d.n0 len 128) = x at read ⊢
    obtain ⟨w, k₁⟩ := x
    refine .either read.modTile (.either read.redoStop (.either read.versionStop ?_))
    extract_lets +onlyGivenNames vals pads li
    obtain ⟨lines, pads, saturated⟩ := throughCrook t 0 vals pads
    dsimp -zeta only
    extract_lets +onlyGivenNames rung f q eff s fault sections k₂
    have table : k₂.canonical := by
      unfold k₂
      split
      · exact .either read.writeBytes read
      · exact read
    exact table.modTile.countTile.countQuant

theorem tilePass (h : k.canonical) : (k.tilePass r).canonical := by
  unfold Channel.tilePass
  split
  · exact h
  · next t _ =>
    extract_lets k₁ bad
    have started : k₁.canonical := h.modReed_of_sram rfl
    refine .either started.copyPass ?_
    split
    · exact started.failTile
    · next la k₂ ha =>
      have readA := started.loadOperand ha
      split
      · exact started.failTile
      · next lb k₃ hb =>
        have readB := readA.loadOperand hb
        exact .either readB.modTile (.either readB.redoStop (.either readB.versionStop readB.bookPass))

theorem cueTile {i : Nat} (h : k.canonical) : (k.cueTile r i).canonical := by
  unfold Channel.cueTile
  have cued : ∀ {w : Reed → Option TileRun},
      (k.modReed r (fun x => { x with tile := some (k.newTile i), waiting := w x })).canonical := h.modReed_of_sram rfl
  exact tilePass (.either cued.tagTile cued)

theorem extraPass {c : HoldCause} {f : TileRun → TileRun} (h : k.canonical) : (k.extraPass r c f).canonical :=
  h.modTile.tagTile.tilePass

theorem checksumPass {t : TileRun} {both : Bool} (h : k.canonical) : (k.checksumPass r t both).canonical := by
  unfold Channel.checksumPass
  split
  · exact h.countTile.extraPass
  · exact h.extraPass

theorem parityPass {t : TileRun} (h : k.canonical) : (k.parityPass r t).canonical :=
  .either h.countTile.raise.modTile h.countTile.raise.extraPass

theorem passEnd (h : k.canonical) : (k.passEnd r).canonical := by
  unfold Channel.passEnd
  split
  · exact h
  · refine .either h (.either h.parityPass (.either ?_ ?_))
    · split <;> exact h.modTile
    · dsimp only
      have counted : ∀ {p : Prop} {_ : Decidable p} {c : Tuner}, (if p then { k with tun := c } else k).canonical :=
        .either (h.same (by with_reducible rfl)) h
      exact .either counted.countTile.extraPass (.either counted.modTile counted.modTile)

theorem releaseTile {t : TileRun} (h : k.canonical) : (k.releaseTile r t).canonical := by
  unfold Channel.releaseTile
  extract_lets +onlyGivenNames o fmt q chords psnOut word k₁ k₂ k₃ k₄ old obs tun k₅ k₆
  have put : k₁.canonical := .either (h.modReed_of_sram rfl) h.writeBytes
  have dropped : k₂.canonical := put.modReed_of_sram (k₁.reed r).sram_drop
  have counted : k₃.canonical := .either dropped dropped.countQuant
  have seen : k₅.canonical := counted.countTile (r := r) (t := t)
  have ended : k₆.canonical := .either seen (seen.same (by with_reducible rfl))
  exact ended.landEntry

/-! ### Recoveries -/

theorem recomputeSlot {k' : Channel} {entry : Nat} (h : k.canonical) (hk : k.recomputeSlot r entry = some k') : k'.canonical := by
  unfold Channel.recomputeSlot at hk
  split at hk
  · cases hk
  · dsimp only at hk
    split at hk
    · cases hk
    · split at hk
      · cases hk
      · cases hk
        exact h.modReed_of_sram rfl

theorem recover {k' : Channel} {x : Redo} (h : k.canonical) (hk : k.recover r x = some k') : k'.canonical := by
  have put : ∀ {e : Nat} {o : Option (List Byte)},
      o.map (fun bs => (k.writeBytes 0 r.val r e x.space x.addr bs).healParity r x.space x.addr x.len) = some k' → k'.canonical := by
    intro e o ho
    obtain ⟨bs, -, rfl⟩ := Option.map_eq_some_iff.mp ho
    exact h.writeBytes.healParity
  unfold Channel.recover at hk
  dsimp only at hk
  split at hk
  · split at hk
    · cases hk
    · split at hk
      · split at hk
        · exact put hk
        · cases hk
          exact h.healParity
      · obtain ⟨e, -, hk⟩ := Option.bind_eq_some_iff.mp hk
        exact put hk
  · split at hk
    · split at hk
      · cases hk
      · exact put hk
    · split at hk
      · exact h.recomputeSlot hk
      · cases hk
        exact h.withMem (heal h.mem)

theorem recoverAll {k' : Channel} {unit uidx : Nat} {l : List Redo} (h : k.canonical) (hk : k.recoverAll r unit uidx l = .ok k') :
    k'.canonical := by
  induction l generalizing k with
  | nil =>
    cases hk
    exact h
  | cons x xs ih =>
    unfold Channel.recoverAll at hk
    split at hk
    · next hx => exact ih (h.recover hx) hk
    · cases hk

theorem readNow {unit uidx : Nat} {t : TensorDesc} {i : Nat} (h : k.canonical) : (k.readNow unit uidx r t i).2.2.canonical := by
  unfold Channel.readNow
  have read := h.readChord (unit := unit) (uidx := uidx) (r := r) (t := t) (i := i) (done := [])
  generalize k.readChord unit uidx r t i [] = y at read ⊢
  obtain ⟨x, k₁⟩ := y
  dsimp only at read ⊢
  split
  · exact read
  · split
    · exact read.raise
    · next hk => exact .either (read.recover hk).readChord ((read.recover hk).readChord.same (by with_reducible rfl))

theorem readPlace {unit uidx space addr n : Nat} (h : k.canonical) : (k.readPlace unit uidx r space addr n).2.canonical := by
  unfold Channel.readPlace
  have read := h.readBytes (unit := unit) (uidx := uidx) (r := r) (space := space) (addr := addr) (n := n)
  generalize k.readBytes unit uidx r space addr n = y at read ⊢
  obtain ⟨res, k₁⟩ := y
  dsimp -zeta only at read ⊢
  refine ite Prod.snd read ?_
  extract_lets +onlyGivenNames x t parity
  have fails := fun cause cls detail => read.readError (unit := unit) (uidx := uidx) (r := r) (done := []) (x := x) (cause := cause)
    (cls := cls) (detail := detail)
  specialize fails (if parity then .parity else .memUncorr)
      (if parity then .D else uncorrClass t.isSome res.cls ((t.getD {}).role)) (if parity then anyDetail else addr / pageBytes)
  generalize k₁.readError unit uidx r [] x _ _ _ = y at fails ⊢
  obtain ⟨y, k₂⟩ := y
  dsimp only at fails ⊢
  split
  · exact fails
  · split
    · exact fails.raise
    · next hk => exact (fails.recover hk).readBytes.same (by with_reducible rfl)

theorem disturbed {us : List Upset} (h : k.canonical) : (k.disturbed us).canonical := foldl_keeps (fun _ _ h => upset h) us h

theorem reloadOperand {t : TileRun} {o : OpndDesc} {isB : Bool} (h : k.canonical) : (k.reloadOperand r t o isB).canonical := by
  unfold Channel.reloadOperand
  split
  · refine foldl_keeps (fun k n h => ?_) _ h
    exact .either h.readNow h.readNow.writeBytes
  · exact h

end Channel.canonical

/-! ### The commands of a tile -/

section

variable {s : State} {c : ChanId} {r : ReedId} (h : s.canonical)
include h

theorem State.canonical.suspectReed : (s.suspectReed c r).canonical := h.modStore.modChan_same fun _ => by with_reducible rfl

theorem execOverflowRetry_canonical : outcomeCanonical (execOverflowRetry c r s) := by
  refine h.modChan ?_
  split
  · exact h c
  · split
    · exact h c
    · exact (h c).countTile.extraPass

theorem execChecksumMismatch_canonical : outcomeCanonical (execChecksumMismatch c r s) := by
  unfold execChecksumMismatch
  split
  · exact h
  · next t ht =>
    split
    next b s₁ hs =>
      have drawn : s₁.canonical := .of_snd hs h.draw
      extract_lets s₂
      have counted : s₂.canonical := drawn.modChan (drawn c).countTile
      split
      · exact counted.modChan (counted c).raise.checksumPass
      · split
        · exact counted.suspectReed.modChan (counted.suspectReed c).raise.modTile.checksumPass
        · have ended := fun e : Errors => ((counted c).same (k' := { s₂.chan c with err := e }) (by with_reducible rfl))
          exact counted.modChan ((ended _).raise.same (by with_reducible rfl)).modTile

theorem execTilePassEnd_canonical : outcomeCanonical (execTilePassEnd c r s) :=
  foldl_keeps (fun _ _ h => h.tunerEvent) _ (h.modChan (h c).passEnd)

theorem execUnderflowPass_canonical : outcomeCanonical (execUnderflowPass c r s) := by
  refine h.modChan ?_
  split
  · exact h c
  · exact .either (h c) (h c).countTile.extraPass

theorem execTileRelease_canonical : outcomeCanonical (execTileRelease c r s) := by
  refine h.modChan ?_
  split
  · exact h c
  · next t _ =>
    refine .either (Channel.canonical.parityPass ((h c).modReed_of_sram ?_)) (h c).releaseTile
    split
    · split <;> rfl
    · rfl

theorem execChordReloadDone_canonical {us : List Upset} : outcomeCanonical (execChordReloadDone c r us s) := by
  refine h.modChan ?_
  split
  · exact (h c).disturbed
  · split
    · exact (h c).disturbed.failTile
    · next hk => exact .either (h c).disturbed.failTile ((h c).recoverAll hk).disturbed.extraPass

theorem execVersionReloadDone_canonical : outcomeCanonical (execVersionReloadDone c r s) := by
  refine h.modChan ?_
  split
  · exact h c
  · exact .either (h c).reloadOperand.reloadOperand.modTile.tilePass
      ((h c).reloadOperand.reloadOperand.modTile.tilePass.same (by with_reducible rfl))

end

end Sys2Proof.Machine
end

section
/-! O59: the runs of a Valve keep every memory in canonical form: lanes, streams, the Drone, faults, restart and completion
(06 R139 to R162). -/

namespace Sys2Proof.Machine

open Sys2Proof

namespace Channel.canonical

variable {k : Channel} {c : ChanId} {r : ReedId} {free : Nat → Nat} {x : Run}

/-! ### The cue and its faults -/

theorem modRun {f : Run → Run} (h : k.canonical) : (k.modRun r f).canonical := h.modValve

theorem countValve {n : ValveCnt} (h : k.canonical) : (k.countValve r n).canonical := h.modValve

theorem stepEvents (h : k.canonical) : (k.stepEvents r x).canonical := .either h.countValve h.countValve.observe

theorem putChord {entry tIx n : Nat} {ch : Chord} (h : k.canonical) : (k.putChord r entry tIx n ch).canonical := by
  unfold Channel.putChord
  split
  exact h.writeBytes

theorem putDrone {p : Nat} {f : Fmt} {ch : Chord} (h : k.canonical) : (k.putDrone r x p f ch).canonical := by
  unfold Channel.putDrone
  split
  · exact h
  · exact h.writeBytes

theorem valveFault {pc lane : Nat} (h : k.canonical) : (k.valveFault r pc lane).canonical := by
  unfold Channel.valveFault
  split
  · exact h
  · next x _ =>
    extract_lets poison k₁ k₂ k₃ k₄
    have poisoned : ∀ {k : Channel} {j : Nat}, k.canonical → (poison k j).canonical := fun h => by
      unfold poison
      split
      · exact h
      · exact foldl_keeps (fun k n h => .either h h.putChord) _ h
    have drones : k₂.canonical := foldl_keeps (fun k p h => h.putDrone) _ (poisoned (poisoned h))
    exact drones.stepEvents.modValve.countValve.raise

theorem cueRun {i : Nat} (h : k.canonical) : (k.cueRun r i).canonical := .either h.modValve.valveFault h.modValve

/-! ### Lanes and streams -/

theorem laneOp {w : Nat} {draw : Bool} {f : LaneIn → LaneOut} (h : k.canonical) : (k.laneOp c r free x w draw f).canonical := by
  unfold Channel.laneOp
  dsimp -zeta only
  extract_lets v per outs
  split
  · exact h.valveFault
  · exact .either h.modValve h.modValve.countQuant

theorem abandonRun {redo : Option Redo} (h : k.canonical) : (k.abandonRun r x redo).canonical := by
  unfold Channel.abandonRun
  split
  · exact h.modRun
  · exact h.raise.tagEntry.modRun

theorem streamChord {st : StreamDesc} (h : k.canonical) : (k.streamChord r x st).2.2.2.2.canonical := by
  let chan : ChordRead × Fmt × XNum × Bool × Channel → Channel := fun a => a.2.2.2.2
  unfold Channel.streamChord
  extract_lets stop wrongVersion
  have wrong : ∀ {k : Channel}, k.canonical → (chan (wrongVersion k)).canonical := fun h => h.raise.abandonRun
  split
  · exact ite chan h.readError.countLayer.abandonRun h
  · split
    · exact wrong h
    · next ix want _ =>
      extract_lets t f
      have read := h.readChord (unit := 1) (uidx := r.val) (r := r) (t := t) (i := st.first + x.step) (done := x.redone)
      generalize k.readChord 1 r.val r t (st.first + x.step) x.redone = y at read ⊢
      obtain ⟨ci, k₁⟩ := y
      dsimp -zeta only at read ⊢
      refine ite chan (abandonRun (.either read.countAt read)) ?_
      extract_lets cr tagBad bad k₂
      exact ite chan (wrong read) (either read.countReed.countAt.observe read)

theorem valveIn {w : Nat} (h : k.canonical) : (k.valveIn c r free x w).canonical := by
  unfold Channel.valveIn
  split
  · exact h.laneOp
  · next st _ =>
    have read := h.streamChord (r := r) (x := x) (st := st)
    generalize k.streamChord r x st = y at read ⊢
    obtain ⟨cr, f, ts, go, k₁⟩ := y
    exact .either read (.either read.laneOp read.laneOp)

theorem valveOut {w : Nat} (h : k.canonical) : (k.valveOut r x w).canonical := h.modRun

theorem quantDraw {draws : Nat → Bool} (h : k.canonical) : (k.quantDraw c r draws).2.canonical := h.modValve

theorem quantGroup {st : StreamDesc} {group : List HeldChord} (h : k.canonical) : (k.quantGroup c r free x st group).canonical := by
  unfold Channel.quantGroup
  extract_lets t f gc cols rnd q pad
  have drawn : (group.foldl (fun (a : List (List Nat) × Channel) h =>
      if rnd = .sr then let (r8, k) := a.2.quantDraw c r (fun l => !pad h l); (a.1 ++ [r8], k)
      else (a.1 ++ [[]], a.2)) ([], k)).2.canonical :=
    foldl_keeps_on Prod.snd _ h fun _ _ h => .ite Prod.snd h.quantDraw h
  exact countQuant (foldl_keeps (fun _ _ h => putChord h) _ drawn)

theorem writeRaw {st : StreamDesc} {group : List HeldChord} (h : k.canonical) : (k.writeRaw r free x st group).canonical :=
  foldl_keeps (fun _ _ h => putChord h) _ h

theorem streamFlush {j : Nat} {st : StreamDesc} {force : Bool} (h : k.canonical) :
    (k.streamFlush c r free x j st force).1.canonical :=
  foldl_keeps (fun _ _ h => .either (writeRaw h) (quantGroup h)) _ h

theorem streamOut {j : Nat} (h : k.canonical) : (k.streamOut c r free x j).1.canonical := by
  unfold Channel.streamOut
  split
  · exact h
  · refine ite Prod.fst h.putChord ?_
    split
    · exact h
    · exact h.streamFlush

theorem poisonEvents (h : k.canonical) : (k.poisonEvents r x).1.canonical := ite Prod.fst h.countValve.observe h

/-! ### The Drone, and the end of an element step -/

theorem valveDrn {w : Nat} (h : k.canonical) : (k.valveDrn r x w).canonical := .either h h.modRun

theorem droneStep {last : Bool} {j : Nat} (h : k.canonical) : (k.droneStep r free x last j).1.canonical := by
  unfold Channel.droneStep
  have counted : ∀ {p : Prop} [Decidable p] {n}, (if p then k else k.countValve r n).canonical := .either h h.countValve
  exact ite Prod.fst h (.either counted counted.modValve)

theorem endElementStep (h : k.canonical) : (k.endElementStep c r free x).canonical := by
  unfold Channel.endElementStep
  split
  next hs =>
    have marked := of_fst hs h.poisonEvents
    split
    next hs =>
      have written₀ := of_fst hs marked.streamOut
      split
      next hs =>
        have written₁ := of_fst hs written₀.streamOut
        extract_lets last
        split
        next hs =>
          have drones := of_fst hs (foldl_keeps_on Prod.fst _ written₁ fun _ _ h => h.droneStep)
          exact drones.stepEvents.modRun

theorem advance (h : k.canonical) : (k.advance c r free).canonical := by
  unfold Channel.advance
  split
  · exact h
  · exact .either h (.either h.modRun h.endElementStep)

/-! ### Restart and completion -/

theorem restartRun (h : k.canonical) : (k.restartRun r x).canonical := by
  unfold Channel.restartRun
  split
  · exact h.raise.modRun
  · next hk => exact (h.recoverAll hk).modValve.same (by with_reducible rfl)

theorem droneChords (h : k.canonical) : (k.droneChords r x).canonical := foldl_keeps (fun _ _ h => putDrone h) _ h

theorem flushRun (h : k.canonical) : (k.flushRun c r free x).1.canonical := by
  unfold Channel.flushRun
  extract_lets flush
  have flushed : ∀ {s : Channel × Run} {j n : Nat}, s.1.canonical → (flush s j n).1.canonical := fun h => by
    unfold flush
    split
    · exact .ite Prod.fst h h.streamFlush
    · exact h
  exact flushed (flushed h)

theorem completeRun (h : k.canonical) : (k.completeRun c r free x).canonical := by
  unfold Channel.completeRun
  have flushed := h.flushRun (c := c) (r := r) (free := free) (x := x)
  generalize k.flushRun c r free x = y at flushed ⊢
  obtain ⟨k₁, x⟩ := y
  dsimp -zeta only at flushed ⊢
  refine landEntry (modReed_of_sram (foldl_keeps (fun _ _ h => observe h) _ flushed.droneChords) rfl)

end Channel.canonical

/-! ### The commands of a Valve -/

section

variable {s : State} {c : ChanId} {r : ReedId} (h : s.canonical)
include h

theorem State.canonical.valveOp {op : Nat} {body : (Nat → Nat) → Run → Nat → Channel → Channel}
    (hb : ∀ {free x w k}, Channel.canonical k → (body free x w k).canonical) : (s.valveOp c r op body).canonical := by
  unfold State.valveOp
  extract_lets k
  split
  · exact h
  · exact .either h (h.setChan (hb (h c)).advance).drew

theorem State.canonical.laneCmd {op : Nat} {draw : Nat → Bool} {f : Run → Nat → LaneIn → LaneOut} :
    (s.laneCmd c r op draw f).canonical := h.valveOp fun h => h.laneOp

theorem execIn_canonical : outcomeCanonical (execIn c r s) := h.valveOp fun h => h.valveIn

theorem execOut_canonical : outcomeCanonical (execOut c r s) := h.valveOp fun h => h.valveOut

theorem execDrn_canonical : outcomeCanonical (execDrn c r s) := h.valveOp fun h => h.valveDrn

theorem execScalarWrite_canonical {q : Option ReedId} {reg : Fin 32} {value : BitVec 16} :
    outcomeCanonical (execScalarWrite c q reg value s) := h.modChan_same fun _ => by with_reducible rfl

theorem execValveRestart_canonical : outcomeCanonical (execValveRestart c r s) := by
  refine h.modChan ?_
  split
  · exact h c
  · exact .either (h c).restartRun (h c)

theorem execVrunComplete_canonical : outcomeCanonical (execVrunComplete c r s) := by
  unfold execVrunComplete
  extract_lets free
  split
  · exact h
  · split
    · exact (h.modChan (h c).completeRun).drew
    · exact h

end

end Sys2Proof.Machine
end

section
/-! O59: what the data movers do keeps every memory in canonical form (06 R143; 07 R184; 09 R246; 02 R56 to R58). -/

namespace Sys2Proof.Machine

open Sys2Proof

namespace Channel.canonical

variable {k : Channel}

/-- The memories' counts and marks changed, and no byte. -/
theorem memSame {m : Mem} (h : k.canonical) (e : (m.dram, m.chest) = (k.mem.dram, k.mem.chest)) :
    ({ k with mem := m } : Channel).canonical := by
  simp only [Prod.mk.injEq] at e
  exact h.withMem (Mem.canonical_of_eq h.mem e.1 e.2)

theorem modFlight {unit : Nat} {f : Flight → Flight} (h : k.canonical) : (k.modFlight unit f).canonical := h

theorem moverStep {m action : Nat} {reed : Entry → ReedId} {work : List Redo → Nat → Entry → Channel → MoverEnd × Channel}
    (h : k.canonical) (hw : ∀ {done i e k}, Channel.canonical k → (work done i e k).2.canonical) :
    (k.moverStep m action reed work).canonical := by
  unfold Channel.moverStep
  split
  · refine .either h ?_
    split
    · exact h.raise.modFlight
    · next k₁ hk =>
      have recovered := h.recoverAll hk
      extract_lets done
      split
      · next hs => exact landEntry ((of_snd hs (hw recovered)).same (by with_reducible rfl))
      · next hs => exact (of_snd hs (hw recovered)).tagEntry.modFlight
      · next hs => exact (of_snd hs (hw recovered)).modFlight
  · exact h

theorem readRaw {m : Nat} {r : ReedId} {done : List Redo} {space addr n : Nat} (h : k.canonical) :
    (k.readRaw m r done space addr n).2.canonical := by
  unfold Channel.readRaw
  have read := h.readBytes (unit := 2) (uidx := m) (r := r) (space := space) (addr := addr) (n := n)
  generalize k.readBytes 2 m r space addr n = y at read ⊢
  obtain ⟨res, k₁⟩ := y
  dsimp -zeta only at read ⊢
  extract_lets x
  split
  · exact read
  · exact read
  · exact read.readError
  · exact read.readError

theorem moverVersion {m : Nat} (h : k.canonical) : (k.moverVersion m).2.canonical := h.raise

theorem pload {m : Nat} {done : List Redo} {e : Entry} (h : k.canonical) : (k.pload m done e).2.canonical := by
  unfold Channel.pload
  extract_lets d r
  split
  · next hs => exact of_snd hs h.readRaw
  · next hs => exact (of_snd hs h.readRaw).modValve

theorem moveChords {m : Nat} {done : List Redo} {i : Nat} {e : Entry} (h : k.canonical) : (k.moveChords m done i e).2.canonical := by
  unfold Channel.moveChords
  extract_lets d
  split
  · exact h.moverVersion
  · extract_lets src
    refine foldl_keeps_on Prod.snd _ h fun a j ha => ite Prod.snd ha ?_
    exact ite Prod.snd ha.readChord (ite Prod.snd ha.readChord.moverVersion ha.readChord.writeBytes)

theorem pickOne {m : Nat} {done : List Redo} {d : PickDesc} {v : Nat} (h : k.canonical) : (k.pickOne m done d v).2.canonical := by
  unfold Channel.pickOne
  extract_lets +onlyGivenNames sect addr space n okSect zeros fault
  refine ite Prod.snd h.addrFault ?_
  split
  · exact h.addrFault
  · next q _ =>
    refine ite Prod.snd (h.memSame (m := { k.mem with cnt := _ }) (by with_reducible rfl)).raise ?_
    have read := h.readBytes (unit := 2) (uidx := m) (r := 0) (space := space) (addr := addr) (n := n)
    generalize k.readBytes 2 m 0 space addr n = y at read ⊢
    obtain ⟨res, k₁⟩ := y
    dsimp -zeta only at read ⊢
    extract_lets crcBad
    exact ite Prod.snd read (ite Prod.snd read (readError (.either read.countCrc read)))

theorem pick {m : Nat} {done : List Redo} {i : Nat} {e : Entry} (h : k.canonical) : (k.pick m done i e).2.canonical := by
  unfold Channel.pick
  extract_lets d r
  split
  · next hs => exact of_snd hs h.readRaw
  · next hs =>
    refine foldl_keeps_on Prod.snd _ (of_snd hs h.readRaw) fun a j ha => ite Prod.snd ha ?_
    split
    · next hs => exact of_snd hs ha.pickOne
    · next hs => exact (of_snd hs ha.pickOne).writeBytes

theorem mxImport {m : Nat} {done : List Redo} {i : Nat} {e : Entry} {d : MxioDesc} (h : k.canonical) :
    (k.mxImport m done i e d).2.canonical := by
  unfold Channel.mxImport
  dsimp -zeta only
  extract_lets t f gc
  split
  · next hs => exact of_snd hs h.readRaw
  · next hs =>
    have elems := of_snd hs h.readRaw
    split
    · next hs => exact of_snd hs elems.readRaw
    · next hs =>
      extract_lets +onlyGivenNames k₁
      have written : k₁.canonical := foldl_keeps (fun _ _ h => writeBytes h) _ (of_snd hs elems.readRaw)
      exact (written.same (by with_reducible rfl)).quantAt

theorem exportChords {m : Nat} {done : List Redo} {e : Entry} {want : Option Nat} {t : TensorDesc} {n : Nat} (h : k.canonical) :
    (k.exportChords m done e want t n).2.2.canonical := by
  let chan : MoverEnd × List (Option Chord) × Channel → Channel := fun a => a.2.2
  unfold Channel.exportChords
  refine foldl_keeps_on chan _ h fun a j ha => ite chan ha ?_
  refine ite chan ha.readChord (ite chan ha.readChord (ite chan ha.readChord.moverVersion ?_))
  split
  · exact ha.readChord
  · exact ha.readChord.formatFault

theorem mxExport {m : Nat} {done : List Redo} {i : Nat} {e : Entry} {d : MxioDesc} (h : k.canonical) :
    (k.mxExport m done i e d).2.canonical := by
  unfold Channel.mxExport
  split
  · exact h.moverVersion
  · next ix want _ =>
    extract_lets t f gc
    have read := h.exportChords (m := m) (done := done) (e := e) (want := want) (t := t) (n := gc * Score.gridRows t)
    generalize k.exportChords m done e want t (gc * Score.gridRows t) = y at read ⊢
    split
    · exact ite Prod.snd read.raise (read.writeBytes.writeBytes.same (by with_reducible rfl))
    · exact read

end Channel.canonical

/-! ### The commands of a mover -/

section

variable {s : State} {c : ChanId} {mover : Fin 32} (h : s.canonical)
include h

theorem execPloadComplete_canonical : outcomeCanonical (execPloadComplete c mover s) :=
  h.modChan (.either (h c) ((h c).moverStep fun h => h.pload))

theorem execMoveComplete_canonical : outcomeCanonical (execMoveComplete c mover s) :=
  h.modChan ((h c).moverStep fun h => h.moveChords)

theorem execPickComplete_canonical : outcomeCanonical (execPickComplete c mover s) :=
  h.modChan ((h c).moverStep fun h => h.pick)

theorem execMxioComplete_canonical : outcomeCanonical (execMxioComplete c mover s) :=
  h.modChan ((h c).moverStep fun h => .ite Prod.snd h.raise (.ite Prod.snd h.mxExport h.mxImport))

end

end Sys2Proof.Machine
end

section
/-! O59: collectives keep every memory in canonical form (11 R289 to R309). -/

namespace Sys2Proof.Machine

open Sys2Proof Sys2Proof.Num

namespace Channel.canonical

variable {k : Channel} {w : Self} {x : Coll}

theorem setColls {c : Colls} (h : k.canonical) : ({ k with coll := c } : Channel).canonical := h

theorem setColl (h : k.canonical) : (k.setColl x).canonical := h

theorem collCount {f : CollCnt → CollCnt} (h : k.canonical) : (k.collCount f).canonical := h

theorem collError {cause : Cause} {cls : ErrClass} {unit port cseq : Nat} (h : k.canonical) :
    (k.collError cause cls unit port cseq).canonical := h

theorem collVersion {uidx : Nat} (h : k.canonical) : (k.collVersion uidx).canonical := h

/-! ### Packets -/

theorem sendTo {port typ vc : Nat} {l : List (List (List Byte))} (h : k.canonical) : (k.sendTo w port typ vc l).canonical := by
  unfold Channel.sendTo
  split
  · exact h
  · split
    · exact h
    · exact foldl_keeps (fun _ _ h => sendPacket h) l h

/-- Packets sent on several ports. -/
theorem sendEach {ports : List Nat} {typ vc : Nat} {l : List (List (List Byte))} (h : k.canonical) :
    (ports.foldl (fun (k : Channel) p => k.sendTo w p typ vc l) k).canonical := foldl_keeps (fun _ _ h => h.sendTo) ports h

/-- Packets sent on a port, where there is one. -/
theorem sendUp {port : Option Nat} {typ vc : Nat} {l : List (List (List Byte))} (h : k.canonical) :
    (match port with | some p => k.sendTo w p typ vc l | none => k).canonical := by
  cases port with
  | none => exact h
  | some p => exact h.sendTo

theorem openPass {secondary : Bool} {pass : Nat} {f : Flow} (h : k.canonical) : (k.openPass w x secondary pass f).canonical := by
  unfold Channel.openPass
  extract_lets cseq one opened
  have one : ∀ {k : Channel} {port n}, k.canonical → (one k port n).canonical := fun h => .either h h.sendTo
  have up : opened.canonical := by
    unfold opened
    split
    · exact one h
    · exact h
  exact .either (foldl_keeps (fun _ _ h => one h) _ up) up

theorem sendFlow {secondary : Bool} {o : FlowOut} (h : k.canonical) : (k.sendFlow w x secondary o).canonical := by
  unfold Channel.sendFlow
  exact h.sendUp.sendEach.collCount

/-! ### SRC and the scale table -/

theorem tagRetry {retried : Bool} {entry : Nat} (h : k.canonical) : (if retried then k.tagEntry entry .errorRetry else k).canonical :=
  .either h.tagEntry h

theorem srcChord {entry uidx : Nat} {t : TensorDesc} {want : Option Nat} {i : Nat} (h : k.canonical) :
    (k.srcChord entry uidx t want i).2.canonical := by
  have read := h.readNow (r := 0) (unit := 3) (uidx := uidx) (t := t) (i := i)
  unfold Channel.srcChord
  generalize k.readNow 3 uidx 0 t i = y at read ⊢
  obtain ⟨x, retried, k₁⟩ := y
  have tagged : (if retried then k₁.tagEntry entry .errorRetry else k₁).canonical := read.tagRetry
  exact .ite Prod.snd tagged (.ite Prod.snd tagged.collVersion (.either tagged.formatFault tagged))

theorem srcBlocks {entry uidx : Nat} {d : CollDesc} (h : k.canonical) : (k.srcBlocks entry uidx d).2.canonical := by
  unfold Channel.srcBlocks
  split
  · exact h.collVersion
  · refine foldl_keeps_on Prod.snd _ h fun a i ha => ?_
    split
    · exact ha
    · exact ha.srcChord

theorem readTable {uidx : Nat} {d : CollDesc} (h : k.canonical) : (k.readTable uidx d).2.canonical := by
  have read := h.readPlace (r := 0) (unit := 3) (uidx := uidx) (space := 0) (addr := d.stab) (n := 16)
  unfold Channel.readTable
  refine .ite Prod.snd h ?_
  generalize k.readPlace 3 uidx 0 0 d.stab 16 = y at read ⊢
  obtain ⟨_ | b, k₁⟩ := y
  · exact read
  · exact .ite Prod.snd read.readPlace read

theorem writeTable {uidx entry stab step : Nat} {codes : List Nat} (h : k.canonical) :
    (k.writeTable uidx entry stab step codes).canonical := by
  unfold Channel.writeTable
  refine writeBytes (writeBytes (.either ?_ h))
  refine writeBytes (h.withMem (foldl_keeps (fun m p hm => ?_) _ h.mem))
  split
  · exact foldl_keeps (fun m c hm => by split <;> exact hm) _ hm
  · exact hm

/-! ### Passes and exchanges -/

theorem hopReceived {first : Nat} {bs : List I8A} (h : k.canonical) : (k.hopReceived w x first bs).2.canonical := by
  unfold Channel.hopReceived
  refine .ite Prod.snd h (.ite Prod.snd ?_ h)
  split
  · exact h.sendTo
  · exact h

theorem settleDual (h : k.canonical) : (k.settleDual x).2.canonical := by
  unfold Channel.settleDual
  split
  · exact h
  · exact .ite Prod.snd h (.ite Prod.snd h h.collCount.collError)

theorem sendTotals {up down : Option (Nat × Nat)} (h : k.canonical) : (k.sendTotals w x up down).canonical := by
  unfold Channel.sendTotals
  extract_lets pl sent
  have up : sent.canonical := by
    unfold sent
    split
    · exact h.sendTo
    · exact h
  split
  · exact up.sendEach
  · exact up

theorem digestIn {src con res : Nat} (h : k.canonical) : (k.digestIn w x src con res).2.canonical := by
  unfold Channel.digestIn
  split
  · exact h
  · next d _ =>
    obtain ⟨d', up, down⟩ := d.recv (k.isParent x true src) con res
    dsimp -zeta only
    extract_lets y sent
    have send : sent.canonical := h.sendTotals
    split
    · exact .ite Prod.snd send send.collCount.collError
    · exact send

theorem startDigest (h : k.canonical) : (k.startDigest w x).2.canonical := by
  unfold Channel.startDigest
  obtain ⟨con, res⟩ := x.digests (digWeights k.bind.seed k.step x.desc.bucket (32 * x.codes.length))
  dsimp -zeta only
  obtain ⟨d, up⟩ := DigFlow.start { rank := x.rankOn true, p := x.desc.p, tree := x.desc.tree, con := con, res := res }
  exact foldl_keeps_on Prod.snd _ h.sendTotals fun _ _ h => h.digestIn

theorem sendItems {stage : Nat} {o : FlowOut} (h : k.canonical) : (k.sendItems w x stage o).canonical := by
  unfold Channel.sendItems
  exact h.sendUp.sendEach

theorem startExchange {stage : Nat} {items : List I8A} (h : k.canonical) : (k.startExchange w x stage items).2.canonical := h.sendItems

theorem exchangeIn {src off : Nat} {data : List Byte} (h : k.canonical) : (k.exchangeIn w x src off data).2.canonical := by
  unfold Channel.exchangeIn
  split
  · exact h
  · exact h.sendItems

theorem startPass {secondary : Bool} {pass : Nat} {own : List I8A} (h : k.canonical) :
    (k.startPass w x secondary pass own).2.canonical := h.openPass.sendFlow

theorem blocksIn {pass port src first : Nat} {bs : List I8A} (h : k.canonical) :
    (k.blocksIn w x pass port src first bs).2.canonical := by
  unfold Channel.blocksIn
  extract_lets wait
  split
  · split
    · exact h
    · exact h.sendFlow.settleDual
  · refine .ite Prod.snd h (.ite Prod.snd h ?_)
    exact sendFlow (.either h.hopReceived.collError h.hopReceived)

theorem takeEarly (h : k.canonical) : (k.takeEarly w x).2.canonical :=
  foldl_keeps_on Prod.snd _ h fun _ _ h => h.blocksIn

theorem startMain {codes : List Nat} (h : k.canonical) : (k.startMain w x codes).2.canonical := by
  have read := h.srcBlocks (entry := x.entry) (uidx := x.port) (d := x.desc)
  unfold Channel.startMain
  generalize k.srcBlocks x.entry x.port x.desc = y at read ⊢
  obtain ⟨_ | g, k₁⟩ := y
  · exact read
  · dsimp -zeta only
    extract_lets d own located sampled y z
    have start := read.startPass (w := w) (x := y) (secondary := false) (pass := 0) (own := own)
    generalize k₁.startPass w y false 0 own = p at start ⊢
    obtain ⟨f, k₂⟩ := p
    exact takeEarly (.ite Prod.snd start.startPass.collCount start)

/-! ### Collectives -/

theorem passTaken {states : List Nat} (h : k.canonical) : (k.passTaken w x states).2.canonical := by
  unfold Channel.passTaken
  dsimp -zeta only
  extract_lets got ended exhausted result flagged first inPass y ovfs counted
  have dual : (counted.settleDual y).2.canonical := h.collCount.settleDual
  generalize counted.settleDual y = p at dual ⊢
  obtain ⟨z, k₁⟩ := p
  refine .ite Prod.snd ?_ ?_
  · have digest := dual.startDigest (w := w) (x := { z with passesDone := true })
    generalize k₁.startDigest w { z with passesDone := true } = p at digest ⊢
    obtain ⟨z, k₂⟩ := p
    exact .ite Prod.snd digest.startExchange digest
  · have read := dual.srcBlocks (entry := z.entry) (uidx := z.port) (d := z.desc)
    generalize k₁.srcBlocks z.entry z.port z.desc = p at read ⊢
    obtain ⟨_ | g, k₂⟩ := p
    · exact read
    · exact read.collCount.startPass.takeEarly

theorem exchangeDone {stage : Nat} {f : Flow} (h : k.canonical) : (k.exchangeDone w x stage f).2.canonical := by
  unfold Channel.exchangeDone
  split
  · exact h.writeTable.startMain
  · exact h.passTaken
  · exact h
  · exact h

theorem passComplete (h : k.canonical) : (k.passComplete w x).2.canonical := .ite Prod.snd h.startExchange h.passTaken

theorem collAdvance {fuel : Nat} {a : Coll × Channel} (h : a.2.canonical) : (Channel.collAdvance w fuel a).2.canonical := by
  induction fuel generalizing a with
  | zero => exact h
  | succ fuel ih =>
    unfold Channel.collAdvance
    refine .ite Prod.snd h ?_
    split
    · exact .ite Prod.snd (ih h.exchangeDone) h
    · exact .ite Prod.snd (ih h.passComplete) h

theorem advanceColl (h : k.canonical) : (k.advanceColl w x).canonical := by
  have advanced := collAdvance (w := w) (fuel := collFuel) (a := (x, k)) h
  unfold Channel.advanceColl
  generalize Channel.collAdvance w collFuel (x, k) = p at advanced ⊢
  exact advanced.setColl

theorem gatherItems (h : k.canonical) : (k.gatherItems x).2.canonical := by
  unfold Channel.gatherItems
  dsimp -zeta only
  extract_lets d
  split
  · exact h.collVersion
  · refine foldl_keeps_on Prod.snd _ h fun a i ha => ?_
    split
    · exact ha
    · exact ha.srcChord

theorem collLaunch {entry : Nat} (h : k.canonical) : (k.collLaunch w entry).canonical := by
  unfold Channel.collLaunch
  extract_lets e d cseq ports held x colls k₀ lost
  have base : k₀.canonical := h.same (by with_reducible rfl)
  have lost : ∀ {k : Channel}, k.canonical → (lost k).canonical := fun h => h.setColl
  refine .either ?_ ?_
  · have read := base.gatherItems (x := x)
    generalize k₀.gatherItems x = p at read ⊢
    obtain ⟨_ | items, k₁⟩ := p
    · exact lost read
    · exact read.startExchange.setColl
  · have read := base.readTable (uidx := x.port) (d := d)
    generalize k₀.readTable x.port d = p at read ⊢
    obtain ⟨_ | _ | codes, k₁⟩ := p
    · exact lost read
    · have source := read.srcBlocks (entry := entry) (uidx := x.port) (d := d)
      dsimp -zeta only
      generalize k₁.srcBlocks entry x.port d = p at source ⊢
      obtain ⟨_ | g, k₂⟩ := p
      · exact lost source
      · exact source.collCount.startExchange.advanceColl
    · exact read.startMain.advanceColl

theorem mainPassDone {cseq : Nat} (h : k.canonical) : (k.mainPassDone w cseq).canonical := by
  unfold Channel.mainPassDone
  split
  · exact h
  · exact .either h h.advanceColl

theorem exchangePacket {k' : Channel} {mtag src off : Nat} {data : List Byte} (h : k.canonical)
    (e : k.exchangePacket w mtag src off data = some k') : k'.canonical := by
  unfold Channel.exchangePacket at e
  extract_lets isFor at e
  split at e
  · cases e
    exact h.exchangeIn.advanceColl
  · split at e
    · cases e
      exact h.exchangeIn.setColls
    · cases e
  · cases e

/-! ### Delivery -/

theorem of_third {α β : Type} {p : α × β × Channel} {a : α} {b : β} (e : p = (a, b, k)) (h : p.2.2.canonical) : k.canonical :=
  of_snd (congrArg Prod.snd e) h

theorem writeResult (h : k.canonical) : (k.writeResult x).2.canonical := by
  unfold Channel.writeResult
  refine foldl_keeps_on Prod.snd _ h fun a i ha => .ite Prod.snd ha ?_
  extract_lets bs
  split
  next hs =>
    have read := of_third hs (.ite (fun y : Bool × Chord × Channel => y.2.2) ha ha.readNow)
    exact .either read.writeBytes read

theorem reencode (h : k.canonical) : (k.reencode x).2.canonical := by
  unfold Channel.reencode
  exact foldl_keeps_on Prod.snd _ h fun _ _ h => h.readBytes

theorem localCheck (h : k.canonical) : (k.localCheck x).2.canonical := h.reencode

theorem gatherResult (h : k.canonical) : (k.gatherResult x).canonical := by
  unfold Channel.gatherResult
  refine foldl_keeps (fun k b h => ?_) _ h
  split
  · exact h.writeBytes
  · exact h

theorem deliver (h : k.canonical) : (k.deliver x).1.canonical := by
  unfold Channel.deliver
  extract_lets close
  have close : ∀ {k : Channel}, k.canonical → (close k).canonical := fun h => collCount (landEntry h.setColls)
  refine .ite Prod.fst (close h.gatherResult) ?_
  have written := h.writeResult (x := x)
  generalize k.writeResult x = p at written ⊢
  obtain ⟨_ | _, k₁⟩ := p
  · exact written
  · have checked : (if x.desc.p ≤ 1 then k₁.localCheck x else (true, k₁)).2.canonical := .ite Prod.snd written.localCheck written
    dsimp -zeta only
    generalize (if x.desc.p ≤ 1 then k₁.localCheck x else (true, k₁)) = p at checked ⊢
    obtain ⟨ok, k₂⟩ := p
    exact .ite Prod.fst checked.collCount.collError.setColl (close checked).setColls.collCount

theorem poisonPolicy (h : k.canonical) : k.poisonPolicy.canonical := by
  unfold Channel.poisonPolicy
  split <;> exact h

end Channel.canonical

end Sys2Proof.Machine
end

section
/-! O59: the ports of the Bells and the collective's events keep every memory in canonical form (10; 11; 12 R320 to R330). -/

namespace Sys2Proof.Machine

open Sys2Proof

namespace Channel.canonical

variable {k : Channel} {w : Self} {p : PortId}

theorem portCount {f : PortCnt → PortCnt} (h : k.canonical) : (k.portCount p f).canonical := h

theorem dropHead {v n : Nat} (h : k.canonical) : (k.dropHead p v n).canonical := h

theorem setPaths {x : Paths} (h : k.canonical) : ({ k with paths := x } : Channel).canonical := h

/-! ### Packets that come in -/

theorem dataIn {k' : Channel} {flits src : Nat} {body : List Byte} (h : k.canonical) (e : k.dataIn w p flits src body = some k') :
    k'.canonical := by
  unfold Channel.dataIn at e
  extract_lets n mtag off at e
  split at e
  · next he =>
    cases e
    exact h.exchangePacket he
  · split at e
    · split at e
      · cases e
        exact h
      · cases e
    · next at_ r _ =>
      extract_lets t size len data k₁ over_ got counted at e
      have wrote : k₁.canonical := h.writeBytes
      split at e
      · cases e
        exact wrote.portCount.modPort.raise
      · split at e
        · cases e
          exact wrote.modPort.landEntry
        · cases e
          exact wrote.modPort

theorem collOpen {k' : Channel} {src : Nat} {pl : List Byte} (h : k.canonical) (e : k.collOpen p src pl = some k') : k'.canonical := by
  unfold Channel.collOpen at e
  extract_lets cseq pass count same note checked colls opened at e
  have note : ∀ {k : Channel} {b}, k.canonical → (note k b).canonical := fun h => h.modPort
  have checked : ∀ {k : Channel}, k.canonical → (checked k).canonical := fun h => .either h h.collCount.collError
  split at e
  · cases e
    exact note (checked h.collCount)
  · split at e
    · cases e
    · cases e
      have open_ : opened.canonical := by
        unfold opened
        split
        · exact .either h h.setColl
        · exact h.setColls
      exact note (checked open_)

theorem reduceIn {src : Nat} {payloads : List (List Byte)} (h : k.canonical) : (k.reduceIn w p src payloads).canonical := by
  unfold Channel.reduceIn
  dsimp -zeta only
  extract_lets parts blocks first ofSrc staleNow
  split
  · exact h
  · refine .either h ?_
    extract_lets k₁
    have took : k₁.canonical := h.modPort
    split
    · exact took
    · exact took.blocksIn.advanceColl

theorem digestPacket {src : Nat} {pl : List Byte} (h : k.canonical) : (k.digestPacket w src pl).canonical := by
  unfold Channel.digestPacket
  split
  · exact h
  · refine .either h.digestIn.setColl (.either (.either h ?_) h)
    extract_lets a located
    have locate : located.canonical := h.collCount.raise
    split
    · exact locate.portDown
    · exact locate

theorem replayFrom {e : Nat} (h : k.canonical) : (k.replayFrom p e).canonical := .either h.portDown h.modPort

theorem judge {l : List Byte} (h : k.canonical) : (k.judge w p l).canonical := by
  unfold Channel.judge
  extract_lets e seen toDark disc
  have dark : ∀ {k : Channel}, k.canonical → (toDark k).canonical := fun h => h.modPort
  refine .either (dark h).setResult.setPaths (.either (dark h).setResult.setPaths ?_)
  exact .either h.modPort.setResult (.either (dark h).setResult (.either (dark h) h.modPort.setResult))

end Channel.canonical

namespace State.canonical

variable {s s' : State} {c : ChanId} {p : PortId}

theorem abortIn {pl : List Byte} (h : s.canonical) : (s.abortIn c p pl).canonical := by
  unfold State.abortIn
  extract_lets s₁ k step att
  have count : s₁.canonical := h.modChan (h c).collCount
  refine .either count.stepAbort ?_
  split
  · exact .either count.logError count
  · exact count

theorem consume {fs : List Flit} {src : Nat} {body : List Byte} (h : s.canonical) (e : s.consume c p fs src body = some s') :
    s'.canonical := by
  unfold State.consume at e
  extract_lets k w at e
  split at e
  · obtain ⟨k', hk, rfl⟩ := Option.map_eq_some_iff.mp e
    exact h.setChan ((h c).dataIn hk)
  · cases e
    exact h.setChan (h c).reduceIn
  · cases e
    exact h.setChan (h c).digestPacket
  · split at e
    · cases e
      exact h.abortIn
    · obtain ⟨k', hk, rfl⟩ := Option.map_eq_some_iff.mp e
      exact h.setChan ((h c).collOpen hk)
    · cases e
      exact h

theorem serviceVc {v : Nat} (h : s.canonical) (e : s.serviceVc c p v = some s') : s'.canonical := by
  have put : ∀ {k : Channel}, k.canonical → some (s.setChan c k) = some s' → s'.canonical := by
    intro k hk e
    cases e
    exact h.setChan hk
  unfold State.serviceVc at e
  dsimp -zeta only at e
  extract_lets k q put_ w at e
  have start : k.canonical := h c
  split at e
  · cases e
  next fs complete _ =>
  extract_lets f n done at e
  have drop : done.canonical := start.dropHead
  split at e
  · exact put drop.portCount e
  split at e
  · split at e
    · split at e
      · exact put drop.modPort e
      · exact put drop.portCount e
    · exact put drop.portCount e
  split at e
  · exact put drop.portCount e
  split at e
  · exact put drop.portCount e
  generalize tailOf fs = tail at e
  obtain ⟨src, epoch, pctr⟩ := tail
  dsimp -zeta only at e
  split at e
  · exact put start.portCount.modPort e
  next key q' _ =>
  extract_lets used k₁ done₁ ready at e
  have used₁ : k₁.canonical := start.modPort
  have dropped : done₁.canonical := drop.modPort
  split at e
  · exact put dropped.portCount e
  split at e
  · exact put dropped.portCount.raise e
  next body _ =>
  have prepared : (s.setChan c ready).canonical := h.setChan used₁.accepted
  split at e
  · next s₁ hs =>
    cases e
    have consumed := prepared.consume hs
    exact consumed.modChan (consumed c).dropHead
  · split at e
    · exact put used₁.modPort.collCount e
    · cases e

theorem servicePort {fuel : Nat} (h : s.canonical) : (State.servicePort c p fuel s).canonical := by
  induction fuel generalizing s with
  | zero => exact h
  | succ fuel ih =>
    unfold State.servicePort
    extract_lets q order
    refine .either h ?_
    split
    · next s₁ hs =>
      obtain ⟨v, -, hv⟩ := List.exists_of_findSome?_eq_some hs
      exact ih (h.serviceVc hv)
    · exact h

theorem serviceAll (h : s.canonical) : (s.serviceAll c).canonical := foldl_keeps (fun _ _ h => servicePort h) portIds h

theorem notifyDiscovery {before : Discovery} (h : s.canonical) : (s.notifyDiscovery c before).canonical := .either h h.notify

end State.canonical

/-! ### The commands of the ports and of the collectives -/

section

variable {s : State} {c : ChanId} {p : PortId} (h : s.canonical)
include h

theorem execSequencedFlitReceive_canonical {flit : List Byte} {now fecCorr fecUncorr : Nat} :
    outcomeCanonical (execSequencedFlitReceive c p flit now fecCorr fecUncorr s) := by
  unfold execSequencedFlitReceive
  extract_lets q q' q₁ again q₂ f
  have put : ∀ {q : Port}, (s.modChan c (fun k => k.modPort p (fun _ => q))).canonical := h.modChan (h c).modPort
  split
  · exact h
  · split
    · exact put
    · split
      · exact put
      · split
        · exact put
        · exact put.servicePort

theorem execKeyDerived_canonical : outcomeCanonical (execKeyDerived c p s) := by
  unfold execKeyDerived
  extract_lets k
  split
  · exact State.canonical.servicePort (h.modChan (h c).modPort)
  · exact h

theorem execAckReceive_canonical {flit : RxFlit} : outcomeCanonical (execAckReceive c p flit s) := h.modChan (h c).modPort

theorem execNakReceive_canonical {flit : RxFlit} : outcomeCanonical (execNakReceive c p flit s) := by
  unfold execNakReceive
  generalize ((s.chan c).port p).local_ flit.bytes flit.fecCorr flit.fecUncorr 6 = y
  obtain ⟨q, _ | b⟩ := y
  · exact h.modChan (h c).modPort
  · exact h.modChan (.either (h c).modPort (.either (h c).modPort (h c).modPort.replayFrom))

theorem execCreditReceive_canonical {flit : RxFlit} : outcomeCanonical (execCreditReceive c p flit s) := h.modChan (h c).modPort

theorem execHelloReceive_canonical {flit : RxFlit} : outcomeCanonical (execHelloReceive c p flit s) := by
  unfold execHelloReceive
  extract_lets k
  generalize (k.port p).local_ flit.bytes flit.fecCorr flit.fecUncorr 4 = y
  obtain ⟨q, pl⟩ := y
  dsimp -zeta only
  extract_lets k₁ old
  have start : k₁.canonical := (h c).modPort
  split
  · exact h.setChan start
  · split
    · exact h.setChan start.portCount
    · extract_lets +onlyGivenNames seen k₂ same fails dark told paths disc noted k₃
      have heard : k₂.canonical := start.modPort
      have judged : k₃.canonical := by
        unfold k₃
        split
        · exact heard.judge
        · exact .either heard (.either heard.modPort.setResult.setPaths.raise heard.modPort.setResult.setPaths)
        · exact .either heard.judge heard
        · exact heard
      exact (h.setChan judged.settleDiscovery).notifyDiscovery

theorem execHelloTimer_canonical : outcomeCanonical (execHelloTimer c p s) := by
  unfold execHelloTimer
  extract_lets k q
  split
  · exact h.setChan (h c).modPort
  · exact h

theorem execFlitSlot_canonical : outcomeCanonical (execFlitSlot c p s) := h.modChan (h c).modPort

theorem execAckTimer_canonical : outcomeCanonical (execAckTimer c p s) := h.modChan (h c).modPort

theorem execReplayTimeout_canonical : outcomeCanonical (execReplayTimeout c p s) := by
  unfold execReplayTimeout
  refine h.modChan ?_
  extract_lets q
  split
  · exact .either (h c).portDown (h c).modPort.portCount
  · exact h c

theorem execCreditTimer_canonical : outcomeCanonical (execCreditTimer c p s) := h.modChan (h c).modPort

theorem execLaneLockLoss_canonical : outcomeCanonical (execLaneLockLoss c p s) := by
  unfold execLaneLockLoss
  refine State.canonical.notifyDiscovery (h.modChan ?_)
  split
  · exact (h c).portCount.portDown
  · exact (h c).portCount.portDown
  · exact (h c).portCount.modPort
  · exact (h c).portCount.modPort
  · exact h c

theorem execDownIdleEnd_canonical : outcomeCanonical (execDownIdleEnd c p s) := h.modChan (.either (h c).modPort (h c))

theorem execTrainingDone_canonical : outcomeCanonical (execTrainingDone c p s) := h.modChan (.either (h c).modPort (h c))

theorem execDiscoveryWindowEnd_canonical : outcomeCanonical (execDiscoveryWindowEnd c s) :=
  (h.modChan (.either (h c).endDiscovery (h c))).notifyDiscovery

theorem execSendComplete_canonical : outcomeCanonical (execSendComplete c p s) :=
  h.modChan (foldl_keeps (fun _ _ h => Channel.canonical.landEntry h) _ (h c).modPort)

theorem execCollMainPassDone_canonical {cseq : Nat} : outcomeCanonical (execCollMainPassDone c cseq s) :=
  h.modChan (h c).mainPassDone

theorem execCollDelivered_canonical {cseq : Nat} {us : List Upset} : outcomeCanonical (execCollDelivered c cseq us s) := by
  unfold execCollDelivered
  extract_lets s₁
  have met : s₁.canonical := h.disturbed
  split
  · exact met
  · next x _ =>
    split
    · exact met
    · split
      next k n hk =>
      have delivered := Channel.canonical.of_fst hk (met c).deliver
      have put := met.setChan (c := c) (.either (p := n = 0) delivered delivered.poisonPolicy)
      exact State.canonical.serviceAll (.either put.tunerEvent put)

theorem execCollTimeout_canonical {cseq : Nat} : outcomeCanonical (execCollTimeout c cseq s) := by
  unfold execCollTimeout
  extract_lets k open_
  split
  · exact h.setChan (h c).collCount.raise
  · exact h

end

end Sys2Proof.Machine
end

section
/-! O59: the end of a step, the Chanters' requests and a rollback keep every memory in canonical form (05 R121 to R138; 08 R208 to R212). -/

namespace Sys2Proof.Machine

open Sys2Proof Sys2Proof.Num

namespace Channel.canonical

variable {k : Channel} {w : Self}

theorem setTun {t : Tuner} (h : k.canonical) : ({ k with tun := t } : Channel).canonical := h

theorem setVer {v : Versions} (h : k.canonical) : ({ k with ver := v } : Channel).canonical := h

/-- A channel with each Reed of another changed, and its other memories. -/
theorem mapped {k' : Channel} {f : Reed → Reed} (h : k.canonical)
    (e : (k'.mem, k'.reeds, k'.shadow, k'.live) = (k.mem, k.reeds.map f, k.shadow, k.live))
    (hf : ∀ x : Reed, x.sram.wf = true → (f x).sram.wf = true) : k'.canonical :=
  (h.mapReeds hf).same e

theorem recordRungs (h : k.canonical) : k.recordRungs.canonical := h

theorem buildVerdict {free : Nat → Int} (h : k.canonical) : (k.buildVerdict free).canonical := by
  unfold Channel.buildVerdict
  exact h.setTun

theorem writeExponents (h : k.canonical) : k.writeExponents.canonical := h

theorem stepDone {voided : Bool} {layers : SMap Layer} (h : k.canonical) : (k.stepDone voided layers).canonical := by
  unfold Channel.stepDone
  extract_lets next k₁ tun k₂ due
  have written : k₁.canonical := foldl_keeps (fun _ _ h => writeTable h) _ h
  have folded : k₂.canonical := written.setTun.writeExponents
  exact (folded.memSame (m := { k₂.mem with failed := [] }) (by with_reducible rfl)).same (by with_reducible rfl)

theorem modLayer {l : Nat} {f : Layer → Layer} (h : k.canonical) : (k.modLayer l f).canonical := h

theorem openVersion {entry : Nat} (h : k.canonical) : (k.openVersion entry).canonical := landEntry (recordRungs h.setVer)

theorem sendVerdict {entry : Nat} (h : k.canonical) : (k.sendVerdict w entry).canonical := by
  unfold Channel.sendVerdict
  split
  · exact h.startExchange.setColls
  · exact h

theorem launchScalars {e : Entry} (h : k.canonical) : (k.launchScalars e).canonical := by
  unfold Channel.launchScalars
  exact h.same (by with_reducible rfl)

theorem rollBack (h : k.canonical) : k.rollBack.canonical := by
  unfold Channel.rollBack
  exact h.abandon.same (by with_reducible rfl)

theorem clearCounters (h : k.canonical) : k.clearCounters.canonical := by
  unfold Channel.clearCounters
  exact h.mapped rfl fun _ hx => hx

theorem clearTunerLog (h : k.canonical) : k.clearTunerLog.canonical := h

end Channel.canonical

namespace State.canonical

variable {s : State} {c : ChanId}

theorem tunerLog {e : TunerEv} (h : s.canonical) : (s.tunerLog c e).canonical := (h.modChan (h c).setTun).tunerEvent

theorem tunerLogs {l : List TunerEv} (h : s.canonical) : (l.foldl (fun (s : State) e => s.tunerLog c e) s).canonical :=
  foldl_keeps (fun _ _ h => tunerLog h) l h

theorem commit (h : s.canonical) : (s.commit c).canonical := by
  unfold State.commit
  dsimp -zeta only
  extract_lets asked s₁ k t voided reach rolls step clamps s₂ s₃ s₄ s₅ s₆ s₇ lost s₈ s₉
  have built : s₁.canonical := .either h (h.modChan (h c).buildVerdict).drew
  have rolled : (if rolls then s₁.requestRollback c else (s₁, false)).1.canonical := .ite Prod.fst built.requestRollback built
  have noted : s₂.canonical := rolled.tunerLogs
  have reached : s₃.canonical := .either noted.tunerLog noted
  have asked_ : s₄.canonical := .either reached.tunerLog reached
  have voids : s₅.canonical := .either asked_.tunerLog asked_
  have clamped : s₆.canonical := foldl_keeps (fun _ _ h => tunerLog (h.modChan (h c).modLayer)) _ voids
  have folded : s₇.canonical := clamped.tunerLogs
  have told : (s₇.modChan c (fun k => { k with tun := { k.tun with lostStep := 0 } })).canonical := folded.modChan (folded c).setTun
  have forgot : s₈.canonical := .either folded told.tunerLog
  have logged : s₉.canonical := .either forgot.logJob forgot
  exact modStore (modChan logged (logged c).stepDone)

theorem launchVerdict {entry : Nat} (h : s.canonical) : (s.launchVerdict c entry).canonical :=
  drew (h.modChan (.sendVerdict (.either (h c).buildVerdict.recordRungs (h c).buildVerdict)))

end State.canonical

section

variable {s : State} {c : ChanId} (h : s.canonical)
include h

theorem execOpenGranted_canonical : outcomeCanonical (execOpenGranted c s) := by
  unfold execOpenGranted
  refine h.modChan ?_
  split
  · exact .either (h c).openVersion (h c)
  · exact h c

theorem execVerdictAgreed_canonical {us : List Upset} : outcomeCanonical (execVerdictAgreed c us s) := by
  have met : (s.disturbed c us).canonical := h.disturbed
  unfold execVerdictAgreed
  refine met.modChan ?_
  split
  · split
    · exact Channel.canonical.landEntry ((met c).same (by with_reducible rfl))
    · exact met c
  · exact met c

theorem execScalarsDone_canonical : outcomeCanonical (execScalarsDone c s) := by
  unfold execScalarsDone
  refine h.modChan ?_
  split
  · exact .either (h c) (Channel.canonical.landEntry ((h c).same (by with_reducible rfl)))
  · exact h c

theorem execRollback_canonical : outcomeCanonical (execRollback c s) := by
  have failed := h.stepFailure (c := c)
  unfold execRollback
  extract_lets k
  split
  · exact (failed.modChan (failed c).rollBack).settle
  · exact h

end

end Sys2Proof.Machine
end

section
/-! O59: clock bins, Études, checkpoints and the other services keep every memory in canonical form (01 R16 to R21; 13; 18). -/

namespace Sys2Proof.Machine

open Sys2Proof

/-- Of two memories to go on with, each has the form. -/
theorem Mem.canonical_either {p : Prop} [Decidable p] {m n : Mem} (hm : m.canonical) (hn : n.canonical) :
    (if p then m else n).canonical := by
  split <;> assumption

namespace Channel.canonical

variable {k : Channel}

theorem setEtude {x : Etude} (h : k.canonical) : ({ k with etude := x } : Channel).canonical := h

theorem setSvc {x : Services} (h : k.canonical) : ({ k with svc := x } : Channel).canonical := h

theorem setBins {x : Bins} (h : k.canonical) : ({ k with bins := x } : Channel).canonical := h

/-- A cleared SRAM has the form. -/
theorem clearSram {r : Nat} (h : k.canonical) : (k.clearSram r).canonical := by
  unfold Channel.clearSram
  split
  · exact h.modReed rfl
  · exact h

/-! ### Objects of a checkpoint -/

theorem putRanges {m : Mem} {ps : List (Nat × Nat × Nat)} {bs : List Byte} (h : m.canonical) : (m.putRanges ps bs).canonical := by
  induction ps generalizing m bs with
  | nil => exact h
  | cons p ps ih =>
    unfold Mem.putRanges
    exact ih (Mem.canonical_either (Mem.store_canonical _ _ _ h) h)

theorem putObjects {v : Nat} {l : List (Nat × List Byte)} (h : k.canonical) : (k.putObjects v l).canonical :=
  h.withMem (foldl_keeps (fun _ _ h => putRanges h) l h.mem)

theorem measureObjects {m : Manifest} (h : k.canonical) : (k.measureObjects m).canonical := h

theorem rerunCopy {i : Nat} (h : k.canonical) : (k.rerunCopy i).canonical := by
  unfold Channel.rerunCopy
  extract_lets e v ver
  split
  · exact h
  · next r _ =>
    extract_lets k₁ k₂
    have cued : k₁.canonical := h.setVer.cueTile
    have copied : k₂.canonical := by
      unfold k₂
      split
      · exact cued
      · exact foldl_keeps (fun _ _ h => writeBytes h) _ cued
    have left : (k₂.modReed r (fun x => { x with tile := none, waiting := none })).canonical := copied.modReed_of_sram rfl
    exact left.setVer

theorem rerunCopies (h : k.canonical) : k.rerunCopies.canonical := by
  unfold Channel.rerunCopies
  split
  · exact h
  · exact foldl_keeps (fun _ _ h => .either (rerunCopy h) h) _ (recordRungs (h.same (by with_reducible rfl))).setVer

theorem placeCkpt {l : List (Nat × List Byte)} (h : k.canonical) : (k.placeCkpt l).canonical := h.putObjects.rerunCopies

theorem loadCkpt {m : Manifest} {l : List (Nat × List Byte)} (h : k.canonical) : (k.loadCkpt m l).canonical := by
  unfold Channel.loadCkpt
  extract_lets +onlyGivenNames table layer count layers
  exact .either (placeCkpt (h.same (by with_reducible rfl))) (h.same (by with_reducible rfl))

end Channel.canonical

namespace State.canonical

variable {s : State} {c : ChanId}

/-! ### Bins -/

theorem retune (h : s.canonical) : (s.retune c).canonical := .either h (h.modChan (h c).setBins)

theorem retuneStopped (h : s.canonical) : (s.retuneStopped c).canonical := .either h h.retune

/-! ### Slots and Études -/

/-- A channel's Études changed. -/
theorem modEtude {f : Channel → Etude} (h : s.canonical) : (s.modChan c (fun k => { k with etude := f k })).canonical :=
  h.modChan (h c).setEtude

/-- A channel's services changed. -/
theorem modSvc {f : Channel → Services} (h : s.canonical) : (s.modChan c (fun k => { k with svc := f k })).canonical :=
  h.modChan (h c).setSvc

theorem modHealth {r : Nat} {f : Health → Health} (h : s.canonical) : (s.modHealth c r f).canonical := h.modStore

theorem setMap {m : List Nat} (h : s.canonical) : (s.setMap c m).canonical := modStore (h.modChan_same fun _ => by with_reducible rfl)

theorem bindSlots (h : s.canonical) : (s.bindSlots c).canonical := h.setMap

theorem swapSlot {old new : Nat} (h : s.canonical) : (s.swapSlot c old new).canonical := h.setMap

theorem useRepairs (h : s.canonical) : (s.useRepairs c).canonical := by
  unfold State.useRepairs
  exact foldl_keeps (fun _ _ h => modChan (modHealth h) (.either (h c).setEtude (h c))) _ h

theorem rebindSlots (h : s.canonical) : (s.rebindSlots c).canonical := by
  unfold State.rebindSlots
  refine foldl_keeps (fun s r h => .either h ?_) _ h.useRepairs
  split
  · exact h.swapSlot
  · exact h

theorem etudeEntry {x : EtudeRun} {code result etude tj : Nat} (h : s.canonical) :
    (s.etudeEntry c x code result etude tj).canonical := by
  unfold State.etudeEntry
  exact h.modEtude

theorem startRun {r : Nat} (h : s.canonical) : (s.startRun c r).canonical := by
  unfold State.startRun
  exact modHealth (modEtude (modComp h))

theorem startTests (h : s.canonical) : (s.startTests c).canonical := by
  unfold State.startTests
  refine .either h ?_
  split
  · exact h.startRun
  · exact h

theorem settleWindow (h : s.canonical) : (s.settleWindow c).canonical := .either h.modEtude h

theorem endRun {x : EtudeRun} {f : Health → Health} (h : s.canonical) : (s.endRun c x f).canonical := by
  unfold State.endRun
  have cleared : (s.modChan c (fun k => { (k.clearSram x.reed) with etude := { k.etude with run := none } })).canonical :=
    h.modChan (h c).clearSram.setEtude
  exact cleared.modHealth.setMap.settleWindow.startTests.settleWindow.retuneStopped

theorem abandonRun (h : s.canonical) : (s.abandonRun c).canonical := by
  unfold State.abandonRun
  split
  · exact h.modEtude
  · exact h.etudeEntry.modEtude.modHealth.setMap

theorem etudeError {cause : Cause} {cls : ErrClass} {r outcome : Nat} (h : s.canonical) :
    (s.etudeError c cause cls r outcome).canonical := h.logEntry

theorem endMarginal {r outcome : Nat} (h : s.canonical) : (s.endMarginal c r outcome).canonical := h.finishErrs

theorem retire {x : EtudeRun} (h : s.canonical) : (s.retire c x).canonical := by
  unfold State.retire
  exact .either h.endMarginal.endRun (.either (retuneStopped (modEtude (etudeError h.modStore)))
    (.either h.endRun h.endMarginal.endRun))

theorem passRun {x : EtudeRun} (h : s.canonical) : (s.passRun c x).canonical := h.endMarginal.endRun

theorem suspectStep {x : EtudeRun} (h : s.canonical) : (s.suspectStep c x).canonical := .either h.modHealth.modEtude h.retire

theorem mapColumn {r : Nat} {col : Option Nat} (h : s.canonical) : (s.mapColumn c r col).canonical := h.modHealth

theorem rotate (h : s.canonical) : (s.rotate c).canonical := by
  unfold State.rotate
  refine .either h ?_
  split
  · exact h.swapSlot.modEtude
  · exact h

theorem replaceFailed (h : s.canonical) : (s.replaceFailed c).canonical := by
  unfold State.replaceFailed
  refine modEtude (foldl_keeps (fun s r h => .either h ?_) _ h)
  split
  · exact h.swapSlot
  · split
    · exact .either h.abandonRun.swapSlot h
    · exact h

theorem openWindow (h : s.canonical) : (s.openWindow c).canonical := by
  unfold State.openWindow
  exact .either h h.modEtude.startTests

theorem noteCommit {step : Nat} (h : s.canonical) : (s.noteCommit c step).canonical := by
  unfold State.noteCommit
  exact h.modEtude

theorem reinstate {rs : List Nat} (h : s.canonical) : (s.reinstate c rs).canonical := by
  unfold State.reinstate
  exact (foldl_keeps (fun _ _ h => modEtude (modHealth h)) rs h).setMap.startTests

/-! ### Checkpoints and restarts -/

theorem startCkpt (h : s.canonical) : (s.startCkpt c).canonical := by
  unfold State.startCkpt
  exact modStore (h.modChan_same fun _ => by with_reducible rfl)

theorem ckptBoundary (h : s.canonical) : (s.ckptBoundary c).canonical := by
  unfold State.ckptBoundary
  exact .either h (.either h.modSvc h.startCkpt)

theorem ckptNext (h : s.canonical) : (s.ckptNext c).canonical := .either h.startCkpt h

/-- The checkpoint is given up or has ended. -/
theorem dropCkpt (h : s.canonical) : (s.modChan c Channel.dropCkpt).canonical := h.modChan (h c).dropCkpt

theorem endCkpt {mode : Nat} (h : s.canonical) : (s.endCkpt c mode).canonical := by
  unfold State.endCkpt
  exact h.modStore.dropCkpt.ckptNext

theorem targetDone {r : CkptRun} (h : s.canonical) : (s.targetDone c r).canonical := by
  unfold State.targetDone
  exact .either h.modSvc.endCkpt h.modSvc

theorem targetFail {t : Nat} (h : s.canonical) : (s.targetFail c t).canonical := by
  unfold State.targetFail
  split
  · exact h
  · refine .either h ?_
    have lost : ∀ {f : Channel → Services}, (s.modChan c (fun k => { k with svc := f k })).canonical := h.modSvc
    exact .either lost.firmwareError.targetDone lost.modStore.dropCkpt.firmwareError.ckptNext

theorem abandonCkpt (h : s.canonical) : (s.abandonCkpt c).canonical := .either h h.modStore.dropCkpt

theorem startStep (h : s.canonical) : (s.startStep c).canonical := settle (modChan_same h.rebindSlots fun _ => by with_reducible rfl)

end State.canonical

/-! ### The commands -/

section

variable {s : State} {c : ChanId} (h : s.canonical)
include h

theorem execAclkBinChangeDone_canonical : outcomeCanonical (execAclkBinChangeDone c s) := by
  unfold execAclkBinChangeDone
  split
  · exact h
  · exact State.canonical.retuneStopped (h.modChan (h c).setBins)

theorem execEtudePhaseDone_canonical {o : EtudeObs} : outcomeCanonical (execEtudePhaseDone c o s) := by
  unfold execEtudePhaseDone
  split
  · exact h
  · next x _ =>
    extract_lets go hot result log s₁ s₂
    have go : ∀ {s : State} {y}, s.canonical → (go s y).canonical := fun h => h.modEtude
    have logged : s₁.canonical := h.etudeEntry
    have found : s₂.canonical := logged.firmwareError
    split
    · split
      · exact go (h.modChan (h c).clearSram)
      · exact h
    · exact go h
    · split
      · exact go logged
      · split
        · exact found.mapColumn.endRun
        · exact found.retire
    · split
      · exact logged.passRun
      · exact logged.firmwareError.suspectStep
    · split
      · exact logged.passRun
      · exact logged.suspectStep
    · split
      · exact logged.passRun
      · exact logged.retire

theorem execEtudeDue_canonical {r : ReedId} : outcomeCanonical (execEtudeDue c r s) := by
  unfold execEtudeDue
  extract_lets k testing s₁
  split
  · exact h
  · exact h.modHealth.modEtude.startTests

theorem execDeferralDeadline_canonical {r : ReedId} : outcomeCanonical (execDeferralDeadline c r s) :=
  h.modChan (.either (h c).setEtude (h c))

theorem execRotationCopyDone_canonical : outcomeCanonical (execRotationCopyDone c s) := by
  unfold execRotationCopyDone
  extract_lets k
  split
  · exact h
  · split
    · next old new _ a b _ _ =>
      split
      · exact h
      · have copied : (s.modChan c (fun k => { (k.modReed b (fun x => { x with sram := (k.reed a).sram, badParity := (k.reed a).badParity }))
            with etude := { k.etude with copy := none } })).canonical := h.modChan ((h c).modReed ((h c).reed a)).setEtude
        exact State.canonical.either copied.startRun copied
    · exact h

theorem execEtudeWindowEnd_canonical : outcomeCanonical (execEtudeWindowEnd c s) := by
  unfold execEtudeWindowEnd
  extract_lets e
  split
  · exact h.modEtude.settleWindow
  · exact h

theorem execTargetReconnect_canonical {t : Fin 4} {ok : Bool} : outcomeCanonical (execTargetReconnect c t ok s) := by
  unfold execTargetReconnect
  extract_lets k t
  split
  · exact h
  · split
    · exact h.modSvc
    · exact h.modSvc

theorem execShardFetch_canonical : outcomeCanonical (execShardFetch c s) := by
  unfold execShardFetch
  extract_lets k source
  split
  · exact h
  · split
    · exact h.modSvc
    · exact h

theorem execShardResident_canonical {o : ShardObs} : outcomeCanonical (execShardResident c o s) := by
  unfold execShardResident
  extract_lets k s₁ p at_
  split
  · exact h
  · have fetched : s₁.canonical := h.modSvc
    split
    · exact fetched.firmwareError
    · refine fetched.modChan (Channel.canonical.setSvc ((fetched c).withMem ?_))
      exact Mem.canonical_either (Mem.store_canonical _ _ _ (fetched c).mem) (fetched c).mem

theorem execCheckpointDone_canonical {t : Fin 4} : outcomeCanonical (execCheckpointDone c t s) := by
  unfold execCheckpointDone
  split
  · exact h
  · split
    · exact h
    · exact h.modSvc.modStore.targetDone

theorem execCheckpointTargetFail_canonical {t : Fin 4} : outcomeCanonical (execCheckpointTargetFail c t s) := h.targetFail

theorem execRestartLoadDone_canonical {l : List CkptImage} : outcomeCanonical (execRestartLoadDone c l s) := by
  unfold execRestartLoadDone
  extract_lets k
  split
  · exact h
  · split
    · exact h
    · split
      · exact h.modSvc.firmwareError
      · next m os _ =>
        have loaded : (s.modChan c (fun k => (k.loadCkpt m os).measureObjects m)).canonical :=
          h.modChan (h c).loadCkpt.measureObjects
        extract_lets s₁ s₂
        split
        · exact loaded.modSvc
        · exact loaded.modSvc.startStep.rollbackDone

end

end Sys2Proof.Machine
end

section
/-! O59: the Windway, the memory's own events and the draining of the error FIFO keep every memory in canonical form
(07 R165 to R191; 09 R230, R241, R255; 17 R413). -/

namespace Sys2Proof.Machine

open Sys2Proof

namespace Channel.canonical

variable {k : Channel} {w : Self}

/-! ### Phrase boundaries and launches -/

theorem enterPhrase {phrase : Nat} (h : k.canonical) : (k.enterPhrase phrase).canonical := by
  unfold Channel.enterPhrase
  extract_lets k₁ ww k₂
  have flushed : k₁.canonical := (h.withMem (Mem.flush_canonical h.mem)).frameErrors
  have entered : k₂.canonical := of_parts flushed.mem flushed.reed flushed.shadow flushed.shadow
  exact .either entered.setTun entered

theorem writeScalar {x : Option ReedId × Nat × Nat} (h : k.canonical) : (k.writeScalar x).canonical := by
  unfold Channel.writeScalar
  extract_lets set
  split
  · exact h.modValve
  · exact h.mapReeds fun _ hx => hx

theorem applyScalars (h : k.canonical) : k.applyScalars.canonical := by
  have written : (k.scalarQ.foldl Channel.writeScalar k).canonical := foldl_keeps (fun _ _ h => writeScalar h) _ h
  unfold Channel.applyScalars
  exact written.same (by with_reducible rfl)

theorem sendBytes {p : PortId} {i ix : Nat} {e : Entry} {want : Option Nat} (h : k.canonical) :
    (k.sendBytes p i e ix want).2.canonical := by
  unfold Channel.sendBytes
  extract_lets d t
  refine foldl_keeps_on Prod.snd _ h fun a j ha => ?_
  split
  · exact ha
  · have read := ha.readNow (r := 0) (unit := 3) (uidx := p.val) (t := t) (i := d.first + j)
    generalize a.2.readNow 3 p.val 0 t (d.first + j) = y at read ⊢
    obtain ⟨x, retried, k₁⟩ := y
    have tagged : (if retried then k₁.tagEntry i .errorRetry else k₁).canonical := read.tagRetry
    exact .ite Prod.snd tagged (.ite Prod.snd tagged.collVersion tagged)

theorem launchSend {i : Nat} {e : Entry} (h : k.canonical) : (k.launchSend w i e).canonical := by
  unfold Channel.launchSend
  extract_lets d p partner path
  split
  · exact h.raise
  · exact h.collVersion
  · next q ix want _ _ =>
    have read := h.sendBytes (p := p) (i := i) (e := e) (ix := ix) (want := want)
    generalize k.sendBytes p i e ix want = y at read ⊢
    obtain ⟨_ | bs, k₁⟩ := y
    · exact read
    · exact foldl_keeps (fun _ _ h => sendPacket h) _ read.modPort

theorem launchRecv {i : Nat} {e : Entry} (h : k.canonical) : (k.launchRecv i e).canonical := h.modPort

theorem launchTag {i : Nat} {e : Entry} (h : k.canonical) : (k.launchTag i e).canonical :=
  .either h.tagEntry (.either h.tagEntry h)

theorem launchVersion {i : Nat} {e : Entry} (h : k.canonical) : (k.launchVersion i e).canonical := by
  unfold Channel.launchVersion
  split
  · split
    · exact h.setVer.landEntry
    · exact h.raise
  · split
    · exact h.setVer.landEntry
    · exact h.raise
  · exact .either h.raise (.either h.openVersion h.tagEntry)

theorem beginStep (h : k.canonical) : k.beginStep.canonical := by
  unfold Channel.beginStep
  exact h.mapped rfl fun _ hx => hx

theorem setWw {x : Windway} (h : k.canonical) : ({ k with ww := x } : Channel).canonical := h

theorem setErr {x : Errors} (h : k.canonical) : ({ k with err := x } : Channel).canonical := h

/-! ### Refresh and scrub -/

theorem writeFirst {m : Mem} {cwi : Nat} (h : m.canonical) : (m.writeFirst cwi).canonical := by
  unfold Mem.writeFirst
  split
  · next l _ _ => exact Mem.writeLine_canonical (m := { m with wcb := m.wcb.filter (fun x => x.addr != l.addr) }) l h
  · exact h

theorem scrubAt {q : Place} (h : k.canonical) : (k.scrubAt q).canonical := by
  unfold Channel.scrubAt
  extract_lets page cwi m w m₂
  have read : m₂.canonical := Mem.canonical_of_eq (m := m) (writeFirst h.mem) (Mem.moved_dram _ _ _) (Mem.moved_chest _ _ _)
  have seen : ({ k with mem := m₂ } : Channel).canonical := h.withMem read
  refine .either ?_ (.either ?_ seen.frameErrors)
  · exact (seen.memSame (m := { m₂ with cnt := _ }) (by with_reducible rfl)).raise.frameErrors
  · exact frameErrors (h.withMem (Mem.canonical_of_eq read (Mem.writeBack_dram _ _) (Mem.writeBack_chest _ _)))

end Channel.canonical

namespace State.canonical

variable {s : State} {c : ChanId}

theorem passBoundary (h : s.canonical) : (s.passBoundary c).canonical := by
  unfold State.passBoundary
  extract_lets k p ended stop s₁ s₂ s₃
  have saved : s₁.canonical := .either h.ckptBoundary.openWindow h
  have entered : s₃.canonical := modChan saved.ckptNext (saved.ckptNext c).enterPhrase
  exact .either (settle (entered.modChan_same fun _ => by with_reducible rfl)) entered.replaceFailed.rotate.retune

theorem launchChnt {i : Nat} {e : Entry} (h : s.canonical) : (s.launchChnt c i e).canonical := by
  unfold State.launchChnt
  split
  · exact serviceAll (launchVerdict (h.modChan (h c).tagEntry))
  · exact h.modChan (h c).launchScalars.tagEntry
  · have ended := commit (c := c) (h.modChan (c := c) (f := fun k => k.landEntry i) (h c).landEntry)
    exact .either ended ended.noteCommit
  · exact h.modChan (h c).launchVersion

theorem launch {x : Nat × Entry} (h : s.canonical) : (s.launch c x).canonical := by
  obtain ⟨i, e⟩ := x
  unfold State.launch
  dsimp -zeta only
  extract_lets s₁
  have flown : s₁.canonical := h.modChan (h c).fly.launchTag
  have here := flown c
  split
  · refine flown.modChan ?_
    split
    · exact here.cueTile
    · exact here
  · refine flown.modChan ?_
    split
    · exact here.cueRun
    · exact here
  · exact flown
  · exact flown
  · exact flown
  · exact flown
  · exact flown.modChan here.launchSend
  · exact serviceAll (flown.modChan here.launchRecv)
  · exact serviceAll (flown.modChan here.collLaunch)
  · exact flown.launchChnt
  · exact flown.modChan here.landEntry

theorem issue (h : s.canonical) : (s.issue c).canonical := by
  unfold State.issue
  extract_lets es s₁
  have begun : s₁.canonical := by
    refine h.modChan ?_
    extract_lets applied ww k₁ k₂ last next k₃
    have counted : k₁.canonical := (h c).applyScalars.setWw
    have started : k₂.canonical := .either counted.beginStep counted
    exact foldl_keeps (fun _ _ h => Channel.canonical.launchToken h) _ started.setWw
  exact settle (foldl_keeps (fun _ _ h => .either (launch h) h) es begun)

theorem beatState {o : BeatObs} (h : s.canonical) : (s.beatState c o).canonical := by
  unfold State.beatState
  extract_lets s₁
  have met : s₁.canonical := h.modChan (((h c).disturbed).same (by with_reducible rfl))
  exact .either met.passBoundary met

end State.canonical

section

variable {s : State} {c : ChanId} (h : s.canonical)
include h

theorem execBeatTest_canonical {o : BeatObs} : outcomeCanonical (execBeatTest c o s) := by
  unfold execBeatTest
  extract_lets s₁ k
  have tested : s₁.canonical := h.beatState
  split
  · exact h
  · split
    · exact tested
    · split
      · exact tested.issue
      · exact tested.modChan (Channel.canonical.setWw (.either (tested c).applyScalars (tested c)))

theorem execCrossingFifoSpace_canonical {x : Nat} : outcomeCanonical (execCrossingFifoSpace c x s) :=
  h.modChan ((h c).same (by with_reducible rfl))

theorem execHoldTimeout_canonical : outcomeCanonical (execHoldTimeout c s) := by
  unfold execHoldTimeout
  extract_lets k
  split
  · exact h.firmwareError
  · exact h

theorem execStopComplete_canonical : outcomeCanonical (execStopComplete c s) := by
  unfold execStopComplete
  extract_lets k s₁
  split
  · have stopped : s₁.canonical := h.modChan ((h c).same (by with_reducible rfl))
    exact stopped.finishErrs.startTests.retuneStopped.settle
  · exact h

theorem execHbmRefresh_canonical {delayed : List Nat} : outcomeCanonical (execHbmRefresh c delayed s) := by
  refine h.modChan (foldl_keeps (fun k u hk => ?_) _ (h c))
  extract_lets mem cnt k₁
  have counted : k₁.canonical := hk.memSame (m := { k.mem with cnt := _ }) (by with_reducible rfl)
  split
  · exact .either counted.tagFlight counted
  · exact counted

theorem execScrubRead_canonical {found : Option Upset} : outcomeCanonical (execScrubRead c found s) := by
  unfold execScrubRead
  extract_lets k
  split
  · exact h
  · refine h.modChan ?_
    split
    · exact .either (h c) ((h c).memSame (m := { (s.chan c).mem with scrubAt := _, scrubPasses := _ }) (by with_reducible rfl))
    · split
      · exact h c
      · extract_lets +onlyGivenNames k₁ mem k₂
        have met : k₁.canonical := by
          unfold k₁
          split
          · exact (h c).upset
          · exact h c
        have read : k₂.canonical := Channel.canonical.scrubAt (met.memSame (m := { k₁.mem with scrubAt := _ }) (by with_reducible rfl))
        exact read.memSame (m := { k₂.mem with scrubAt := _ }) (by with_reducible rfl)

end

end Sys2Proof.Machine
end

section
/-! O59: the meter, the security engine, binding, start-up and power keep every memory in canonical form (09 R243, R244; 15; 16; 19; 20; 21). -/

namespace Sys2Proof.Machine

open Sys2Proof

namespace Channel.canonical

variable {k : Channel}

/-- A channel as it is created has the form, but for what else its memory holds. -/
theorem of_fresh (h : k.mem.canonical) (e : (k.reeds, k.shadow, k.live) = (({} : Channel).reeds, {}, {})) :
    k.canonical := by
  simp only [Prod.mk.injEq] at e
  obtain ⟨hr, hs, hl⟩ := e
  refine of_parts h (fun r => ?_) ?_ ?_
  · unfold Channel.reed
    rw [hr]
    simp [Vector.get_eq_getElem]
    rfl
  · rw [hs]
    exact ⟨rfl, rfl⟩
  · rw [hl]
    exact ⟨rfl, rfl⟩

theorem cxlLost (h : k.canonical) : k.cxlLost.canonical := raise (h.memSame (m := { k.mem with cxlFatal := _ }) (by with_reducible rfl))

theorem cxlLoss (h : k.canonical) : k.cxlLoss.canonical := by
  unfold Channel.cxlLoss
  refine .either h (cxlLost (h.memSame (m := { k.mem with cxlUp := _, cxlRate := _, cxlWidth := _, cxlDegraded := _, cnt := _ })
    (by with_reducible rfl)))

theorem rereadCxl (h : k.canonical) : k.rereadCxl.canonical := .either h.cxlLost h

/-! ### Binding -/

theorem resetForJob {job epoch : Nat} (h : k.canonical) : (k.resetForJob job epoch).canonical := by
  unfold Channel.resetForJob
  exact of_parts h.mem h.reed h.shadow h.live

theorem bindTo {b : Binding} {policy : Nat × Nat} {epoch : Nat} (h : k.canonical) : (k.bindTo b policy epoch).canonical := by
  have reset := h.resetForJob (job := b.job) (epoch := epoch)
  unfold Channel.bindTo
  extract_lets k₁
  exact of_parts ⟨rfl, rfl⟩ (reset.mapReeds (f := Reed.wiped) fun _ _ => rfl).reed reset.shadow reset.live

theorem idlePorts (h : k.canonical) : k.idlePorts.canonical := h.foldPorts fun _ _ h => h.modPort

theorem clearPlan (h : k.canonical) : k.clearPlan.canonical := by
  unfold Channel.clearPlan
  exact of_parts h.mem h.reed ⟨rfl, rfl⟩ ⟨rfl, rfl⟩

theorem lockImage {m : Mem} {sc : Option Score} {b : Bool} (h : m.canonical) : (m.lockImage sc b).canonical := by
  unfold Mem.lockImage
  split
  · exact h
  · exact Mem.canonical_either h (Mem.canonical_of_eq h rfl rfl)

theorem unbindJob {epoch : Nat} (h : k.canonical) : (k.unbindJob epoch).canonical := by
  unfold Channel.unbindJob
  extract_lets k₁
  have cleared : k₁.canonical := h.resetForJob.clearPlan.dropCkpt
  exact of_parts (Mem.canonical_of_eq cleared.mem rfl rfl) cleared.reed cleared.shadow cleared.live

theorem applyPlan {p : Plan} {standby : Bool} (h : k.canonical) : (k.applyPlan p standby).canonical := by
  unfold Channel.applyPlan
  extract_lets kj same paths k₁
  have planned : k₁.canonical := h.same (by with_reducible rfl)
  exact .either planned.setPaths.idlePorts planned.startDiscovery

theorem acceptScore {x : Score} (h : k.canonical) : (k.acceptScore x).canonical := by
  unfold Channel.acceptScore
  exact of_parts (lockImage (lockImage h.mem)) h.reed h.shadow h.live

/-! ### Resets and power -/

theorem resetFresh {epoch : Nat} : (k.resetFresh epoch).canonical := by
  unfold Channel.resetFresh
  exact of_fresh ⟨rfl, rfl⟩ (by with_reducible rfl)

theorem freshChannel {t : ChanStore} {thermLow followed : Bool} : (freshChannel t thermLow followed).canonical := by
  unfold Machine.freshChannel
  exact of_fresh ⟨rfl, rfl⟩ (by with_reducible rfl)

theorem breath (h : k.canonical) : k.breath.canonical := by
  unfold Channel.breath
  extract_lets cut k₁
  have down : k₁.canonical := foldPorts h.abandon fun _ _ h => modPort h
  exact (down.memSame (m := { k₁.mem with wcb := [] }) (by with_reducible rfl)).same (by with_reducible rfl)

theorem resumeFrom (h : k.canonical) : k.resumeFrom.canonical := by
  unfold Channel.resumeFrom
  extract_lets ran ver k₁ subst k₂
  have back : k₁.canonical := h.same (by with_reducible rfl)
  have planned : k₂.canonical := by
    unfold k₂
    split
    · exact .either back back.applyPlan.setPaths
    · exact back
  exact planned.rereadCxl

end Channel.canonical

namespace State.canonical

variable {s : State} {c : ChanId}

/-- A state whose channels have all been created anew. -/
theorem of_ofFn {t : State} {f : ChanId → Channel} (e : t.ch = Vector.ofFn f) (h : ∀ c, (f c).canonical) : t.canonical := fun c => by
  unfold State.chan
  rw [e, Vector.get_eq_getElem, Vector.getElem_ofFn]
  exact h c

/-! ### The meter -/

theorem meterEvent {code value : Nat} (h : s.canonical) : (s.meterEvent code value).canonical := by
  unfold State.meterEvent
  extract_lets s₁
  have counted : s₁.canonical := h.modMeter
  split
  · exact counted.notify
  · exact counted

theorem meterOpen {chan job : Nat} (h : s.canonical) : (s.meterOpen chan job).canonical := by
  unfold State.meterOpen
  refine modMeter ?_
  split
  · exact meterEvent (modMeter h)
  · exact h

theorem meterBind {chan job : Nat} {open_ : Bool} (h : s.canonical) : (s.meterBind chan job open_).canonical := by
  unfold State.meterBind
  exact .either h (.either (meterOpen (modMeter h)) (modMeter h))

theorem loopTo {b : Bool} (h : s.canonical) : (s.loopTo b).canonical := .either h (meterEvent (modMeter h))

theorem breakSeal (h : s.canonical) : s.breakSeal.canonical := .either h (meterEvent (modMeter h))

theorem meterFreeze (h : s.canonical) : s.meterFreeze.canonical := .either h (meterEvent (modMeter h))

theorem meterResume (h : s.canonical) : s.meterResume.canonical := .either h (meterEvent (modMeter h))

/-! ### Images, binding and scores -/

theorem stageImage {l : List Byte} {b : Bool} (h : s.canonical) : (s.stageImage l b).2.canonical := by
  unfold State.stageImage
  exact .ite Prod.snd h (.ite Prod.snd h h)

theorem arm {i : Nat} (h : s.canonical) : (s.arm i).canonical := h

theorem takeChanterImage (h : s.canonical) : (s.takeChanterImage c).canonical := h

theorem bootRom {o : BootObs} (h : s.canonical) : (s.bootRom o).canonical := by
  unfold State.bootRom
  extract_lets s₁ found s₂ s₃
  have switched : s₁.canonical := foldl_keeps (fun _ _ h => modComp h) _ h
  have booted : s₂.canonical := switched.modMp
  have checked : s₃.canonical := .either booted.logMp.deviceFault booted
  exact .either checked.logMp.deviceFault checked

theorem refuseHost {cause : Cause} (h : s.canonical) : (s.refuseHost c cause).canonical := h.firmwareError

theorem bindJob {b : Binding} (h : s.canonical) : (s.bindJob c b).canonical := by
  unfold State.bindJob
  extract_lets s₁ s₂
  have bound : s₂.canonical := modChan (modStore h) (h c).bindTo
  exact bound.bindSlots.meterBind

theorem unbindJob (h : s.canonical) : (s.unbindJob c).canonical := by
  have given := h.abandonCkpt (c := c)
  unfold State.unbindJob
  exact meterBind (given.modChan (given c).unbindJob)

theorem startScore (h : s.canonical) : (s.startScore c).canonical := settle (modChan_same h.rebindSlots fun _ => by with_reducible rfl)

theorem resumeRestart (h : s.canonical) : (s.resumeRestart c).canonical := by
  unfold State.resumeRestart
  split
  · exact .either (rollbackDone (startStep (h.modChan (h c).placeCkpt.setSvc))) h
  · exact h

theorem restartFailed (h : s.canonical) : (s.restartFailed c).canonical := h.firmwareError

/-! ### Start-up -/

theorem channelReset (h : s.canonical) : (s.channelReset c).canonical := by
  unfold State.channelReset
  extract_lets s₁ s₂ bound s₃ s₄ s₅
  have given : s₂.canonical := h.abandonRun.abandonCkpt.finishErrs.finishErrs
  have fresh : s₄.canonical := takeChanterImage (modChan (modStore given) Channel.canonical.resetFresh)
  have emptied : s₅.canonical := modMp fresh
  exact settle (.either emptied.meterBind emptied)

theorem deviceReset {cold : Bool} : (s.deviceReset cold).canonical := by
  unfold State.deviceReset
  exact of_ofFn rfl fun _ => Channel.canonical.freshChannel

theorem startBoot {o : BootObs} (h : s.canonical) : (s.startBoot o).canonical := .either h.bootRom h

theorem mpDown (h : s.canonical) : s.mpDown.canonical := by
  unfold State.mpDown
  refine modMp (h.foldChans fun s c h => ?_)
  split
  · exact h
  · exact h.firmwareError.abandonCkpt

theorem mpFault {pclk : Nat} (h : s.canonical) : (s.mpFault pclk).canonical := by
  unfold State.mpFault
  extract_lets s₁ recent s₂
  have down : s₂.canonical := modMp h.logMp.mpDown
  exact .either h (.either down.logMp.deviceFault down)

theorem bootEntries {o : ChannelBootObs} (h : s.canonical) : (s.bootEntries c o).canonical := by
  unfold State.bootEntries
  exact etudeEntry (foldl_keeps (fun _ _ h => etudeEntry h) _ h)

theorem bootColumn {r col : Nat} (h : s.canonical) : (s.bootColumn c r col).canonical := by
  unfold State.bootColumn
  extract_lets suspect
  have suspect : ∀ {s : State}, s.canonical → (suspect s).canonical := fun h => h.modHealth
  split
  · exact .either (etudeError (modStore (suspect h))) (suspect h).modHealth
  · exact (suspect h.mapColumn).modEtude

theorem bootEtudes {o : ChannelBootObs} (h : s.canonical) : (s.bootEtudes c o).canonical := by
  unfold State.bootEtudes
  extract_lets s₁ s₂ s₃
  have failed : s₂.canonical := by
    refine foldl_keeps (fun s x h => .either h ?_) _ h.bootEntries
    extract_lets s₁ s₂
    have noted : s₂.canonical := modHealth (modStore (etudeError h))
    exact noted.modChan (.either (noted c) (noted c).setEtude)
  have others : s₃.canonical := .either (modStore failed.etudeError) failed
  exact foldl_keeps (fun _ _ h => .either h (bootColumn h)) _ others

theorem coldRestart (h : s.canonical) : (s.coldRestart c).canonical := by
  unfold State.coldRestart
  split
  · exact h
  · next r _ =>
    extract_lets s₁ cks s₂
    have taken : s₁.canonical := h.modStore
    refine .either taken ?_
    split
    · exact taken.restartFailed
    · next x _ =>
      refine .either taken.restartFailed (.either taken.firmwareError.restartFailed ?_)
      extract_lets s₃ s₄
      have bound : s₂.canonical := modStore taken.bindJob
      have loaded : s₃.canonical := by
        refine bound.modChan ?_
        extract_lets mem m₁ m₂
        have placed : m₂.canonical := by
          unfold m₂
          split
          · exact Mem.canonical_of_eq (bound c).mem rfl rfl
          · exact (bound c).mem
        exact Channel.canonical.of_parts (Mem.store_canonical _ _ _ placed) (bound c).reed (bound c).shadow (bound c).live
      have planned : s₄.canonical := by
        unfold s₄
        split
        · exact loaded.modChan (loaded c).applyPlan
        · exact loaded
      exact planned.modChan (planned c).acceptScore.setSvc

theorem bootChannel {o : ChannelBootObs} (h : s.canonical) : (s.bootChannel c o).canonical := by
  unfold State.bootChannel
  exact startTests (modChan_same h.bootEtudes.bindSlots fun _ => by with_reducible rfl)

/-! ### Power -/

theorem lastBreath {trig vin : Nat} (h : s.canonical) : (s.lastBreath trig vin).canonical := by
  unfold State.lastBreath
  extract_lets hold acked s₁ s₂ pins power mp mram s₃
  have down : s₁.canonical := h.foldChans fun s c h => by
    have given : (((s.abandonRun c).abandonCkpt c).finishErrs c (fun _ => true) 5).canonical := h.abandonRun.abandonCkpt.finishErrs
    exact given.modChan (given c).breath
  have cleared : s₂.canonical := down.foldChans fun _ _ h => h.modStore
  clear_value s₂
  have held : s₃.canonical := of_ch (s := s₂) rfl cleared
  exact held.meterFreeze

theorem unpowered : s.unpowered.canonical := by
  unfold State.unpowered
  exact of_ofFn (f := fun _ => {}) rfl fun _ => (Channel.canonical.of_fresh ⟨rfl, rfl⟩ (by with_reducible rfl))

theorem setCapBin {f : Nat → Nat} (h : s.canonical) : (s.setCapBin c f).canonical := h.modChan (h c).setBins

theorem enterStandby (h : s.canonical) : s.enterStandby.canonical := by
  unfold State.enterStandby
  extract_lets idle s₁
  have idled : s₁.canonical := h.foldChans fun _ _ h => (h.modChan_same fun _ => by with_reducible rfl)
  exact settle (of_ch rfl idled)

theorem leaveStandby (h : s.canonical) : s.leaveStandby.canonical := .either h h

end State.canonical

end Sys2Proof.Machine
end

section
/-! O59: the commands of the memory's links, the meter, the security engine, start-up and power (09 R255; 13 R344 to R346; 15; 16; 17 R413; 19; 20). -/

namespace Sys2Proof.Machine

open Sys2Proof

section

variable {s : State} {c : ChanId} (h : s.canonical)
include h

/-! ### The links of the far tier, and the error FIFO -/

theorem execCxlLinkLoss_canonical : outcomeCanonical (execCxlLinkLoss c s) := h.modChan (h c).cxlLoss

theorem execRefclkCLoss_canonical : outcomeCanonical (execRefclkCLoss s) :=
  State.canonical.foldChans (s := { s with pins := _ }) h fun _ c h => h.modChan (h c).cxlLoss

theorem execErrorFifoDrain_canonical : outcomeCanonical (execErrorFifoDrain c s) := by
  unfold execErrorFifoDrain
  extract_lets saving
  split
  · exact h
  · split
    · exact h
    · extract_lets s₁ named s₂
      have taken : s₁.canonical := by
        refine h.modChan ?_
        split
        · exact (h c).setErr
        · exact (h c).setErr
      have logged : s₂.canonical := taken.logError
      exact logged.modChan (.either (logged c).setErr (logged c))

/-! ### The meter -/

theorem execMeterInterval_canonical {input : Nat} {channels : List Nat} : outcomeCanonical (execMeterInterval input channels s) := by
  unfold execMeterInterval
  split
  · exact h
  · exact h.modMeter

theorem execMtrPulseEnd_canonical : outcomeCanonical (execMtrPulseEnd s) := State.canonical.either h.modMeter h

theorem execCrystalStop_canonical : outcomeCanonical (execCrystalStop s) := by
  unfold execCrystalStop
  split
  · exact h
  · exact h.meterEvent.modMeter

theorem execSealLoopSample_canonical {ohms : Nat} : outcomeCanonical (execSealLoopSample ohms s) := by
  unfold execSealLoopSample
  extract_lets first high low s₁ m
  have sampled : s₁.canonical := h.modMeter
  split
  · exact h
  · split
    · exact sampled
    · split
      · exact sampled.loopTo
      · split
        · exact sampled.loopTo
        · split
          · exact sampled.loopTo
          · exact sampled

theorem execSealBroken_canonical : outcomeCanonical (execSealBroken s) := State.canonical.either h.breakSeal h

theorem execSealed_canonical : outcomeCanonical (execSealed s) := by
  unfold execSealed
  split
  · exact h
  · exact h.meterEvent.modMeter.meterEvent

theorem execMeterPoll_canonical {up : Bool} : outcomeCanonical (execMeterPoll up s) := by
  unfold execMeterPoll
  extract_lets up
  split
  · exact h
  · exact h.modMp

theorem execReadoutComplete_canonical : outcomeCanonical (execReadoutComplete s) := by
  unfold execReadoutComplete
  split
  · exact h
  · split
    · exact h
    · extract_lets b s₁
      have sent : s₁.canonical := h.modMeter
      show State.canonical _
      split
      · exact sent.modSession.respond
      · exact sent

theorem execMeterPowerUp_canonical {wire snap : Bool} : outcomeCanonical (execMeterPowerUp wire snap s) := by
  unfold execMeterPowerUp
  extract_lets failed s₁ s₂ s₃
  split
  · exact h
  · have up : s₂.canonical := State.canonical.meterEvent h.modMeter
    have told : s₃.canonical := .either up.meterEvent up
    exact State.canonical.either told told.breakSeal

/-! ### The security engine -/

theorem execWeightMeasureDone_canonical : outcomeCanonical (execWeightMeasureDone c s) := by
  unfold execWeightMeasureDone
  extract_lets k
  have read := (h c).load (space := 0) (addr := k.meas.winAddr) (n := k.meas.winLen)
  split
  · exact h
  · split
    next f m hm =>
    have loaded : m.canonical := by
      rw [hm] at read
      exact read
    have measured : ∀ {x : Channel → Measured}, (s.modChan c (fun k => ({ k with mem := m, meas := x k }).frameErrors)).canonical :=
      h.modChan (Channel.canonical.frameErrors ⟨loaded, (h c).2⟩)
    exact State.canonical.either measured.firmwareError measured

theorem execHostRdmaWrite_canonical {addr : Nat} {data : List Byte} : outcomeCanonical (execHostRdmaWrite c addr data s) := by
  unfold execHostRdmaWrite
  extract_lets k s₁ n inWindow s₂
  split
  · exact h
  · split
    · exact State.canonical.refuseHost (h.modSvc)
    · split
      · exact State.canonical.refuseHost (h.modChan_same fun _ => by with_reducible rfl)
      · split
        · exact h.modChan ((h c).withMem (Mem.store_canonical _ _ _ (h c).mem))
        · exact h.modChan (h c).addrFault

theorem execBounceRecordReceive_canonical {record : List Byte} : outcomeCanonical (execBounceRecordReceive c record s) := by
  unfold execBounceRecordReceive
  extract_lets k head seq len body tag fresh plain s₁
  clear_value plain
  split
  · exact h
  · split
    · exact h.modSvc
    · exact State.canonical.refuseHost h.modSvc

theorem execAttestationSigned_canonical : outcomeCanonical (execAttestationSigned s) := by
  unfold execAttestationSigned
  split
  · exact h
  · split
    · exact h
    · extract_lets n b rep s₀ mram s₁
      have signed : s₁.canonical := h
      show State.canonical _
      split
      · exact signed.modSession.respond
      · exact signed

/-! ### Start-up and resets -/

theorem execHaltResetTimer_canonical : outcomeCanonical (execHaltResetTimer c s) := by
  unfold execHaltResetTimer
  split
  · exact h.channelReset
  · exact h

theorem execPowerOn_canonical {o : BootObs} : outcomeCanonical (execPowerOn o s) := by
  unfold execPowerOn
  split
  · exact h
  · exact State.canonical.startBoot (.of_ch (s := s.deviceReset true) rfl .deviceReset)

theorem execResetN_canonical : outcomeCanonical (execResetN s) := by
  unfold execResetN
  extract_lets pins s₁ deferred
  split
  · exact h
  · split
    · split
      · exact State.canonical.deviceReset
      · exact h
    · exact State.canonical.deviceReset

theorem execResetNRelease_canonical : outcomeCanonical (execResetNRelease s) := by
  unfold execResetNRelease
  extract_lets pins s₁
  split
  · exact h
  · have released : s₁.canonical := h
    exact State.canonical.either released released.startBoot

theorem execRefclkLLoss_canonical : outcomeCanonical (execRefclkLLoss s) := by
  unfold execRefclkLLoss
  extract_lets s₁
  split
  · exact h
  · exact State.canonical.deviceReset

theorem execRefclkLReturn_canonical : outcomeCanonical (execRefclkLReturn s) := by
  unfold execRefclkLReturn
  split
  · exact h
  · exact State.canonical.startBoot h

theorem execStrapEnd_canonical {samples : List Nat} : outcomeCanonical (execStrapEnd samples s) := by
  unfold execStrapEnd
  split
  · exact h
  · exact h

theorem execMpFirmwareReady_canonical : outcomeCanonical (execMpFirmwareReady s) := by
  unfold execMpFirmwareReady
  split
  · exact h
  · exact State.canonical.settle h

theorem execMpWatchdog_canonical {pclk : Nat} : outcomeCanonical (execMpWatchdog pclk s) := h.mpFault

theorem execMpTrap_canonical {pclk : Nat} : outcomeCanonical (execMpTrap pclk s) := h.mpFault

theorem execChannelReady_canonical {o : ChannelBootObs} : outcomeCanonical (execChannelReady c o s) := by
  unfold execChannelReady
  extract_lets s₁
  split
  · exact h
  · have linked := (h c).withMem (Mem.canonical_of_eq (m' := (s.chan c).mem.trainCxl o.cxl) (h c).mem rfl rfl)
    have trained : s₁.canonical := h.modChan (linked.same (by with_reducible rfl))
    split
    · extract_lets s₂
      have logged : s₂.canonical := trained.logError
      exact State.canonical.either (logged.modChan_same fun _ => by with_reducible rfl) logged
    · exact trained.bootChannel.coldRestart.settle

/-! ### Power -/

theorem execSagDetect_canonical {psag : Bool} {vin : Nat} : outcomeCanonical (execSagDetect psag vin s) := by
  unfold execSagDetect
  extract_lets pins power s₁ trig
  have low : s₁.canonical := h
  split
  · exact low
  · exact low.lastBreath

theorem execChannelSaveWritten_canonical : outcomeCanonical (execChannelSaveWritten c s) := by
  unfold execChannelSaveWritten
  split
  · exact h
  · exact h

theorem execSaveComplete_canonical {micros vmin : Nat} : outcomeCanonical (execSaveComplete micros vmin s) := by
  unfold execSaveComplete
  split
  · exact h
  · have drawn : (s.draw (2 ^ 64)).2.canonical := h.draw
    generalize s.draw (2 ^ 64) = y at drawn ⊢
    obtain ⟨pclk, s₁⟩ := y
    exact State.canonical.either (State.canonical.startBoot .deviceReset) drawn

theorem execResumeDecision_canonical {vin micros : Nat} : outcomeCanonical (execResumeDecision vin micros s) := by
  have resumed : (chans.foldl (fun (s : State) c => s.modChan c Channel.resumeFrom) s).canonical :=
    h.foldChans fun _ c h => h.modChan (h c).resumeFrom
  unfold execResumeDecision
  split
  · exact h
  · split
    · exact h
    · generalize chans.foldl (fun (s : State) c => s.modChan c Channel.resumeFrom) s = s₁ at resumed ⊢
      exact State.canonical.meterResume (.of_ch (s := s₁) rfl resumed)

theorem execResumeStart_canonical : outcomeCanonical (execResumeStart c s) := by
  have ended := (h c).endStep (locate := none)
  have again := (h.rebindSlots (c := c))
  unfold execResumeStart
  extract_lets k done s₁ k₁ s₂
  split
  · exact h
  · split
    · exact h.modChan (ended.same (by with_reducible rfl))
    · have undone : s₁.canonical := again.modChan (again c).endStep
      split
      · split
        next s₃ rolls hs =>
        have asked := State.canonical.of_fst hs (State.canonical.requestRollback undone.logJob)
        exact State.canonical.either asked (asked.modChan_same fun _ => by with_reducible rfl)
      · exact undone.modChan_same fun _ => by with_reducible rfl

theorem execPowerOff_canonical {vin : Nat} : outcomeCanonical (execPowerOff vin s) := by
  unfold execPowerOff
  extract_lets +onlyGivenNames hold mram s₁ s₂
  split
  · exact h
  · have noted : s₁.canonical := .either h h
    have off : s₂.canonical := .either .unpowered noted
    exact State.canonical.of_ch (s := s₂) rfl off

theorem execThermalTrip_canonical : outcomeCanonical (execThermalTrip s) := by
  unfold execThermalTrip
  split
  · exact h
  · exact State.canonical.of_ch (s := s.unpowered) rfl .unpowered

theorem execOvEvent_canonical {vin : Nat} : outcomeCanonical (execOvEvent vin s) := by
  unfold execOvEvent
  split
  · trivial
  · split
    · exact h
    · exact h

theorem execOvEpisodeEnd_canonical {vin : Nat} : outcomeCanonical (execOvEpisodeEnd vin s) := by
  unfold execOvEpisodeEnd
  split
  · exact h
  · exact h

theorem execOvAlertHoldEnd_canonical : outcomeCanonical (execOvAlertHoldEnd s) := h

theorem execLowInput_canonical {vin : Nat} : outcomeCanonical (execLowInput vin s) := by
  unfold execLowInput
  split
  · exact h
  · exact h

theorem execCapCheck_canonical {mw : Nat} {channels : List Nat} : outcomeCanonical (execCapCheck mw channels s) := by
  unfold execCapCheck
  extract_lets power s₁ limit free above below lowFor s₂
  split
  · exact h
  · have metered : s₁.canonical := h
    have changed : s₂.canonical := by
      refine .either ?_ (.either ?_ metered)
      · split
        · exact metered.setCapBin
        · exact metered
      · split
        · exact metered.setCapBin
        · exact metered
    exact State.canonical.of_ch (s := s₂) rfl changed

theorem execBoardCapLevel_canonical {level : Fin 16} : outcomeCanonical (execBoardCapLevel level s) := by
  unfold execBoardCapLevel
  split
  · exact h
  · exact h

theorem execReturnToP2_canonical : outcomeCanonical (execReturnToP2 s) := by
  unfold execReturnToP2
  extract_lets s₁
  have started : s₁.canonical := h.foldChans fun _ c h => h.modChan (.either (h c).startDiscovery (h c))
  split
  · exact h
  · exact State.canonical.settle (.of_ch (s := s₁) rfl started)

theorem execThermalSample_canonical {tj : Nat} {readouts : List Nat} : outcomeCanonical (execThermalSample c tj readouts s) := by
  unfold execThermalSample
  split
  · exact h
  · exact h.modChan (h c).setBins

theorem execThermN_canonical {low : Bool} : outcomeCanonical (execThermN low s) := by
  unfold execThermN
  extract_lets pins s₁
  have seen : s₁.canonical := h
  split
  · exact seen
  · exact seen.foldChans fun _ c h => h.modChan (h c).setBins

end

end Sys2Proof.Machine
end

section
/-! O59: what the stop-protocol server writes keeps every memory in canonical form (09 R233; 12 R326; 14 R350 to R365). -/

namespace Sys2Proof.Machine

open Sys2Proof

/-! ### Stops of a channel -/

/-- A table filled from a place on has the form. -/
theorem SMap.wf_fillMap {V : Type} [DecidableEq V] {dflt : V} {m : SMap V} {base n : Nat} {f : Nat → V} (h : SMap.wf dflt m = true) :
    SMap.wf dflt (fillMap dflt m base n f) = true :=
  foldl_keeps (P := fun m => SMap.wf dflt m = true) (fun _ _ h => SMap.wf_set dflt _ _ h) _ h

namespace Rwp.canonical

variable {w : Rwp}

theorem put {base v : Nat} (h : w.canonical) : (w.put base v).canonical := by
  unfold Rwp.put
  split <;> exact h

theorem fillRoutes {base n : Nat} {f : Nat → Nat} (h : w.canonical) :
    Rwp.canonical { w with routes := fillMap 0 w.routes base n f } := ⟨SMap.wf_fillMap h.1, h.2⟩

theorem fillIsolate {base n : Nat} {f : Nat → Bool} (h : w.canonical) :
    Rwp.canonical { w with isolate := fillMap false w.isolate base n f } := ⟨h.1, SMap.wf_fillMap h.2⟩

end Rwp.canonical

namespace Channel.canonical

variable {k : Channel}

theorem openWindow {d : List Byte} (h : k.canonical) : (k.openWindow d).2.canonical := by
  unfold Channel.openWindow
  exact .ite Prod.snd h (.ite Prod.snd h (h.same (by with_reducible rfl)))

theorem writeRwp {f : Rwp → Rwp} (h : k.canonical) (hf : ∀ {w : Rwp}, w.canonical → (f w).canonical) : (k.writeRwp f).canonical := by
  unfold Channel.writeRwp
  refine of_parts h.mem h.reed (hf h.shadow) ?_
  dsimp only
  split
  · exact h.live
  · exact hf h.live

theorem applyNumerics {base sub : Nat} {d : List Byte} (h : k.canonical) : (k.applyNumerics base sub d).canonical := by
  unfold Channel.applyNumerics
  extract_lets v tun stops k₁
  split
  · exact h.setTun
  · exact h.setTun
  · exact h.setTun
  · exact h.setTun
  · exact h.setTun
  · have cleared : k₁.canonical := .either h.clearCounters h
    exact .either cleared.clearTunerLog cleared
  · exact h.setTun
  · exact h.setTun
  · exact h.writeRwp fun hw => hw.put

theorem writeMap {space1 : Bool} {d : List Byte} (h : k.canonical) : (k.writeMap space1 d).2.canonical := by
  unfold Channel.writeMap
  extract_lets m new0 new1 touched clash
  refine .ite Prod.snd h (.ite Prod.snd h ?_)
  split
  · exact h
  · extract_lets m₁
    have gone : m₁.canonical := foldl_keeps (fun _ _ h => Mem.forgetFrame_canonical _ h) _ h.mem
    exact h.withMem (Mem.canonical_of_eq gone rfl rfl)

theorem applyMemory {base sub : Nat} {d : List Byte} (h : k.canonical) : (k.applyMemory base sub d).2.canonical := by
  unfold Channel.applyMemory
  extract_lets v put
  split
  · exact h.writeMap
  · exact h.writeMap
  · exact h.withMem h.mem
  · exact h.withMem h.mem
  · exact h.withMem h.mem
  · exact h.withMem (Mem.canonical_either h.mem h.mem)
  · exact h

theorem applyBell {standby : Bool} {base sub : Nat} {d : List Byte} (h : k.canonical) : (k.applyBell standby base sub d).2.canonical := by
  unfold Channel.applyBell
  extract_lets +onlyGivenNames v put
  split
  · extract_lets paths k₁
    have woken : k₁.canonical := wakePorts h.setPaths
    exact .either woken.idlePorts woken
  · exact h.applyPlan
  · exact h.setPaths
  · exact h.writeRwp fun hw => hw.fillRoutes
  · dsimp only
    exact h.writeRwp fun hw => hw.fillIsolate
  · exact h.setColls
  · exact h.setColls
  · exact h.setColls
  · exact h.setColls
  · exact h.setColls
  · exact h.setColls
  · exact h.setColls
  · exact h.setColls
  · exact h.foldPorts fun _ _ h => .either h.modPort h
  · exact h

end Channel.canonical

namespace State.canonical

variable {s : State} {c : ChanId}

theorem closeSessions {hit : Session → Bool} (h : s.canonical) : (s.closeSessions hit).canonical := h

theorem writeKeys {d : List Byte} (h : s.canonical) : (s.writeKeys d).canonical := h

theorem declare {v : Nat} (h : s.canonical) : (s.declare v).canonical := by
  unfold State.declare
  exact .either h h

theorem applyIdentity {index sub : Nat} {d : List Byte} (h : s.canonical) : (s.applyIdentity index sub d).2.canonical := by
  unfold State.applyIdentity
  split
  · exact h
  · exact h.declare
  · exact h.writeKeys
  · exact h.closeSessions
  · exact h
  · exact h
  · exact h
  · exact h
  · exact h
  · exact h

theorem writeBinding {d : List Byte} (h : s.canonical) : (s.writeBinding c d).2.canonical := by
  unfold State.writeBinding
  exact .ite Prod.snd (.ite Prod.snd h (.ite Prod.snd h.firmwareError h.bindJob))
    (.ite Prod.snd h (.ite Prod.snd h h.unbindJob))

theorem applyChannel {base sub : Nat} {d : List Byte} (h : s.canonical) : (s.applyChannel c base sub d).2.canonical := by
  unfold State.applyChannel
  extract_lets k v
  split
  · exact h.writeBinding
  · exact retuneStopped (h.modChan_same fun _ => by with_reducible rfl)
  · exact h
  · split
    · exact h
    · dsimp only
      exact h.channelReset
  · split
    · exact h
    · exact h.modChan_same fun _ => by with_reducible rfl
  · exact .ite Prod.snd h (.ite Prod.snd h.startScore h.startStep)
  · exact h.modChan_same fun _ => by with_reducible rfl
  · exact h.modChan_same fun _ => by with_reducible rfl
  · exact h.modStore
  · exact h.modSvc
  · exact h.modSvc
  · exact .ite Prod.snd h h.modSvc
  · exact h.modStore
  · exact h.modSvc
  · exact h.setChan (h c).openWindow
  · split
    · exact h
    · exact h.modChan_same fun _ => by with_reducible rfl
  · exact h

theorem clearLogs {mask : Nat} (h : s.canonical) : (s.clearLogs mask).canonical := by
  unfold State.clearLogs
  extract_lets s₁
  have cleared : s₁.canonical := h.foldChans fun _ c h => by
    split
    · exact h.modChan_same fun _ => by with_reducible rfl
    · exact h
  clear_value s₁
  exact .either cleared.modMp cleared

theorem writeReinstate {v : Nat} (h : s.canonical) : (s.writeReinstate v).2.canonical := by
  unfold State.writeReinstate
  split
  · exact h
  · next c _ =>
    split
    · exact h
    · split
      · dsimp only
        have cleared : (s.modStore c fun t => { t with binFloor := 0 }).canonical := h.modStore
        have again : (State.reinstate (s.modStore c fun t => { t with binFloor := 0 }) c allReeds).canonical := cleared.reinstate
        exact again.retuneStopped
      · exact h.reinstate

theorem writeSupplement {d : List Byte} (h : s.canonical) : (s.writeSupplement d).2.canonical := by
  unfold State.writeSupplement
  split
  · exact h
  · exact .ite Prod.snd h h

theorem applyFault {index sub : Nat} {d : List Byte} (h : s.canonical) : (s.applyFault index sub d).2.canonical := by
  unfold State.applyFault
  extract_lets v
  split
  · exact h.clearLogs
  · exact h
  · exact h
  · exact h
  · exact h.writeSupplement
  · exact h
  · exact h
  · exact h
  · exact h
  · exact h
  · exact h
  · exact h
  · exact h.writeReinstate
  · exact h

theorem raiseSvn {o : WriteObs} (h : s.canonical) : (s.raiseSvn o).2.canonical := by
  unfold State.raiseSvn
  refine .ite Prod.snd h (.ite Prod.snd h ?_)
  split <;> exact h

theorem programSlot {d : List Byte} {o : WriteObs} (h : s.canonical) : (s.programSlot d o).2.canonical := by
  unfold State.programSlot
  exact .ite Prod.snd h (.ite Prod.snd h h)

theorem encapsulate {x : Session} {key : List Byte} (h : s.canonical) : (s.encapsulate x key).2.canonical := by
  unfold State.encapsulate
  extract_lets open_
  have drawn : (s.draw open_.length).2.canonical := h.draw
  generalize s.draw open_.length = y at drawn ⊢
  obtain ⟨i, s₁⟩ := y
  dsimp -zeta only
  split
  · exact drawn
  · exact modMp drawn.drew.modSvc

theorem startReport {x : Session} {txid op : Nat} {nonce : List Byte} (h : s.canonical) : (s.startReport x txid op nonce).2.canonical :=
  .ite Prod.snd h h

theorem requestReadout {x : Session} {txid op : Nat} {d : List Byte} (h : s.canonical) : (s.requestReadout x txid op d).2.canonical :=
  .ite Prod.snd h h

theorem activate {mask : Nat} (h : s.canonical) : (s.activate mask).canonical := foldl_keeps (fun _ _ h => .either (arm h) h) _ h

theorem applyPower {x : Session} {txid op index sub : Nat} {d : List Byte} {o : WriteObs} (h : s.canonical) :
    (s.applyPower x txid op index sub d o).2.canonical := by
  unfold State.applyPower
  extract_lets v r r'
  split
  · exact h
  · exact h
  · exact h
  · exact .ite Prod.snd h.leaveStandby (.ite Prod.snd h h.enterStandby)
  · exact h.startReport
  · exact .ite Prod.snd h h
  · exact h.encapsulate
  · exact h.stageImage
  · exact h.activate
  · exact h.raiseSvn
  · exact h.programSlot
  · exact h.requestReadout
  · exact h

theorem applyStop {x : Session} {txid op index sub : Nat} {d : List Byte} {o : WriteObs} (h : s.canonical) :
    (s.applyStop x txid op index sub d o).2.canonical := by
  unfold State.applyStop
  split
  · next c _ =>
    exact .ite Prod.snd h.applyChannel (.ite Prod.snd (h.setChan (h c).applyNumerics)
      (.ite Prod.snd (h.setChan (h c).applyMemory) (h.setChan (h c).applyBell)))
  · exact .ite Prod.snd h.applyIdentity (.ite Prod.snd h.applyFault h.applyPower)

theorem afterWrite {index sub : Nat} {d : List Byte} (h : s.canonical) : (s.afterWrite index sub d).canonical :=
  .either deviceReset.startBoot (.either (mpDown (.either h.modComp h)) h)

/-! ### The server -/

theorem answer {q : Req} {op index sub : Nat} {a : Answer} (h : s.canonical) : (s.answer q op index sub a).canonical :=
  h.of_chan (s.chan_answer q op index sub a)

theorem notifyOne {i index sub : Nat} {sees : Session → Bool} {payload : Session → List Byte} (h : s.canonical) :
    (s.notifyOne i sees index sub payload).canonical := h.of_chan (State.onlyMp_notifyOne s i sees index sub payload).chan

theorem markRead {x : Session} {index sub : Nat} (h : s.canonical) : (s.markRead x index sub).canonical := by
  unfold State.markRead
  refine .either h (.either h ?_)
  split
  · exact .either (h.modChan_same fun _ => by with_reducible rfl) h
  · exact h

/-- A request is served by a body and a sequel that keep the form. -/
theorem serve {q : Req} {op index sub : Nat} {body : Session → State → Answer × State} {post : State → State} (h : s.canonical)
    (hb : ∀ {x} {s : State}, s.canonical → (body x s).2.canonical) (hp : ∀ {s : State}, s.canonical → (post s).canonical) :
    outcomeCanonical (s.serve q op index sub body post) := by
  unfold State.serve
  extract_lets s₁ no x r t
  have touched : s₁.canonical := h.modSession
  have no : ∀ n, outcomeCanonical (no n) := fun n => touched.answer
  split
  · exact h
  · split
    · exact no _
    · split
      · exact no _
      · split
        · exact no _
        · split
          · exact touched.send
          · split
            · exact touched
            · split
              · split
                · trivial
                · exact no _
              · split
                · exact no _
                · have done : t.canonical := (hb touched).answer
                  exact State.canonical.either (hp done) done

theorem readBody {bad index sub : Nat} {x : Session} (h : s.canonical) : (readBody bad index sub x s).2.canonical := by
  unfold Machine.readBody
  exact .ite Prod.snd h (.ite Prod.snd h (.ite Prod.snd h h.markRead))

theorem writeBody {q : Req} {op : Nat} {block : Bool} {o : WriteObs} {index sub : Nat} {d : List Byte} {x : Session} (h : s.canonical) :
    (writeBody q op block o index sub d x s).2.canonical := by
  unfold Machine.writeBody
  split
  · exact h
  · exact .ite Prod.snd h (.ite Prod.snd h (.ite Prod.snd h (.ite Prod.snd h h.applyStop)))

theorem readStop {q : Req} {bad index sub : Nat} (h : s.canonical) : outcomeCanonical (s.readStop q bad index sub) :=
  h.serve (fun h => h.readBody) id

theorem writeStop {q : Req} {block : Bool} {o : WriteObs} {index sub : Nat} {d : List Byte} (h : s.canonical) :
    outcomeCanonical (s.writeStop q block o index sub d) := h.serve (fun h => h.writeBody) fun h => h.afterWrite

theorem put {q : Req} {index sub : Nat} {d : List Byte} (h : s.canonical) : outcomeCanonical (s.put q index sub d) := h.writeStop

theorem readBlockBody {bad index sub offset maximum : Nat} {x : Session} (h : s.canonical) :
    (readBlockBody bad index sub offset maximum x s).2.canonical := by
  unfold Machine.readBlockBody
  refine .ite Prod.snd h (.ite Prod.snd h (.ite Prod.snd h ?_))
  extract_lets held
  split
  · exact h
  · exact .ite Prod.snd h (modSession (.either h.markRead h))

theorem writeBlockBody {q : Req} {bad : Nat} {o : WriteObs} {index sub total offset : Nat} {d : List Byte} {x : Session} (h : s.canonical) :
    (writeBlockBody q bad o index sub total offset d x s).2.canonical := by
  unfold Machine.writeBlockBody
  split
  · exact h
  · extract_lets dropped held fits
    have dropped : dropped.canonical := h.modSession
    split
    · exact dropped
    · exact .ite Prod.snd dropped (.ite Prod.snd dropped (.ite Prod.snd dropped.writeBody (.ite Prod.snd dropped
        (.ite Prod.snd dropped h.modSession))))

theorem subscribe {q : Req} {bad mode index sub interval : Nat} (h : s.canonical) :
    outcomeCanonical (s.subscribe q bad mode index sub interval) := by
  refine h.serve (fun {x s} h => ?_) id
  unfold subscribeBody
  exact .ite Prod.snd h (.ite Prod.snd h h.modSession)

theorem idle (h : s.canonical) : s.idle.canonical := by
  unfold State.idle
  refine .either h (foldl_keeps (fun s x h => foldl_keeps (fun s u h => ?_) _ h) _ h)
  unfold State.notifyChange
  split
  · exact h
  · exact .either h h.modSession.notifyOne

/-! ### Sessions and datagrams -/

theorem answerSession {q : Req} {a : Answer} (h : s.canonical) : (s.answerSession q a).canonical := h.answer

theorem openSession {q : Req} {f : OpenFrame} {entry : Nat} (h : s.canonical) : (s.openSession q f entry).canonical := by
  unfold State.openSession
  exact answerSession (modMp h.drew.drew)

theorem serveOpen {q : Req} {bad : Nat} {f : OpenFrame} (h : s.canonical) : (s.serveOpen q bad f).canonical := by
  unfold State.serveOpen
  refine .either h (.either h.answerSession (.either h.answerSession ?_))
  split
  · exact h.answerSession
  · exact .either h.answerSession (.either h.answerSession (.either h.answerSession h.openSession))

theorem serveFinish {q : Req} {handle : Nat} {signature : List Byte} (h : s.canonical) : (s.serveFinish q handle signature).canonical := by
  unfold State.serveFinish
  refine .either h (.either h.answerSession ?_)
  split
  · exact h.answerSession
  · exact .either h.answerSession (.either h.answerSession (answerSession h.modMp))

theorem serveClose {q : Req} (h : s.canonical) : (s.serveClose q).canonical := by
  unfold State.serveClose
  refine .either h (.either h.answerSession ?_)
  split
  · exact h.answerSession
  · split
    · exact h.send
    · exact .either h.answerSession h.answerSession.closeSessions

theorem operate {q : Req} {op index sub : Nat} {p : List Byte} (h : s.canonical) : outcomeCanonical (s.operate q op index sub p) := by
  unfold State.operate
  split
  · exact h.readStop
  · exact h.writeStop
  · exact h.serve (fun h => h.readBlockBody) id
  · exact h.serve (fun h => h.writeBlockBody) id
  · exact h.subscribe
  · split
    · exact h.serveOpen
    · exact h.serveFinish
    · exact h.serveClose
    · exact State.canonical.either h.answerSession h
  · exact State.canonical.either h.answer h

theorem datagram {b : List Byte} (h : s.canonical) : outcomeCanonical (s.datagram b) := by
  unfold State.datagram
  extract_lets op i q index sub
  split
  · exact h
  · split
    · exact h.operate
    · split
      · split
        · exact h.serveClose
        · exact h.operate
      · split
        · exact h.modMp
        · exact h.modSession.operate

theorem takeToken {now : Nat} (h : s.canonical) : (s.takeToken now).2.canonical := by
  refine h.of_ch ?_
  unfold State.takeToken
  split
  · rfl
  · simp only [apply_ite Prod.snd, apply_ite State.ch, ite_self]

theorem pause (h : s.canonical) : s.pause.canonical := h

theorem receive {e len : Nat} (h : s.canonical) : (s.receive e len).2.canonical := .ite Prod.snd h h

theorem loseTargets (h : s.canonical) : (s.loseTargets c).canonical := by
  unfold State.loseTargets
  refine modSvc ?_
  split
  · exact foldl_keeps (fun _ _ h => targetFail h) _ h
  · exact h

theorem refuseScore {code : Nat} (h : s.canonical) : (s.refuseScore c code).canonical :=
  firmwareError (h.modChan_same fun _ => by with_reducible rfl)

end State.canonical

section

variable {s : State} {c : ChanId} (h : s.canonical)
include h

theorem execSessionIdleTimeout_canonical {i idle : Nat} : outcomeCanonical (execSessionIdleTimeout i idle s) :=
  State.canonical.either (x := s.closeSessions _) h.closeSessions h.modSession

theorem execHostFrameReceive_canonical {f : HostFrame} : outcomeCanonical (execHostFrameReceive f s) := by
  unfold execHostFrameReceive
  extract_lets +onlyGivenNames s₁ count s₂
  have paused : s₁.canonical := h
  have counted : s₂.canonical := paused
  clear_value s₁ s₂
  split
  · exact h
  · split
    · split
      · split
        · exact paused.modMp
        · exact paused.modMp
      · exact paused.modMp
    · split
      · exact counted.modMp
      · split
        · exact counted.modMp
        · split
          · exact counted.modMp
          · next e _ =>
            split
            · exact counted.modMp
            · have taken := counted.receive (e := e) (len := f.len)
              generalize s₂.receive e f.len = y at taken ⊢
              obtain ⟨ok, s₃⟩ := y
              dsimp -zeta only
              split
              · split
                · exact taken
                · have paid := State.canonical.takeToken (s := s₃) (now := f.now) taken
                  generalize s₃.takeToken f.now = y at paid ⊢
                  obtain ⟨ok, s₄⟩ := y
                  dsimp -zeta only
                  split
                  · exact paid.datagram
                  · exact paid
              · exact taken

theorem execHostLinkDown_canonical : outcomeCanonical (execHostLinkDown s) := by
  unfold execHostLinkDown
  split
  · exact h
  · exact State.canonical.foldChans h.modMp fun _ _ h => h.loseTargets

theorem execHostLinkUp_canonical {lanes : Nat} : outcomeCanonical (execHostLinkUp lanes s) := by
  unfold execHostLinkUp
  split
  · exact h
  · exact h

theorem execCmRequest_canonical : outcomeCanonical (execCmRequest c s) := by
  unfold execCmRequest
  extract_lets k
  split
  · exact h
  · split
    · exact h.modMp
    · split
      · exact h.modSvc
      · exact h

theorem execScoreCheckDone_canonical : outcomeCanonical (execScoreCheckDone c s) := by
  unfold execScoreCheckDone
  extract_lets k
  have read := fun addr len => (h c).load (space := 0) (addr := addr) (n := len)
  split
  · exact h
  · next addr len _ =>
    split
    · exact h.modChan_same fun _ => by with_reducible rfl
    · split
      · exact h.refuseScore
      · split
        next f m hm =>
        have loaded : m.canonical := by
          have kept := read addr len
          rwa [hm] at kept
        extract_lets s₁
        have seen : s₁.canonical := h.modChan (Channel.canonical.frameErrors ((h c).withMem loaded))
        clear_value s₁
        split
        · exact State.canonical.firmwareError (seen.modChan_same fun _ => by with_reducible rfl)
        · split
          · exact seen.refuseScore
          · exact (seen.modChan (seen c).acceptScore).resumeRestart

end

end Sys2Proof.Machine
end

section
/-! O59: every step keeps every memory in canonical form (09 R231, R243; 03 R62), from what each command does. -/

namespace Sys2Proof.Machine

open Sys2Proof

/-- Every command keeps the form: a client's request through the server, a lane command through the Valve, and the rest each by its own
lemma. -/
theorem exec_canonical {s : State} (i : Instr) (h : s.canonical) : outcomeCanonical (exec i s) := by
  cases i
  case channelReset | stopListRestore | bind | unbind | stopWrite | closeSession | clientKeyListWrite | hostEncapKeyWrite |
    confidentialModeWrite | loadScore | startFromPhrase0 | startFromStep | stopAtPhraseWrite | tunerClearCounters |
    tunerClearLog | portCountersClear | collCountersClear | pathPlanWrite | memCountersClear | restart | weightLoadOpen |
    weightLoadClose | attestationNonce | activateMpFirmware | activateChanterFirmware | activateEtudePack | mouthpieceReset |
    logClear | reinstate | reinstateAll | enterStandby | leaveStandby | declaredTimeWrite | meterReadoutRequest => exact h.put
  case classMapWrite | updateImage | raiseMinSvn | programOperatorSlot | operatorSupplementWrite => exact h.writeStop
  case subscribeCancel | subscribeOnChange | subscribeEachEntry => exact h.subscribe
  case nop | add | sub | mul | fma | min | max | cmp | sel | exp2 | log2 | rcp | rsqrt | tanh | sigm | cvt | qnt | dq | perm |
    permx | shl | shr | sar | and_ | or_ | xor_ | mov | movi => exact h.laneCmd
  case read => exact h.readStop
  case readBlock => exact h.serve (fun h => h.readBlockBody) id
  case readBlockSnapshotExpire => exact h.modSession
  case writeBlock => exact h.serve (fun h => h.writeBlockBody) id
  case writeBlockTimeout => exact h.modSession
  case sessionOpen => exact h.serveOpen
  case sessionFinish => exact h.serveFinish
  case sessionClose => exact h.serveClose
  case sessionOpenExpire => exact h.modMp
  case powerOn => exact execPowerOn_canonical h
  case strapEnd => exact execStrapEnd_canonical h
  case resetN => exact execResetN_canonical h
  case mpFirmwareReady => exact execMpFirmwareReady_canonical h
  case channelReady => exact execChannelReady_canonical h
  case sessionIdleTimeout => exact execSessionIdleTimeout_canonical h
  case hostFrameReceive => exact execHostFrameReceive_canonical h
  case hostLinkDown => exact execHostLinkDown_canonical h
  case hostLinkUp => exact execHostLinkUp_canonical h
  case cmRequest => exact execCmRequest_canonical h
  case hostRdmaWrite => exact execHostRdmaWrite_canonical h
  case bounceRecordReceive => exact execBounceRecordReceive_canonical h
  case scoreCheckDone => exact execScoreCheckDone_canonical h
  case stopComplete => exact execStopComplete_canonical h
  case beatTest => exact execBeatTest_canonical h
  case holdTimeout => exact execHoldTimeout_canonical h
  case aclkBinChangeDone => exact execAclkBinChangeDone_canonical h
  case crossingFifoSpace => exact execCrossingFifoSpace_canonical h
  case versionReloadDone => exact execVersionReloadDone_canonical h
  case overflowRetry => exact execOverflowRetry_canonical h
  case checksumMismatch => exact execChecksumMismatch_canonical h
  case tilePassEnd => exact execTilePassEnd_canonical h
  case underflowPass => exact execUnderflowPass_canonical h
  case tileRelease => exact execTileRelease_canonical h
  case valveRestart => exact execValveRestart_canonical h
  case vrunComplete => exact execVrunComplete_canonical h
  case in_ => exact execIn_canonical h
  case out => exact execOut_canonical h
  case drn => exact execDrn_canonical h
  case scalarWrite => exact execScalarWrite_canonical h
  case ploadComplete => exact execPloadComplete_canonical h
  case moveComplete => exact execMoveComplete_canonical h
  case pickComplete => exact execPickComplete_canonical h
  case mxioComplete => exact execMxioComplete_canonical h
  case openGranted => exact execOpenGranted_canonical h
  case verdictAgreed => exact execVerdictAgreed_canonical h
  case scalarsDone => exact execScalarsDone_canonical h
  case rollback => exact execRollback_canonical h
  case sendComplete => exact execSendComplete_canonical h
  case collMainPassDone => exact execCollMainPassDone_canonical h
  case collDelivered => exact execCollDelivered_canonical h
  case collTimeout => exact execCollTimeout_canonical h
  case sequencedFlitReceive => exact execSequencedFlitReceive_canonical h
  case keyDerived => exact execKeyDerived_canonical h
  case ackReceive => exact execAckReceive_canonical h
  case nakReceive => exact execNakReceive_canonical h
  case creditReceive => exact execCreditReceive_canonical h
  case helloReceive => exact execHelloReceive_canonical h
  case flitSlot => exact execFlitSlot_canonical h
  case ackTimer => exact execAckTimer_canonical h
  case replayTimeout => exact execReplayTimeout_canonical h
  case creditTimer => exact execCreditTimer_canonical h
  case helloTimer => exact execHelloTimer_canonical h
  case laneLockLoss => exact execLaneLockLoss_canonical h
  case downIdleEnd => exact execDownIdleEnd_canonical h
  case trainingDone => exact execTrainingDone_canonical h
  case discoveryWindowEnd => exact execDiscoveryWindowEnd_canonical h
  case hbmRefresh => exact execHbmRefresh_canonical h
  case scrubRead => exact execScrubRead_canonical h
  case cxlLinkLoss => exact execCxlLinkLoss_canonical h
  case shardFetch => exact execShardFetch_canonical h
  case shardResident => exact execShardResident_canonical h
  case targetReconnect => exact execTargetReconnect_canonical h
  case checkpointTargetFail => exact execCheckpointTargetFail_canonical h
  case checkpointDone => exact execCheckpointDone_canonical h
  case weightMeasureDone => exact execWeightMeasureDone_canonical h
  case attestationSigned => exact execAttestationSigned_canonical h
  case mpWatchdog => exact execMpWatchdog_canonical h
  case mpTrap => exact execMpTrap_canonical h
  case errorFifoDrain => exact execErrorFifoDrain_canonical h
  case haltResetTimer => exact execHaltResetTimer_canonical h
  case etudeDue => exact execEtudeDue_canonical h
  case rotationCopyDone => exact execRotationCopyDone_canonical h
  case etudePhaseDone => exact execEtudePhaseDone_canonical h
  case deferralDeadline => exact execDeferralDeadline_canonical h
  case etudeWindowEnd => exact execEtudeWindowEnd_canonical h
  case sagDetect => exact execSagDetect_canonical h
  case channelSaveWritten => exact execChannelSaveWritten_canonical h
  case saveComplete => exact execSaveComplete_canonical h
  case resumeDecision => exact execResumeDecision_canonical h
  case resumeStart => exact execResumeStart_canonical h
  case powerOff => exact execPowerOff_canonical h
  case ovEvent => exact execOvEvent_canonical h
  case capCheck => exact execCapCheck_canonical h
  case boardCapLevel => exact execBoardCapLevel_canonical h
  case thermalSample => exact execThermalSample_canonical h
  case thermN => exact execThermN_canonical h
  case thermalTrip => exact execThermalTrip_canonical h
  case refclkLLoss => exact execRefclkLLoss_canonical h
  case refclkCLoss => exact execRefclkCLoss_canonical h
  case meterPoll => exact execMeterPoll_canonical h
  case readoutComplete => exact execReadoutComplete_canonical h
  case meterInterval => exact execMeterInterval_canonical h
  case mtrPulseEnd => exact execMtrPulseEnd_canonical h
  case sealLoopSample => exact execSealLoopSample_canonical h
  case sealBroken => exact execSealBroken_canonical h
  case sealed => exact execSealed_canonical h
  case meterPowerUp => exact execMeterPowerUp_canonical h
  case resetNRelease => exact execResetNRelease_canonical h
  case refclkLReturn => exact execRefclkLReturn_canonical h
  case lowInput => exact execLowInput_canonical h
  case ovEpisodeEnd => exact execOvEpisodeEnd_canonical h
  case ovAlertHoldEnd => exact execOvAlertHoldEnd_canonical h
  case crystalStop => exact execCrystalStop_canonical h
  case restartLoadDone => exact execRestartLoadDone_canonical h
  case returnToP2 => exact execReturnToP2_canonical h
  case chordReloadDone => exact execChordReloadDone_canonical h

theorem step_canonical {s : State} (h : s.canonical) : outcomeCanonical (step s) := by
  unfold step
  split
  · exact h.idle
  · next i rest _ =>
    have taken : ({ s with pending := rest } : State).canonical := h
    exact exec_canonical i taken

/-- Settles O59: the next state of every step has every memory in canonical form, by cases on the command at the front of the queue. -/
theorem stepKeepsMemories : Obligations.StepKeepsMemories := by
  intro s t h e
  have kept := step_canonical h
  rw [e] at kept
  exact kept

end Sys2Proof.Machine
end

section
/-! SUPPORT. A line of the write-combining buffer written out: what a read sees does not change (09 R248 to R250, R260). -/

namespace Sys2Proof.Machine

open Sys2Proof

/-! ### Bytes written one by one -/

/-- Bytes written at their places above a base. -/
def written (d : Memory) (base : Nat) (bs : SMap Byte) : Memory :=
  bs.foldl (fun (d : Memory) (b : Nat × Byte) => d.wr (base + b.1) b.2) d

/-- The byte that a list of bytes above a base names for an address. -/
def byteFor (base : Nat) (bs : SMap Byte) (a : Nat) : Option Byte := (bs.find? (fun b => base + b.1 == a)).map Prod.snd

theorem byteFor_eq_none_iff {base a : Nat} {bs : SMap Byte} : byteFor base bs a = none ↔ ∀ b ∈ bs, base + b.1 ≠ a := by
  simp [byteFor]

/-- Of bytes that are named once each, each is read back, and no other changes. -/
theorem rd_written {d : Memory} {base a : Nat} {bs : SMap Byte} (h : d.wf = true) (hb : bs.Pairwise fun x y => x.1 < y.1) :
    (written d base bs).rd a = (byteFor base bs a).getD (d.rd a) := by
  induction bs generalizing d with
  | nil => rfl
  | cons b bs ih =>
    obtain ⟨later, rest⟩ := List.pairwise_cons.mp hb
    have step : (written d base (b :: bs)).rd a = (byteFor base bs a).getD ((d.wr (base + b.1) b.2).rd a) := ih (Memory.wf_wr _ _ h) rest
    rw [step]
    by_cases ha : base + b.1 = a
    · have gone : byteFor base bs a = none := byteFor_eq_none_iff.mpr fun x hx => by have := later x hx; omega
      have named : byteFor base (b :: bs) a = some b.2 := by simp [byteFor, ha]
      rw [gone, named, ← ha]
      exact Memory.rd_wr_self _ _ h
    · have passed : byteFor base (b :: bs) a = byteFor base bs a := by simp [byteFor, ha]
      rw [passed, Memory.rd_wr_ne _ (Ne.symm ha) h]

/-! ### Lines of the write-combining buffer -/

/-- The bytes of a line in its codeword `i`. -/
def WcbLine.word (l : WcbLine) (i : Nat) : SMap Byte := l.bytes.filter (fun b => 64 * i ≤ b.1 && b.1 < 64 * i + 64)

/-- The byte that a line holds for a tier address. -/
def WcbLine.held (l : WcbLine) (a : Nat) : Option Byte := byteFor l.addr l.bytes a

/-- Within its own addresses, a line names its bytes by their place in it. -/
theorem WcbLine.held_eq {l : WcbLine} {a : Nat} (ha : a / 256 * 256 = l.addr) :
    l.held a = (l.bytes.find? (fun b => b.1 == a % 256)).map Prod.snd := by
  have place : ∀ b : Nat × Byte, (l.addr + b.1 == a) = (b.1 == a % 256) := fun b => by
    rw [Bool.eq_iff_iff, beq_iff_eq, beq_iff_eq]
    omega
  unfold WcbLine.held byteFor
  simp only [place]

/-- A codeword of a line holds the line's bytes of that codeword. -/
theorem WcbLine.byteFor_word (l : WcbLine) (a i : Nat) :
    byteFor l.addr (l.word i) a = if l.addr + 64 * i ≤ a ∧ a < l.addr + 64 * i + 64 then l.held a else none := by
  unfold byteFor WcbLine.word WcbLine.held byteFor
  rw [List.find?_filter]
  split
  · next ha =>
    congr 2
    funext b
    rw [Bool.eq_iff_iff]
    simp only [Bool.and_eq_true, decide_eq_true_eq, beq_iff_eq]
    omega
  · next ha =>
    rw [Option.map_eq_none_iff, List.find?_eq_none]
    intro b hb
    simp only [Bool.and_eq_true, decide_eq_true_eq, beq_iff_eq]
    omega

theorem Mem.writeCodeword_dram (m : Mem) (l : WcbLine) (i : Nat) :
    (m.writeCodeword l i).dram = written m.dram l.addr (l.word i) := by
  unfold Mem.writeCodeword
  extract_lets bs _ _ _ _ m₁
  split
  · next none =>
    have : l.word i = [] := List.isEmpty_iff.mp none
    rw [this]
    rfl
  · split
    · rw [Mem.moved_dram]
      rfl
    · split
      · rw [Mem.moved_dram]
        have same : m₁.dram = m.dram := by
          unfold m₁
          split <;> rfl
        show written m₁.dram l.addr bs = _
        rw [same]
        rfl
      · rw [Mem.moved_dram]
        show written (m.checkCodeword l.cls (l.addr / 64 + i)).2.dram l.addr bs = _
        rw [Mem.checkCodeword_dram]
        rfl

theorem Mem.writeCodeword_wcb (m : Mem) (l : WcbLine) (i : Nat) : (m.writeCodeword l i).wcb = m.wcb := by
  unfold Mem.writeCodeword
  extract_lets bs _ _ _ _ m₁
  split
  · rfl
  · split
    · exact Mem.moved_wcb _ _ _
    · split
      · rw [Mem.moved_wcb]
        show m₁.wcb = m.wcb
        unfold m₁
        split <;> rfl
      · rw [Mem.moved_wcb]
        exact Mem.checkCodeword_wcb _ _ _

theorem Mem.writeLine_wcb (m : Mem) (l : WcbLine) : (m.writeLine l).wcb = m.wcb :=
  foldl_keeps (P := fun x : Mem => x.wcb = m.wcb) (fun x i hx => (x.writeCodeword_wcb l i).trans hx) _ rfl

namespace WcbLine.ok

variable {l : WcbLine}

/-- A line holds bytes of its own 256 addresses only. -/
theorem held_eq_none (h : l.ok) {a : Nat} (ha : a / 256 * 256 ≠ l.addr) : l.held a = none := by
  obtain ⟨aligned, inside, -⟩ := h
  refine byteFor_eq_none_iff.mpr fun b hb => ?_
  have := inside b hb
  omega

/-- Writing a codeword of a line out stores the bytes that the line holds in it. -/
theorem rd_writeCodeword (h : l.ok) {m : Mem} (hm : m.canonical) (a i : Nat) : (m.writeCodeword l i).dram.rd a =
    if l.addr + 64 * i ≤ a ∧ a < l.addr + 64 * i + 64 then (l.held a).getD (m.dram.rd a) else m.dram.rd a := by
  obtain ⟨-, -, once⟩ := id h
  rw [Mem.writeCodeword_dram, rd_written (bs := l.word i) hm.1 (once.filter _), l.byteFor_word]
  split <;> rfl

/-- Writing a line out stores the bytes that the line holds. -/
theorem rd_writeLine (h : l.ok) {m : Mem} (hm : m.canonical) (a : Nat) : (m.writeLine l).dram.rd a = (l.held a).getD (m.dram.rd a) := by
  have word0 := Mem.writeCodeword_canonical l 0 hm
  have word1 := Mem.writeCodeword_canonical l 1 word0
  have word2 := Mem.writeCodeword_canonical l 2 word1
  have steps : (m.writeLine l).dram.rd a = ((((m.writeCodeword l 0).writeCodeword l 1).writeCodeword l 2).writeCodeword l 3).dram.rd a := rfl
  rw [steps, h.rd_writeCodeword word2, h.rd_writeCodeword word1, h.rd_writeCodeword word0, h.rd_writeCodeword hm]
  obtain ⟨aligned, -, -⟩ := id h
  by_cases ha : a / 256 * 256 = l.addr
  · cases l.held a <;> simp only [Option.getD_none, Option.getD_some, ite_self]
    split_ifs
    · rfl
    · rfl
    · rfl
    · rfl
    · omega
  · rw [h.held_eq_none ha]
    simp only [Option.getD_none, ite_self]

end WcbLine.ok

/-! ### A pending write goes first -/

theorem Mem.addr_of_line {m : Mem} {a : Nat} {l : WcbLine} (hl : m.line a = some l) : a / 256 * 256 = l.addr := by
  unfold Mem.line at hl
  exact (beq_iff_eq.mp (List.find?_some hl :)).symm

/-- What a read sees, from the line that holds its address. -/
theorem Mem.byte_of_line {m : Mem} {a : Nat} {l : WcbLine} (hl : m.line a = some l) :
    m.byte a = (l.held a).getD (m.dram.rd a) := by
  rw [WcbLine.held_eq (addr_of_line hl)]
  unfold Mem.byte
  rw [hl, Option.bind_some]
  cases l.bytes.find? (fun b => b.1 == a % 256) <;> rfl

theorem Mem.byte_of_no_line {m : Mem} {a : Nat} (hl : m.line a = none) : m.byte a = m.dram.rd a := by
  unfold Mem.byte
  rw [hl]
  rfl

/-- The memory with a line taken out of the write-combining buffer and written out. -/
def Mem.evict (m : Mem) (l : WcbLine) : Mem := ({ m with wcb := m.wcb.filter (fun (x : WcbLine) => x.addr != l.addr) }).writeLine l

theorem Mem.line_evict_self {m : Mem} {l : WcbLine} {a : Nat} (ha : a / 256 * 256 = l.addr) : (m.evict l).line a = none := by
  unfold Mem.line Mem.evict
  rw [Mem.writeLine_wcb, List.find?_filter, List.find?_eq_none, ha]
  intro x _
  simp

theorem Mem.line_evict_ne {m : Mem} {l : WcbLine} {a : Nat} (ha : a / 256 * 256 ≠ l.addr) : (m.evict l).line a = m.line a := by
  unfold Mem.line Mem.evict
  rw [Mem.writeLine_wcb, List.find?_filter]
  congr 1
  funext x
  rw [Bool.eq_iff_iff]
  simp only [bne_iff_ne, beq_iff_eq, decide_eq_true_eq]
  exact ⟨And.right, fun e => ⟨fun e' => ha (e.symm.trans e'), e⟩⟩

/-- A line written out is seen as it was. -/
theorem Mem.byte_evict {m : Mem} {l : WcbLine} {b : Nat} (h : m.sound) (hl : m.line b = some l) (a : Nat) :
    (m.evict l).byte a = m.byte a := by
  obtain ⟨hm, ok, -⟩ := h
  have okl : l.ok := ok l (List.mem_of_find?_eq_some hl)
  have out : (m.evict l).dram.rd a = (l.held a).getD (m.dram.rd a) :=
    okl.rd_writeLine (m := { m with wcb := m.wcb.filter (fun (x : WcbLine) => x.addr != l.addr) }) hm a
  by_cases ha : a / 256 * 256 = l.addr
  · have here : m.line a = some l := by
      unfold Mem.line at hl ⊢
      rwa [ha, ← addr_of_line hl]
    rw [byte_of_no_line (line_evict_self ha), byte_of_line here, out]
  · rw [okl.held_eq_none ha, Option.getD_none] at out
    unfold Mem.byte
    rw [line_evict_ne ha, out]

/-- Before a codeword is read, the line that holds bytes of it is written out, where there is one. -/
theorem Mem.writeFirst_cases (m : Mem) (cwi : Nat) :
    (m.writePending cwi = false ∧ m.writeFirst cwi = m)
      ∨ m.writePending cwi = true ∧ ∃ l, m.line (64 * cwi) = some l ∧ m.writeFirst cwi = m.evict l := by
  unfold Mem.writeFirst
  split
  · next l pending line => exact .inr ⟨pending, l, line, rfl⟩
  · next no =>
    refine .inl ⟨?_, rfl⟩
    by_contra pending
    rw [Bool.not_eq_false] at pending
    cases line : m.line (64 * cwi) with
    | none =>
      unfold Mem.writePending at pending
      rw [line] at pending
      exact Bool.false_ne_true pending
    | some l => exact no l pending line

theorem Mem.writeFirst_of_not_pending {m : Mem} {cwi : Nat} (h : m.writePending cwi = false) : m.writeFirst cwi = m := by
  obtain ⟨-, same⟩ | ⟨pending, -⟩ := m.writeFirst_cases cwi
  · exact same
  · rw [h] at pending
    cases pending

theorem Mem.writePending_writeFirst (m : Mem) (cwi : Nat) : (m.writeFirst cwi).writePending cwi = false := by
  obtain ⟨no, same⟩ | ⟨-, l, hl, out⟩ := m.writeFirst_cases cwi
  · rwa [same]
  · unfold Mem.writePending
    rw [out, line_evict_self (addr_of_line hl)]

theorem Mem.byte_writeFirst {m : Mem} (h : m.sound) (cwi a : Nat) : (m.writeFirst cwi).byte a = m.byte a := by
  obtain ⟨-, same⟩ | ⟨-, l, hl, out⟩ := m.writeFirst_cases cwi
  · rw [same]
  · rw [out, byte_evict h hl]

end Sys2Proof.Machine
end

section
/-! O50: what the patrol scrub does to the codeword it reads (09 R239 to R241, R260). -/

namespace Sys2Proof.Machine

open Sys2Proof

/-! ### The place of the scrub takes part in nothing but the scrub -/

/-- The scrub's round moved to a place. -/
def Mem.scrubTo (m : Mem) (n : Nat) : Mem := { m with scrubAt := n }

/-- Bytes moved to or from the far tier are all that `moved` counts. -/
theorem Mem.moved_eq (m : Mem) (key n : Nat) :
    m.moved key n = { m with farBytes := if farBase ≤ key then m.farBytes + n else m.farBytes } := by
  unfold Mem.moved
  split <;> rfl

theorem Mem.moved_scrubTo (m : Mem) (n key b : Nat) : (m.scrubTo n).moved key b = (m.moved key b).scrubTo n := by
  rw [moved_eq, moved_eq]
  rfl

theorem Mem.writeBack_scrubTo (m : Mem) (n cwi : Nat) : (m.scrubTo n).writeBack cwi = (m.writeBack cwi).scrubTo n := by
  have pending : (m.scrubTo n).writePending cwi = m.writePending cwi := rfl
  unfold Mem.writeBack
  rw [pending]
  split
  · rfl
  · exact (m.setCodeword cwi (m.goodWord cwi)).moved_scrubTo n _ _

theorem Mem.checkCodeword_scrubTo (m : Mem) (n cls cwi : Nat) :
    (m.scrubTo n).checkCodeword cls cwi = ((m.checkCodeword cls cwi).1, (m.checkCodeword cls cwi).2.scrubTo n) := by
  have word : (m.scrubTo n).codeword cwi = m.codeword cwi := rfl
  have bad : ((m.scrubTo n).indications (m.codeword cwi)).uncorrectable cwi = (m.indications (m.codeword cwi)).uncorrectable cwi := rfl
  unfold Mem.checkCodeword
  dsimp only
  rw [word, bad]
  split
  · rfl
  · split
    · rfl
    · split
      · refine congrArg (Prod.mk false) ?_
        rw [← Mem.writeBack_scrubTo]
        rfl
      · rfl

theorem Mem.writeCodeword_scrubTo (m : Mem) (n : Nat) (l : WcbLine) (i : Nat) :
    (m.scrubTo n).writeCodeword l i = (m.writeCodeword l i).scrubTo n := by
  unfold Mem.writeCodeword
  dsimp only
  split
  · rfl
  · split
    · rw [← Mem.moved_scrubTo]
      rfl
    · split
      · rw [← Mem.moved_scrubTo]
        split <;> rfl
      · rw [← Mem.moved_scrubTo, checkCodeword_scrubTo]
        rfl

theorem Mem.writeLine_scrubTo (m : Mem) (n : Nat) (l : WcbLine) : (m.scrubTo n).writeLine l = (m.writeLine l).scrubTo n := by
  simp only [Mem.writeLine, List.foldl_cons, List.foldl_nil, writeCodeword_scrubTo]

theorem Mem.evict_scrubTo (m : Mem) (n : Nat) (l : WcbLine) : (m.scrubTo n).evict l = (m.evict l).scrubTo n :=
  Mem.writeLine_scrubTo { m with wcb := m.wcb.filter (fun (x : WcbLine) => x.addr != l.addr) } n l

theorem Mem.writeFirst_scrubTo (m : Mem) (n cwi : Nat) : (m.scrubTo n).writeFirst cwi = (m.writeFirst cwi).scrubTo n := by
  obtain ⟨no, same⟩ | ⟨pending, l, hl, out⟩ := m.writeFirst_cases cwi
  · rw [same]
    exact writeFirst_of_not_pending (m := m.scrubTo n) no
  · obtain ⟨no, -⟩ | ⟨-, l', hl', out'⟩ := (m.scrubTo n).writeFirst_cases cwi
    · have no' : m.writePending cwi = false := no
      rw [pending] at no'
      cases no'
    · obtain rfl : l = l' := Option.some.inj (hl.symm.trans hl')
      rw [out, out', evict_scrubTo]

/-! ### Frames of many corrections -/

/-- The error of a frame that has reached 16 corrections. -/
def frameErr (f : Nat) : RawErr := { cause := .eccFrame, cls := .C, unit := 5, detail := f, ended := some 1 }

/-- Logging the frames that have reached 16 corrections writes errors and forgets the frames. -/
theorem Channel.frameErrors_eq (k : Channel) :
    k.frameErrors = { k with mem := { k.mem with hits := [] }, err := k.frameErrors.err } :=
  foldl_keeps (P := fun x : Channel => x = { k with mem := { k.mem with hits := [] }, err := x.err })
    (fun x f hx => by rw [hx]; rfl) _ rfl

theorem Channel.has_frameErrors {k : Channel} {x : RawErr} (h : k.err.Has x) : k.frameErrors.err.Has x :=
  (k.frameErrors_loads 0).works.errs x h

/-- Each frame that has reached 16 corrections is logged. -/
theorem Channel.wroteErr_frameErrors {k : Channel} {f : Nat} (h : f ∈ k.mem.hits) : k.frameErrors.wroteErr 5 0 .eccFrame .C := by
  unfold Channel.frameErrors
  generalize ({ k with mem := { k.mem with hits := [] } } : Channel) = k'
  generalize k.mem.hits = l at h
  induction l generalizing k' with
  | nil => cases h
  | cons g l ih =>
    rcases List.mem_cons.mp h with rfl | h
    · have kept := foldl_keeps (P := fun x : Channel => x.err.Has (frameErr f)) (f := fun x g => x.raise (frameErr g))
        (fun _ _ h => Errors.has_push h _) l (a := k'.raise (frameErr f)) (Errors.has_push_self _ _)
      exact wroteErr_of_has kept
    · exact ih _ h

/-! ### The codeword read -/

/-- What the symbol ECC and ACHK cannot make good (09 R236, R255). -/
theorem Mem.uncorrectable_iff (m : Mem) (cwi : Nat) : m.uncorrectable cwi = true ↔
    ¬ ((m.codeword cwi).written = true ∧ (m.codeword cwi).achk = achkOf cwi m.epoch) ∨ 2 ≤ (m.codeword cwi).wrong
      ∨ (m.codeword cwi).poison = true := by
  unfold Mem.uncorrectable Mem.achkOk
  simp only [Bool.or_eq_true, Bool.not_eq_true', decide_eq_true_eq, ← Bool.not_eq_true, Bool.and_eq_true, beq_iff_eq, or_assoc]

theorem Mem.writePending_of_wcb {m m' : Mem} {cwi : Nat} (h : m'.wcb = m.wcb) : m'.writePending cwi = m.writePending cwi := by
  unfold Mem.writePending Mem.line
  rw [h]

theorem Mem.writeBack_of_idle {m : Mem} {cwi : Nat} (idle : m.writePending cwi = false) :
    m.writeBack cwi = (m.setCodeword cwi (m.goodWord cwi)).moved (64 * cwi) 64 := by
  unfold Mem.writeBack
  rw [idle]
  rfl

/-- A memory whose codeword `cwi` has been read at a tier address: the indications are counted and its bytes have moved (09 R240, R255,
R259). -/
def Mem.scrubRead (m : Mem) (key cwi : Nat) : Mem := (m.indications (m.codeword cwi)).moved key 64

theorem Mem.uncorrectable_scrubRead (m : Mem) (key cwi : Nat) : (m.scrubRead key cwi).uncorrectable cwi = m.uncorrectable cwi := by
  unfold Mem.scrubRead
  rw [moved_eq]
  rfl

/-- The memory after a read, its frames of 16 corrections logged. -/
def Mem.scrubSeen (m : Mem) (key cwi : Nat) : Mem :=
  { m with
    hits := [], farBytes := if farBase ≤ key then m.farBytes + 64 else m.farBytes
    cnt := { m.cnt with
      odUncorr := sat32 m.cnt.odUncorr (bit (m.codeword cwi).onDie), cxlPoison := sat32 m.cnt.cxlPoison (bit (m.codeword cwi).poison) } }

theorem Mem.scrubRead_eq (m : Mem) (key cwi : Nat) : { m.scrubRead key cwi with hits := [] } = m.scrubSeen key cwi := by
  unfold Mem.scrubRead
  rw [moved_eq]
  rfl

/-- The memory after a read whose codeword could not be corrected, and the error that tells of it. -/
def Mem.scrubFailed (m : Mem) (key cwi : Nat) : Mem :=
  let r := m.scrubRead key cwi
  { r with cnt := { r.cnt with scrubUncorr := sat32 r.cnt.scrubUncorr 1 } }

def scrubErr (page : Nat) : RawErr := { cause := .memUncorr, cls := .C, unit := 5, detail := page, ended := some 4, fixedClass := true }

/-- The memory after a read whose codeword has been corrected and written back. -/
def Mem.scrubFixed (m : Mem) (key cwi : Nat) : Mem :=
  let r := m.scrubRead key cwi
  ({ r with cnt := { r.cnt with scrubCorr := sat32 r.cnt.scrubCorr 1 } }.corrected cwi).writeBack cwi

/-- The scrub of a codeword: what cannot be corrected is logged, one wrong symbol is corrected, and the frames are logged. -/
theorem Channel.scrubAt_eq (k : Channel) (q : Place) :
    let cwi := q.key / 64
    let m := k.mem.writeFirst cwi
    k.scrubAt q =
      if m.uncorrectable cwi then
        (({ k with mem := m.scrubFailed q.key cwi }).raise (scrubErr (k.mem.scrubAt / pageCodewords))).frameErrors
      else if (m.codeword cwi).wrong = 1 then ({ k with mem := m.scrubFixed q.key cwi }).frameErrors
      else ({ k with mem := m.scrubRead q.key cwi }).frameErrors := by
  intro cwi m
  rw [← m.uncorrectable_scrubRead q.key cwi]
  rfl

theorem Mem.scrubFailed_eq (m : Mem) (key cwi : Nat) : { m.scrubFailed key cwi with hits := [] } =
    { m.scrubSeen key cwi with cnt := { (m.scrubSeen key cwi).cnt with scrubUncorr := sat32 m.cnt.scrubUncorr 1 } } := by
  unfold Mem.scrubFailed Mem.scrubRead
  rw [moved_eq]
  rfl

theorem Mem.scrubFixed_eq {m : Mem} (key : Nat) {cwi : Nat} (idle : m.writePending cwi = false) :
    let seen := m.scrubSeen key cwi
    let frame := SMap.get 0 m.corrections (cwi / 32768) + 1
    m.scrubFixed key cwi = { seen with
      cw := SMap.set {} m.cw cwi { written := true, achk := achkOf cwi m.epoch }
      corrections := SMap.set 0 m.corrections (cwi / 32768) frame
      hits := if frame = 16 then m.hits ++ [cwi / 32768] else m.hits
      farBytes := if farBase ≤ 64 * cwi then seen.farBytes + 64 else seen.farBytes
      cnt := { seen.cnt with scrubCorr := sat32 m.cnt.scrubCorr 1 } } := by
  intro seen frame
  unfold Mem.scrubFixed Mem.scrubRead
  rw [moved_eq]
  dsimp only
  rw [writeBack_of_idle, moved_eq]
  · rfl
  · exact (writePending_of_wcb rfl).trans idle

section

variable {k : Channel} {q : Place} {m : Mem} {cwi : Nat} (hq : q.key / 64 = cwi) (hm : k.mem.writeFirst cwi = m)
include hq hm

/-- A codeword that cannot be corrected is counted and logged, and stays. -/
theorem Channel.scrubAt_of_bad (bad : m.uncorrectable cwi = true) :
    (k.scrubAt q).wroteErr 5 0 .memUncorr .C
      ∧ k.scrubAt q = { k with err := (k.scrubAt q).err, mem := { m.scrubFailed q.key cwi with hits := [] } } := by
  subst hq hm
  rw [scrubAt_eq, if_pos bad]
  refine ⟨?_, Channel.frameErrors_eq _⟩
  exact wroteErr_of_has (x := scrubErr _) (has_frameErrors (Errors.has_push_self _ _))

/-- A codeword with one wrong symbol is corrected, written back and counted, and its frame is logged at the sixteenth. -/
theorem Channel.scrubAt_of_one_wrong (good : ¬ m.uncorrectable cwi = true) (one : (m.codeword cwi).wrong = 1) :
    (SMap.get 0 m.corrections (cwi / 32768) + 1 = 16 → (k.scrubAt q).wroteErr 5 0 .eccFrame .C)
      ∧ k.scrubAt q = { k with err := (k.scrubAt q).err, mem := { m.scrubFixed q.key cwi with hits := [] } } := by
  subst hq hm
  rw [scrubAt_eq, if_neg good, if_pos one]
  refine ⟨fun full => wroteErr_frameErrors (f := q.key / 64 / 32768) ?_, Channel.frameErrors_eq _⟩
  rw [Mem.scrubFixed_eq q.key (k.mem.writePending_writeFirst _)]
  dsimp only
  rw [if_pos full]
  exact List.mem_append_right _ (List.mem_singleton_self _)

/-- A codeword with nothing to correct is left as it is. -/
theorem Channel.scrubAt_of_good (good : ¬ m.uncorrectable cwi = true) (right : (m.codeword cwi).wrong ≠ 1) :
    k.scrubAt q = { k with err := (k.scrubAt q).err, mem := m.scrubSeen q.key cwi } := by
  subst hq hm
  rw [scrubAt_eq, if_neg good, if_neg right, ← Mem.scrubRead_eq]
  exact Channel.frameErrors_eq _

end

end Sys2Proof.Machine
end

section
/-! O50: an HBM refresh delays transfers: collisions counted, tags of actions and tokens (09 R230; 07 R171; 03 R89). -/

namespace Sys2Proof.Machine

open Sys2Proof

/-! ### Tags of actions in flight and of tokens -/

/-- An action in flight with a tag of the refresh. -/
def Flight.tagged (f : Flight) : Flight := { f with tag := some .hbmRefresh }

def Token.tagged (t : Token) : Token := { t with tag := some .hbmRefresh }

theorem Token.tagged_tagged (t : Token) : t.tagged.tagged = t.tagged := rfl

/-- A refresh that delays the units `l` tags the action: it is on one of them, with no tag yet or the far tier's. -/
def Flight.hit (l : List Nat) (f : Flight) : Prop := f.unit ∈ l ∧ (f.tag = none ∨ f.tag = some .farTier)

theorem Flight.not_hit_tagged (l : List Nat) (f : Flight) : ¬ f.tagged.hit l := fun h => by
  obtain ⟨-, h | h⟩ := h <;> cases h

/-- A token of which an action in flight that a refresh tags is the producer. -/
def Channel.hitToken (k : Channel) (l : List Nat) (n : Nat) : Prop := ∃ u f, k.flight u = some f ∧ f.hit l ∧ f.token = some n

theorem Channel.unit_of_flight {k : Channel} {u : Nat} {f : Flight} (h : k.flight u = some f) : f.unit = u := by
  unfold Channel.flight at h
  exact beq_iff_eq.mp (List.find?_some h :)

theorem Channel.token_modToken_ne (k : Channel) {n j : Nat} {f : Token → Token} (h : f (k.token n) ≠ {}) (hj : j ≠ n) :
    (k.modToken n f).token j = k.token j := by
  rw [Channel.modToken, Channel.token, SMap.set, if_neg h, SMap.get_put_ne _ _ _ hj rfl, Channel.token]

/-- The refresh's delay of the units `l` has been counted, and has tagged actions and tokens. -/
structure Channel.Refreshed (l : List Nat) (k k' : Channel) : Prop where
  frame : k' = { k with flights := k'.flights, tokens := k'.tokens, mem := { k.mem with cnt := { k.mem.cnt with
    refreshColl := l.foldl (fun n _ => sat32 n 1) k.mem.cnt.refreshColl } } }
  transfers : k'.flights.map (fun (f : Flight) => (f.unit, f.entry, f.token)) = k.flights.map (fun (f : Flight) => (f.unit, f.entry, f.token))
  none : ∀ u, k.flight u = none → k'.flight u = none
  hit : ∀ u f, k.flight u = some f → f.hit l → k'.flight u = some f.tagged
  miss : ∀ u f, k.flight u = some f → ¬ f.hit l → k'.flight u = some f
  tags : ∀ n, k.hitToken l n → k'.token n = (k.token n).tagged
  keeps : ∀ n, ¬ k.hitToken l n → k'.token n = k.token n

namespace Channel.Refreshed

variable {k k₁ k' : Channel} {u : Nat} {l : List Nat}

theorem refl (k : Channel) : k.Refreshed [] k where
  frame := rfl
  transfers := rfl
  none _ h := h
  hit _ _ _ h := absurd h.1 List.not_mem_nil
  miss _ _ h _ := h
  tags _ := fun ⟨_, _, _, h, _⟩ => absurd h.1 List.not_mem_nil
  keeps _ _ := rfl

theorem hit_cons {f : Flight} : f.hit (u :: l) ↔ f.hit [u] ∨ f.hit l := by
  simp only [Flight.hit, List.mem_cons, List.not_mem_nil, or_false, ← or_and_right]

/-- The actions that the delay of the rest tags are those that it would have tagged at the start, but for the ones tagged by now. -/
theorem hitToken_cons (h : k.Refreshed [u] k₁) (n : Nat) : k.hitToken (u :: l) n ↔ k.hitToken [u] n ∨ k₁.hitToken l n := by
  constructor
  · rintro ⟨v, f, hf, hit, hn⟩
    by_cases first : f.hit [u]
    · exact .inl ⟨v, f, hf, first, hn⟩
    · exact .inr ⟨v, f, h.miss v f hf first, (hit_cons.mp hit).resolve_left first, hn⟩
  · rintro (⟨v, f, hf, hit, hn⟩ | ⟨v, g, hg, hit, hn⟩)
    · exact ⟨v, f, hf, hit_cons.mpr (.inl hit), hn⟩
    · cases hf : k.flight v with
      | none => exact nomatch (h.none v hf).symm.trans hg
      | some f =>
        by_cases first : f.hit [u]
        · obtain rfl := Option.some.inj ((h.hit v f hf first).symm.trans hg)
          exact absurd hit (f.not_hit_tagged l)
        · obtain rfl := Option.some.inj ((h.miss v f hf first).symm.trans hg)
          exact ⟨v, f, hf, hit_cons.mpr (.inr hit), hn⟩

/-- The delay of one unit and then of the rest. -/
theorem cons (h : k.Refreshed [u] k₁) (h' : k₁.Refreshed l k') : k.Refreshed (u :: l) k' where
  frame := by
    rw [h'.frame, h.frame]
    rfl
  transfers := h'.transfers.trans h.transfers
  none v hv := h'.none v (h.none v hv)
  hit v f hf hit := by
    by_cases first : f.hit [u]
    · exact h'.miss v _ (h.hit v f hf first) (f.not_hit_tagged l)
    · exact h'.hit v f (h.miss v f hf first) ((hit_cons.mp hit).resolve_left first)
  miss v f hf hit := by
    rw [hit_cons, not_or] at hit
    exact h'.miss v f (h.miss v f hf hit.1) hit.2
  tags n hn := by
    by_cases first : k.hitToken [u] n
    · have here := h.tags n first
      by_cases later : k₁.hitToken l n
      · rw [h'.tags n later, here, Token.tagged_tagged]
      · rw [h'.keeps n later, here]
    · rw [h'.tags n (((h.hitToken_cons n).mp hn).resolve_left first), h.keeps n first]
  keeps n hn := by
    rw [h.hitToken_cons, not_or] at hn
    rw [h'.keeps n hn.2, h.keeps n hn.1]

end Channel.Refreshed

/-! ### The delays of a refresh -/

/-- A collision is counted. -/
def Channel.countRefresh (k : Channel) : Channel :=
  { k with mem := { k.mem with cnt := { k.mem.cnt with refreshColl := sat32 k.mem.cnt.refreshColl 1 } } }

/-- One delayed transfer. -/
def Channel.delayOne (k : Channel) (u : Nat) : Channel :=
  match k.countRefresh.flight u with
  | some f => if f.tag = none ∨ f.tag = some .farTier then k.countRefresh.tagFlight u .hbmRefresh else k.countRefresh
  | none => k.countRefresh

/-- A delay that tags nothing. -/
theorem Channel.refreshed_countRefresh {k : Channel} {u : Nat} (h : ∀ f, k.flight u = some f → ¬ f.hit [u]) :
    k.Refreshed [u] k.countRefresh := by
  have none : ∀ v f, k.flight v = some f → ¬ f.hit [u] := fun v f hf hit => by
    have at_ := List.mem_singleton.mp hit.1
    rw [unit_of_flight hf] at at_
    exact h f (at_ ▸ hf) hit
  exact ⟨rfl, rfl, fun _ h => h, fun v f hf hit => absurd hit (none v f hf), fun _ _ hf _ => hf,
    fun _ ⟨v, f, hf, hit, _⟩ => absurd hit (none v f hf), fun _ _ => rfl⟩

/-- Tagging the actions on a unit finds the same actions, those on the unit tagged. -/
theorem Channel.find_tagged (l : List Flight) (u v : Nat) :
    (l.map (fun (g : Flight) => if g.unit == u then g.tagged else g)).find? (fun (g : Flight) => g.unit == v) =
      (l.find? (fun (g : Flight) => g.unit == v)).map (fun (g : Flight) => if g.unit == u then g.tagged else g) := by
  rw [List.find?_map]
  congr 2
  funext g
  simp only [Function.comp_apply]
  split <;> rfl

/-- The channel after a collision whose action is tagged, and its token with it. -/
theorem Channel.tagFlight_countRefresh {k : Channel} {u : Nat} {f : Flight} (hf : k.flight u = some f) :
    k.countRefresh.tagFlight u .hbmRefresh =
      ({ k.countRefresh with flights := k.flights.map (fun (g : Flight) => if g.unit == u then g.tagged else g) }).tagToken f.token
        .hbmRefresh := by
  have here : k.countRefresh.flight u = some f := hf
  rw [Channel.tagFlight, here]
  rfl

theorem Channel.flights_tagToken (k : Channel) (t : Option Nat) (c : HoldCause) : (k.tagToken t c).flights = k.flights := by
  cases t <;> rfl

theorem Channel.tagToken_frame (k : Channel) (t : Option Nat) (c : HoldCause) :
    k.tagToken t c = { k with tokens := (k.tagToken t c).tokens } := by
  cases t <;> rfl

theorem Channel.token_tagToken_self (k : Channel) (n : Nat) : (k.tagToken (some n) .hbmRefresh).token n = (k.token n).tagged :=
  k.token_modToken_self n fun h => nomatch congrArg Token.tag h

theorem Channel.token_tagToken_ne (k : Channel) {t : Option Nat} {n : Nat} (h : t ≠ some n) :
    (k.tagToken t .hbmRefresh).token n = k.token n := by
  cases t with
  | none => rfl
  | some m => exact k.token_modToken_ne (fun h => nomatch congrArg Token.tag h) fun e => h (congrArg some e.symm)

/-- A delay of an action that it tags. -/
theorem Channel.refreshed_tagFlight {k : Channel} {u : Nat} {f : Flight} (hf : k.flight u = some f) (hit : f.hit [u]) :
    k.Refreshed [u] (k.countRefresh.tagFlight u .hbmRefresh) := by
  rw [tagFlight_countRefresh hf]
  have found : ∀ v, Channel.flight (({ k.countRefresh with
        flights := k.flights.map (fun (g : Flight) => if g.unit == u then g.tagged else g) } : Channel).tagToken f.token .hbmRefresh) v
      = (k.flight v).map (fun (g : Flight) => if g.unit == u then g.tagged else g) := fun v => by
    rw [Channel.flight, flights_tagToken]
    exact find_tagged k.flights u v
  have only : ∀ v g, k.flight v = some g → g.unit = u → g = f := fun v g hg hu => by
    rw [← unit_of_flight hg, hu] at hg
    exact Option.some.inj (hg.symm.trans hf)
  constructor
  case frame =>
    rw [tagToken_frame]
    rfl
  case transfers =>
    rw [flights_tagToken, List.map_map]
    refine List.map_congr_left fun g _ => ?_
    simp only [Function.comp_apply]
    split <;> rfl
  case none =>
    intro v hv
    rw [found, hv]
    rfl
  case hit =>
    intro v g hg hit
    rw [found, hg, Option.map_some, if_pos (beq_iff_eq.mpr (List.mem_singleton.mp hit.1))]
  case miss =>
    intro v g hg miss
    rw [found, hg, Option.map_some, if_neg]
    rw [beq_iff_eq]
    exact fun hu => miss (only v g hg hu ▸ hit)
  case tags =>
    rintro n ⟨v, g, hg, hit, hn⟩
    rw [← only v g hg (List.mem_singleton.mp hit.1), hn]
    exact token_tagToken_self _ n
  case keeps =>
    exact fun n hn => token_tagToken_ne _ fun e => hn ⟨u, f, hf, hit, e⟩

theorem Channel.refreshed_delayOne (k : Channel) (u : Nat) : k.Refreshed [u] (k.delayOne u) := by
  unfold Channel.delayOne
  split
  · next f hf =>
    have here : k.flight u = some f := hf
    split
    · next free => exact refreshed_tagFlight here ⟨List.mem_singleton.mpr (unit_of_flight here), free⟩
    · next busy =>
      refine refreshed_countRefresh fun g hg hit => busy ?_
      obtain rfl := Option.some.inj (here.symm.trans hg)
      exact hit.2
  · next hf => exact refreshed_countRefresh fun f h => nomatch (show k.flight u = none from hf).symm.trans h

theorem Channel.refreshed_delays (k : Channel) (l : List Nat) : k.Refreshed l (l.foldl Channel.delayOne k) := by
  induction l generalizing k with
  | nil => exact .refl k
  | cons u l ih => exact (k.refreshed_delayOne u).cons (ih _)

end Sys2Proof.Machine
end

section
/-! O50: the refresh, the patrol scrub and the loss of the far tier's link (09 R230, R239 to R241, R255, R260; 22 R490). -/

namespace Sys2Proof.Machine

open Sys2Proof

/-! ### HBM_REFRESH -/

theorem exec_hbmRefresh (s : State) (c : ChanId) (delayed : List Nat) : exec (.hbmRefresh c delayed) s =
    .next (s.modChan c (fun k => (delayed.filter (fun u => (k.flight u).isSome)).foldl Channel.delayOne k)) := rfl

/-- Of the units that a refresh delays, those that matter have an action in flight. -/
theorem Flight.hit_filter {k : Channel} {delayed : List Nat} {u : Nat} {f : Flight} (h : k.flight u = some f) :
    f.hit (delayed.filter (fun u => (k.flight u).isSome)) ↔ f.hit delayed := by
  have here : (k.flight f.unit).isSome = true := by rw [Channel.unit_of_flight h, h]; rfl
  simp only [Flight.hit, List.mem_filter, here, and_true]

/-! ### SCRUB_READ -/

/-- The scrub's read of the codeword of its round at `pos`, which lies at `q`. -/
def Channel.scrubCodeword (k : Channel) (pos : Nat) (q : Place) : Channel :=
  let k := ({ k with mem := k.mem.scrubTo pos }).scrubAt q
  { k with mem := k.mem.scrubTo (pos + 1) }

/-- The channel after what the read is to find has come about. -/
def Channel.scrubUpset (k : Channel) (found : Option Upset) (q : Place) : Channel :=
  match found with
  | some u => k.upset { u with addr := q.key }
  | none => k

/-- The next step of the scrub's round. -/
def Channel.scrubStep (k : Channel) (found : Option Upset) : Channel :=
  match k.mem.scrubNext k.mem.scrubAt with
  | none => if k.mem.scrubAt = 0 then k else { k with mem := { k.mem with scrubAt := 0, scrubPasses := wrap32 (k.mem.scrubPasses + 1) } }
  | some pos =>
    match k.mem.scrubKey pos with
    | none => k
    | some q => (k.scrubUpset found q).scrubCodeword pos q

/-- The scrub does nothing: it is off, the channel is stopped, or the device is asleep or in standby (09 R241; 19 R442). -/
def State.scrubIdle (s : State) (c : ChanId) : Prop :=
  (s.chan c).st = .init ∨ (s.chan c).st = .halted ∨ (s.chan c).st = .holdup ∨ (s.chan c).mem.scrubRate = 0 ∨ s.awake = false
    ∨ s.power.standby = true

theorem exec_scrubRead (s : State) (c : ChanId) (found : Option Upset) : exec (.scrubRead c found) s =
    if (s.chan c).st == .init || (s.chan c).st == .halted || (s.chan c).st == .holdup || (s.chan c).mem.scrubRate == 0 || !s.awake
      || s.power.standby then .next s
    else .next (s.modChan c (Channel.scrubStep · found)) := rfl

theorem State.scrubIdle_iff (s : State) (c : ChanId) : s.scrubIdle c ↔
    ((s.chan c).st == .init || (s.chan c).st == .halted || (s.chan c).st == .holdup || (s.chan c).mem.scrubRate == 0 || !s.awake
      || s.power.standby) = true := by
  simp [State.scrubIdle, or_assoc]

theorem exec_scrubRead_of_idle {s : State} {c : ChanId} (found : Option Upset) (h : s.scrubIdle c) :
    exec (.scrubRead c found) s = .next s := by
  rw [exec_scrubRead, if_pos ((s.scrubIdle_iff c).mp h)]

theorem exec_scrubRead_of_not_idle {s : State} {c : ChanId} (found : Option Upset) (h : ¬ s.scrubIdle c) :
    exec (.scrubRead c found) s = .next (s.modChan c (Channel.scrubStep · found)) := by
  rw [exec_scrubRead, if_neg fun e => h ((s.scrubIdle_iff c).mpr e)]

theorem Channel.scrubStep_of_place {k : Channel} {pos : Nat} {q : Place} (found : Option Upset)
    (hpos : k.mem.scrubNext k.mem.scrubAt = some pos) (hq : k.mem.scrubKey pos = some q) : k.scrubStep found = (k.scrubUpset found q).scrubCodeword pos q := by
  rw [Channel.scrubStep, hpos]
  dsimp only
  rw [hq]

section

variable {k : Channel} {pos cwi : Nat} {q : Place} {m : Mem} (hq : q.key / 64 = cwi) (hm : k.mem.writeFirst cwi = m)
include hq hm

/-- What cannot be corrected is counted and logged, and stays. -/
theorem Channel.scrubCodeword_of_bad (bad : m.uncorrectable cwi = true) :
    let seen := { m.scrubSeen q.key cwi with scrubAt := pos + 1 }
    (k.scrubCodeword pos q).wroteErr 5 0 .memUncorr .C ∧ k.scrubCodeword pos q = { k with
      err := (k.scrubCodeword pos q).err, mem := { seen with cnt := { seen.cnt with scrubUncorr := sat32 m.cnt.scrubUncorr 1 } } } := by
  subst hm
  obtain ⟨wrote, after⟩ := scrubAt_of_bad (k := { k with mem := k.mem.scrubTo pos }) hq (k.mem.writeFirst_scrubTo pos cwi) bad
  refine ⟨wrote, ?_⟩
  unfold Channel.scrubCodeword
  rw [after, Mem.scrubFailed_eq]
  rfl

/-- One wrong symbol is corrected, written back and counted, and its frame is logged at the sixteenth. -/
theorem Channel.scrubCodeword_of_one_wrong (good : ¬ m.uncorrectable cwi = true) (one : (m.codeword cwi).wrong = 1) :
    let seen := { m.scrubSeen q.key cwi with scrubAt := pos + 1 }
    let frame := SMap.get 0 m.corrections (cwi / 32768) + 1
    (frame = 16 → (k.scrubCodeword pos q).wroteErr 5 0 .eccFrame .C) ∧ k.scrubCodeword pos q = { k with
      err := (k.scrubCodeword pos q).err, mem := { seen with
        cw := SMap.set {} m.cw cwi { written := true, achk := achkOf cwi m.epoch }
        corrections := SMap.set 0 m.corrections (cwi / 32768) frame
        farBytes := if farBase ≤ 64 * cwi then seen.farBytes + 64 else seen.farBytes
        cnt := { seen.cnt with scrubCorr := sat32 m.cnt.scrubCorr 1 } } } := by
  subst hm
  obtain ⟨wrote, after⟩ := scrubAt_of_one_wrong (k := { k with mem := k.mem.scrubTo pos }) hq (k.mem.writeFirst_scrubTo pos cwi) good one
  have idle : Mem.writePending ((k.mem.writeFirst cwi).scrubTo pos) cwi = false := k.mem.writePending_writeFirst cwi
  refine ⟨wrote, ?_⟩
  unfold Channel.scrubCodeword
  rw [after, Mem.scrubFixed_eq q.key idle]
  rfl

/-- A codeword with nothing to correct is left as it is. -/
theorem Channel.scrubCodeword_of_good (good : ¬ m.uncorrectable cwi = true) (right : (m.codeword cwi).wrong ≠ 1) :
    k.scrubCodeword pos q =
      { k with err := (k.scrubCodeword pos q).err, mem := { m.scrubSeen q.key cwi with scrubAt := pos + 1 } } := by
  subst hm
  have after := scrubAt_of_good (k := { k with mem := k.mem.scrubTo pos }) hq (k.mem.writeFirst_scrubTo pos cwi) good right
  unfold Channel.scrubCodeword
  rw [after]
  rfl

end

/-! ### What a read sees after the scrub -/

theorem Mem.SameData.byte {m m' : Mem} (h : m.SameData m') (a : Nat) : m'.byte a = m.byte a := by
  unfold Mem.byte Mem.line
  rw [h.wcb, h.dram]

theorem Mem.SameData.sound {m m' : Mem} (h : m.SameData m') (hm : m.sound) : m'.sound := by
  unfold Mem.sound Mem.canonical
  rw [h.wcb, h.dram, h.chest]
  exact hm

/-- Disturbed bits are found by the protection, and the bytes are what they were (09 R236, R240, R255). -/
theorem Channel.upset_sameData (k : Channel) (u : Upset) : k.mem.SameData (k.upset u).mem := by
  unfold Channel.upset
  extract_lets onReed
  have reed : ∀ f, k.mem.SameData (onReed f).mem := fun f => by
    unfold onReed
    split <;> exact .refl _
  split
  · exact reed _
  · exact ⟨rfl, rfl, rfl⟩
  · exact ⟨rfl, rfl, rfl⟩
  · exact reed _
  · exact reed _
  · exact ⟨rfl, rfl, rfl⟩

theorem Channel.scrubUpset_sameData (k : Channel) (found : Option Upset) (q : Place) : k.mem.SameData (k.scrubUpset found q).mem := by
  cases found with
  | none => exact .refl _
  | some u => exact k.upset_sameData _

theorem Mem.scrubRead_sameData (m : Mem) (key cwi : Nat) : m.SameData (m.scrubRead key cwi) := by
  unfold Mem.scrubRead
  rw [moved_eq]
  exact ⟨rfl, rfl, rfl⟩

/-- The scrub's read of a codeword leaves the data as a pending write to it has left them. -/
theorem Channel.scrubAt_sameData (k : Channel) (q : Place) : (k.mem.writeFirst (q.key / 64)).SameData (k.scrubAt q).mem := by
  have read := (k.mem.writeFirst (q.key / 64)).scrubRead_sameData q.key (q.key / 64)
  rw [scrubAt_eq]
  split
  · rw [frameErrors_eq]
    exact read.trans ⟨rfl, rfl, rfl⟩
  · split
    · rw [frameErrors_eq, Mem.scrubFixed_eq q.key (k.mem.writePending_writeFirst _)]
      exact ⟨rfl, rfl, rfl⟩
    · rw [frameErrors_eq]
      exact read.trans ⟨rfl, rfl, rfl⟩

/-- No byte that a read sees changes in a step of the scrub. -/
theorem Channel.byte_scrubStep {k : Channel} (h : k.mem.sound) (found : Option Upset) (a : Nat) :
    (k.scrubStep found).mem.byte a = k.mem.byte a := by
  unfold Channel.scrubStep
  split
  · split <;> rfl
  · next pos _ =>
    split
    · rfl
    · next q _ =>
      have upset := k.scrubUpset_sameData found q
      have moved : Mem.sound ((k.scrubUpset found q).mem.scrubTo pos) := upset.sound h
      calc ((k.scrubUpset found q).scrubCodeword pos q).mem.byte a
          = (((k.scrubUpset found q).mem.scrubTo pos).writeFirst (q.key / 64)).byte a := (Channel.scrubAt_sameData _ q).byte a
        _ = ((k.scrubUpset found q).mem.scrubTo pos).byte a := Mem.byte_writeFirst moved _ a
        _ = k.mem.byte a := upset.byte a

/-! ### The far tier's link -/

theorem Channel.wroteErr_raise (k : Channel) (x : RawErr) : (k.raise x).wroteErr x.unit x.uidx x.cause x.cls :=
  wroteErr_of_has (Errors.has_push_self k.err x)

theorem Mem.cxlTrained_iff (m : Mem) : m.cxlTrained = true ↔ m.cxlPresent = true ∧ m.cxlRate ≠ 3 := by
  simp [Mem.cxlTrained]

/-- A lost link is logged, as class H with far frames valid, and then sets FATAL. -/
theorem Channel.cxlLost_spec (k : Channel) :
    k.cxlLost.wroteErr 6 0 .cxlLink (if k.mem.farValid then .H else .C)
      ∧ k.cxlLost = { k with err := k.cxlLost.err, mem := { k.mem with cxlFatal := k.mem.cxlFatal || k.mem.farValid } } := by
  refine ⟨?_, rfl⟩
  unfold Channel.cxlLost
  cases k.mem.farValid
  · exact wroteErr_raise _ _
  · exact wroteErr_raise _ _

/-- The loss of a channel's link: nothing where it is not trained. -/
theorem Channel.cxlLoss_spec (k : Channel) :
    let trained := k.mem.cxlPresent = true ∧ k.mem.cxlRate ≠ 3
    (¬ trained → k.cxlLoss = k)
      ∧ (trained → k.cxlLoss.wroteErr 6 0 .cxlLink (if k.mem.farValid then .H else .C)
        ∧ k.cxlLoss = { k with err := k.cxlLoss.err, mem := { k.mem with
            cxlUp := false, cxlRate := 3, cxlWidth := 0, cxlDegraded := true, cxlFatal := k.mem.cxlFatal || k.mem.farValid
            cnt := { k.mem.cnt with cxlLink := sat32 k.mem.cnt.cxlLink 1 } } }) := by
  intro trained
  unfold Channel.cxlLoss
  constructor
  · intro h
    rw [if_pos]
    rwa [Bool.not_eq_true', ← Bool.not_eq_true, k.mem.cxlTrained_iff]
  · intro h
    rw [if_neg]
    · exact Channel.cxlLost_spec _
    · rw [Bool.not_eq_true', Bool.not_eq_false]
      exact k.mem.cxlTrained_iff.mpr h

/-- The state after the loss of the links' clock. -/
def State.cxlClockLost (s : State) : State :=
  chans.foldl (fun (s : State) c => s.modChan c Channel.cxlLoss) { s with pins := { s.pins with refclkC := false } }

theorem State.cxlClockLost_frame (s : State) :
    s.cxlClockLost = { s with ch := s.cxlClockLost.ch, pins := { s.pins with refclkC := false } } :=
  foldl_keeps (P := fun t : State => t = { s with ch := t.ch, pins := { s.pins with refclkC := false } })
    (fun t c ht => by rw [ht]; rfl) chans rfl

theorem State.chan_cxlClockLost (s : State) (d : ChanId) : s.cxlClockLost.chan d = (s.chan d).cxlLoss :=
  (get_foldl_update (get := State.chan) (g := fun _ => Channel.cxlLoss) (fun s c => s.chan_modChan_self c _)
    (fun s _ _ hd => s.chan_modChan_ne _ hd) (by decide) _ d).trans (if_pos (mem_chans d))

/-! ### The memory events -/

/-- Settles O50: each event by what it does to its channel. -/
theorem memoryEvents : Obligations.MemoryEvents := by
  intro s c k lost
  refine ⟨fun delayed => ?_, fun found => ?_, ?_, ?_⟩
  case refine_1 =>
    intro hit
    have delays := k.refreshed_delays (delayed.filter (fun u => (k.flight u).isSome))
    refine ⟨_, exec_hbmRefresh s c delayed, s.onlyChan_setChan c _, ?_⟩
    rw [State.chan_modChan_self]
    refine ⟨delays.frame, delays.transfers, fun u f hf => ?_, fun n hn => ?_⟩
    · by_cases hit' : hit f
      · have tagged := (Flight.hit_filter hf).mpr hit'
        have tags : ∀ n, f.token = some n → _ := fun n hn => delays.tags n ⟨u, f, hf, tagged, hn⟩
        exact ⟨_, delays.hit u f hf tagged, fun _ => ⟨rfl, tags⟩, fun miss => absurd hit' miss⟩
      · exact ⟨f, delays.miss u f hf fun tagged => hit' ((Flight.hit_filter hf).mp tagged), fun h => absurd h hit', fun _ => rfl⟩
    · exact delays.keeps n fun ⟨u, f, hf, tagged, h⟩ => hn u f hf ((Flight.hit_filter hf).mp tagged) h
  case refine_2 =>
    intro i idle
    refine ⟨exec_scrubRead_of_idle found, fun busy => ⟨_, exec_scrubRead_of_not_idle found busy, s.onlyChan_setChan c _, ?_⟩⟩
    rw [State.chan_modChan_self]
    refine ⟨fun sound => Channel.byte_scrubStep sound found, fun none => ?_, fun pos hpos none => ?_, fun pos q hpos hq => ?_⟩
    · rw [Channel.scrubStep, none]
    · rw [Channel.scrubStep, hpos]
      dsimp only
      rw [none]
    · intro k₀ cwi m w bad frame seen
      rw [Channel.scrubStep_of_place found hpos hq]
      have bad_iff : m.uncorrectable cwi = true ↔ bad := m.uncorrectable_iff cwi
      refine ⟨fun pending none => ?_, k₀.mem.writePending_writeFirst cwi, fun h => ?_, fun h one => ?_, fun h right => ?_⟩
      · subst none
        exact Mem.writeFirst_of_not_pending pending
      · exact Channel.scrubCodeword_of_bad rfl rfl (bad_iff.mpr h)
      · exact Channel.scrubCodeword_of_one_wrong rfl rfl (mt bad_iff.mp h) one
      · exact Channel.scrubCodeword_of_good rfl rfl (mt bad_iff.mp h) right
  case refine_3 =>
    refine ⟨_, rfl, s.onlyChan_setChan c _, ?_⟩
    rw [State.chan_modChan_self]
    exact k.cxlLoss_spec
  case refine_4 =>
    refine ⟨s.cxlClockLost, rfl, s.cxlClockLost_frame, fun d => ?_⟩
    rw [State.chan_cxlClockLost]
    exact (s.chan d).cxlLoss_spec

end Sys2Proof.Machine
end

section
/-! SUPPORT. The end of a discovery window with a substitution in force (12 R323, R325, R330). -/

namespace Sys2Proof.Machine

open Sys2Proof

/-- A channel whose plan was applied anew on a resume, with the substitution of port 1 for port 0 in force (12 R330): port 0 waits as a
spare, port 1 is in use, and a second spare, port 2, has not been seen. -/
def substitutedChannel : Channel := { paths := {
  plan := some { ports := { role := roleData } :: { role := roleSpare } :: { role := roleSpare } :: List.replicate 5 {} }
  disc := { status := 1, windowOpen := true, subst := [(0, 1)], results := (5, 0, 0) :: (6, 0, 0) :: List.replicate 6 (0, 0, 0) } } }

/-- The device with that channel as channel 0. -/
def substitutedState : State := State.setChan {} 0 substitutedChannel

/-- The plan is not short: the one DATA port is served by the spare in its place (12 R325). -/
theorem substitutedChannel_not_short : substitutedChannel.endDiscovery.paths.disc.short = false := by decide

/-- Refutes O48: with port 1 in use in the place of DATA port 0, the window ends with a plan that is not short, while the result of
port 0 itself, "spare ready", is neither "matched" nor "spare in use" (12 R323, R325). -/
theorem not_linkTimers : ¬ Obligations.LinkTimers := by
  unfold Obligations.LinkTimers
  intro h
  obtain ⟨-, -, -, -, -, -, -, -, -, -, -, -, -, -, -, -, -, -, -, -, -, windowEnd⟩ := h substitutedState 0 0
  obtain ⟨u, run, k', ⟨told, -⟩, -, -, -, -, -, short⟩ := windowEnd rfl rfl
  have ended : u.chan 0 = substitutedChannel.endDiscovery := by
    obtain rfl := Host.Outcome.next.inj run
    rfl
  have chan : u.chan 0 = k' := by rw [told]; rfl
  have shortEnd : k'.paths.disc.short = true := short.mpr ⟨0, rfl, by decide, by decide⟩
  rw [← chan, ended, substitutedChannel_not_short] at shortEnd
  cases shortEnd

end Sys2Proof.Machine
end

section
/-! SUPPORT. What a Bell port does with the flits it receives, one lemma for each branch (10 R264 to R271, R286). -/

namespace Sys2Proof.Machine

open Sys2Proof

/-! ### Changes of one port -/

/-- Two changes of one port are one. -/
theorem Channel.modPort_modPort (k : Channel) (p : PortId) (f g : Port → Port) :
    (k.modPort p f).modPort p g = k.modPort p (fun q => g (f q)) := by
  simp only [Channel.modPort, Channel.port, vector_get_set_self, Vector.set_set]

theorem Channel.modPort_port (k : Channel) (p : PortId) : k.modPort p (fun _ => k.port p) = k := by
  simp only [Channel.modPort, Channel.port, Vector.get_eq_getElem, Vector.set_getElem_self]

theorem Channel.portCount_modPort (k : Channel) (p : PortId) (q : Port) (f : PortCnt → PortCnt) :
    (k.modPort p (fun _ => q)).portCount p f = k.modPort p (fun _ => { q with cnt := f q.cnt }) := k.modPort_modPort p _ _

/-! ### Subscribers are told -/

theorem State.told_refl (u : State) : u.told u := ⟨rfl, rfl⟩

theorem State.told.trans {a b c : State} (h : a.told b) (h' : b.told c) : a.told c := by
  obtain ⟨frame, quiet⟩ := h
  obtain ⟨frame', quiet'⟩ := h'
  refine ⟨?_, quiet'.trans quiet⟩
  rw [frame', frame]

theorem State.told_modSession (u : State) (h : Nat) (f : Session → Session) (hf : ∀ x, (f x).quiet = x.quiet) :
    u.told (u.modSession h f) := by
  refine ⟨rfl, ?_⟩
  simp only [State.modSession, List.map_map]
  refine List.map_congr_left fun x _ => ?_
  simp only [Function.comp]
  split
  · exact hf x
  · rfl

theorem State.told_send (u : State) (r : Reply) : u.told (u.send r) := by
  unfold State.send
  split
  · exact u.told_refl
  · exact State.told.trans (u.told_modSession r.session (fun x => { x with seqOut := x.seqOut + 1 }) fun _ => rfl) ⟨rfl, rfl⟩

theorem State.told_notifyOne (u : State) (h : Nat) (sees : Session → Bool) (index sub : Nat) (payload : Session → List Byte) :
    u.told (u.notifyOne h sees index sub payload) := by
  unfold State.notifyOne
  split
  · exact u.told_refl
  · have counted := u.told_modSession h (fun y => { y with notifyCtr := wrap32 (y.notifyCtr + 1) }) fun _ => rfl
    dsimp only
    split
    · exact counted.trans (State.told_send _ _)
    · exact counted

theorem State.told_notify (u : State) (index sub : Nat) (sees : Session → Bool) (payload : Session → List Byte) :
    u.told (u.notify index sub sees payload) :=
  foldl_keeps (P := u.told) (fun _ x h => h.trans (State.told_notifyOne _ x.handle sees index sub payload)) _ u.told_refl

theorem State.told_notifyDiscovery (u : State) (c : ChanId) (before : Discovery) : u.told (u.notifyDiscovery c before) := by
  unfold State.notifyDiscovery
  dsimp only
  split
  · exact u.told_refl
  · exact u.told_notify _ _ _ _

/-! ### Flits on a trained port -/

/-- A port after a flit with good CRC has come in: the FEC's work and the flit are counted (10 R286). -/
def Port.heard (q : Port) (corr uncorr : Nat) : Port :=
  { q.fec corr uncorr with cnt := { (q.fec corr uncorr).cnt with flitsRx := sat64 q.cnt.flitsRx 1 } }

/-- A port after a flit that is dropped for its FEC or its CRC (10 R266). -/
def Port.corrupted (q : Port) (corr uncorr : Nat) : Port :=
  { q.fec corr uncorr with cnt := { (q.fec corr uncorr).cnt with crcFail := sat32 q.cnt.crcFail 1 } }

@[simp] theorem Port.st_fec (q : Port) (corr uncorr : Nat) : (q.fec corr uncorr).st = q.st := rfl

@[simp] theorem Port.trained_fec (q : Port) (corr uncorr : Nat) : (q.fec corr uncorr).trained = q.trained := rfl

theorem Port.trained_of_up {q : Port} (h : q.st = .up) : q.trained = true := by simp [Port.trained, h]

theorem Port.trained_iff {q : Port} : q.trained = true ↔ q.st = .hello ∨ q.st = .up ∨ q.st = .dark := by
  simp [Port.trained, or_assoc]

section
variable {q : Port} {b : List Byte} {fc fu typ : Nat}

theorem Port.local_of_not_trained (h : ¬ q.trained = true) : q.local_ b fc fu typ = (q, none) := by
  simp [Port.local_, h]

variable (trained : q.trained = true)
include trained

theorem Port.local_of_bad (bad : fu ≠ 0 ∨ flitGood b = false) : q.local_ b fc fu typ = (q.corrupted fc fu, none) := by
  have failed : fu ≠ 0 ∨ (!flitGood b) = true := by simpa using bad
  simp only [Port.local_, if_pos trained]
  exact (if_neg (by simp [trained])).trans (if_pos failed)

variable (good : ¬ (fu ≠ 0 ∨ flitGood b = false))
include good

/-- A flit with good CRC: what a link-local receiver makes of it depends on its type and VC (10 R265). -/
theorem Port.local_of_good : q.local_ b fc fu typ =
    if vcOfType (Flit.ofBytes b).typ ≠ some (Flit.ofBytes b).vc then
      ({ q.heard fc fu with cnt := { (q.heard fc fu).cnt with badType := sat32 q.cnt.badType 1 } }, none)
    else if (Flit.ofBytes b).typ = typ then (q.heard fc fu, some (Flit.ofBytes b).payload)
    else (q.heard fc fu, none) := by
  have passed : ¬ (fu ≠ 0 ∨ (!flitGood b) = true) := by simpa using good
  simp only [Port.local_, if_pos trained]
  exact (if_neg (by simp [trained])).trans (if_neg passed)

theorem Port.local_of_bad_type (off : vcOfType (Flit.ofBytes b).typ ≠ some (Flit.ofBytes b).vc) : q.local_ b fc fu typ =
    ({ q.heard fc fu with cnt := { (q.heard fc fu).cnt with badType := sat32 q.cnt.badType 1 } }, none) :=
  (Port.local_of_good trained good).trans (if_pos off)

section
variable (ok : vcOfType (Flit.ofBytes b).typ = some (Flit.ofBytes b).vc)
include ok

theorem Port.local_of_other_type (other : (Flit.ofBytes b).typ ≠ typ) : q.local_ b fc fu typ = (q.heard fc fu, none) :=
  (Port.local_of_good trained good).trans ((if_neg (not_not.mpr ok)).trans (if_neg other))

theorem Port.local_of_type (same : (Flit.ofBytes b).typ = typ) :
    q.local_ b fc fu typ = (q.heard fc fu, some (Flit.ofBytes b).payload) :=
  (Port.local_of_good trained good).trans ((if_neg (not_not.mpr ok)).trans (if_pos same))

end

end

/-! ### Sequenced flits -/

theorem Flit.vc_ofBytes_lt (b : List Byte) : (Flit.ofBytes b).vc < 4 := Nat.mod_lt _ (by decide)

/-- A port with a sequenced flit counted, and one on a VC that is not its type's (10 R265, R286). -/
def Port.arrived (q : Port) (f : Flit) : Port :=
  { q with cnt := { q.cnt with
      flitsRx := sat64 q.cnt.flitsRx 1
      badType := if vcOfType f.typ = some f.vc then q.cnt.badType else sat32 q.cnt.badType 1 } }

/-- A port that has taken the flit at E: it is buffered, or its slot is free again where its VC is not its type's (10 R266, R270). -/
def Port.took (q : Port) (f : Flit) : Port :=
  let q : Port := { q with e := (q.e + 1) % 2 ^ 24, unacked := q.unacked + 1 }
  if vcOfType f.typ = some f.vc then { q with rxBuf := modAt q.rxBuf f.vc (· ++ [f]) } else q.free f.vc 1

theorem Port.accept_eq (q : Port) (f : Flit) : q.accept f =
    if f.seq ≠ q.e then q.arrived f
    else if 32 ≤ ((q.arrived f).took f).unacked then ((q.arrived f).took f).readyAck false else (q.arrived f).took f := by
  by_cases ok : vcOfType f.typ = some f.vc <;> simp [Port.accept, Port.arrived, Port.took, ok]

theorem Port.free_frame (q : Port) (v n : Nat) : q.free v n =
    { q with rxFreed := (q.free v n).rxFreed, rxFreedSince := (q.free v n).rxFreedSince, creditReady := (q.free v n).creditReady } := by
  unfold Port.free
  dsimp only
  split <;> rfl

theorem Port.took_frame (q : Port) (f : Flit) : q.took f =
    { q with e := (q.e + 1) % 2 ^ 24, unacked := q.unacked + 1, rxBuf := (q.took f).rxBuf, rxFreed := (q.took f).rxFreed
             rxFreedSince := (q.took f).rxFreedSince, creditReady := (q.took f).creditReady } := by
  unfold Port.took
  split
  · rfl
  · dsimp only
    rw [Port.free_frame]

theorem Port.rxBuf_took_of_type {q : Port} {f : Flit} (ok : vcOfType f.typ = some f.vc) :
    (q.took f).rxBuf = modAt q.rxBuf f.vc (· ++ [f]) := by
  rw [Port.took, if_pos ok]

theorem Port.rxBuf_took_of_bad_type {q : Port} {f : Flit} (bad : vcOfType f.typ ≠ some f.vc) : (q.took f).rxBuf = q.rxBuf := by
  rw [Port.took, if_neg bad, Port.free_frame]

/-- A sequenced flit that is not at E only counts. -/
theorem Port.accept_of_unexpected {q : Port} {f : Flit} (h : f.seq ≠ q.e) : q.accept f = q.arrived f := by
  rw [Port.accept_eq, if_pos h]

section
variable {q : Port} {f : Flit} (h : f.seq = q.e)
include h

theorem Port.accept_of_few (few : q.unacked < 31) : q.accept f = (q.arrived f).took f := by
  rw [Port.accept_eq, if_neg (not_not.mpr h), if_neg]
  rw [Port.took_frame]
  exact Nat.not_le.mpr (Nat.succ_lt_succ few)

/-- The flit that fills 32 unacknowledged ones makes an ACK ready (10 R267). -/
theorem Port.accept_of_full (full : 31 ≤ q.unacked) : q.accept f = ((q.arrived f).took f).readyAck false := by
  rw [Port.accept_eq, if_neg (not_not.mpr h), if_pos]
  rw [Port.took_frame]
  exact Nat.succ_le_succ full

end

theorem Port.accept_frame (q : Port) (f : Flit) : q.accept f =
    { q with e := (q.accept f).e, unacked := (q.accept f).unacked, rxBuf := (q.accept f).rxBuf, rxFreed := (q.accept f).rxFreed
             rxFreedSince := (q.accept f).rxFreedSince, ackReady := (q.accept f).ackReady, creditReady := (q.accept f).creditReady
             cnt := (q.arrived f).cnt } := by
  by_cases h : f.seq = q.e
  · obtain few | full := Nat.lt_or_ge q.unacked 31
    · rw [Port.accept_of_few h few, Port.took_frame]
      rfl
    · rw [Port.accept_of_full h full, Port.readyAck, Port.took_frame]
      rfl
  · rw [Port.accept_of_unexpected h]
    rfl

theorem Port.cnt_accept (q : Port) (f : Flit) : (q.accept f).cnt = (q.arrived f).cnt := by rw [Port.accept_frame]

theorem Port.accept_unexpected {q : Port} {f : Flit} (h : f.seq ≠ q.e) : (q.accept f).e = q.e ∧ (q.accept f).rxBuf = q.rxBuf
    ∧ (q.accept f).unacked = q.unacked ∧ (q.accept f).ackReady = q.ackReady := by
  rw [Port.accept_of_unexpected h]
  exact ⟨rfl, rfl, rfl, rfl⟩

/-- At E the flit is taken, whether an ACK becomes ready or not (10 R266, R267). -/
theorem Port.accept_expected {q : Port} {f : Flit} (h : f.seq = q.e) :
    (q.accept f).e = (q.e + 1) % 2 ^ 24 ∧ (q.accept f).rxBuf = ((q.arrived f).took f).rxBuf
      ∧ (q.unacked < 31 → (q.accept f).unacked = q.unacked + 1 ∧ (q.accept f).ackReady = q.ackReady)
      ∧ (31 ≤ q.unacked → (q.accept f).unacked = 0
        ∧ (q.accept f).ackReady = some { typ := 6, payload := ackPayload ((q.e + 1) % 2 ^ 24) false }) := by
  obtain few | full := Nat.lt_or_ge q.unacked 31
  · rw [Port.accept_of_few h few, Port.took_frame]
    exact ⟨rfl, rfl, fun _ => ⟨rfl, rfl⟩, fun full => absurd few (Nat.not_lt.mpr full)⟩
  · rw [Port.accept_of_full h full, Port.readyAck, Port.took_frame]
    exact ⟨rfl, rfl, fun few => absurd few (Nat.not_lt.mpr full), fun _ => ⟨rfl, rfl⟩⟩

theorem Port.rxBuf_accept_of_bad_type {q : Port} {f : Flit} (h : f.seq = q.e) (bad : vcOfType f.typ ≠ some f.vc) :
    (q.accept f).rxBuf = q.rxBuf := by
  obtain ⟨-, buf, -⟩ := Port.accept_expected h
  exact buf.trans (Port.rxBuf_took_of_bad_type bad)

theorem Port.getD_rxBuf_accept {q : Port} {f : Flit} (h : f.seq = q.e) (ok : vcOfType f.typ = some f.vc) (vc : f.vc < q.rxBuf.length) :
    (q.accept f).rxBuf.getD f.vc [] = q.rxBuf.getD f.vc [] ++ [f] ∧ ∀ v, v ≠ f.vc → (q.accept f).rxBuf.getD v [] = q.rxBuf.getD v [] := by
  obtain ⟨-, buf, -⟩ := Port.accept_expected h
  rw [buf, Port.rxBuf_took_of_type ok]
  exact ⟨getD_modAt_self _ _ _ vc, fun v hv => getD_modAt_ne _ _ _ hv⟩

end Sys2Proof.Machine
end

section
/-! SUPPORT. The commands of a port that receives a flit, one lemma for each branch (10 R264 to R271, R277). -/

namespace Sys2Proof.Machine

open Sys2Proof

/-- A NAK for E has been sent within the last 4 us (10 R266). -/
def Port.nakked (q : Port) (now : Nat) : Bool :=
  match q.lastNak with
  | some (e, t) => e == q.e && decide (now < t + 4000)
  | none => false

theorem Port.nakked_iff {q : Port} {now : Nat} : q.nakked now = true ↔ ∃ t, q.lastNak = some (q.e, t) ∧ now < t + 4000 := by
  unfold Port.nakked
  split
  next e t last => simp [last]
  next last => simp [last]

theorem Port.nakked_corrupted (q : Port) (corr uncorr now : Nat) : (q.corrupted corr uncorr).nakked now = q.nakked now := rfl

/-- A port that answers a bad flit with a NAK for E, unless one has been sent within the last 4 us (10 R266). -/
def Port.answerNak (q : Port) (now : Nat) : Port :=
  if q.nakked now then q else { q.readyAck true with lastNak := some (q.e, now) }

/-- The state with a port replaced. -/
def State.setPort (s : State) (c : ChanId) (p : PortId) (q : Port) : State := s.setChan c ((s.chan c).modPort p (fun _ => q))

theorem State.setPort_port (s : State) (c : ChanId) (p : PortId) : s.setPort c p ((s.chan c).port p) = s := by
  rw [State.setPort, Channel.modPort_port, State.setChan_chan]

variable {s : State} {c : ChanId} {p : PortId}

section
variable {q : Port} (hq : (s.chan c).port p = q)
include hq

/-! ### SEQUENCED_FLIT_RECEIVE (10 R265, R266) -/

section
variable {b : List Byte} {now fc fu : Nat}

theorem exec_sequencedFlitReceive_of_not_trained (h : ¬ q.trained = true) :
    exec (.sequencedFlitReceive c p b now fc fu) s = .next s := by
  simp [exec, execSequencedFlitReceive, hq, h]

theorem exec_sequencedFlitReceive_of_not_up (trained : q.trained = true) (h : q.st ≠ .up) :
    exec (.sequencedFlitReceive c p b now fc fu) s = .next (s.setPort c p (q.fec fc fu)) := by
  simp [exec, execSequencedFlitReceive, hq, trained, h, State.setPort, State.modChan]

variable (up : q.st = .up)
include up

section
variable (bad : fu ≠ 0 ∨ flitGood b = false)
include bad

theorem exec_sequencedFlitReceive_of_bad : exec (.sequencedFlitReceive c p b now fc fu) s =
    .next (s.setPort c p ((q.corrupted fc fu).answerNak now)) := by
  subst hq
  exact (if_neg (by simp [Port.trained_of_up up])).trans ((if_neg (by simp [up])).trans (if_pos (by simpa using bad)))

theorem exec_sequencedFlitReceive_of_nakked (nakked : q.nakked now = true) :
    exec (.sequencedFlitReceive c p b now fc fu) s = .next (s.setPort c p (q.corrupted fc fu)) := by
  rw [exec_sequencedFlitReceive_of_bad hq up bad, Port.answerNak, Port.nakked_corrupted, if_pos nakked]

theorem exec_sequencedFlitReceive_of_not_nakked (fresh : ¬ q.nakked now = true) :
    exec (.sequencedFlitReceive c p b now fc fu) s =
      .next (s.setPort c p { (q.corrupted fc fu).readyAck true with lastNak := some (q.e, now) }) := by
  rw [exec_sequencedFlitReceive_of_bad hq up bad, Port.answerNak, Port.nakked_corrupted, if_neg fresh]
  rfl

end

section
variable (good : ¬ (fu ≠ 0 ∨ flitGood b = false))
include good

theorem exec_sequencedFlitReceive_of_local
    (h : 4 ≤ (Flit.ofBytes b).typ ∧ (Flit.ofBytes b).typ ≤ 6 ∧ (Flit.ofBytes b).vc = 0) :
    exec (.sequencedFlitReceive c p b now fc fu) s = .next (s.setPort c p (q.fec fc fu)) := by
  simp [exec, execSequencedFlitReceive, hq, Port.trained_of_up up, up, good, h, State.setPort, State.modChan]

theorem exec_sequencedFlitReceive_of_sequenced
    (h : ¬ (4 ≤ (Flit.ofBytes b).typ ∧ (Flit.ofBytes b).typ ≤ 6 ∧ (Flit.ofBytes b).vc = 0)) :
    exec (.sequencedFlitReceive c p b now fc fu) s =
      .next (State.servicePort c p 600 (s.setPort c p ((q.fec fc fu).accept (Flit.ofBytes b)))) := by
  simp [exec, execSequencedFlitReceive, hq, Port.trained_of_up up, up, good, h, State.setPort, State.modChan]

end

end

/-! ### KEY_DERIVED (10 R277) -/

theorem exec_keyDerived_of_none (h : q.keyWait = none ∨ (s.chan c).paths.kjob = none) : exec (.keyDerived c p) s = .next s := by
  obtain h | h := h
  · simp [exec, execKeyDerived, hq, h]
  · simp [exec, execKeyDerived, h]

theorem exec_keyDerived_of_some {v src epoch : Nat} {kj : List Byte} (wait : q.keyWait = some (v, src, epoch))
    (key : (s.chan c).paths.kjob = some kj) : exec (.keyDerived c p) s =
      .next (State.servicePort c p 600 (s.setPort c p
        ({ q with keyWait := none }.addKey { src := src, epoch := epoch, key := senderKey kj src epoch }))) := by
  subst hq
  simp only [exec, execKeyDerived, wait, key]
  rfl

end

theorem Port.getLast?_keys_addKey (q : Port) (e : KeyEnt) : (q.addKey e).keys.getLast? = some e := List.getLast?_concat

/-! ### Link-local flits (10 R265, R267, R268, R271) -/

/-- The commands that receive a link-local flit, with the type each asks for (10 R265). -/
def localReceives (c : ChanId) (p : PortId) (f : RxFlit) : List (Nat × Instr) :=
  [(6, .ackReceive c p f), (6, .nakReceive c p f), (5, .creditReceive c p f), (4, .helloReceive c p f)]

section
variable {f : RxFlit} {x : Nat × Instr} {q₀ q : Port} {b : List Byte} (hq : (s.chan c).port p = q₀)
  (hx : x ∈ localReceives c p f)
include hq hx

/-- A flit that is not what a command asks for changes the port's counters only. -/
theorem exec_localReceive_of_none (h : q₀.local_ f.bytes f.fecCorr f.fecUncorr x.1 = (q, none)) :
    exec x.2 s = .next (s.setPort c p q) := by
  subst hq
  simp only [localReceives, List.mem_cons, List.not_mem_nil, or_false] at hx
  obtain rfl | rfl | rfl | rfl := hx
  · simp only [exec, execAckReceive, h]
    rfl
  · simp only [exec, execNakReceive, h]
    rfl
  · simp only [exec, execCreditReceive, h]
    rfl
  · simp only [exec, execHelloReceive, h]
    rfl

/-- ACK, NAK and CREDIT count for nothing outside UP. -/
theorem exec_localReceive_of_not_up (h : q₀.local_ f.bytes f.fecCorr f.fecUncorr x.1 = (q, some b))
    (down : q.st ≠ .up) (other : x.1 ≠ 4) : exec x.2 s = .next (s.setPort c p q) := by
  subst hq
  simp only [localReceives, List.mem_cons, List.not_mem_nil, or_false] at hx
  have idle : ¬ (q.st == .up) = true := by simp [down]
  obtain rfl | rfl | rfl | rfl := hx
  · simp only [exec, execAckReceive, h, if_neg idle]
    rfl
  · simp only [exec, execNakReceive, h, State.modChan, bne, idle, Bool.not_false, if_true]
    rfl
  · simp only [exec, execCreditReceive, h, if_neg idle]
    rfl
  · exact absurd rfl other

end

section
variable {f : RxFlit} {q₀ q : Port} {b : List Byte} (hq : (s.chan c).port p = q₀) (up : q.st = .up)
include hq up

theorem exec_ackReceive_of_up (h : q₀.local_ f.bytes f.fecCorr f.fecUncorr 6 = (q, some b)) :
    exec (.ackReceive c p f) s = .next (s.setPort c p (q.acknowledge (fieldLe b 0 3))) := by
  subst hq
  have inUp : (q.st == .up) = true := by simp [up]
  simp only [exec, execAckReceive, h, if_pos inUp]
  rfl

theorem exec_creditReceive_of_up (h : q₀.local_ f.bytes f.fecCorr f.fecUncorr 5 = (q, some b)) :
    exec (.creditReceive c p f) s =
      .next (s.setPort c p { q with freed := [fieldLe b 0 4, fieldLe b 4 4, fieldLe b 8 4, fieldLe b 12 4] }) := by
  subst hq
  have inUp : (q.st == .up) = true := by simp [up]
  simp only [exec, execCreditReceive, h, if_pos inUp]
  rfl

end

/-! ### ACK and NAK (10 R267, R268) -/

/-- A replay in progress started at or before E (10 R268). -/
def Port.replaying (q : Port) (e : Nat) : Bool :=
  match q.replay with
  | some (start, _) => !seqBefore e start
  | none => false

theorem Port.replaying_iff {q : Port} {e : Nat} :
    q.replaying e = true ↔ ∃ start rest, q.replay = some (start, rest) ∧ seqBefore e start = false := by
  unfold Port.replaying
  split
  next start rest going => simp [going]
  next going => simp [going]

/-- A port that has taken a NAK: what it acknowledges, and its count (10 R267). -/
def Port.nakTaken (q : Port) (e : Nat) : Port := { q.acknowledge e with cnt := { q.cnt with nakRx := sat32 q.cnt.nakRx 1 } }

/-- After a NAK for E, a replay from E resends all that is left (10 R268). -/
theorem Port.startReplay_nakTaken (q : Port) (e : Nat) : (q.nakTaken e).startReplay e =
    { q.nakTaken e with replay := some (e, (q.nakTaken e).replayBuf), retry := (q.nakTaken e).retry + 1, replayFrom := some e
                        cnt := { (q.nakTaken e).cnt with replays := sat32 q.cnt.replays 1 } } := by
  simp [Port.startReplay, Port.nakTaken, Port.acknowledge, List.filter_filter]

section
variable {f : RxFlit} {q₀ q : Port} {b : List Byte} (hq : (s.chan c).port p = q₀) (up : q.st = .up)
  (h : q₀.local_ f.bytes f.fecCorr f.fecUncorr 6 = (q, some b))
include hq up h

theorem exec_nakReceive_of_up : exec (.nakReceive c p f) s = .next (s.setChan c
    (if q₀.replaying (fieldLe b 0 3) then (s.chan c).modPort p (fun _ => q.nakTaken (fieldLe b 0 3))
      else ((s.chan c).modPort p (fun _ => q.nakTaken (fieldLe b 0 3))).replayFrom p (fieldLe b 0 3))) := by
  subst hq
  simp only [exec, execNakReceive, h, State.modChan]
  rw [if_neg (by simp [up])]
  rfl

theorem exec_nakReceive_of_replaying (going : q₀.replaying (fieldLe b 0 3) = true) :
    exec (.nakReceive c p f) s = .next (s.setPort c p (q.nakTaken (fieldLe b 0 3))) := by
  rw [exec_nakReceive_of_up hq up h, if_pos going]
  rfl

variable (idle : ¬ q₀.replaying (fieldLe b 0 3) = true)
include idle

theorem exec_nakReceive_of_retry (few : (q.nakTaken (fieldLe b 0 3)).retry < 8) :
    let n := q.nakTaken (fieldLe b 0 3)
    exec (.nakReceive c p f) s = .next (s.setPort c p { n with
      replay := some (fieldLe b 0 3, n.replayBuf), retry := n.retry + 1, replayFrom := some (fieldLe b 0 3)
      cnt := { n.cnt with replays := sat32 q.cnt.replays 1 } }) := by
  intro n
  rw [exec_nakReceive_of_up hq up h, if_neg idle, Channel.replayFrom, if_neg, Channel.modPort_modPort, ← Port.startReplay_nakTaken]
  · rfl
  · rw [Channel.port_modPort_self]
    exact Nat.not_le.mpr few

/-- The ninth replay takes the port DOWN instead (10 R268). -/
theorem exec_nakReceive_of_ninth (eight : 8 ≤ (q.nakTaken (fieldLe b 0 3)).retry) : exec (.nakReceive c p f) s =
    .next (s.setChan c (((s.chan c).modPort p (fun _ => q.nakTaken (fieldLe b 0 3))).portDown p)) := by
  rw [exec_nakReceive_of_up hq up h, if_neg idle, Channel.replayFrom, if_pos]
  rw [Channel.port_modPort_self]
  exact eight

end

/-- The retry count goes back to 0 when the acknowledgement passes the start of the latest replay (10 R268). -/
theorem Port.acknowledge_of_passed {q : Port} {e start : Nat} (last : q.replayFrom = some start) (passed : seqBefore start e = true) :
    (q.acknowledge e).retry = 0 ∧ (q.acknowledge e).replayFrom = none := by
  simp [Port.acknowledge, last, passed]

theorem Port.acknowledge_of_not_passed {q : Port} {e : Nat} (h : ¬ ∃ start, q.replayFrom = some start ∧ seqBefore start e = true) :
    (q.acknowledge e).retry = q.retry ∧ (q.acknowledge e).replayFrom = q.replayFrom := by
  cases last : q.replayFrom with
  | none => simp [Port.acknowledge, last]
  | some start =>
    have behind : seqBefore start e = false := by simpa [last] using h
    simp [Port.acknowledge, last, behind]

end Sys2Proof.Machine
end

section
/-! SUPPORT. What a HELLO does to a port and to the discovery result (10 R284; 12 R321 to R325). -/

namespace Sys2Proof.Machine

open Sys2Proof

variable {s : State} {c : ChanId} {p : PortId}

/-! ### Discovery results -/

theorem Channel.result_setResult_self {k : Channel} (len : k.paths.disc.results.length = 8) (r reason seen : Nat) :
    (k.setResult p r reason seen).result p = r := by
  simp [Channel.result, Channel.setResult, List.getD_eq_getElem?_getD, len, p.isLt]

theorem Channel.result_setResult_ne (k : Channel) {d : PortId} (h : d ≠ p) (r reason seen : Nat) :
    (k.setResult p r reason seen).result d = k.result d := by
  simp [Channel.result, Channel.setResult, List.getD_eq_getElem?_getD, Fin.val_ne_of_ne h.symm]

theorem Channel.result_congr {k k' : Channel} (h : k.paths.disc = k'.paths.disc) : k.result p = k'.result p := by
  rw [Channel.result, Channel.result, h]

/-- Two channels that differ in one port, its discovery result and the flags of the discovery result. -/
def Channel.onlyLink (p : PortId) (k k' : Channel) : Prop :=
  k' = { k with ports := k'.ports, paths := { k.paths with disc := k'.paths.disc } }
    ∧ ∀ r, r ≠ p → k'.port r = k.port r ∧ k'.result r = k.result r

theorem Channel.onlyLink.trans {a b d : Channel} (h : a.onlyLink p b) (h' : b.onlyLink p d) : a.onlyLink p d := by
  obtain ⟨frame, others⟩ := h
  obtain ⟨frame', others'⟩ := h'
  refine ⟨?_, fun r hr => ⟨(others' r hr).1.trans (others r hr).1, (others' r hr).2.trans (others r hr).2⟩⟩
  rw [frame', frame]

theorem Channel.onlyLink_modPort (k : Channel) (f : Port → Port) : k.onlyLink p (k.modPort p f) :=
  ⟨rfl, fun _ hr => ⟨k.port_modPort_ne f hr, rfl⟩⟩

theorem Channel.onlyLink_setResult (k : Channel) (r reason seen : Nat) : k.onlyLink p (k.setResult p r reason seen) :=
  ⟨rfl, fun _ hr => ⟨rfl, k.result_setResult_ne hr r reason seen⟩⟩

/-- The channel with the flags of its discovery result changed. -/
def Channel.modDisc (k : Channel) (f : Discovery → Discovery) : Channel := { k with paths := { k.paths with disc := f k.paths.disc } }

theorem Channel.onlyLink_modDisc (k : Channel) {f : Discovery → Discovery} (h : ∀ d, (f d).results = d.results) :
    k.onlyLink p (k.modDisc f) :=
  ⟨rfl, fun r _ => ⟨rfl, by simp [Channel.result, Channel.modDisc, h]⟩⟩

/-! ### A HELLO is judged (12 R322, R323, R325; 10 R284) -/

/-- The port goes DARK. -/
def Channel.toDark (k : Channel) (p : PortId) : Channel := k.modPort p (fun q => { q with st := .dark })

/-- The partner that a HELLO names, as in EXPECT (12 R322). -/
def helloPartner (h : List Byte) : Nat := fieldLe h 6 2 % 16384 + 16384 * (byteAt h 8 % 8)

/-- The port has been DOWN under this plan, or the channel runs (10 R284; 12 R323). -/
def Channel.late (k : Channel) (p : PortId) : Bool := (k.port p).wasDown || k.st == .run || k.st == .stopping

theorem Channel.late_iff {k : Channel} : k.late p = true ↔ (k.port p).wasDown = true ∨ k.st = .run ∨ k.st = .stopping := by
  simp [Channel.late, or_assoc]

theorem Channel.replaced_iff {k : Channel} : k.replaced p = true ↔ ∃ q, (p.val, q) ∈ k.paths.disc.subst := by
  simp [Channel.replaced]

theorem Channel.serves_iff {k : Channel} : k.serves p = true ↔ ∃ q, (q, p.val) ∈ k.paths.disc.subst := by
  simp [Channel.serves]

section
variable {k : Channel} {w : Self} {h : List Byte}

theorem Channel.judge_of_unused (unused : (k.planPort p).role = roleUnused) :
    k.judge w p h = ((k.toDark p).setResult p 3 0 (helloPartner h)).modDisc (fun d => { d with extra := true }) := if_pos unused

variable (used : (k.planPort p).role ≠ roleUnused)
include used

theorem Channel.judge_of_mismatch (bad : k.mismatch w p h ≠ 0) : k.judge w p h =
    ((k.toDark p).setResult p 4 (k.mismatch w p h) (helloPartner h)).modDisc (fun d => { d with mismatch := true }) :=
  (if_neg used).trans (if_pos bad)

/-- A HELLO that matches: what becomes of the port. -/
theorem Channel.judge_of_match (good : k.mismatch w p h = 0) : k.judge w p h =
    if k.serves p && !k.late p then (k.modPort p Port.enterUp).setResult p 6 0 (helloPartner h)
    else if (k.planPort p).role = roleSpare || k.replaced p || (k.port p).wasDown then (k.toDark p).setResult p 5 0 (helloPartner h)
    else if k.late p then k.toDark p
    else (k.modPort p Port.enterUp).setResult p 1 0 (helloPartner h) :=
  (if_neg used).trans (if_neg (not_not.mpr good))

end

theorem Channel.judge_onlyLink (k : Channel) (w : Self) (h : List Byte) : k.onlyLink p (k.judge w p h) := by
  have dark : k.onlyLink p (k.toDark p) := k.onlyLink_modPort _
  have up : k.onlyLink p (k.modPort p Port.enterUp) := k.onlyLink_modPort _
  by_cases used : (k.planPort p).role = roleUnused
  · rw [Channel.judge_of_unused used]
    exact (dark.trans (Channel.onlyLink_setResult _ _ _ _)).trans (Channel.onlyLink_modDisc _ fun _ => rfl)
  by_cases good : k.mismatch w p h = 0
  · rw [Channel.judge_of_match used good]
    split
    · exact up.trans (Channel.onlyLink_setResult _ _ _ _)
    split
    · exact dark.trans (Channel.onlyLink_setResult _ _ _ _)
    split
    · exact dark
    · exact up.trans (Channel.onlyLink_setResult _ _ _ _)
  · rw [Channel.judge_of_mismatch used good]
    exact (dark.trans (Channel.onlyLink_setResult _ _ _ _)).trans (Channel.onlyLink_modDisc _ fun _ => rfl)

theorem Channel.toDark_st (k : Channel) : ((k.toDark p).port p).st = .dark ∧ (k.toDark p).result p = k.result p :=
  ⟨congrArg Port.st (k.port_modPort_self p fun q => { q with st := .dark }), rfl⟩

section
variable {k : Channel} (len : k.paths.disc.results.length = 8)
include len

theorem Channel.toDark_setResult (r reason seen : Nat) : (((k.toDark p).setResult p r reason seen).port p).st = .dark
    ∧ ((k.toDark p).setResult p r reason seen).result p = r :=
  ⟨congrArg Port.st (k.port_modPort_self p fun q => { q with st := .dark }), Channel.result_setResult_self (k := k.toDark p) len r reason seen⟩

theorem Channel.enterUp_setResult (r reason seen : Nat) : (((k.modPort p Port.enterUp).setResult p r reason seen).port p).st = .up
    ∧ ((k.modPort p Port.enterUp).setResult p r reason seen).result p = r :=
  ⟨congrArg Port.st (k.port_modPort_self p _), Channel.result_setResult_self (k := k.modPort p Port.enterUp) len r reason seen⟩

end

section
variable {k : Channel} {w : Self} {h : List Byte} (len : k.paths.disc.results.length = 8)
include len

theorem Channel.judge_unused (unused : (k.planPort p).role = roleUnused) :
    (((k.judge w p h).port p).st = .dark ∧ (k.judge w p h).result p = 3) ∧ (k.judge w p h).paths.disc.extra = true := by
  rw [Channel.judge_of_unused unused]
  exact ⟨k.toDark_setResult len _ _ _, rfl⟩

variable (used : (k.planPort p).role ≠ roleUnused)
include used

theorem Channel.judge_mismatch (bad : k.mismatch w p h ≠ 0) :
    (((k.judge w p h).port p).st = .dark ∧ (k.judge w p h).result p = 4) ∧ (k.judge w p h).paths.disc.mismatch = true := by
  rw [Channel.judge_of_mismatch used bad]
  exact ⟨k.toDark_setResult len _ _ _, rfl⟩

variable (good : k.mismatch w p h = 0)
include good

/-- A port that serves in another's place goes on doing so (12 R325, R330). -/
theorem Channel.judge_serving (serves : k.serves p = true) (early : ¬ k.late p = true) :
    ((k.judge w p h).port p).st = .up ∧ (k.judge w p h).result p = 6 := by
  rw [Channel.judge_of_match used good, if_pos (by simp [serves, early])]
  exact k.enterUp_setResult len _ _ _

/-- A spare, a port that is replaced, and one that has been DOWN wait as spares (12 R322, R325). -/
theorem Channel.judge_spare (idle : ¬ k.serves p = true ∨ k.late p = true)
    (spare : (k.planPort p).role = roleSpare ∨ k.replaced p = true ∨ (k.port p).wasDown = true) :
    ((k.judge w p h).port p).st = .dark ∧ (k.judge w p h).result p = 5 := by
  rw [Channel.judge_of_match used good, if_neg (by obtain idle | idle := idle <;> simp [idle]), if_pos (by simpa [or_assoc] using spare)]
  exact k.toDark_setResult len _ _ _

section
variable (data : (k.planPort p).role ≠ roleSpare) (kept : ¬ k.replaced p = true) (fresh : ¬ (k.port p).wasDown = true)
include data kept fresh

omit len in
theorem Channel.judge_late (late : k.late p = true) :
    ((k.judge w p h).port p).st = .dark ∧ (k.judge w p h).result p = k.result p := by
  rw [Channel.judge_of_match used good, if_neg (by simp [late]), if_neg (by simp [data, kept, fresh]), if_pos late]
  exact k.toDark_st

theorem Channel.judge_matched (idle : ¬ k.serves p = true) (early : ¬ k.late p = true) :
    ((k.judge w p h).port p).st = .up ∧ (k.judge w p h).result p = 1 := by
  rw [Channel.judge_of_match used good, if_neg (by simp [idle]), if_neg (by simp [data, kept, fresh]), if_neg early]
  exact k.enterUp_setResult len _ _ _

end

end

/-! ### HELLO_RECEIVE (12 R321, R322, R330) -/

/-- A port that has received a valid HELLO (12 R321). -/
def Port.greetedBy (q : Port) (h : List Byte) : Port :=
  { q with seenPartner := true, seenSeen := q.seenSeen || bitOf (byteAt h 5) 0, lastHello := h, partner := helloPartner h }

/-- A HELLO says the same as the last one of this port, SEEN aside, or it is the first (10 R284). -/
def Port.sameHello (q : Port) (h : List Byte) : Bool := q.lastHello.isEmpty || patch q.lastHello 5 [0#8] == patch h 5 [0#8]

theorem Port.sameHello_iff {q : Port} {h : List Byte} :
    q.sameHello h = true ↔ q.lastHello = [] ∨ patch q.lastHello 5 [0#8] = patch h 5 [0#8] := by
  simp [Port.sameHello]

/-- A port that has left service for DARK on a changed HELLO (10 R284). -/
def Port.estranged (q : Port) (h : List Byte) : Port := { q.discard with st := .dark, lastHello := h, seenPartner := true }

/-- The channel whose port has left service for DARK, with the result "mismatched" (10 R284; 12 R324). -/
def Channel.mismatched (k : Channel) (w : Self) (p : PortId) (h : List Byte) : Channel :=
  ((k.modPort p (fun q => q.estranged h)).setResult p 4 (k.mismatch w p h) (helloPartner h)).modDisc (fun d => { d with mismatch := true })

/-- An UP port leaves service on a changed HELLO; an error is raised when it is a DATA port or carries an action (10 R284; log 17). -/
def Channel.estranged (k : Channel) (w : Self) (p : PortId) (h : List Byte) : Channel :=
  if k.portBusy p || (k.planPort p).role == roleData then
    (k.mismatched w p h).raise { cause := .portDown, cls := .S, unit := 3, uidx := p.val }
  else k.mismatched w p h

theorem Channel.port_estranged (k : Channel) (w : Self) (h : List Byte) (r : PortId) :
    (k.estranged w p h).port r = (k.mismatched w p h).port r := by
  unfold Channel.estranged
  split <;> rfl

theorem Channel.disc_estranged (k : Channel) (w : Self) (h : List Byte) :
    (k.estranged w p h).paths.disc = (k.mismatched w p h).paths.disc := by
  unfold Channel.estranged
  split <;> rfl

theorem Channel.port_estranged_self (k : Channel) (w : Self) (h : List Byte) :
    (k.estranged w p h).port p = (k.port p).estranged h :=
  (k.port_estranged w h p).trans (k.port_modPort_self p fun q => q.estranged h)

theorem Channel.port_estranged_ne (k : Channel) (w : Self) (h : List Byte) {r : PortId} (hr : r ≠ p) :
    (k.estranged w p h).port r = k.port r :=
  (k.port_estranged w h r).trans (k.port_modPort_ne (fun q => q.estranged h) hr)

theorem Channel.mismatch_estranged (k : Channel) (w : Self) (h : List Byte) : (k.estranged w p h).paths.disc.mismatch = true :=
  congrArg Discovery.mismatch (k.disc_estranged w h)

theorem Channel.result_estranged {k : Channel} (w : Self) (h : List Byte) (len : k.paths.disc.results.length = 8) :
    (k.estranged w p h).result p = 4 :=
  (Channel.result_congr (k.disc_estranged w h)).trans
    (Channel.result_setResult_self (k := k.modPort p fun q => q.estranged h) len _ _ _)

theorem Channel.mem_estranged (k : Channel) (w : Self) (h : List Byte) : (k.estranged w p h).mem = k.mem := by
  have kept : (k.mismatched w p h).mem = k.mem := rfl
  unfold Channel.estranged
  split
  · exact kept
  · exact kept

/-- The loss of a DATA port that was UP is an error (log 17). -/
theorem Channel.wroteErr_estranged {k : Channel} (w : Self) (h : List Byte) (data : (k.planPort p).role = roleData) :
    (k.estranged w p h).wroteErr 3 p.val .portDown .S := by
  rw [Channel.estranged, if_pos (by simp [data])]
  exact Channel.wroteErr_raise _ _

/-- What a valid HELLO does to a channel whose port was `q` before it: `k` has taken the HELLO already. -/
def Channel.greeted (k : Channel) (w : Self) (p : PortId) (q : Port) (h : List Byte) : Channel :=
  match q.st with
  | .hello => k.judge w p h
  | .up => if q.sameHello h then k else k.estranged w p h
  | .dark => if !q.wasDown && (k.result p == 4 || k.result p == 3) then k.judge w p h else k
  | _ => k

section
variable {f : RxFlit} {q₀ q : Port} {h : List Byte} (hq : (s.chan c).port p = q₀)
  (took : q₀.local_ f.bytes f.fecCorr f.fecUncorr 4 = (q, some h))
include hq took

theorem exec_helloReceive_of_no_hello (bad : fieldLe h 0 4 ≠ 0x4F4C4548 ∨ byteAt h 4 ≠ 1) : exec (.helloReceive c p f) s =
    .next (s.setPort c p { q with cnt := { q.cnt with badType := sat32 q.cnt.badType 1 } }) := by
  subst hq
  simp only [exec, execHelloReceive, took]
  rw [if_pos bad, Channel.portCount_modPort]
  rfl

theorem exec_helloReceive_of_hello (magic : fieldLe h 0 4 = 0x4F4C4548) (version : byteAt h 4 = 1) :
    ∃ t, exec (.helloReceive c p f) s = .next t ∧ (s.setChan c
      (((s.chan c).modPort p (fun _ => q.greetedBy h)).greeted (s.self c) p q h).settleDiscovery).told t := by
  refine ⟨_, ?_, State.told_notifyDiscovery _ c (s.chan c).paths.disc⟩
  subst hq
  simp only [exec, execHelloReceive, took]
  rw [if_neg (by simp [magic, version]), Channel.modPort_modPort]
  rfl

end

section
variable {k : Channel} {w : Self} {q : Port} {h : List Byte}

/-- In HELLO, and in DARK before the port has served with a result of mismatched or extra, a HELLO is judged (12 R323). -/
theorem Channel.greeted_of_judged
    (st : q.st = .hello ∨ (q.st = .dark ∧ q.wasDown = false ∧ (k.result p = 4 ∨ k.result p = 3))) : k.greeted w p q h = k.judge w p h := by
  obtain st | ⟨st, down, result⟩ := st
  · simp [Channel.greeted, st]
  · simp [Channel.greeted, st, down, result]

theorem Channel.greeted_of_dark (st : q.st = .dark) (stays : q.wasDown = true ∨ (k.result p ≠ 4 ∧ k.result p ≠ 3)) :
    k.greeted w p q h = k := by
  simp only [Channel.greeted, st]
  refine if_neg ?_
  obtain down | ⟨not4, not3⟩ := stays
  · simp [down]
  · simp [not4, not3]

theorem Channel.greeted_of_up (st : q.st = .up) : k.greeted w p q h = if q.sameHello h then k else k.estranged w p h := by
  simp [Channel.greeted, st]

end

/-! ### The statement -/

/-- Settles O47: each command by its branches, and the judgement of a HELLO by the plan. -/
theorem linkReceives : Obligations.LinkReceives := by
  unfold Obligations.LinkReceives
  refine ⟨?_, ?_⟩
  · intro s c p flit fc fu k q f up put b rx bad aligned locals
    have b_eq : b = q.fec fc fu := rfl
    have rx_eq : rx = q.heard fc fu := rfl
    have hq : (s.chan c).port p = q := rfl
    clear_value rx
    clear_value b
    subst b_eq rx_eq
    clear_value q
    have aligned_iff : q.trained = true ↔ aligned := Port.trained_iff
    have trained_of_up : q.st = .up → q.trained = true := Port.trained_of_up
    refine ⟨fun now => ⟨?_, ?_, ?_, ?_, ?_⟩, exec_keyDerived_of_none hq, ?_, fun x hx => ?_, ?_, ?_, ?_⟩
    · exact fun h => exec_sequencedFlitReceive_of_not_trained hq (mt aligned_iff.mp h)
    · intro h
      have trained : q.trained = true := aligned_iff.mpr (h.imp_right .inr)
      exact exec_sequencedFlitReceive_of_not_up hq trained (by obtain h | h := h <;> simp [h])
    · intro h hb
      refine ⟨fun recent => exec_sequencedFlitReceive_of_nakked hq h hb (Port.nakked_iff.mpr recent), fun old => ?_⟩
      refine exec_sequencedFlitReceive_of_not_nakked hq h hb fun nakked => ?_
      obtain ⟨t, last, recent⟩ := Port.nakked_iff.mp nakked
      exact absurd recent (Nat.not_lt.mpr (old t last))
    · exact fun h hb low high vc => exec_sequencedFlitReceive_of_local hq h hb ⟨low, high, vc⟩
    · intro h hb sequenced len
      have frame := (q.fec fc fu).accept_frame f
      rw [← Port.cnt_accept] at frame
      refine ⟨(q.fec fc fu).accept f, exec_sequencedFlitReceive_of_sequenced hq h hb sequenced, frame,
        Port.cnt_accept _ f, Port.accept_unexpected (q := q.fec fc fu), fun expected => ?_⟩
      obtain ⟨e, -, few, full⟩ := Port.accept_expected (q := q.fec fc fu) expected
      have vc : f.vc < (q.fec fc fu).rxBuf.length := len.symm ▸ Flit.vc_ofBytes_lt flit
      exact ⟨e, few, full, fun ok => Port.getD_rxBuf_accept expected ok vc, Port.rxBuf_accept_of_bad_type expected⟩
    · intro v src epoch kj wait key
      exact ⟨_, exec_keyDerived_of_some hq wait key, Port.getLast?_keys_addKey _ _⟩
    · refine ⟨fun h => ?_, fun h hb => ?_, fun h hb off => ?_, fun h hb ok other => ?_, fun h hb ok same down hello => ?_⟩
      · have none := exec_localReceive_of_none hq hx (Port.local_of_not_trained (mt aligned_iff.mp h))
        rwa [← hq, State.setPort_port] at none
      · exact exec_localReceive_of_none hq hx (Port.local_of_bad (aligned_iff.mpr h) hb)
      · exact exec_localReceive_of_none hq hx (Port.local_of_bad_type (aligned_iff.mpr h) hb off)
      · exact exec_localReceive_of_none hq hx (Port.local_of_other_type (aligned_iff.mpr h) hb ok other)
      · exact exec_localReceive_of_not_up hq hx (Port.local_of_type (aligned_iff.mpr h) hb ok same) down hello
    · intro h hb vc typ e left passed
      have got := Port.local_of_type (fc := fc) (trained_of_up h) hb (by rw [vc, typ]; rfl) typ
      refine ⟨(q.heard fc fu).acknowledge e, rfl, fun ⟨start, last, pass⟩ => Port.acknowledge_of_passed last pass,
        Port.acknowledge_of_not_passed, rfl, exec_ackReceive_of_up hq h got, ?_⟩
      intro n going
      refine ⟨fun h' => ?_, fun h' few => ?_, fun h' eight => ?_⟩
      · exact exec_nakReceive_of_replaying hq h got (Port.replaying_iff.mpr h')
      · exact exec_nakReceive_of_retry hq h got (mt Port.replaying_iff.mp h') few
      · exact exec_nakReceive_of_ninth hq h got (mt Port.replaying_iff.mp h') eight
    · intro h hb typ vc
      exact exec_creditReceive_of_up hq h (Port.local_of_type (trained_of_up h) hb (by rw [vc, typ]; rfl) typ)
    · intro h hb typ vc m i
      have got := Port.local_of_type (fc := fc) (aligned_iff.mpr h) hb (by rw [vc, typ]; rfl) typ
      refine ⟨exec_helloReceive_of_no_hello hq got, fun magic version => ?_⟩
      intro partner k₁ ends same
      have ends_of : ∀ k', k₁.greeted (s.self c) p (q.heard fc fu) m = k' → ends k' := fun k' eq =>
        eq ▸ exec_helloReceive_of_hello hq got magic version
      have same_iff : (q.heard fc fu).sameHello m = true ↔ same := Port.sameHello_iff
      refine ⟨fun h => ?_, fun h stays => ?_, fun h same => ?_, fun h other len => ?_⟩
      · exact ends_of _ (Channel.greeted_of_judged h)
      · exact ends_of _ (Channel.greeted_of_dark h stays)
      · exact ends_of _ ((Channel.greeted_of_up h).trans (if_pos (same_iff.mpr same)))
      · have left := k₁.port_estranged_self (p := p) (s.self c) m
        exact ⟨_, ends_of _ ((Channel.greeted_of_up h).trans (if_neg (mt same_iff.mp other))), congrArg Port.st left,
          congrArg Port.replayBuf left, Channel.result_estranged _ m len, k₁.mismatch_estranged _ m,
          fun r hr => (k₁.port_estranged_ne _ m hr).trans (k.port_modPort_ne _ hr), k₁.mem_estranged _ m,
          Channel.wroteErr_estranged (k := k₁) _ m⟩
  · intro k w p h len k' role goes replaced serves late
    obtain ⟨frame, others⟩ := k.judge_onlyLink (p := p) w h
    have late_iff : k.late p = true ↔ late := Channel.late_iff
    have replaced_iff : k.replaced p = true ↔ replaced := Channel.replaced_iff
    have serves_iff : k.serves p = true ↔ serves := Channel.serves_iff
    rw [← late_iff, ← replaced_iff, ← serves_iff]
    refine ⟨frame, others, Channel.judge_unused len, Channel.judge_mismatch len, fun used good => ⟨?_, ?_, ?_, ?_⟩⟩
    · exact Channel.judge_serving len used good
    · exact Channel.judge_spare len used good
    · exact Channel.judge_late used good
    · intro data kept idle early
      have fresh : ¬ (k.port p).wasDown = true := fun down => early (Channel.late_iff.mpr (.inl down))
      exact Channel.judge_matched len used good data kept fresh idle early

end Sys2Proof.Machine
end

section
/-! SUPPORT. The bits of numbers, and the straps of the sixteen samples as majorities of single pins (12 R317, R318). -/

namespace Sys2Proof.Machine

open Sys2Proof

variable {samples : List Nat} {n i : Nat}

/-! ### Bits of numbers -/

theorem bitOf_eq_testBit (v i : Nat) : bitOf v i = v.testBit i := by
  rw [Nat.testBit_eq_decide_div_mod_eq]
  rfl

/-- A multiple of 2^n added to a number leaves its bits below n. -/
theorem bitOf_add_two_pow_of_lt {a n i : Nat} (below : a < 2 ^ n) (high : Nat) (h : i < n) :
    bitOf (a + 2 ^ n * high) i = bitOf a i := by
  rw [bitOf_eq_testBit, bitOf_eq_testBit, Nat.add_comm, Nat.testBit_two_pow_mul_add _ below, if_pos h]

theorem bitOf_add_two_pow_self {a n : Nat} (below : a < 2 ^ n) (on : Bool) : bitOf (a + 2 ^ n * bit on) n = on := by
  rw [bitOf_eq_testBit, Nat.add_comm, Nat.testBit_two_pow_mul_add _ below, if_neg (lt_irrefl n), Nat.sub_self]
  cases on <;> rfl

/-! ### The samples of one pin -/

/-- How many samples read pin i as 1. -/
def strapOnes (samples : List Nat) (i : Nat) : Nat := (samples.filter (fun a => bitOf a i)).length

/-- The majority of the samples reads pin i as 1; a tie is no majority. -/
def strapMajority (samples : List Nat) (i : Nat) : Bool := decide (samples.length < 2 * strapOnes samples i)

/-- Some samples read pin i as 1 and some as 0. -/
def strapMixed (samples : List Nat) (i : Nat) : Bool := strapOnes samples i != 0 && strapOnes samples i != samples.length

theorem strapMixed_iff : strapMixed samples i = true ↔ (∃ a ∈ samples, bitOf a i = true) ∧ ∃ a ∈ samples, bitOf a i = false := by
  have some_one : strapOnes samples i ≠ 0 ↔ ∃ a ∈ samples, bitOf a i = true :=
    Nat.pos_iff_ne_zero.symm.trans List.length_filter_pos_iff
  have some_zero : strapOnes samples i ≠ samples.length ↔ ∃ a ∈ samples, bitOf a i = false := by
    simp [strapOnes]
  simp [strapMixed, some_one, some_zero]

/-! ### The majorities of the pins as one number -/

/-- The number whose bits below n are the majorities of the pins. -/
def strapValue (samples : List Nat) (n : Nat) : Nat :=
  (List.range n).foldl (fun a i => a + (if samples.length < 2 * strapOnes samples i then 2 ^ i else 0)) 0

theorem strapValue_succ : strapValue samples (n + 1) = strapValue samples n + 2 ^ n * bit (strapMajority samples n) := by
  simp [strapValue, strapMajority, List.range_succ, bit]

theorem strapValue_lt (samples : List Nat) (n : Nat) : strapValue samples n < 2 ^ n := by
  induction n with
  | zero => exact Nat.one_pos
  | succ n ih =>
    rw [strapValue_succ, Nat.pow_succ]
    cases strapMajority samples n <;> simp [bit] <;> omega

theorem bitOf_strapValue (h : i < n) : bitOf (strapValue samples n) i = strapMajority samples i := by
  induction n with
  | zero => exact absurd h (Nat.not_lt_zero i)
  | succ n ih =>
    rw [strapValue_succ]
    rcases Nat.lt_succ_iff_lt_or_eq.mp h with below | rfl
    · rw [bitOf_add_two_pow_of_lt (strapValue_lt samples n) _ below, ih below]
    · exact bitOf_add_two_pow_self (strapValue_lt samples i) _

/-! ### STRAP_END, and the raw straps (20 R458; 12 R318) -/

variable {s : State}

/-- The samples of some pin disagree. -/
def strapUnstable (samples : List Nat) : Bool := (List.range 12).any (strapMixed samples)

/-- The state after STRAP with these samples. -/
def State.strapped (s : State) (samples : List Nat) : State :=
  { s with pins := { s.pins with phase := .run, straps := strapValue samples 12, unstable := strapUnstable samples } }

theorem execStrapEnd_of_off (h : s.released = false ∨ s.pins.phase ≠ .strap) : exec (.strapEnd samples) s = .next s :=
  if_pos (by simpa using h)

theorem execStrapEnd_of_strap (released : s.released = true) (strap : s.pins.phase = .strap) :
    exec (.strapEnd samples) s = .next (s.strapped samples) :=
  if_neg (by simp [released, strap])

/-- The raw straps hold the majorities in the bits below 12, and UNSTABLE in bit 15. -/
def strapRaw (samples : List Nat) : Nat := strapValue samples 12 + 2 ^ 15 * bit (strapUnstable samples)

theorem stopValue_rawStraps (x : Session) : (s.strapped samples).stopValue x 0x1021 0 = leBytes 4 (strapRaw samples) := by
  have fits : strapValue samples 12 % 4096 = strapValue samples 12 := Nat.mod_eq_of_lt (strapValue_lt samples 12)
  rw [strapRaw, ← fits]
  rfl

theorem strapValue_lt_unstable : strapValue samples 12 < 2 ^ 15 :=
  (strapValue_lt samples 12).trans (by decide)

theorem strapRaw_lt (samples : List Nat) : strapRaw samples < 2 ^ 16 := by
  have := strapValue_lt_unstable (samples := samples)
  cases h : strapUnstable samples <;> simp [strapRaw, h, bit] <;> omega

theorem bitOf_strapRaw_of_lt (h : i < 15) : bitOf (strapRaw samples) i = bitOf (strapValue samples 12) i :=
  bitOf_add_two_pow_of_lt strapValue_lt_unstable _ h

theorem bitOf_strapRaw_pin (pin : i < 12) : bitOf (strapRaw samples) i = strapMajority samples i := by
  rw [bitOf_strapRaw_of_lt (pin.trans (by decide)), bitOf_strapValue pin]

theorem bitOf_strapRaw_between (low : 12 ≤ i) (high : i < 15) : bitOf (strapRaw samples) i = false := by
  rw [bitOf_strapRaw_of_lt high, bitOf_eq_testBit]
  exact Nat.testBit_lt_two_pow ((strapValue_lt samples 12).trans_le (Nat.pow_le_pow_right (by decide) low))

theorem bitOf_strapRaw_unstable : bitOf (strapRaw samples) 15 = strapUnstable samples :=
  bitOf_add_two_pow_self strapValue_lt_unstable _

theorem strapUnstable_iff : strapUnstable samples = true
    ↔ ∃ i, i < 12 ∧ (∃ a ∈ samples, bitOf a i = true) ∧ ∃ a ∈ samples, bitOf a i = false := by
  simp only [strapUnstable, List.any_eq_true, List.mem_range, strapMixed_iff]

/-! ### The statement -/

/-- Settles O29: STRAP_END leaves `State.strapped`, and each bit of the raw straps is read off by its place. -/
theorem straps : Obligations.Straps := by
  unfold Obligations.Straps
  intro s samples
  refine ⟨execStrapEnd_of_off, fun released strap => ⟨s.strapped samples, execStrapEnd_of_strap released strap, rfl, rfl,
    ⟨⟨0x1021, 0, .ro, .num 4 0 4294967295, false⟩, by decide, rfl⟩, fun x => ⟨strapRaw samples, stopValue_rawStraps x, ?_⟩⟩⟩
  refine ⟨fun i pin => ?_, ?_, strapRaw_lt samples, fun i => bitOf_strapRaw_between⟩
  · rw [bitOf_strapRaw_pin pin]
    exact decide_eq_true_iff
  · rw [bitOf_strapRaw_unstable]
    exact strapUnstable_iff

end Sys2Proof.Machine
end

section
/-! SUPPORT. Writes of a channel's services, of standby and of the declared time (13 R343, R344; 15 R380; 16 R385; 19 R442). -/

namespace Sys2Proof.Machine

open Sys2Proof

/-! ### Stops of a channel below 0x3000 -/

section
variable {s : State} {q : Req} {c : ChanId} {x : Session} {i : Instr} {base sub : Nat} {d : List Byte}

/-- A write of a channel's own stop that replaces the channel and nothing else is carried out. -/
theorem State.carried_applyChannel {k : Channel} (h : s.accepts q false (ofChan c base) sub d x)
    (hi : exec i s = s.put q (ofChan c base) sub d) (stop : stopChan (ofChan c base) = some c ∧ stopBase (ofChan c base) = base)
    (lo : 0x2000 ≤ base) (up : base < 0x3000) (hu : (s.touch q).applyChannel c base sub d = (0, (s.touch q).setChan c k)) :
    s.carried i q 2 (ofChan c base) sub (s.setChan c k) :=
  State.carried_setChan h hi lo (by omega) (by rw [State.applyStop_channel c stop up, hu])

/-- A write of a channel's own stop that is refused with a code. -/
theorem State.refused_applyChannel {n : Nat} (h : s.accepts q false (ofChan c base) sub d x)
    (hi : exec i s = s.put q (ofChan c base) sub d) (stop : stopChan (ofChan c base) = some c ∧ stopBase (ofChan c base) = base)
    (up : base < 0x3000) (hn : n ≠ 0) (hu : (s.touch q).applyChannel c base sub d = (n, s.touch q)) :
    s.refusedWith i q 2 (ofChan c base) sub n :=
  State.refusedWith_of (o := {}) h hi hn (by
    show (s.touch q).applyStop _ _ 2 _ _ _ _ = _
    rw [State.applyStop_channel c stop up, hu])

end

@[simp] theorem State.chan_touch (s : State) (q : Req) (c : ChanId) : (s.touch q).chan c = s.chan c := rfl

/-! ### RESTART (13 R343) -/

/-- What a write of the restart service's stop does. -/
theorem State.applyChannel_restart (s : State) (c : ChanId) (d : List Byte) : s.applyChannel c 0x2030 7 d =
    if (s.chan c).st != .ready || !(s.chan c).bind.bound then (0x0608, s)
    else (0, s.setChan c { s.chan c with svc := { (s.chan c).svc with restart := some {} } }) := rfl

section
variable {s : State} {q : Req} {c : ChanId} {x : Session} {d : List Byte}

theorem State.carried_restart (h : s.accepts q false (ofChan c 0x2030) 7 d x) (st : (s.chan c).st = .ready)
    (bound : (s.chan c).bind.bound = true) : s.carried (.restart q c d) q 2 (ofChan c 0x2030) 7
      (s.setChan c { s.chan c with svc := { (s.chan c).svc with restart := some {} } }) := by
  refine State.carried_applyChannel h rfl (stopChan_ofChan c (by decide)) (by decide) (by decide) ?_
  rw [State.applyChannel_restart, if_neg (by simp [st, bound])]
  rfl

theorem State.refused_restart (h : s.accepts q false (ofChan c 0x2030) 7 d x)
    (no : (s.chan c).st ≠ .ready ∨ (s.chan c).bind.bound = false) :
    s.refusedWith (.restart q c d) q 2 (ofChan c 0x2030) 7 0x0608 := by
  refine State.refused_applyChannel h rfl (stopChan_ofChan c (by decide)) (by decide) (by decide) ?_
  rw [State.applyChannel_restart, if_pos (by simpa using no)]

/-! ### The weight load window (15 R380) -/

/-- The checks of a window's range come after those of the channel's state. -/
theorem Channel.openWindow_of_busy {k : Channel} (no : k.bind.bound = false ∨ k.running = true ∨ k.meas.winState ≠ 0) (d : List Byte) :
    k.openWindow d = (0x0608, k) :=
  if_pos (by simpa [or_assoc] using no)

section
variable {k : Channel} (bound : k.bind.bound = true) (idle : k.running = false) (closed : k.meas.winState = 0)
include bound idle closed

theorem Channel.openWindow_of_idle (d : List Byte) : k.openWindow d =
    if logicalPages * pageBytes < fieldLe d 0 8 + fieldLe d 8 8 || !k.mem.inClass 1 (fieldLe d 0 8) (fieldLe d 8 8) then (0x0606, k)
    else (0, { k with meas := { k.meas with winState := 1, winAddr := fieldLe d 0 8, winLen := fieldLe d 8 8 } }) :=
  if_neg (by simp [bound, idle, closed])

end

/-- A write of the window stop does to its channel what `Channel.openWindow` says. -/
theorem State.applyChannel_open (s : State) (c : ChanId) (d : List Byte) : s.applyChannel c 0x2031 1 d =
    (((s.chan c).openWindow d).1, s.setChan c ((s.chan c).openWindow d).2) := rfl

theorem State.refused_openWindow {n : Nat} (h : s.accepts q false (ofChan c 0x2031) 1 d x) (hn : n ≠ 0)
    (no : (s.chan c).openWindow d = (n, s.chan c)) : s.refusedWith (.weightLoadOpen q c d) q 2 (ofChan c 0x2031) 1 n := by
  refine State.refused_applyChannel h rfl (stopChan_ofChan c (by decide)) (by decide) hn ?_
  rw [State.applyChannel_open, State.chan_touch, no, ← State.chan_touch s q, State.setChan_chan]

theorem State.carried_openWindow {k : Channel} (h : s.accepts q false (ofChan c 0x2031) 1 d x)
    (may : (s.chan c).openWindow d = (0, k)) : s.carried (.weightLoadOpen q c d) q 2 (ofChan c 0x2031) 1 (s.setChan c k) := by
  refine State.carried_applyChannel h rfl (stopChan_ofChan c (by decide)) (by decide) (by decide) ?_
  rw [State.applyChannel_open, State.chan_touch, may]

theorem stopRow_openWindow (c : ChanId) : stopRow (ofChan c 0x2031) 1 = some ⟨0x2031, 1, .wo, .blob 16, false⟩ := by revert c; decide

/-- A misaligned or empty window is out of the stop's range (14 R359, step 7). -/
theorem State.refused_openWindow_value (h : s.admits q 2 (ofChan c 0x2031) 1 x) (len : d.length = 16)
    (off : fieldLe d 0 8 % 32 ≠ 0 ∨ fieldLe d 8 8 % 32 ≠ 0 ∨ fieldLe d 8 8 = 0) :
    s.refusedWith (.weightLoadOpen q c d) q 2 (ofChan c 0x2031) 1 0x0606 := by
  have stop := stopChan_ofChan c (b := 0x2031) (by decide)
  have bad : (s.touch q).valueBad (ofChan c 0x2031) 1 d = true := by
    simp only [State.valueBad, stop.1, stop.2]
    simpa [or_assoc] using off
  have length : (s.touch q).lengthBad (ofChan c 0x2031) 1 16 = false := by
    simp only [State.lengthBad, stop.1, stop.2]
    rfl
  refine State.refusedWith_of_body h rfl (by decide) ?_
  unfold writeBody
  rw [stopRow_openWindow]
  simp [length, bad, len, StopType.check]

theorem State.applyChannel_close (s : State) (c : ChanId) (d : List Byte) : s.applyChannel c 0x2031 2 d =
    if (s.chan c).meas.winState != 1 then (0x0608, s)
    else (0, s.setChan c { s.chan c with meas := { (s.chan c).meas with winState := 2 } }) := rfl

theorem State.carried_closeWindow (h : s.accepts q false (ofChan c 0x2031) 2 d x) (opened : (s.chan c).meas.winState = 1) :
    s.carried (.weightLoadClose q c d) q 2 (ofChan c 0x2031) 2
      (s.setChan c { s.chan c with meas := { (s.chan c).meas with winState := 2 } }) := by
  refine State.carried_applyChannel h rfl (stopChan_ofChan c (by decide)) (by decide) (by decide) ?_
  rw [State.applyChannel_close, if_neg (by simp [opened])]
  rfl

theorem State.refused_closeWindow (h : s.accepts q false (ofChan c 0x2031) 2 d x) (no : (s.chan c).meas.winState ≠ 1) :
    s.refusedWith (.weightLoadClose q c d) q 2 (ofChan c 0x2031) 2 0x0608 := by
  refine State.refused_applyChannel h rfl (stopChan_ofChan c (by decide)) (by decide) (by decide) ?_
  rw [State.applyChannel_close, if_pos (by simpa using no)]

/-! ### Confidential mode (13 R344) -/

theorem State.applyStop_confidential (s : State) (x : Session) (txid op : Nat) (d : List Byte) (o : WriteObs) :
    s.applyStop x txid op 0x8005 1 d o = if chans.any (fun c => (s.chan c).bind.bound) then (some 0x0608, s)
      else (some 0, { s with mram := { s.mram with conf := ofLe d == 1 } }) := rfl

theorem State.carried_confidentialMode (h : s.accepts q false 0x8005 1 d x) (free : ∀ c, (s.chan c).bind.bound = false) :
    s.carried (.confidentialModeWrite q d) q 2 0x8005 1 { s with mram := { s.mram with conf := ofLe d == 1 } } := by
  refine State.carried_of (o := {}) h rfl ?_ h.1.1 rfl (fun t => rfl)
  show (s.touch q).applyStop _ _ 2 0x8005 1 _ _ = _
  rw [State.applyStop_confidential, if_neg (by simp [free])]
  rfl

theorem State.refused_confidentialMode (h : s.accepts q false 0x8005 1 d x) (job : ∃ c, (s.chan c).bind.bound = true) :
    s.refusedWith (.confidentialModeWrite q d) q 2 0x8005 1 0x0608 := by
  obtain ⟨c, bound⟩ := job
  refine State.refusedWith_of (o := {}) h rfl (by decide) ?_
  show (s.touch q).applyStop _ _ 2 0x8005 1 _ _ = _
  rw [State.applyStop_confidential, if_pos (List.any_eq_true.mpr ⟨c, mem_chans c, bound⟩)]

end

/-! ### Standby (19 R442) -/

/-- A port in standby: one that is enabled is IDLE, with what it held given up. -/
def Port.idled (q : Port) : Port := if q.st = .disabled then q else { q.discard with st := .idle }

/-- Every port of every channel changed. -/
def State.mapPorts (s : State) (f : Port → Port) : State :=
  chans.foldl (fun (s : State) c => s.modChan c (fun k => { k with ports := k.ports.map f })) s

theorem State.mapPorts_frame (s : State) (f : Port → Port) : s.mapPorts f = { s with ch := (s.mapPorts f).ch } :=
  foldl_keeps (P := fun a : State => a = { s with ch := a.ch }) (fun a c ha => by rw [ha]; rfl) chans rfl

theorem State.chan_mapPorts (s : State) (f : Port → Port) (c : ChanId) :
    (s.mapPorts f).chan c = { s.chan c with ports := (s.chan c).ports.map f } :=
  (get_foldl_update (get := State.chan) (g := fun _ k => { k with ports := k.ports.map f })
    (fun s c => State.chan_modChan_self s c _) (fun s _ _ hd => State.chan_modChan_ne s _ hd) (by decide) s c).trans
    (if_pos (mem_chans c))

theorem State.mapPorts_touch (s : State) (f : Port → Port) (q : Req) : (s.touch q).mapPorts f = (s.mapPorts f).touch q :=
  List.foldl_hom (State.touch · q) (fun _ _ => rfl)

theorem State.enterStandby_eq (s : State) : s.enterStandby = ({ s.mapPorts Port.idled with
    power := { (s.mapPorts Port.idled).power with standby := true, returning := false } } : State).settle := by
  unfold State.enterStandby
  extract_lets idle
  have same : idle = Port.idled := by
    funext q
    cases st : q.st <;> simp [idle, Port.idled, st]
  exact congrArg (fun f => ({ s.mapPorts f with
    power := { (s.mapPorts f).power with standby := true, returning := false } } : State).settle) same

theorem State.settle_touch (s : State) (q : Req) : (s.touch q).settle = s.settle.touch q := by
  simp only [State.settle, apply_ite (State.touch · q)]
  rfl

theorem State.enterStandby_touch (s : State) (q : Req) : (s.touch q).enterStandby = s.enterStandby.touch q := by
  rw [State.enterStandby_eq, State.enterStandby_eq, State.mapPorts_touch, ← State.settle_touch]
  rfl

theorem State.enterStandby_frame (s : State) : s.enterStandby = { s with
    power := { s.power with standby := true, returning := false }, dev := s.enterStandby.dev, ch := s.enterStandby.ch } := by
  rw [State.enterStandby_eq, State.settle_frame, State.mapPorts_frame]

theorem State.chan_enterStandby (s : State) (c : ChanId) :
    s.enterStandby.chan c = { s.chan c with ports := (s.chan c).ports.map Port.idled } := by
  rw [State.enterStandby_eq, State.chan_settle]
  exact s.chan_mapPorts _ c

theorem State.port_enterStandby (s : State) (c : ChanId) (p : PortId) : (s.enterStandby.chan c).port p = ((s.chan c).port p).idled := by
  rw [State.chan_enterStandby]
  simp only [Channel.port, Vector.get_eq_getElem, Vector.getElem_map]

theorem State.leaveStandby_touch (s : State) (q : Req) : (s.touch q).leaveStandby = s.leaveStandby.touch q := by
  simp only [State.leaveStandby, apply_ite (State.touch · q)]
  rfl

theorem State.leaveStandby_frame (s : State) :
    s.leaveStandby = { s with power := s.leaveStandby.power } ∧ s.leaveStandby.power.lb = s.power.lb := by
  unfold State.leaveStandby
  split <;> exact ⟨rfl, rfl⟩

theorem State.applyStop_standby (s : State) (x : Session) (txid op : Nat) (d : List Byte) (o : WriteObs) :
    s.applyStop x txid op 0x7007 2 d o = if ofLe d = 0 then (some 0, s.leaveStandby)
      else if s.standbyForbidden then (some 0x0608, s) else (some 0, s.enterStandby) := rfl

theorem State.standbyForbidden_iff (s : State) : s.standbyForbidden = true
    ↔ s.anyRunning = true ∨ ∃ c, (s.chan c).svc.ckpt.isSome = true ∨ (s.chan c).etude.run.isSome = true := by
  simp [State.standbyForbidden, mem_chans]

section
variable {s : State} {q : Req} {x : Session} {d : List Byte}

theorem State.carried_enterStandby (h : s.accepts q false 0x7007 2 [2#8] x) (may : ¬ s.standbyForbidden = true) :
    s.carried (.enterStandby q) q 2 0x7007 2 s.enterStandby := by
  refine State.carried_of (o := {}) h rfl ?_ ?_ ?_ (fun t => rfl)
  · show (s.touch q).applyStop _ _ 2 0x7007 2 _ _ = _
    have may : ¬ (s.touch q).standbyForbidden = true := may
    rw [State.applyStop_standby, if_neg (by decide), if_neg may, State.enterStandby_touch]
  · rw [State.enterStandby_frame]
    exact h.1.1
  · rw [State.enterStandby_frame]

theorem State.refused_enterStandby (h : s.accepts q false 0x7007 2 [2#8] x) (no : s.standbyForbidden = true) :
    s.refusedWith (.enterStandby q) q 2 0x7007 2 0x0608 := by
  refine State.refusedWith_of (o := {}) h rfl (by decide) ?_
  show (s.touch q).applyStop _ _ 2 0x7007 2 _ _ = _
  have no : (s.touch q).standbyForbidden = true := no
  rw [State.applyStop_standby, if_neg (by decide), if_pos no]

theorem State.carried_leaveStandby (h : s.accepts q false 0x7007 2 [0#8] x) :
    s.carried (.leaveStandby q) q 2 0x7007 2 s.leaveStandby := by
  obtain ⟨frame, lb⟩ := s.leaveStandby_frame
  refine State.carried_of (o := {}) h rfl ?_ ?_ ?_ (fun t => rfl)
  · show (s.touch q).applyStop _ _ 2 0x7007 2 _ _ = _
    rw [State.applyStop_standby, if_pos (by decide), State.leaveStandby_touch]
  · unfold State.canSend
    rw [lb, frame]
    exact h.1.1
  · rw [frame]

/-! ### The declared time (16 R385) -/

theorem State.declare_eq (s : State) (v : Nat) : s.declare v = { s with
    mp := { s.mp with declTime := v }
    meter := if s.mp.meterLink && s.meter.powered then { s.meter with decl := v } else s.meter } := by
  by_cases linked : (s.mp.meterLink && s.meter.powered) = true
  · rw [if_pos linked]
    exact if_pos linked
  · rw [if_neg linked]
    exact if_neg linked

theorem State.carried_declaredTime (h : s.accepts q false 0x1040 0 d x) :
    s.carried (.declaredTimeWrite q d) q 2 0x1040 0 { s with
      mp := { s.mp with declTime := ofLe d }
      meter := if s.mp.meterLink && s.meter.powered then { s.meter with decl := ofLe d } else s.meter } := by
  refine State.carried_of (o := {}) h rfl ?_ h.1.1 rfl (fun t => rfl)
  show (some 0, (s.touch q).declare (ofLe d)) = _
  rw [State.declare_eq]
  rfl

end

/-! ### The statement -/

/-- Settles O17: each write is applied or refused by its condition, and standby idles the ports of every channel. -/
theorem serviceWrites : Obligations.ServiceWrites := by
  unfold Obligations.ServiceWrites
  refine ⟨fun s q c x => ⟨fun d h => ⟨State.carried_restart h, State.refused_restart h⟩, fun d h => ⟨fun bound idle closed => ?window,
    fun no => State.refused_openWindow h (by decide) (Channel.openWindow_of_busy no d)⟩, fun d => State.refused_openWindow_value,
    fun d h => ⟨State.carried_closeWindow h, State.refused_closeWindow h⟩,
    fun d h => ⟨State.carried_confidentialMode h, State.refused_confidentialMode h⟩⟩,
    fun s q x => ⟨fun h => ⟨fun idle free => ?enter, fun no => State.refused_enterStandby h (s.standbyForbidden_iff.mpr no)⟩,
      fun h => ?leave, fun d => State.carried_declaredTime⟩⟩
  case window =>
    have range := Channel.openWindow_of_idle bound idle closed d
    refine ⟨fun below inside => ?_, fun beyond => ?_⟩
    · rw [if_neg (by simpa [inside] using below)] at range
      exact State.carried_openWindow h range
    · rw [if_pos (by simpa using beyond)] at range
      exact State.refused_openWindow h (by decide) range
  case enter =>
    have may : ¬ s.standbyForbidden = true := by
      rw [State.standbyForbidden_iff]
      rintro (running | ⟨c, busy⟩)
      · simp [idle] at running
      · simp [free c] at busy
    refine ⟨_, State.carried_enterStandby h may, s.enterStandby_frame, fun c => ?_, s.port_enterStandby⟩
    rw [State.chan_enterStandby]
  case leave =>
    have carried := State.carried_leaveStandby h
    unfold State.leaveStandby at carried
    refine ⟨fun standby => ?_, fun standby => ?_⟩
    · rwa [if_pos standby] at carried
    · rwa [if_neg (by simp [standby])] at carried

end Sys2Proof.Machine
end

section
/-! SUPPORT. Writes whose answer or product is made for the session: encapsulation keys, nonces and read-out requests (13 R345; 15 R381;
16 R397). -/

namespace Sys2Proof.Machine

open Sys2Proof

variable {s u : State} {q : Req} {x : Session} {i : Instr} {index sub : Nat} {d : List Byte}

/-- A write that is not answered yet leaves what its stop made of the state. -/
theorem State.exec_of_unanswered (h : s.accepts q false index sub d x) (hi : exec i s = s.put q index sub d)
    (hu : (s.touch q).applyStop { x with idle := 0 } q.txid 2 index sub d {} = (none, u)) : exec i s = .next u := by
  refine (hi.trans (State.writeStop_accepted h {})).trans ?_
  simp only [Bool.false_eq_true, if_false, hu]
  rfl

/-- The session of a request that is accepted has the request's handle. -/
theorem State.accepts.handle {block : Bool} (h : s.accepts q block index sub d x) : x.handle = q.session := by
  obtain ⟨-, -, -, -, open_, -⟩ := h.1
  exact State.session?_handle open_

/-! ### Encapsulation keys (13 R345) -/

/-- The keys of a bounce-buffer session: SHAKE256 of the shared secret, EVT4-BOUNCE and the ciphertext. -/
def bounceKeyBytes (key : List Byte) (r : Nat) : List Byte :=
  Hash.shake256 (Config.kemSecret key r
    ++ [0x45#8, 0x56#8, 0x54#8, 0x34#8, 0x2D#8, 0x42#8, 0x4F#8, 0x55#8, 0x4E#8, 0x43#8, 0x45#8]
    ++ fitTo 1568 (Config.kemCiphertext key r)) 64

/-- The reply to an encapsulation key: the ciphertext, the channel and the signature (log 49). -/
def encapReplyBytes (c : ChanId) (key : List Byte) (r : Nat) : List Byte :=
  let ct := fitTo 1568 (Config.kemCiphertext key r)
  ct ++ [byteOf c.val] ++ leBytes 2 1280
    ++ fitTo 1280 (Config.identitySign (Hash.shake512 (key ++ fitTo 1793 Config.identityPub ++ ct)))

/-- The state with keys agreed for channel `c`, from the second free value. -/
def State.encapsulated (s : State) (c : ChanId) (key : List Byte) : State :=
  let r := Config.freeNat (s.freeCtr + 1)
  { s.setChan c { s.chan c with svc := { (s.chan c).svc with
      bounceKeys := some ((bounceKeyBytes key r).take 32, (bounceKeyBytes key r).drop 32), bounceSeq := none } } with
    freeCtr := s.freeCtr + 2, mp := { s.mp with encapReply := encapReplyBytes c key r } }

/-- Keys are agreed for a channel that the session may access, where there is one. -/
theorem State.encapsulate_cases (s : State) (x : Session) (key : List Byte) :
    (∃ c, x.seesChannel (s.chan c) = true ∧ s.encapsulate x key = (0, s.encapsulated c key))
      ∨ ((∀ c, x.seesChannel (s.chan c) = false) ∧ s.encapsulate x key = (0x060C, s.drew 1)) := by
  unfold State.encapsulate
  extract_lets seen
  cases pick : seen[(s.draw seen.length).1]? with
  | some c =>
    have seen : x.seesChannel (s.chan c) = true := (List.mem_filter.mp (List.mem_of_getElem? pick)).2
    refine .inl ⟨c, seen, ?_⟩
    simp only [pick]
    rfl
  | none =>
    have blind : seen = [] := by
      by_contra nonempty
      have pos : 0 < seen.length := List.length_pos_iff.mpr nonempty
      have draw : (s.draw seen.length).1 < seen.length := by
        simp only [State.draw, if_neg pos.ne']
        exact Nat.mod_lt _ pos
      exact absurd (List.getElem?_eq_none_iff.mp pick) (Nat.not_le.mpr draw)
    refine .inr ⟨fun c => ?_, ?_⟩
    · have := List.filter_eq_nil_iff.mp blind c (mem_chans c)
      simpa using this
    · simp only [pick]
      rfl

theorem State.applyStop_encapKey (s : State) (x : Session) (txid op : Nat) (d : List Byte) (o : WriteObs) :
    s.applyStop x txid op 0x8005 2 d o = (some (s.encapsulate x d).1, (s.encapsulate x d).2) := rfl

theorem State.carried_hostEncapKey (h : s.accepts q false 0x8005 2 d x) (sees : ∃ c, x.seesChannel (s.chan c) = true) :
    ∃ c, x.seesChannel (s.chan c) = true ∧ s.carried (.hostEncapKeyWrite q d) q 2 0x8005 2 (s.encapsulated c d) := by
  obtain ⟨c, seen, made⟩ | ⟨blind, -⟩ := (s.touch q).encapsulate_cases { x with idle := 0 } d
  · refine ⟨c, seen, State.carried_of (o := {}) h rfl ?_ h.1.1 rfl (fun t => rfl)⟩
    show (s.touch q).applyStop _ _ 2 0x8005 2 _ _ = _
    rw [State.applyStop_encapKey, made]
    rfl
  · obtain ⟨c, seen⟩ := sees
    exact (Bool.false_ne_true ((blind c).symm.trans seen)).elim

/-- A session that may access no channel is refused; a free value has been drawn all the same. -/
theorem State.refused_hostEncapKey (h : s.accepts q false 0x8005 2 d x) (blind : ∀ c, x.seesChannel (s.chan c) = false) :
    ∃ t, exec (.hostEncapKeyWrite q d) s = .next t ∧ State.talked { s with freeCtr := t.freeCtr } t
      ∧ s.replied t q 2 0x8005 2 0x060C [] := by
  obtain ⟨c, seen, -⟩ | ⟨-, refused⟩ := (s.touch q).encapsulate_cases { x with idle := 0 } d
  · exact (Bool.false_ne_true ((blind c).symm.trans seen)).elim
  · have run : exec (.hostEncapKeyWrite q d) s = .next (((s.touch q).drew 1).answer q 2 0x8005 2 { code := some 0x060C }) := by
      refine (State.writeStop_accepted h {} : s.writeStop q false {} 0x8005 2 d = _).trans ?_
      simp only [Bool.false_eq_true, if_false, State.applyStop_encapKey, refused]
      rfl
    refine ⟨_, run, ?_, ?_⟩
    · rw [State.answer_freeCtr]
      exact State.talked_trans (State.talked_touch (s.drew 1) q) (State.talked_answer _ _ _ _ _ _)
    · exact State.replied_answer (u := (s.touch q).drew 1) h.1.1 q 2 0x8005 2 0x060C [] (fun _ => rfl)

/-! ### Attestation nonces (15 R381) -/

theorem State.applyStop_nonce (s : State) (x : Session) (txid op sub : Nat) (d : List Byte) (o : WriteObs) :
    s.applyStop x txid op 0x8001 sub d o = s.startReport x txid op d := rfl

/-- A report is on the state as the nonce comes, whatever the session's idle time. -/
theorem State.reportBody_touch (s : State) (q : Req) (x : Session) (nonce : List Byte) :
    (s.touch q).reportBody { x with idle := 0 } nonce = s.reportBody x nonce := rfl

theorem State.exec_attestationNonce (h : s.accepts q false 0x8001 0 d x) (free : ∀ r ∈ s.mp.reports, r.session ≠ q.session) :
    exec (.attestationNonce q d) s = .next { s.touch q with
      mp := { (s.touch q).mp with reports := s.mp.reports ++
        [{ session := q.session, txid := q.txid, op := 2, body := s.reportBody x d }] } } := by
  refine State.exec_of_unanswered h rfl ?_
  have unused : ¬ s.mp.reports.any (fun r => r.session == x.handle) = true := by
    rw [h.handle]
    simpa using free
  rw [State.applyStop_nonce]
  refine (if_neg unused).trans ?_
  rw [State.reportBody_touch]
  dsimp only
  rw [h.handle]
  rfl

theorem State.refused_attestationNonce (h : s.accepts q false 0x8001 0 d x) (building : ∃ r ∈ s.mp.reports, r.session = q.session) :
    s.refusedWith (.attestationNonce q d) q 2 0x8001 0 0x0608 := by
  refine State.refusedWith_of (o := {}) h rfl (by decide) ?_
  have used : s.mp.reports.any (fun r => r.session == x.handle) = true := by
    rw [h.handle]
    simpa using building
  exact if_pos used

/-! ### Read-out requests (16 R397) -/

theorem State.applyStop_readout (s : State) (x : Session) (txid op sub : Nat) (d : List Byte) (o : WriteObs) :
    s.applyStop x txid op 0x9006 sub d o = s.requestReadout x txid op d := rfl

theorem State.exec_meterReadoutRequest (h : s.accepts q false 0x9006 0 d x) (link : s.mp.meterLink = true) (power : s.meter.powered = true) :
    exec (.meterReadoutRequest q d) s = .next { s.touch q with
      meter := { s.meter with readouts := s.meter.readouts ++
        [{ session := q.session, txid := q.txid, op := 2, nonce := d.take 32
           filter := if x.role = .tenant then x.job else fieldLe d 32 2 }] } } := by
  refine State.exec_of_unanswered h rfl ?_
  have asks : ¬ (!(s.touch q).mp.meterLink || !(s.touch q).meter.powered) = true := by
    show ¬ (!s.mp.meterLink || !s.meter.powered) = true
    simp [link, power]
  rw [State.applyStop_readout]
  refine (if_neg asks).trans ?_
  dsimp only
  rw [h.handle]
  rfl

theorem State.refused_meterReadoutRequest (h : s.accepts q false 0x9006 0 d x)
    (no : s.mp.meterLink = false ∨ s.meter.powered = false) : s.refusedWith (.meterReadoutRequest q d) q 2 0x9006 0 0x0608 := by
  refine State.refusedWith_of (o := {}) h rfl (by decide) ?_
  have cut : (!s.mp.meterLink || !s.meter.powered) = true := by simpa using no
  exact if_pos cut

/-- Settles O18: keys are agreed as `State.encapsulated` says, and a nonce and a read-out request wait for their answer. -/
theorem sessionProductWrites : Obligations.SessionProductWrites := by
  unfold Obligations.SessionProductWrites
  intro s q x label
  refine ⟨fun d h => ⟨fun sees => ?_, State.refused_hostEncapKey h⟩,
    fun d h => ⟨State.exec_attestationNonce h, State.refused_attestationNonce h⟩,
    fun d h => ⟨State.exec_meterReadoutRequest h, State.refused_meterReadoutRequest h⟩⟩
  obtain ⟨c, seen, carried⟩ := State.carried_hostEncapKey h sees
  exact ⟨_, c, _, carried, seen, rfl, rfl⟩

end Sys2Proof.Machine
end

section
/-! SUPPORT. A write to space 0 reaches its bytes and no others, through the write-combining buffer (09 R231, R248 to R250). -/

namespace Sys2Proof.Machine

open Sys2Proof

/-! ### Bytes put into a line -/

/-- The byte that sorted bytes hold at a place. -/
def byteIn (bs : SMap Byte) (n : Nat) : Option Byte := (bs.find? (fun b => b.1 == n)).map Prod.snd

/-- The byte that bytes laid from a place on hold at another place. -/
def laid (base : Nat) (bs : List Byte) (n : Nat) : Option Byte := if base ≤ n then bs[n - base]? else none

theorem byteIn_cons (e : Nat × Byte) (m : SMap Byte) (n : Nat) : byteIn (e :: m) n = if e.1 = n then some e.2 else byteIn m n := by
  by_cases h : e.1 = n <;> simp [byteIn, h]

theorem byteIn_put {m : SMap Byte} (sorted : m.Pairwise fun x y => x.1 < y.1) (k n : Nat) (v : Byte) :
    byteIn (SMap.put m k v) n = if k = n then some v else byteIn m n := by
  induction m with
  | nil => exact byteIn_cons (k, v) [] n
  | cons e m ih =>
    have ih := ih (List.pairwise_cons.mp sorted).2
    by_cases same : k = e.1
    · simp only [SMap.put, if_pos same]
      rw [byteIn_cons, byteIn_cons, ← same]
      split_ifs <;> rfl
    · by_cases before : k < e.1
      · simp only [SMap.put, if_neg same, if_pos before, byteIn_cons]
      · simp only [SMap.put, if_neg same, if_neg before, byteIn_cons, ih]
        by_cases here : e.1 = n
        · rw [if_pos here, if_pos here, if_neg (here ▸ same)]
        · rw [if_neg here, if_neg here]

theorem pairwise_put {m : SMap Byte} (sorted : m.Pairwise fun x y => x.1 < y.1) (k : Nat) (v : Byte) :
    (SMap.put m k v).Pairwise fun x y => x.1 < y.1 := by
  induction m with
  | nil => exact List.pairwise_singleton _ _
  | cons e m ih =>
    obtain ⟨above, rest⟩ := List.pairwise_cons.mp sorted
    simp only [SMap.put]
    split_ifs with same before
    · exact List.pairwise_cons.mpr ⟨same ▸ above, rest⟩
    · refine List.pairwise_cons.mpr ⟨fun x hx => ?_, sorted⟩
      rcases List.mem_cons.mp hx with rfl | hx
      · exact before
      · exact before.trans (above x hx)
    · exact List.pairwise_cons.mpr ⟨SMap.above_put above (by omega), ih rest⟩

theorem mem_put {m : SMap Byte} {k : Nat} {v : Byte} {x : Nat × Byte} (h : x ∈ SMap.put m k v) : x = (k, v) ∨ x ∈ m := by
  induction m with
  | nil => exact .inl (List.mem_singleton.mp h)
  | cons e m ih =>
    simp only [SMap.put] at h
    split_ifs at h
    · rcases List.mem_cons.mp h with h | h
      · exact .inl h
      · exact .inr (List.mem_cons_of_mem _ h)
    · exact List.mem_cons.mp h
    · rcases List.mem_cons.mp h with rfl | h
      · exact .inr List.mem_cons_self
      · exact (ih h).imp_right (List.mem_cons_of_mem _)

/-- Bytes laid one by one from a place on. -/
def putBytes (old : SMap Byte) (base : Nat) (bs : List Byte) : SMap Byte :=
  (bs.zipIdx).foldl (fun (b : SMap Byte) x => SMap.put b (base + x.2) x.1) old

theorem putBytes_concat (old : SMap Byte) (base : Nat) (bs : List Byte) (v : Byte) :
    putBytes old base (bs ++ [v]) = SMap.put (putBytes old base bs) (base + bs.length) v := by
  simp [putBytes, List.zipIdx_append]

/-- What holds of the bytes of a line and of every byte laid, holds after all are laid. -/
theorem pairwise_putBytes {old : SMap Byte} (sorted : old.Pairwise fun x y => x.1 < y.1) (base : Nat) (bs : List Byte) :
    (putBytes old base bs).Pairwise fun x y => x.1 < y.1 :=
  foldl_keeps (P := fun m : SMap Byte => m.Pairwise fun x y => x.1 < y.1) (fun _ _ h => pairwise_put h _ _) _ sorted

theorem byteIn_putBytes {old : SMap Byte} (sorted : old.Pairwise fun x y => x.1 < y.1) (base : Nat) (bs : List Byte) (n : Nat) :
    byteIn (putBytes old base bs) n = (laid base bs n).or (byteIn old n) := by
  induction bs using List.reverseRecOn with
  | nil => simp [putBytes, laid]
  | append_singleton bs v ih =>
    rw [putBytes_concat, byteIn_put (pairwise_putBytes sorted base bs), ih]
    unfold laid
    by_cases last : base + bs.length = n
    · have place : n - base = bs.length := by omega
      simp [last, show base ≤ n by omega, place]
    · by_cases low : base ≤ n
      · by_cases inside : n - base < bs.length
        · simp [last, low, List.getElem?_append_left inside]
        · have beyond : (bs ++ [v]).length ≤ n - base := by simp; omega
          simp [last, low, List.getElem?_eq_none beyond, List.getElem?_eq_none (Nat.not_lt.mp inside)]
      · simp [last, low]

theorem lt_of_mem_putBytes {old : SMap Byte} {base : Nat} {bs : List Byte} (inside : ∀ b ∈ old, b.1 < 256)
    (fits : base + bs.length ≤ 256) : ∀ b ∈ putBytes old base bs, b.1 < 256 := by
  induction bs using List.reverseRecOn with
  | nil => exact inside
  | append_singleton bs v ih =>
    rw [List.length_append, List.length_singleton] at fits
    intro b hb
    rw [putBytes_concat] at hb
    rcases mem_put hb with rfl | hb
    · show base + bs.length < 256
      omega
    · exact ih (by omega) b hb

/-! ### A line of the write-combining buffer takes bytes -/

section
variable {m : Mem}

theorem WcbLine.held_eq_byteIn {l : WcbLine} {a : Nat} (ha : a / 256 * 256 = l.addr) : l.held a = byteIn l.bytes (a % 256) :=
  WcbLine.held_eq ha

/-- The line that a write enters: the one of its address, or a new one (09 R248). -/
def Mem.lineFor (m : Mem) (q : Place) : WcbLine := (m.line q.key).getD { addr := q.key / 256 * 256, cls := q.cls }

/-- The line after the write. -/
def Mem.lineWith (m : Mem) (q : Place) (bs : List Byte) : WcbLine :=
  { m.lineFor q with cls := q.cls, bytes := putBytes (m.lineFor q).bytes (q.key % 256) bs }

/-- The memory without the line of an address. -/
def Mem.without (m : Mem) (q : Place) : Mem := { m with wcb := m.wcb.filter (fun (l : WcbLine) => l.addr != q.key / 256 * 256) }

theorem Mem.addr_lineFor (m : Mem) (q : Place) : (m.lineFor q).addr = q.key / 256 * 256 := by
  unfold Mem.lineFor
  cases line : m.line q.key with
  | none => rfl
  | some l => exact (Mem.addr_of_line line).symm

theorem Mem.sound.lineFor_ok (h : m.sound) (q : Place) : (m.lineFor q).ok := by
  obtain ⟨-, ok, -⟩ := h
  unfold Mem.lineFor
  cases line : m.line q.key with
  | none => exact ⟨Nat.mul_mod_left _ _, fun b hb => (List.not_mem_nil hb).elim, .nil⟩
  | some l => exact ok l (List.mem_of_find?_eq_some line)

theorem Mem.sound.lineWith_ok (h : m.sound) {q : Place} {bs : List Byte} (fits : q.key % 256 + bs.length ≤ 256) : (m.lineWith q bs).ok := by
  obtain ⟨aligned, inside, sorted⟩ := h.lineFor_ok q
  exact ⟨aligned, lt_of_mem_putBytes inside fits, pairwise_putBytes sorted _ _⟩

/-- What a read sees in the line of a write, from the line itself. -/
theorem Mem.byte_lineFor {q : Place} {a : Nat} (ha : a / 256 * 256 = q.key / 256 * 256) :
    m.byte a = ((m.lineFor q).held a).getD (m.dram.rd a) := by
  have same : m.line q.key = m.line a := by
    unfold Mem.line
    rw [ha]
  unfold Mem.lineFor
  rw [same]
  cases line : m.line a with
  | none =>
    rw [Mem.byte_of_no_line line]
    rfl
  | some l => exact Mem.byte_of_line line

/-- The bytes laid by a write, seen through its line. -/
theorem Mem.sound.held_lineWith (h : m.sound) {q : Place} (bs : List Byte) {a : Nat} (ha : a / 256 * 256 = q.key / 256 * 256) :
    (m.lineWith q bs).held a = (laid q.key bs a).or ((m.lineFor q).held a) := by
  obtain ⟨-, -, sorted⟩ := h.lineFor_ok q
  have here : a / 256 * 256 = (m.lineFor q).addr := ha.trans (m.addr_lineFor q).symm
  have place : laid (q.key % 256) bs (a % 256) = laid q.key bs a := by
    unfold laid
    rw [show a % 256 - q.key % 256 = a - q.key by omega]
    exact if_congr (by omega) rfl rfl
  rw [WcbLine.held_eq_byteIn (l := m.lineWith q bs) here, WcbLine.held_eq_byteIn here, ← place]
  exact byteIn_putBytes sorted _ _ _

/-- A write lays no byte outside its line. -/
theorem laid_eq_none {base : Nat} {bs : List Byte} {a : Nat} (fits : base % 256 + bs.length ≤ 256) (ha : a / 256 ≠ base / 256) :
    laid base bs a = none := by
  unfold laid
  split
  · exact List.getElem?_eq_none (by omega)
  · rfl

/-! ### The oldest line goes, and a full one -/

/-- A memory that shows the same bytes as another, in a sound state, and buffers no line of an address. -/
structure Mem.Shows (m : Mem) (key : Nat) (m' : Mem) : Prop where
  sound : m'.sound
  bytes : ∀ a, m'.byte a = m.byte a
  gone : ∀ l ∈ m'.wcb, l.addr ≠ key / 256 * 256

theorem Mem.sound.without (h : m.sound) (q : Place) : (m.without q).Shows q.key (m.without q) := by
  obtain ⟨canonical, ok, unique⟩ := h
  refine ⟨⟨canonical, fun l hl => ok l (List.mem_of_mem_filter hl), unique.filter _⟩, fun _ => rfl, fun l hl => ?_⟩
  simpa using (List.mem_filter.mp hl).2

/-- Its first line written out and taken away, a memory shows the same. -/
theorem Mem.Shows.evict {m' : Mem} {key : Nat} (h : m.Shows key m') {v : WcbLine} {more : List WcbLine} (first : m'.wcb = v :: more)
    (cnt : MemCnt) : m.Shows key { m'.writeLine v with wcb := more, cnt := cnt } := by
  obtain ⟨⟨canonical, ok, unique⟩, bytes, gone⟩ := h
  rw [first] at ok unique gone
  obtain ⟨alone, unique⟩ := List.pairwise_cons.mp unique
  have okv := ok v List.mem_cons_self
  have written := fun a => okv.rd_writeLine canonical a
  refine ⟨⟨Mem.writeLine_canonical v canonical, fun l hl => ok l (List.mem_cons_of_mem _ hl), unique⟩, fun a => ?_,
    fun l hl => gone l (List.mem_cons_of_mem _ hl)⟩
  rw [← bytes a]
  by_cases ha : v.addr = a / 256 * 256
  · have before : m'.line a = some v := by
      unfold Mem.line
      rw [first]
      exact List.find?_cons_of_pos (by simpa using ha)
    have after : Mem.line { m'.writeLine v with wcb := more, cnt := cnt } a = none := by
      refine List.find?_eq_none.mpr fun l hl => ?_
      simpa [← ha] using (alone l hl).symm
    rw [Mem.byte_of_line before, Mem.byte_of_no_line after]
    exact written a
  · have same : Mem.line { m'.writeLine v with wcb := more, cnt := cnt } a = m'.line a := by
      unfold Mem.line
      rw [first, List.find?_cons_of_neg (by simpa using ha)]
    have kept := written a
    rw [okv.held_eq_none (Ne.symm ha)] at kept
    cases line : m'.line a with
    | none =>
      rw [Mem.byte_of_no_line line, Mem.byte_of_no_line (same.trans line)]
      exact kept
    | some l =>
      rw [Mem.byte_of_line line, Mem.byte_of_line (same.trans line)]
      exact congrArg _ kept

/-- The first of 256 lines goes, when a new one comes (09 R249). -/
def Mem.madeRoom (m : Mem) (fresh : Bool) : Mem :=
  match fresh && decide (256 ≤ m.wcb.length), m.wcb with
  | true, v :: more => { (m.writeLine v) with wcb := more, cnt := { (m.writeLine v).cnt with wcbEvict := sat32 m.cnt.wcbEvict 1 } }
  | _, _ => m

theorem Mem.Shows.madeRoom {m' : Mem} {key : Nat} (h : m.Shows key m') (fresh : Bool) : m.Shows key (m'.madeRoom fresh) := by
  unfold Mem.madeRoom
  split
  · next first => exact h.evict first _
  · exact h

theorem Mem.wcbWrite_eq (m : Mem) (q : Place) (bs : List Byte) : m.wcbWrite q bs =
    if (m.lineWith q bs).bytes.length = 256 then ((m.without q).madeRoom (m.line q.key).isNone).writeLine (m.lineWith q bs)
    else { (m.without q).madeRoom (m.line q.key).isNone with
      wcb := ((m.without q).madeRoom (m.line q.key).isNone).wcb ++ [m.lineWith q bs] } := rfl

theorem Mem.Shows.line_eq_none {m' : Mem} {key a : Nat} (h : m.Shows key m') (ha : a / 256 * 256 = key / 256 * 256) : m'.line a = none := by
  refine List.find?_eq_none.mpr fun l hl => ?_
  rw [ha]
  simpa using h.gone l hl

/-- What a memory shows that takes over line `l`: the line's own bytes, and elsewhere what it showed. -/
def Mem.TakesLine (m' : Mem) (l : WcbLine) (r : Mem) : Prop :=
  r.sound ∧ ∀ a, r.byte a = if a / 256 * 256 = l.addr then (l.held a).getD (m'.dram.rd a) else m'.byte a

section
variable {m' : Mem} {key : Nat} {l : WcbLine} (h : m.Shows key m') (ok : l.ok) (hl : l.addr = key / 256 * 256)
include h ok hl

/-- A full line is written out at once (09 R249). -/
theorem Mem.Shows.writeLine : m'.TakesLine l (m'.writeLine l) := by
  obtain ⟨canonical, oks, unique⟩ := h.sound
  have line : ∀ a, (m'.writeLine l).line a = m'.line a := fun a => by
    unfold Mem.line
    rw [Mem.writeLine_wcb]
  refine ⟨⟨Mem.writeLine_canonical l canonical, by rwa [Mem.writeLine_wcb], by rwa [Mem.writeLine_wcb]⟩, fun a => ?_⟩
  have written := ok.rd_writeLine canonical a
  split
  · next ha =>
    rw [Mem.byte_of_no_line ((line a).trans (h.line_eq_none (ha.trans hl))), written]
  · next ha =>
    rw [ok.held_eq_none ha] at written
    cases held : m'.line a with
    | none =>
      rw [Mem.byte_of_no_line held, Mem.byte_of_no_line ((line a).trans held)]
      exact written
    | some v =>
      rw [Mem.byte_of_line held, Mem.byte_of_line ((line a).trans held)]
      exact congrArg _ written

/-- A line with room stays in the buffer. -/
theorem Mem.Shows.append : m'.TakesLine l { m' with wcb := m'.wcb ++ [l] } := by
  obtain ⟨canonical, oks, unique⟩ := h.sound
  have oks' : ∀ x ∈ m'.wcb ++ [l], x.ok := fun x hx => by
    rcases List.mem_append.mp hx with hx | hx
    · exact oks x hx
    · rw [List.mem_singleton.mp hx]
      exact ok
  have unique' : (m'.wcb ++ [l]).Pairwise fun a b => a.addr ≠ b.addr :=
    List.pairwise_append.mpr ⟨unique, List.pairwise_singleton _ _, fun x hx y hy => by
      rw [List.mem_singleton.mp hy, hl]
      exact h.gone x hx⟩
  refine ⟨⟨canonical, oks', unique'⟩, fun a => ?_⟩
  split
  · next ha =>
    have line : Mem.line { m' with wcb := m'.wcb ++ [l] } a = some l := by
      unfold Mem.line
      rw [List.find?_append, show m'.wcb.find? (fun x => x.addr == a / 256 * 256) = none from h.line_eq_none (ha.trans hl)]
      simp [ha]
    exact Mem.byte_of_line line
  · next ha =>
    have line : Mem.line { m' with wcb := m'.wcb ++ [l] } a = m'.line a := by
      unfold Mem.line
      rw [List.find?_append]
      simp [Ne.symm ha]
    unfold Mem.byte
    rw [line]

end

/-- A write inside a line: its bytes are seen where they are laid, and every other byte as before. -/
theorem Mem.sound.wcbWrite (h : m.sound) {q : Place} {bs : List Byte} (fits : q.key % 256 + bs.length ≤ 256) :
    (m.wcbWrite q bs).sound ∧ ∀ a, (m.wcbWrite q bs).byte a = (laid q.key bs a).getD (m.byte a) := by
  have out := h.without q
  have room := out.madeRoom (m.line q.key).isNone
  have ok := h.lineWith_ok fits
  have addr : (m.lineWith q bs).addr = q.key / 256 * 256 := m.addr_lineFor q
  have takes : ((m.without q).madeRoom (m.line q.key).isNone).TakesLine (m.lineWith q bs) (m.wcbWrite q bs) := by
    rw [Mem.wcbWrite_eq]
    split
    · exact room.writeLine ok addr
    · exact room.append ok addr
  refine ⟨takes.1, fun a => (takes.2 a).trans ?_⟩
  rw [addr]
  split
  · next ha =>
    have memory : ((m.without q).madeRoom (m.line q.key).isNone).dram.rd a = m.dram.rd a := by
      rw [← Mem.byte_of_no_line (room.line_eq_none ha), room.bytes, Mem.byte_of_no_line (out.line_eq_none ha)]
      rfl
    rw [h.held_lineWith bs ha, memory, Mem.byte_lineFor ha]
    cases laid q.key bs a <;> rfl
  · next ha =>
    have line : (m.without q).line a = m.line a := by
      unfold Mem.line Mem.without
      rw [List.find?_filter]
      congr 1
      funext l
      rw [Bool.eq_iff_iff]
      simp only [bne_iff_ne, beq_iff_eq, decide_eq_true_eq]
      exact ⟨And.right, fun e => ⟨fun e' => ha (e.symm.trans e'), e⟩⟩
    have kept : (m.without q).byte a = m.byte a := by
      unfold Mem.byte
      rw [line]
      rfl
    rw [room.bytes, kept, laid_eq_none fits (fun e => ha (by rw [e]))]
    rfl

end

/-! ### Writing leaves the translation of addresses alone -/

section
variable (m : Mem)

theorem Mem.place_moved (key n : Nat) : (m.moved key n).place = m.place := by
  unfold Mem.moved
  split <;> rfl

theorem Mem.place_writeBack (cwi : Nat) : (m.writeBack cwi).place = m.place := by
  unfold Mem.writeBack
  split
  · rfl
  · exact Mem.place_moved _ _ _

theorem Mem.place_checkCodeword (cls cwi : Nat) : (m.checkCodeword cls cwi).2.place = m.place := by
  unfold Mem.checkCodeword
  dsimp only
  split
  · rfl
  · split
    · rfl
    · split
      · exact Mem.place_writeBack _ _
      · rfl

theorem Mem.place_writeCodeword (l : WcbLine) (i : Nat) : (m.writeCodeword l i).place = m.place := by
  unfold Mem.writeCodeword
  extract_lets bs _ _ _ _ m₁
  split
  · rfl
  · split
    · exact Mem.place_moved _ _ _
    · split
      · refine (Mem.place_moved _ _ _).trans (?_ : m₁.place = m.place)
        unfold m₁
        split <;> rfl
      · exact (Mem.place_moved _ _ _).trans (m.place_checkCodeword _ _)

theorem Mem.place_writeLine (l : WcbLine) : (m.writeLine l).place = m.place :=
  foldl_keeps (P := fun x : Mem => x.place = m.place) (fun x i hx => (x.place_writeCodeword l i).trans hx) _ rfl

theorem Mem.place_madeRoom (fresh : Bool) : (m.madeRoom fresh).place = m.place := by
  unfold Mem.madeRoom
  split
  · exact m.place_writeLine _
  · rfl

theorem Mem.place_wcbWrite (q : Place) (bs : List Byte) : (m.wcbWrite q bs).place = m.place := by
  have room : ((m.without q).madeRoom (m.line q.key).isNone).place = m.place := Mem.place_madeRoom _ _
  rw [Mem.wcbWrite_eq]
  split
  · exact (Mem.place_writeLine _ _).trans room
  · exact room

end

/-! ### A write of several lines -/

/-- Inside a line of 256 bytes, space 0 is mapped as its first byte is (09 R231). -/
theorem Mem.place_add (m : Mem) {addr i : Nat} (inside : addr % 256 + i < 256) :
    m.place 0 (addr + i) = (m.place 0 addr).map (fun q => { q with key := q.key + i }) := by
  have page : (addr + i) / pageBytes = addr / pageBytes := by unfold pageBytes; omega
  have offset : (addr + i) % pageBytes = addr % pageBytes + i := by unfold pageBytes; omega
  unfold Mem.place
  simp only [if_true, page, offset]
  split
  · simp [Nat.add_assoc]
  · rfl

/-- A line begins at the same place of its tier as of its space. -/
theorem Mem.key_mod_of_place {m : Mem} {addr : Nat} {q : Place} (h : m.place 0 addr = some q) : q.key % 256 = addr % 256 := by
  unfold Mem.place at h
  simp only [if_true] at h
  split at h
  · have key := congrArg Place.key (Option.some.inj h).symm
    rw [key]
    dsimp only
    split <;> simp only [pageBytes, farBase] <;> omega
  · cases h

/-- Nothing is written where nothing is mapped. -/
theorem Mem.wrote_of_unmapped {m : Mem} {addr : Nat} {bs : List Byte} (h : ∀ i, i < bs.length → m.place 0 (addr + i) = none) :
    m.wrote m 0 addr bs :=
  ⟨fun _ _ => rfl, fun i q hi hq => by rw [h i hi] at hq; cases hq⟩

/-- A write and the write of what follows are one write. -/
theorem Mem.wrote.append {m m₁ m₂ : Mem} {addr : Nat} {bs cs : List Byte} (h : m.wrote m₁ 0 addr bs)
    (place : m₁.place = m.place) (h' : m₁.wrote m₂ 0 (addr + bs.length) cs) : m.wrote m₂ 0 addr (bs ++ cs) := by
  obtain ⟨outside, inside⟩ := h
  obtain ⟨outside', inside'⟩ := h'
  rw [place] at outside' inside'
  have later : ∀ i q, i < cs.length → m.place 0 (addr + bs.length + i) = some q → m.place 0 (addr + (bs.length + i)) = some q :=
    fun i q _ hq => by rwa [← Nat.add_assoc]
  refine ⟨fun a free => ?_, fun i q hi hq last => ?_⟩
  · rw [List.length_append] at free
    rw [outside' a fun i q hi hq => free (bs.length + i) q (by omega) (later i q hi hq),
      outside a fun i q hi hq => free i q (by omega) hq]
  · rw [List.length_append] at hi last
    by_cases first : i < bs.length
    · rw [outside' q.key fun j r hj hr => last (bs.length + j) r (by omega) (by omega) (later j r hj hr),
        inside i q first hq fun j r hij hj hr => last j r hij (by omega) hr, List.getElem?_append_left first]
    · obtain ⟨n, rfl⟩ := Nat.exists_eq_add_of_le (Nat.not_lt.mp first)
      rw [inside' n q (by omega) (by rwa [Nat.add_assoc]) fun j r hij hj hr => last (bs.length + j) r (by omega) (by omega)
        (later j r hj hr), List.getElem?_append_right (by omega), Nat.add_sub_cancel_left]

/-- The pieces of a write in space 0, one after the other. -/
def Mem.storePiece (m : Mem) (addr : Nat) (bs : List Byte) : Mem :=
  match m.place 0 addr with
  | some q => m.wcbWrite q bs
  | none => m

theorem Mem.place_storePiece (m : Mem) (addr : Nat) (bs : List Byte) : (m.storePiece addr bs).place = m.place := by
  unfold Mem.storePiece
  split
  · exact m.place_wcbWrite _ _
  · rfl

theorem Mem.sound.storePiece {m : Mem} (h : m.sound) {addr : Nat} {bs : List Byte} (fits : addr % 256 + bs.length ≤ 256) :
    (m.storePiece addr bs).sound ∧ m.wrote (m.storePiece addr bs) 0 addr bs := by
  have inLine : ∀ i, i < bs.length → m.place 0 (addr + i) = (m.place 0 addr).map (fun q => { q with key := q.key + i }) :=
    fun i hi => m.place_add (by omega)
  unfold Mem.storePiece
  cases first : m.place 0 addr with
  | none => exact ⟨h, Mem.wrote_of_unmapped fun i hi => by rw [inLine i hi, first]; rfl⟩
  | some q =>
    obtain ⟨sound, bytes⟩ := h.wcbWrite (q := q) (bs := bs) (by rw [Mem.key_mod_of_place first]; exact fits)
    have at_ : ∀ i, i < bs.length → m.place 0 (addr + i) = some { q with key := q.key + i } := fun i hi => by
      rw [inLine i hi, first]
      rfl
    refine ⟨sound, fun a free => ?_, fun i r hi hr _ => ?_⟩
    · have apart : laid q.key bs a = none := by
        unfold laid
        split
        · next above =>
          refine List.getElem?_eq_none (Nat.not_lt.mp fun inside => ?_)
          exact free (a - q.key) _ inside (at_ _ inside) (Nat.add_sub_cancel' above)
        · rfl
      exact (bytes a).trans (by rw [apart]; rfl)
    · obtain rfl := Option.some.inj ((at_ i hi).symm.trans hr)
      refine congrArg some ((bytes (q.key + i)).trans ?_) |>.trans (List.getElem?_eq_getElem hi).symm
      simp [laid, hi]

/-- The pieces of `bs` from an address on, `whole` being the bytes of the write from its start. -/
theorem Mem.sound.storePieces {start : Nat} {whole : List Byte} (fuel : Nat) {m : Mem} (h : m.sound) {addr : Nat} {bs : List Byte}
    (from_ : start ≤ addr) (rest : whole.drop (addr - start) = bs) (enough : bs.length = 0 ∨ bs.length + addr % 256 ≤ 256 * fuel) :
    let m' := (linePieces addr bs.length fuel).foldl
      (fun (m : Mem) p => m.storePiece p.1 ((whole.drop (p.1 - start)).take p.2)) m
    m'.sound ∧ m.wrote m' 0 addr bs := by
  induction fuel generalizing m addr bs with
  | zero => exact ⟨h, Mem.wrote_of_unmapped fun i hi => by omega⟩
  | succ fuel ih =>
    by_cases none : bs.length = 0
    · rw [none]
      exact ⟨h, Mem.wrote_of_unmapped fun i hi => by omega⟩
    · obtain ⟨n, hn⟩ : ∃ n, n = min bs.length (256 - addr % 256) := ⟨_, rfl⟩
      have taken : (bs.take n).length = n := List.length_take_of_le (by omega)
      have left : (bs.drop n).length = bs.length - n := List.length_drop
      obtain ⟨sound, first⟩ := h.storePiece (addr := addr) (bs := bs.take n) (by omega)
      have more := ih sound (addr := addr + n) (bs := bs.drop n) (by omega)
        (by rw [← rest, List.drop_drop]; congr 1; omega) (by omega)
      rw [left] at more
      have pieces_ : linePieces addr bs.length (fuel + 1) = (addr, n) :: linePieces (addr + n) (bs.length - n) fuel := by
        rw [linePieces, if_neg none, hn]
      rw [pieces_, List.foldl_cons, rest]
      refine ⟨more.1, ?_⟩
      have both := first.append (m.place_storePiece _ _) (cs := bs.drop n) (by rw [taken]; exact more.2)
      rwa [List.take_append_drop] at both

/-- A write to space 0 writes its bytes and no other. -/
theorem Mem.sound.store_wrote {m : Mem} (h : m.sound) (addr : Nat) (bs : List Byte) : m.wrote (m.store 0 addr bs) 0 addr bs :=
  (h.storePieces (bs.length / 256 + 2) (le_refl addr) (by rw [Nat.sub_self, List.drop_zero]) (.inr (by omega))).2

end Sys2Proof.Machine
end

section
/-! SUPPORT. Errors that a channel's firmware logs leave its services and the checkpoints that have ended as they are (13 R342; 17 R405,
R406, R413 to R417, R420). -/

namespace Sys2Proof.Machine

open Sys2Proof

/-! ### Entries that are logged -/

/-- Between two states entries of channel `c` have been logged or have ended, and subscribers have been told: of the channels, `c`
differs in its errors only. -/
structure State.Logged (c : ChanId) (s t : State) : Prop where
  frame : t = { s with ch := t.ch, mp := t.mp, freeCtr := t.freeCtr }
  others : ∀ d, d ≠ c → t.chan d = s.chan d
  chan : t.chan c = { s.chan c with err := (t.chan c).err }

namespace State.Logged

variable {c : ChanId} {s t u : State}

theorem refl (s : State) : s.Logged c s := ⟨rfl, fun _ _ => rfl, rfl⟩

theorem trans (h : s.Logged c t) (h' : t.Logged c u) : s.Logged c u where
  frame := h'.frame.trans (congrArg (fun (x : State) => { x with ch := u.ch, mp := u.mp, freeCtr := u.freeCtr }) h.frame)
  others d hd := (h'.others d hd).trans (h.others d hd)
  chan := h'.chan.trans (congrArg (fun (k : Channel) => { k with err := (u.chan c).err }) h.chan)

theorem of_onlyMp (h : s.onlyMp t) : s.Logged c t where
  frame := by rw [h]
  others d _ := h.chan d
  chan := by rw [h.chan c]

theorem modErr (s : State) {f : Channel → Channel} (h : f (s.chan c) = { s.chan c with err := (f (s.chan c)).err }) :
    s.Logged c (s.modChan c f) where
  frame := rfl
  others _ hd := State.chan_modChan_ne s f hd
  chan := by rw [State.chan_modChan_self]; exact h

theorem ite {α : Type} (g : α → State) {p : Prop} [Decidable p] {x y : α} (hx : s.Logged c (g x)) (hy : s.Logged c (g y)) :
    s.Logged c (g (if p then x else y)) := by
  split <;> assumption

theorem store (h : s.Logged c t) (d : ChanId) : t.store d = s.store d := by
  rw [h.frame]
  rfl

theorem svc (h : s.Logged c t) : (t.chan c).svc = (s.chan c).svc := by rw [h.chan]

end State.Logged

section
variable (s : State) (c : ChanId)

theorem State.notifyErr_logged (e : ErrEntry) : s.Logged c (s.notifyErr c e) := .of_onlyMp (s.onlyMp_notify _ _ _ _)

theorem State.appendErr_logged (e : ErrEntry) : s.Logged c (s.appendErr c e) := by
  refine .trans ?_ (State.notifyErr_logged _ c e)
  exact .modErr s rfl

theorem State.finishErrs_logged (hit : ErrEntry → Bool) (outcome : Nat) : s.Logged c (s.finishErrs c hit outcome) := by
  unfold State.finishErrs
  extract_lets done s₁
  have ended : s.Logged c s₁ := .modErr s rfl
  exact ended.trans (foldl_keeps (P := fun t => s₁.Logged c t) (fun t e h => h.trans (t.notifyErr_logged c _)) done (.refl s₁))

/-- Class J ends and class S is superseded, once a rollback has been carried out (17 R407). -/
theorem State.rollbackDone_logged : s.Logged c (s.rollbackDone c) :=
  (s.finishErrs_logged c _ _).trans (State.finishErrs_logged _ c _ _)

theorem State.logEntry_logged (x : RawErr) (outcome : Nat) : s.Logged c (s.logEntry c x outcome).2 := by
  have drawn : ∀ (s : State) (p : Prop) [Decidable p] n i, s.Logged c (if p then s.draw n else (i, s)).2 := fun s p _ n i =>
    .ite Prod.snd ⟨rfl, fun _ _ => rfl, rfl⟩ (.refl s)
  have uidx := drawn s (x.unit = 5) 3 x.uidx
  unfold State.logEntry
  generalize (if x.unit = 5 then s.draw 3 else (x.uidx, s)) = a at uidx ⊢
  obtain ⟨ix, s₁⟩ := a
  have detail := drawn s₁ (x.detail = anyDetail) (2 ^ 32) x.detail
  dsimp -zeta only
  generalize (if x.detail = anyDetail then s₁.draw (2 ^ 32) else (x.detail, s₁)) = a at detail ⊢
  obtain ⟨dt, s₂⟩ := a
  dsimp -zeta only
  extract_lets y s₃ e s₄
  have failure : s₂.Logged c s₃ := by
    unfold s₃
    split
    · exact s₂.finishErrs_logged c _ _
    · exact .refl s₂
  have append : s₃.Logged c s₄ := s₃.appendErr_logged c e
  refine ((uidx.trans detail).trans (failure.trans append)).trans (.ite Prod.snd ?_ (.refl s₄))
  dsimp only
  refine .modErr s₄ ?_
  rfl

/-- An error marked *outside* is logged and no more (17 R404). -/
theorem State.firmwareError_logged_of_outside {cause : Cause} (h : isOutside cause = true) (unit uidx detail : Nat) :
    s.Logged c (s.firmwareError c cause .S unit uidx detail) := by
  unfold State.firmwareError State.logError
  dsimp only
  split
  · exact s.logEntry_logged c _ _
  · rw [if_pos (by simp [h])]
    exact s.logEntry_logged c _ _

end

/-! ### Class J spares what has ended -/

/-- Between two states errors of channel `c` have been handled: with no checkpoint being written its services are as they were, and
checkpoints that have ended stand in the status as before. -/
structure State.Spares (c : ChanId) (s t : State) : Prop where
  svc : (s.chan c).svc.ckpt = none → (t.chan c).svc = (s.chan c).svc
  ended : ∀ x ∈ (s.store c).ckpts, x.state ≠ 1 → x.state ≠ 2 → x ∈ (t.store c).ckpts

namespace State.Spares

variable {c : ChanId} {s t u : State}

theorem refl (s : State) : s.Spares c s := ⟨fun _ => rfl, fun _ h _ _ => h⟩

theorem trans (h : s.Spares c t) (h' : t.Spares c u) : s.Spares c u where
  svc none := (h'.svc (by rw [h.svc none]; exact none)).trans (h.svc none)
  ended x hx h1 h2 := h'.ended x (h.ended x hx h1 h2) h1 h2

theorem of_logged (h : s.Logged c t) : s.Spares c t := ⟨fun _ => h.svc, fun x hx _ _ => by rwa [h.store]⟩

theorem of_onlyMp (h : s.onlyMp t) : s.Spares c t := of_logged (.of_onlyMp h)

theorem setChan {k : Channel} (h : k.svc = (s.chan c).svc) : s.Spares c (s.setChan c k) :=
  ⟨fun _ => by rw [State.chan_setChan_self]; exact h, fun _ hx _ _ => hx⟩

theorem modChan (s : State) {f : Channel → Channel} (h : ∀ k : Channel, (f k).svc = k.svc) : s.Spares c (s.modChan c f) := setChan (h _)

theorem ite {α : Type} (g : α → State) {p : Prop} [Decidable p] {x y : α} (hx : s.Spares c (g x)) (hy : s.Spares c (g y)) :
    s.Spares c (g (if p then x else y)) := by
  split <;> assumption

theorem pick {p : Prop} [Decidable p] (ht : s.Spares c t) (hu : s.Spares c u) : s.Spares c (if p then t else u) := by
  split <;> assumption

end State.Spares

theorem Channel.dropCkpt_of_none {k : Channel} (h : k.svc.ckpt = none) : k.dropCkpt = k := by
  unfold Channel.dropCkpt
  rw [h]

@[simp] theorem Channel.svc_sendPacket (k : Channel) (w : Self) (p : PortId) (owner : Option Nat) (typ vc dpos dch : Nat)
    (bs : List (List Byte)) : (k.sendPacket w p owner typ vc dpos dch bs).svc = k.svc := by
  unfold Channel.sendPacket
  split <;> rfl

theorem Channel.svc_sendCtrl (k : Channel) (w : Self) (but : Option PortId) (payload : List Byte) :
    (k.sendCtrl w but payload).svc = k.svc := by
  refine foldl_keeps (P := fun x : Channel => x.svc = k.svc) (fun x p hx => ?_) portIds rfl
  split
  · rw [Channel.svc_sendPacket, hx]
  · exact hx

theorem Channel.svc_endStep (k : Channel) (locate : Option Nat) : (k.endStep locate).svc = k.svc := rfl

theorem Channel.svc_substitute (k : Channel) : k.substitute.1.svc = k.svc := by
  refine foldl_keeps (P := fun a : Channel × Bool => a.1.svc = k.svc) (fun a p ha => ?_) portIds rfl
  extract_lets k₁
  split
  · split
    · exact ha
    · split <;> exact ha
  · exact ha

theorem Channel.svc_jobAction (k : Channel) (cause : Cause) : (k.jobAction cause).svc = k.svc := by
  unfold Channel.jobAction
  split_ifs <;> rfl

section
variable (s : State) (c : ChanId)

/-- A failed step discards checkpoints that are writing or provisional only (17 R420). -/
theorem State.stepFailure_spares : s.Spares c (s.stepFailure c) where
  svc none := by
    rw [State.stepFailure, State.chan_modChan_self, State.chan_modStore, Channel.dropCkpt_of_none none]
  ended x hx h1 h2 := by
    rw [State.stepFailure, State.store_modChan, State.store_modStore_self]
    exact List.mem_map.mpr ⟨x, hx, if_neg (by simp [h1, h2])⟩

theorem State.logJob_spares (x : RawErr) : s.Spares c (s.logJob c x) := by
  have log := s.logEntry_logged c x (if (s.chan c).running || !waitsForHost x.cause then 0 else 4)
  unfold State.logJob
  generalize s.logEntry c x _ = a at log ⊢
  obtain ⟨e, s₁⟩ := a
  have act : s₁.Spares c (s₁.modChan c (fun k => k.jobAction x.cause)) := .modChan s₁ fun k => k.svc_jobAction x.cause
  exact ((State.Spares.of_logged log).trans act).trans (State.stepFailure_spares _ c)

theorem State.tunerEvent_spares (e : TunerEv) : s.Spares c (s.tunerEvent c e) := by
  refine .trans ?_ (.pick (.of_onlyMp (State.onlyMp_notify _ _ _ _ _)) (.refl _))
  refine .modChan s fun k => ?_
  rfl

theorem State.requestRollback_spares : s.Spares c (s.requestRollback c).1 := by
  unfold State.requestRollback
  refine .ite Prod.fst ((s.tunerEvent_spares c _).trans (State.logJob_spares _ c _)) ?_
  dsimp only
  refine .modChan s fun k => ?_
  rfl

theorem State.settle_spares : s.Spares c s.settle := by
  refine ⟨fun _ => by rw [State.chan_settle], fun x hx _ _ => ?_⟩
  rw [State.settle_frame]
  exact hx

theorem State.stepAbort_spares (cause cseq : Nat) (arrived : Option (PortId × List Byte)) :
    s.Spares c (s.stepAbort c cause cseq arrived) := by
  unfold State.stepAbort
  dsimp -zeta only
  extract_lets k w payload locate s₁ s₂ s₃ s₄ s₅ s₆ s₇
  refine .pick (.refl s) ?_
  have fields : ∀ (k : Channel) x e, Channel.svc { k with coll := x, err := e } = k.svc := fun _ _ _ => rfl
  have ended : s.Spares c s₁ := .modChan s fun k => (fields _ _ _).trans
    ((Channel.svc_sendCtrl (k.endStep locate) w (arrived.map Prod.fst) payload).trans (k.svc_endStep locate))
  have settled : s₁.Spares c s₄ :=
    ((State.Spares.of_logged (s₁.finishErrs_logged c _ _)).trans (.of_logged (s₂.finishErrs_logged c _ _))).trans (s₃.stepFailure_spares c)
  have paths : s₄.Spares c s₅ := .setChan (s₄.chan c).svc_substitute
  have lost : s₅.Spares c s₆ := .pick (.refl _) (State.logJob_spares _ c _)
  refine ((ended.trans settled).trans (paths.trans lost)).trans (.pick ?_ (.refl s₆))
  have limit : s₆.Spares c s₇ := s₆.logJob_spares c _
  refine (limit.trans (s₇.requestRollback_spares c)).trans (.pick (.refl _) (.trans ?_ (State.settle_spares _ c)))
  refine .modChan _ fun k => ?_
  rfl

/-- A class J error of a channel's firmware. -/
theorem State.firmwareError_spares_of_job (cause : Cause) (unit uidx detail : Nat) :
    s.Spares c (s.firmwareError c cause .J unit uidx detail) := by
  unfold State.firmwareError State.logError
  dsimp only
  refine .pick (.of_logged (s.logEntry_logged c _ 5)) ?_
  exact .pick ((s.logJob_spares c _).trans (State.stepAbort_spares _ c _ _ _)) (s.logJob_spares c _)

end

end Sys2Proof.Machine
end

section
/-! SUPPORT. Shards and storage targets (13 R333, R335 to R337, R347). -/

namespace Sys2Proof.Machine

open Sys2Proof

theorem State.setChan_setChan (s : State) (c : ChanId) (k l : Channel) : (s.setChan c k).setChan c l = s.setChan c l := by
  simp only [State.setChan, Vector.set_set]

/-- Two changes of one channel are one. -/
theorem State.modChan_modChan (s : State) (c : ChanId) (f g : Channel → Channel) :
    (s.modChan c f).modChan c g = s.setChan c (g (f (s.chan c))) := by
  rw [State.modChan, State.chan_modChan_self, State.modChan, State.setChan_setChan]

variable {s : State} {c : ChanId}

/-! ### SHARD_FETCH (13 R336) -/

/-- Shards of the channel are fetched: storage traffic moves, a shard plan is in force, and a source is connected. -/
def State.fetches (s : State) (c : ChanId) : Prop :=
  s.storageUp c = true ∧ (s.chan c).svc.hasShards = true
    ∧ (s.chan c).svc.targets.any (fun (t : Target) => t.connected && bitOf t.role 0) = true

theorem exec_shardFetch_of_idle (h : ¬ s.fetches c ∨ (s.chan c).nextShard = none) : exec (.shardFetch c) s = .next s := by
  show execShardFetch c s = _
  unfold execShardFetch
  dsimp only
  split
  · rfl
  · next going =>
    rcases h with still | none
    · refine absurd ?_ still
      simpa [State.fetches, and_assoc] using going
    · rw [none]

theorem exec_shardFetch_of_next {n : Nat} (h : s.fetches c) (next : (s.chan c).nextShard = some n) : exec (.shardFetch c) s =
    .next (s.setChan c { s.chan c with svc := { (s.chan c).svc with fetching := (s.chan c).svc.fetching ++ [n] } }) := by
  obtain ⟨up, plan, source⟩ := h
  show execShardFetch c s = _
  unfold execShardFetch
  dsimp only
  rw [if_neg (by simp only [up, plan, source]; decide), next]
  rfl

/-! ### SHARD_RESIDENT (13 R336, R337, R347) -/

/-- A shard that comes in is one that is being fetched, while storage traffic moves. -/
def State.shardLands (s : State) (c : ChanId) (o : ShardObs) : Prop :=
  (s.chan c).svc.fetching.contains o.step = true ∧ s.storageUp c = true

/-- The services with a fetch ended. -/
def Services.fetched (v : Services) (o : ShardObs) : Services := { v with fetching := v.fetching.filter (fun n => n != o.step) }

/-- Where a step's slot starts. -/
def ShardPlan.slotAt (p : ShardPlan) (step : Nat) : Nat := p.ring + step % p.slots * p.slotLen

/-- The channel's memory with a shard in its slot, where the slot is mapped. -/
def Channel.withShard (k : Channel) (o : ShardObs) (bytes : List Byte) : Mem :=
  let d := bytes.take k.svc.plan.slotLen
  if k.mem.mapped true 0 (k.svc.plan.slotAt o.step) d.length then k.mem.store 0 (k.svc.plan.slotAt o.step) d else k.mem

section
variable {o : ShardObs}

theorem exec_shardResident_of_idle (h : ¬ s.shardLands c o) : exec (.shardResident c o) s = .next s :=
  if_pos (by simpa [State.shardLands, imp_iff_not_or] using h)

variable (h : s.shardLands c o)
include h

theorem exec_shardResident_of_none (none : o.data.bind (unsealStored s.mram.conf (s.chan c).storageKey) = none) :
    exec (.shardResident c o) s = .next ((s.setChan c { s.chan c with svc := (s.chan c).svc.fetched o }).firmwareError c .shardFail .J 9
      (s.chan c).svc.plan.src anyDetail) := by
  obtain ⟨fetching, up⟩ := h
  refine (if_neg (by simp only [fetching, up]; decide)).trans ?_
  dsimp only [State.modChan_mram]
  rw [none]
  rfl

theorem exec_shardResident_of_some {bytes : List Byte}
    (opened : o.data.bind (unsealStored s.mram.conf (s.chan c).storageKey) = some bytes) :
    exec (.shardResident c o) s = .next (s.setChan c { s.chan c with
      mem := (s.chan c).withShard o bytes
      svc := { (s.chan c).svc.fetched o with
        resident := (s.chan c).svc.resident ++ [o.step], lastShard := o.step % (s.chan c).svc.plan.shards } }) := by
  obtain ⟨fetching, up⟩ := h
  refine (if_neg (by simp only [fetching, up]; decide)).trans ?_
  dsimp only [State.modChan_mram]
  rw [opened]
  dsimp only
  rw [State.modChan_modChan]
  rfl

end

theorem Channel.withShard_of_unmapped {k : Channel} {o : ShardObs} {bytes : List Byte}
    (h : k.mem.mapped true 0 (k.svc.plan.slotAt o.step) (bytes.take k.svc.plan.slotLen).length = false) : k.withShard o bytes = k.mem :=
  if_neg (by rw [h]; exact Bool.false_ne_true)

theorem Channel.wrote_withShard {k : Channel} {o : ShardObs} {bytes : List Byte}
    (h : k.mem.mapped true 0 (k.svc.plan.slotAt o.step) (bytes.take k.svc.plan.slotLen).length = true) (sound : k.mem.sound) :
    k.mem.wrote (k.withShard o bytes) 0 (k.svc.plan.slotAt o.step) (bytes.take k.svc.plan.slotLen) := by
  have stored : k.withShard o bytes = k.mem.store 0 (k.svc.plan.slotAt o.step) (bytes.take k.svc.plan.slotLen) := if_pos h
  rw [stored]
  exact sound.store_wrote _ _

/-! ### TARGET_RECONNECT (13 R333, R335) -/

/-- A connection is tried to a target that has a role and is not connected. -/
def State.reconnects (s : State) (c : ChanId) (t : Fin 4) : Prop :=
  s.storageUp c = true ∧ ((s.chan c).svc.target t.val).connected = false ∧ ((s.chan c).svc.target t.val).role ≠ 0

section
variable {t : Fin 4} {ok : Bool}

theorem exec_targetReconnect_of_idle (h : ¬ s.reconnects c t) : exec (.targetReconnect c t ok) s = .next s :=
  if_pos (by
    simp only [State.reconnects, not_and_or, not_not, Bool.not_eq_true, Bool.not_eq_false] at h
    simpa [or_assoc] using h)

variable (h : s.reconnects c t)
include h

theorem exec_targetReconnect_of_tried : exec (.targetReconnect c t ok) s =
    if ok && decide ((s.chan c).svc.qps < s.mp.host.pools.getD c.val 0) then
      .next (s.setChan c { s.chan c with svc := { (s.chan c).svc with
        qps := (s.chan c).svc.qps + 1
        targets := modAt (s.chan c).svc.targets t.val (fun (y : Target) => { y with connected := true }) } })
    else .next (s.setChan c { s.chan c with svc := { (s.chan c).svc with
      targets := modAt (s.chan c).svc.targets t.val (fun (y : Target) => { y with errors := y.errors + 1 }) } }) := by
  obtain ⟨up, apart, role⟩ := h
  exact if_neg (by simp [up, apart, role])

end

end Sys2Proof.Machine
end

section
/-! SUPPORT. Checkpoints that a target completes or fails (13 R333, R340 to R342, R348; 17 R420 to R422). -/

namespace Sys2Proof.Machine

open Sys2Proof

/-! ### The entry of the checkpoint being written -/

/-- The first element that satisfies a test, changed, stands in the list. -/
theorem mem_modify_findIdx {α : Type} {p : α → Bool} {l : List α} {e : α} (h : l.find? p = some e) (f : α → α) :
    f e ∈ l.modify (l.findIdx p) f := by
  induction l with
  | nil => cases h
  | cons x l ih =>
    by_cases hx : p x = true
    · rw [List.find?_cons_of_pos hx] at h
      obtain rfl := Option.some.inj h
      simp [List.findIdx_cons, hx]
    · rw [List.find?_cons_of_neg hx] at h
      simp [List.findIdx_cons, hx, ih h]

/-- When the change keeps the test, the changed element is the first that satisfies it. -/
theorem find?_modify_findIdx {α : Type} {p : α → Bool} {l : List α} {e : α} (h : l.find? p = some e) {f : α → α} (hf : p (f e) = true) :
    (l.modify (l.findIdx p) f).find? p = some (f e) := by
  induction l with
  | nil => cases h
  | cons x l ih =>
    by_cases hx : p x = true
    · rw [List.find?_cons_of_pos hx] at h
      obtain rfl := Option.some.inj h
      simp [List.findIdx_cons, hx, hf]
    · rw [List.find?_cons_of_neg hx] at h
      simp [List.findIdx_cons, hx, ih h]

/-- The entry of the checkpoint being written (17 R422). -/
def ChanStore.writing (t : ChanStore) : Option Ckpt := t.ckpts.find? (fun (x : Ckpt) => x.state == 1)

theorem ChanStore.mem_modCkpt {t : ChanStore} {e : Ckpt} (h : t.writing = some e) (f : Ckpt → Ckpt) : f e ∈ (t.modCkpt f).ckpts :=
  mem_modify_findIdx h f

theorem ChanStore.writing_modCkpt {t : ChanStore} {e : Ckpt} (h : t.writing = some e) {f : Ckpt → Ckpt} (hf : (f e).state = e.state) :
    (t.modCkpt f).writing = some (f e) :=
  find?_modify_findIdx h (by rw [hf]; exact List.find?_some (p := fun (x : Ckpt) => x.state == 1) h)

/-! ### The end of a checkpoint -/

@[simp] theorem Channel.svc_dropCkpt (k : Channel) : k.dropCkpt.svc = { k.svc with ckpt := none } := by
  unfold Channel.dropCkpt
  split
  · next none => rw [← none]
  · rfl

@[simp] theorem Channel.cur_dropCkpt (k : Channel) : k.dropCkpt.ver.cur = k.ver.cur := by rw [Channel.dropCkpt_frame]

/-- The step that ended last (17 R421). -/
def Channel.endedStep (k : Channel) : Nat := match k.lastEnd with | some e => e.1 | none => 0

/-- A checkpoint's entry when its manifests stand: provisional, or clean when step s + D has ended (17 R421). -/
def Ckpt.finished (x : Ckpt) (last mode decl : Nat) : Ckpt := { x with state := if x.cleanAt ≤ last then 3 else 2, mode := mode, decl := decl }

/-- The state in which the checkpoint's entry is finished and its run is over. -/
def State.finishCkpt (s : State) (c : ChanId) (mode : Nat) : State :=
  (s.modStore c (fun t => t.modCkpt (fun x => x.finished (s.chan c).endedStep mode s.mp.declTime))).modChan c Channel.dropCkpt

theorem State.endCkpt_eq (s : State) (c : ChanId) (mode : Nat) : s.endCkpt c mode = (s.finishCkpt c mode).ckptNext c := rfl

section
variable (s : State) (c : ChanId) (mode : Nat)

theorem State.chan_finishCkpt : (s.finishCkpt c mode).chan c = (s.chan c).dropCkpt := State.chan_modChan_self _ c _

theorem State.chan_finishCkpt_ne {d : ChanId} (h : d ≠ c) : (s.finishCkpt c mode).chan d = s.chan d := State.chan_modChan_ne _ _ h

theorem State.mem_finishCkpt {e : Ckpt} (h : (s.store c).writing = some e) :
    e.finished (s.chan c).endedStep mode s.mp.declTime ∈ ((s.finishCkpt c mode).store c).ckpts := by
  rw [State.finishCkpt, State.store_modChan, State.store_modStore_self]
  exact ChanStore.mem_modCkpt h _

/-! ### A checkpoint that waited starts (13 R340, R348) -/

/-- The run of a checkpoint as it starts. -/
def Channel.newCkpt (k : Channel) : CkptRun :=
  { version := k.ver.cur, step := k.endedStep, mode := k.svc.ckptMode
    targets := if k.svc.ckptMode = 2 then [byteAt k.svc.ckptPlan 5, byteAt k.svc.ckptPlan 6] else [byteAt k.svc.ckptPlan 5]
    content := k.capture k.ver.cur k.endedStep }

theorem State.svc_startCkpt : ((s.startCkpt c).chan c).svc =
    { (s.chan c).svc with ckptDue := false, ckptWaiting := false, ckpt := some (s.chan c).newCkpt } := by
  unfold State.startCkpt
  dsimp only
  rw [State.chan_modStore, State.chan_modChan_self]
  rfl

theorem State.chan_startCkpt_ne {d : ChanId} (h : d ≠ c) : (s.startCkpt c).chan d = s.chan d := by
  unfold State.startCkpt
  dsimp only
  rw [State.chan_modStore]
  exact State.chan_modChan_ne _ _ h

variable {s c}

theorem State.ckptNext_of_idle (h : (s.chan c).svc.ckptWaiting = false) : s.ckptNext c = s := if_neg (by simp [h])

theorem State.ckptNext_of_waiting (h : (s.chan c).svc.ckptWaiting = true) (free : (s.chan c).svc.ckpt = none) :
    s.ckptNext c = s.startCkpt c := if_pos (by simp [h, free])

theorem State.endCkpt_of_idle (h : (s.chan c).svc.ckptWaiting = false) : s.endCkpt c mode = s.finishCkpt c mode := by
  rw [State.endCkpt_eq, State.ckptNext_of_idle]
  rw [State.chan_finishCkpt, Channel.svc_dropCkpt]
  exact h

theorem State.endCkpt_of_waiting (h : (s.chan c).svc.ckptWaiting = true) : s.endCkpt c mode = (s.finishCkpt c mode).startCkpt c := by
  rw [State.endCkpt_eq, State.ckptNext_of_waiting] <;> rw [State.chan_finishCkpt, Channel.svc_dropCkpt]
  exact h

theorem State.chan_endCkpt_ne {d : ChanId} (h : d ≠ c) : (s.endCkpt c mode).chan d = s.chan d := by
  cases waits : (s.chan c).svc.ckptWaiting with
  | false => rw [State.endCkpt_of_idle mode waits, State.chan_finishCkpt_ne s c mode h]
  | true => rw [State.endCkpt_of_waiting mode waits, State.chan_startCkpt_ne _ c h, State.chan_finishCkpt_ne s c mode h]

/-- The services after the end of a checkpoint differ in what is being written only. -/
theorem State.svc_endCkpt : ((s.endCkpt c mode).chan c).svc =
    { (s.chan c).svc with
      ckpt := ((s.endCkpt c mode).chan c).svc.ckpt, ckptWaiting := ((s.endCkpt c mode).chan c).svc.ckptWaiting
      ckptDue := ((s.endCkpt c mode).chan c).svc.ckptDue } := by
  cases waits : (s.chan c).svc.ckptWaiting with
  | false => rw [State.endCkpt_of_idle mode waits, State.chan_finishCkpt, Channel.svc_dropCkpt]
  | true => rw [State.endCkpt_of_waiting mode waits, State.svc_startCkpt, State.chan_finishCkpt, Channel.svc_dropCkpt]

end

/-! ### One target of a checkpoint is done with -/

/-- The state in which a checkpoint goes on with a run. -/
def State.withRun (s : State) (c : ChanId) (r : CkptRun) : State := s.modChan c (fun k => { k with svc := { k.svc with ckpt := some r } })

section
variable {s : State} {c : ChanId} {r : CkptRun}

theorem State.targetDone_of_more (h : r.targets ≠ []) : s.targetDone c r = s.withRun c r := if_neg (by simpa using h)

theorem State.targetDone_of_last (h : r.targets = []) :
    s.targetDone c r = (s.withRun c r).endCkpt c (if r.failed.isEmpty then r.mode else 3) := if_pos (by simp [h])

theorem State.chan_withRun : (s.withRun c r).chan c = { s.chan c with svc := { (s.chan c).svc with ckpt := some r } } :=
  State.chan_modChan_self s c _

theorem State.chan_targetDone_ne {d : ChanId} (h : d ≠ c) : (s.targetDone c r).chan d = s.chan d := by
  have run : (s.withRun c r).chan d = s.chan d := State.chan_modChan_ne s _ h
  by_cases last : r.targets = []
  · rw [State.targetDone_of_last last, State.chan_endCkpt_ne _ h, run]
  · rw [State.targetDone_of_more last, run]

/-- The services after a target is done with differ in what is being written only. -/
theorem State.svc_targetDone : ((s.targetDone c r).chan c).svc =
    { (s.chan c).svc with
      ckpt := ((s.targetDone c r).chan c).svc.ckpt, ckptWaiting := ((s.targetDone c r).chan c).svc.ckptWaiting
      ckptDue := ((s.targetDone c r).chan c).svc.ckptDue } := by
  by_cases last : r.targets = []
  · rw [State.targetDone_of_last last, State.svc_endCkpt, State.chan_withRun]
  · rw [State.targetDone_of_more last, State.chan_withRun]

theorem State.ckpt_targetDone_of_more (h : r.targets ≠ []) : ((s.targetDone c r).chan c).svc.ckpt = some r := by
  rw [State.targetDone_of_more h, State.chan_withRun]

variable (last : r.targets = [])
include last

/-- With its last target, a checkpoint that none waits for is over, and its entry finished. -/
theorem State.targetDone_of_last_of_idle (idle : (s.chan c).svc.ckptWaiting = false) {e : Ckpt} (h : (s.store c).writing = some e) :
    ((s.targetDone c r).chan c).svc.ckpt = none
      ∧ ∃ x ∈ ((s.targetDone c r).store c).ckpts, x.step = e.step ∧ x.wver = e.wver
          ∧ x.state = if e.cleanAt ≤ (s.chan c).endedStep then 3 else 2 := by
  have idle' : ((s.withRun c r).chan c).svc.ckptWaiting = false := by rw [State.chan_withRun]; exact idle
  have ended : ((s.withRun c r).chan c).endedStep = (s.chan c).endedStep := by rw [State.chan_withRun]; rfl
  have entry := (s.withRun c r).mem_finishCkpt c (if r.failed.isEmpty then r.mode else 3) h
  rw [State.targetDone_of_last last, State.endCkpt_of_idle _ idle']
  refine ⟨by rw [State.chan_finishCkpt, Channel.svc_dropCkpt], _, entry, rfl, rfl, ?_⟩
  rw [ended]
  rfl

/-- With its last target, the checkpoint that waits starts, with the version in CUR. -/
theorem State.targetDone_of_last_of_waiting (waits : (s.chan c).svc.ckptWaiting = true) :
    ∃ r', ((s.targetDone c r).chan c).svc.ckpt = some r' ∧ r'.version = (s.chan c).ver.cur ∧ r'.failed = []
      ∧ ((s.targetDone c r).chan c).svc.ckptWaiting = false := by
  have waits' : ((s.withRun c r).chan c).svc.ckptWaiting = true := by rw [State.chan_withRun]; exact waits
  rw [State.targetDone_of_last last, State.endCkpt_of_waiting _ waits', State.svc_startCkpt]
  refine ⟨_, rfl, ?_, rfl, rfl⟩
  show (((s.withRun c r).finishCkpt c _).chan c).ver.cur = _
  rw [State.chan_finishCkpt, Channel.cur_dropCkpt, State.chan_withRun]

end

/-! ### CHECKPOINT_DONE (13 R341) -/

section
variable {s : State} {c : ChanId} {t : Fin 4}

/-- The target holds what the checkpoint leaves on it, and the entry names it. -/
def State.noteWritten (s : State) (c : ChanId) (r : CkptRun) (target : Nat) : State :=
  (s.modChan c (fun k => { k with svc := k.svc.modTarget target (fun t => { t with written := some (s.ckptWritten c r target) }) })).modStore c
    (fun t => t.modCkpt (fun (x : Ckpt) => { x with targets := withBit x.targets target }))

theorem State.chan_noteWritten (r : CkptRun) (target : Nat) : (s.noteWritten c r target).chan c = { s.chan c with
    svc := (s.chan c).svc.modTarget target (fun t => { t with written := some (s.ckptWritten c r target) }) } := by
  rw [State.noteWritten, State.chan_modStore, State.chan_modChan_self]

theorem State.chan_noteWritten_ne (r : CkptRun) (target : Nat) {d : ChanId} (h : d ≠ c) : (s.noteWritten c r target).chan d = s.chan d := by
  rw [State.noteWritten, State.chan_modStore, State.chan_modChan_ne s _ h]

theorem State.writing_noteWritten {e : Ckpt} (h : (s.store c).writing = some e) (r : CkptRun) (target : Nat) :
    ((s.noteWritten c r target).store c).writing = some { e with targets := withBit e.targets target } := by
  rw [State.noteWritten, State.store_modStore_self, State.store_modChan]
  exact ChanStore.writing_modCkpt h rfl

theorem Services.target_modTarget (v : Services) {n : Nat} (h : n < v.targets.length) (f : Target → Target) :
    (v.modTarget n f).target n = f (v.target n) := by
  show (v.targets.modify n f).getD n {} = f (v.targets.getD n {})
  rw [List.getD_eq_getElem _ _ (by rw [List.length_modify]; exact h), List.getElem_modify_eq, List.getD_eq_getElem _ _ h]

theorem exec_checkpointDone_of_idle
    (h : (∀ r, (s.chan c).svc.ckpt = some r → r.targets.contains t.val = false) ∨ s.storageUp c = false) :
    exec (.checkpointDone c t) s = .next s := by
  show execCheckpointDone c t s = _
  unfold execCheckpointDone
  split
  · rfl
  · next r run =>
    refine if_pos ?_
    rcases h with other | down
    · rw [other r run]; rfl
    · rw [down]; simp

theorem exec_checkpointDone_of_run {r : CkptRun} (run : (s.chan c).svc.ckpt = some r) (on : r.targets.contains t.val = true)
    (up : s.storageUp c = true) : exec (.checkpointDone c t) s =
      .next ((s.noteWritten c r t.val).targetDone c { r with targets := r.targets.erase t.val }) := by
  show execCheckpointDone c t s = _
  unfold execCheckpointDone
  rw [run]
  exact if_neg (by rw [on, up]; decide)

end

/-! ### CHECKPOINT_TARGET_FAIL (13 R342) -/

section
variable {s : State} {c : ChanId} {n : Nat}

/-- The connection to a target is lost, with its queue pair, and the error is counted (13 R333, R335). -/
def Services.failed (v : Services) (n : Nat) : Services :=
  { v with
    qps := v.qps - bit (v.target n).connected
    targets := modAt v.targets n (fun (y : Target) => { y with connected := false, errors := y.errors + 1 }) }

theorem Services.failed_eq (v : Services) (n : Nat) : (v.lose n).modTarget n (fun t => { t with errors := t.errors + 1 }) = v.failed n := by
  simp only [Services.lose, Services.modTarget, Services.failed, modAt, List.modify_modify_eq]
  rfl

/-- The state in which a target of the channel has failed. -/
def State.failTarget (s : State) (c : ChanId) (n : Nat) : State := s.setChan c { s.chan c with svc := (s.chan c).svc.failed n }

theorem State.targetFail_of_idle (h : ∀ r, (s.chan c).svc.ckpt = some r → r.targets.contains n = false) : s.targetFail c n = s := by
  unfold State.targetFail
  split
  · rfl
  · next r run => exact if_pos (by rw [h r run]; rfl)

variable {r : CkptRun} (run : (s.chan c).svc.ckpt = some r) (on : r.targets.contains n = true)
include run on

/-- A dual checkpoint goes on with its other target. -/
theorem State.targetFail_of_dual (dual : r.mode = 2 ∧ r.failed = []) : s.targetFail c n =
    ((s.failTarget c n).firmwareError c .ckptTarget .S 9 n anyDetail).targetDone c
      { r with targets := r.targets.erase n, failed := [n] } := by
  unfold State.targetFail
  rw [run]
  dsimp only
  rw [if_neg (by rw [on]; decide), if_pos (by simpa using dual)]
  simp only [Services.failed_eq]
  rfl

/-- Any other checkpoint is abandoned. -/
theorem State.targetFail_of_only (only : r.mode ≠ 2 ∨ r.failed ≠ []) : s.targetFail c n =
    (State.firmwareError (((s.failTarget c n).modStore c (fun t => t.modCkpt (fun (x : Ckpt) => { x with state := 5 }))).modChan c
      Channel.dropCkpt) c .ckptFail .J 9 n anyDetail).ckptNext c := by
  have single : ¬ (r.mode = 2 ∧ r.failed.isEmpty = true) := by
    simpa [imp_iff_not_or] using only
  unfold State.targetFail
  rw [run]
  dsimp only
  rw [if_neg (by rw [on]; decide), if_neg single]
  simp only [Services.failed_eq]
  rfl

end

end Sys2Proof.Machine
end

section
/-! SUPPORT. The storage events of a channel (13 R335 to R348). -/

namespace Sys2Proof.Machine

open Sys2Proof

section
variable {s : State} {c : ChanId}

/-- An entry of the checkpoint status of a step and version, in a state. -/
def State.holdsCkpt (s : State) (c : ChanId) (e : Ckpt) (state : Nat) : Prop :=
  ∃ x ∈ (s.store c).ckpts, x.step = e.step ∧ x.wver = e.wver ∧ x.state = state

/-- The state of a checkpoint's entry when it ends well: provisional, or clean (17 R421). -/
def Channel.finalState (k : Channel) (e : Ckpt) : Nat := if e.cleanAt ≤ k.endedStep then 3 else 2

/-- Channel `c` writes the checkpoint that waited, with the version that a channel has in CUR. -/
def State.writesNext (s : State) (c : ChanId) (k : Channel) : Prop :=
  ∃ r, (s.chan c).svc.ckpt = some r ∧ r.version = k.ver.cur ∧ r.failed = [] ∧ (s.chan c).svc.ckptWaiting = false

/-! ### CHECKPOINT_DONE -/

section
variable {t : Fin 4} {r : CkptRun}

/-- The state after CHECKPOINT_DONE of a target. -/
def State.afterDone (s : State) (c : ChanId) (r : CkptRun) (n : Nat) : State :=
  (s.noteWritten c r n).targetDone c { r with targets := r.targets.erase n }

theorem State.chan_afterDone_ne (n : Nat) {d : ChanId} (h : d ≠ c) : (s.afterDone c r n).chan d = s.chan d := by
  rw [State.afterDone, State.chan_targetDone_ne h, State.chan_noteWritten_ne r n h]

theorem State.written_afterDone {n : Nat} (h : n < (s.chan c).svc.targets.length) :
    (((s.afterDone c r n).chan c).svc.target n).written = some (s.ckptWritten c r n) := by
  rw [State.afterDone, State.svc_targetDone, State.chan_noteWritten]
  exact congrArg Target.written (Services.target_modTarget _ h _)

theorem State.ckpt_afterDone_of_more {n : Nat} (more : r.targets.erase n ≠ []) :
    ((s.afterDone c r n).chan c).svc.ckpt = some { r with targets := r.targets.erase n } :=
  State.ckpt_targetDone_of_more more

variable {n : Nat} (last : r.targets.erase n = [])
include last

theorem State.afterDone_of_last_of_idle {e : Ckpt} (writing : (s.store c).writing = some e) (idle : (s.chan c).svc.ckptWaiting = false) :
    ((s.afterDone c r n).chan c).svc.ckpt = none ∧ (s.afterDone c r n).holdsCkpt c e ((s.chan c).finalState e) := by
  have idle' : ((s.noteWritten c r n).chan c).svc.ckptWaiting = false := by rw [State.chan_noteWritten]; exact idle
  obtain ⟨gone, x, mem, step, wver, state⟩ :=
    State.targetDone_of_last_of_idle (r := { r with targets := r.targets.erase n }) last idle' (State.writing_noteWritten writing r n)
  refine ⟨gone, x, mem, step, wver, ?_⟩
  rw [state, State.chan_noteWritten]
  rfl

theorem State.afterDone_of_last_of_waiting (waits : (s.chan c).svc.ckptWaiting = true) :
    (s.afterDone c r n).writesNext c (s.chan c) := by
  have waits' : ((s.noteWritten c r n).chan c).svc.ckptWaiting = true := by rw [State.chan_noteWritten]; exact waits
  obtain ⟨r', run, version, rest⟩ := State.targetDone_of_last_of_waiting (r := { r with targets := r.targets.erase n }) last waits'
  refine ⟨r', run, ?_, rest⟩
  rw [version, State.chan_noteWritten]

end

/-! ### CHECKPOINT_TARGET_FAIL -/

section
variable {r : CkptRun} {n : Nat}

/-- The state in which a target's failure has been logged. -/
def State.loggedFail (s : State) (c : ChanId) (n : Nat) : State := (s.failTarget c n).firmwareError c .ckptTarget .S 9 n anyDetail

theorem State.loggedFail_logged : (s.failTarget c n).Logged c (s.loggedFail c n) :=
  State.firmwareError_logged_of_outside _ c rfl 9 n anyDetail

theorem State.chan_failTarget : (s.failTarget c n).chan c = { s.chan c with svc := (s.chan c).svc.failed n } := State.chan_setChan_self s c _

theorem State.chan_loggedFail : (s.loggedFail c n).chan c =
    { s.chan c with svc := (s.chan c).svc.failed n, err := ((s.loggedFail c n).chan c).err } := by
  have same := State.loggedFail_logged (s := s) (c := c) (n := n) |>.chan
  rw [State.chan_failTarget] at same
  exact same

theorem State.chan_loggedFail_ne {d : ChanId} (h : d ≠ c) : (s.loggedFail c n).chan d = s.chan d := by
  rw [State.loggedFail_logged.others d h, State.failTarget, State.chan_setChan_ne _ _ h]

theorem State.store_loggedFail : (s.loggedFail c n).store c = s.store c := State.loggedFail_logged.store c

/-- The state after the failure of a target of a dual checkpoint. -/
def State.afterFail (s : State) (c : ChanId) (r : CkptRun) (n : Nat) : State :=
  (s.loggedFail c n).targetDone c { r with targets := r.targets.erase n, failed := [n] }

theorem State.chan_afterFail_ne {d : ChanId} (h : d ≠ c) : (s.afterFail c r n).chan d = s.chan d := by
  rw [State.afterFail, State.chan_targetDone_ne h, State.chan_loggedFail_ne h]

/-- The connection is lost and its queue pair free (13 R333, R335). -/
theorem State.lost_afterFail : ((s.afterFail c r n).chan c).svc.qps = ((s.chan c).svc.failed n).qps
    ∧ ((s.afterFail c r n).chan c).svc.targets = ((s.chan c).svc.failed n).targets := by
  rw [State.afterFail, State.svc_targetDone, State.chan_loggedFail]
  exact ⟨rfl, rfl⟩

theorem State.ckpt_afterFail_of_more (more : r.targets.erase n ≠ []) :
    ((s.afterFail c r n).chan c).svc.ckpt = some { r with targets := r.targets.erase n, failed := [n] } :=
  State.ckpt_targetDone_of_more more

theorem State.afterFail_of_last_of_idle (last : r.targets.erase n = []) {e : Ckpt} (writing : (s.store c).writing = some e)
    (idle : (s.chan c).svc.ckptWaiting = false) :
    ((s.afterFail c r n).chan c).svc.ckpt = none ∧ (s.afterFail c r n).holdsCkpt c e ((s.chan c).finalState e) := by
  have idle' : ((s.loggedFail c n).chan c).svc.ckptWaiting = false := by rw [State.chan_loggedFail]; exact idle
  have writing' : ((s.loggedFail c n).store c).writing = some e := by rw [State.store_loggedFail]; exact writing
  obtain ⟨gone, x, mem, step, wver, state⟩ :=
    State.targetDone_of_last_of_idle (r := { r with targets := r.targets.erase n, failed := [n] }) last idle' writing'
  refine ⟨gone, x, mem, step, wver, ?_⟩
  rw [state, State.chan_loggedFail]
  rfl

/-- The state in which a checkpoint has been abandoned. -/
def State.abandoned (s : State) (c : ChanId) (n : Nat) : State :=
  ((s.failTarget c n).modStore c (fun t => t.modCkpt (fun (x : Ckpt) => { x with state := 5 }))).modChan c Channel.dropCkpt

theorem State.chan_abandoned : (s.abandoned c n).chan c = { s.chan c with svc := (s.chan c).svc.failed n }.dropCkpt := by
  rw [State.abandoned, State.chan_modChan_self, State.chan_modStore, State.chan_failTarget]

theorem State.chan_abandoned_ne {d : ChanId} (h : d ≠ c) : (s.abandoned c n).chan d = s.chan d := by
  rw [State.abandoned, State.chan_modChan_ne _ _ h, State.chan_modStore, State.failTarget, State.chan_setChan_ne _ _ h]

theorem State.mem_abandoned {e : Ckpt} (writing : (s.store c).writing = some e) :
    { e with state := 5 } ∈ ((s.abandoned c n).store c).ckpts := by
  rw [State.abandoned, State.store_modChan, State.store_modStore_self]
  exact ChanStore.mem_modCkpt writing _

/-- A checkpoint that cannot go on is abandoned, with a class J error (13 R342). -/
theorem State.targetFail_abandons (run : (s.chan c).svc.ckpt = some r) (on : r.targets.contains n = true)
    (only : r.mode ≠ 2 ∨ r.failed ≠ []) (idle : (s.chan c).svc.ckptWaiting = false) {e : Ckpt} (writing : (s.store c).writing = some e) :
    (∀ d, d ≠ c → (s.targetFail c n).chan d = s.chan d)
      ∧ ((s.targetFail c n).chan c).svc.ckpt = none ∧ (s.targetFail c n).holdsCkpt c e 5 := by
  have free : ((s.abandoned c n).chan c).svc.ckpt = none := by rw [State.chan_abandoned, Channel.svc_dropCkpt]
  have idle' : ((s.abandoned c n).chan c).svc.ckptWaiting = false := by
    rw [State.chan_abandoned, Channel.svc_dropCkpt]
    exact idle
  have spares := (s.abandoned c n).firmwareError_spares_of_job c .ckptFail 9 n anyDetail
  have counted := (s.abandoned c n).logError_counted_of_job c
    (x := { cause := .ckptFail, cls := .J, unit := 9, uidx := n, detail := anyDetail }) rfl rfl 0
  have ends : s.targetFail c n = (s.abandoned c n).firmwareError c .ckptFail .J 9 n anyDetail := by
    rw [State.targetFail_of_only run on only]
    refine State.ckptNext_of_idle ?_
    show (((s.abandoned c n).firmwareError c .ckptFail .J 9 n anyDetail).chan c).svc.ckptWaiting = false
    rw [spares.svc free]
    exact idle'
  rw [ends]
  refine ⟨fun d hd => ?_, ?_, _, spares.ended _ (State.mem_abandoned writing) ?_ ?_, rfl, rfl, rfl⟩
  · exact (counted.others d hd).trans (State.chan_abandoned_ne hd)
  · rw [spares.svc free, free]
  · simp
  · simp

end

/-! ### All storage events -/

theorem exec_checkpointTargetFail (t : Fin 4) : exec (.checkpointTargetFail c t) s = .next (s.targetFail c t.val) := rfl

end

/-- Settles O51: shards and reconnections act as their equations say; a checkpoint ends with its last target, done or failed. -/
theorem storageEvents : Obligations.StorageEvents := by
  intro s c
  dsimp only
  refine ⟨exec_shardFetch_of_idle, fun n => exec_shardFetch_of_next, fun o => ⟨exec_shardResident_of_idle, exec_shardResident_of_none,
    fun bytes lands opened => ?_⟩, fun t ok => ⟨exec_targetReconnect_of_idle, fun tries connects pool => ?_, fun tries fails => ?_⟩,
    fun t => ⟨fun idle => ⟨exec_checkpointDone_of_idle (.inl idle), ?_⟩, fun r e run on writing => ⟨fun down => ?_, fun up => ?_,
      fun dual fresh more => ?_, fun dual fresh last idle => ?_, fun only idle => ?_⟩⟩⟩
  · exact ⟨_, exec_shardResident_of_some lands opened, Channel.withShard_of_unmapped, Channel.wrote_withShard⟩
  · rw [exec_targetReconnect_of_tried tries, if_pos (by rw [connects, Bool.true_and, decide_eq_true_eq]; exact pool)]
  · rw [exec_targetReconnect_of_tried tries]
    refine if_neg fun h => ?_
    rw [Bool.and_eq_true, decide_eq_true_eq] at h
    rcases fails with refused | full
    · exact Bool.false_ne_true (refused.symm.trans h.1)
    · exact absurd h.2 (Nat.not_lt.mpr full)
  · rw [exec_checkpointTargetFail, State.targetFail_of_idle idle]
  · exact exec_checkpointDone_of_idle (.inr down)
  · refine ⟨_, exec_checkpointDone_of_run run on up, fun d => State.chan_afterDone_ne t.val, State.written_afterDone,
      State.ckpt_afterDone_of_more, fun last => State.afterDone_of_last_of_idle last writing, State.afterDone_of_last_of_waiting⟩
  · exact ⟨_, congrArg Host.Outcome.next (State.targetFail_of_dual run on ⟨dual, fresh⟩), fun d => State.chan_afterFail_ne,
      State.ckpt_afterFail_of_more more, State.lost_afterFail⟩
  · obtain ⟨gone, entry⟩ := State.afterFail_of_last_of_idle (n := t.val) last writing idle
    exact ⟨_, congrArg Host.Outcome.next (State.targetFail_of_dual run on ⟨dual, fresh⟩), fun d => State.chan_afterFail_ne,
      gone, entry, State.lost_afterFail⟩
  · exact ⟨_, exec_checkpointTargetFail t, State.targetFail_abandons run on only idle writing⟩

end Sys2Proof.Machine
end

section
/-! SUPPORT. What running the weight-copy tiles of a score again can change (08 R216; 13 R343). -/

namespace Sys2Proof.Machine

open Sys2Proof

/-! ### The relation -/

/-- Between two channels tiles have read, computed and written: memory, Reeds, errors, what the Tuner sees, tags and the rungs recorded may
differ, and nothing else. -/
structure Channel.Copies (k k' : Channel) : Prop where
  frame : k' = { k with
    mem := k'.mem, reeds := k'.reeds, err := k'.err, tun := k'.tun, tokens := k'.tokens, flights := k'.flights, verRungs := k'.verRungs }

namespace Channel.Copies

variable {a b c k k' : Channel}

theorem refl (k : Channel) : k.Copies k := ⟨rfl⟩

theorem trans (h : a.Copies b) (h' : b.Copies c) : a.Copies c where
  frame := h'.frame.trans (congrArg (fun (k : Channel) => { k with
    mem := c.mem, reeds := c.reeds, err := c.err, tun := c.tun, tokens := c.tokens, flights := c.flights, verRungs := c.verRungs }) h.frame)

theorem of_valveWorks {r : ReedId} (h : k.ValveWorks r k') : k.Copies k' where
  frame := by
    have data := h.frame
    rw [Channel.dataFrame] at data
    rw [data]

theorem ite {α : Type} (g : α → Channel) {p : Prop} [Decidable p] {x y : α} (hx : k.Copies (g x)) (hy : k.Copies (g y)) :
    k.Copies (g (if p then x else y)) := by
  split <;> assumption

theorem pick {p : Prop} [Decidable p] {x y : Channel} (hx : k.Copies x) (hy : k.Copies y) : k.Copies (if p then x else y) := by
  split <;> assumption

theorem foldl {α β : Type} {g : α → Channel} {f : α → β → α} (hf : ∀ x y, (g x).Copies (g (f x y))) (l : List β) (x : α) :
    (g x).Copies (g (l.foldl f x)) :=
  foldl_keeps (P := fun y => (g x).Copies (g y)) (fun y z hy => hy.trans (hf y z)) l (.refl _)

theorem score (h : k.Copies k') : k'.score = k.score := (congrArg Channel.score h.frame :)

/-- A copy made for another version than CUR. -/
theorem atVersion {v : Nat} (h : ({ k with ver := { k.ver with cur := v } } : Channel).Copies k') :
    k.Copies { k' with ver := { k'.ver with cur := k.ver.cur } } :=
  ⟨(congrArg (fun (x : Channel) => { x with ver := { x.ver with cur := k.ver.cur } }) h.frame :)⟩

end Channel.Copies

/-! ### Reads of a tile's operand -/

section
variable (k : Channel) (r : ReedId)

theorem Channel.readBytes_copies (unit uidx space addr n : Nat) : k.Copies (k.readBytes unit uidx r space addr n).2 := by
  have fault : k.Copies (k.addrFault unit uidx addr) := ⟨rfl⟩
  have found : k.Copies ({ k with mem := (k.mem.load space addr n).2 } : Channel) := ⟨rfl⟩
  unfold Channel.readBytes
  split
  · exact .ite Prod.snd (.refl k) fault
  · exact .ite Prod.snd (found.trans (.of_valveWorks (Channel.frameErrors_valveWorks _ r))) fault

theorem Channel.readError_copies (unit uidx : Nat) (done : List Redo) (x : Redo) (cause : Cause) (cls : ErrClass) (detail : Nat) :
    k.Copies (k.readError unit uidx r done x cause cls detail).2 := by
  have count : k.Copies (if cause = .parity ∧ 3 ≤ x.space then
      k.modReed r (fun y => { y with cnt := { y.cnt with parErr := sat32 y.cnt.parErr 1 } }) else k) := .pick ⟨rfl⟩ (.refl k)
  unfold Channel.readError
  exact .ite Prod.snd (count.trans ⟨rfl⟩) (count.trans ⟨rfl⟩)

theorem Channel.readChord_copies (unit uidx : Nat) (t : TensorDesc) (i : Nat) (done : List Redo) :
    k.Copies (k.readChord unit uidx r t i done).2 := by
  have read := k.readBytes_copies r unit uidx t.space (Score.chordAddr t i) (Score.chordSize t)
  have crc : ∀ (k : Channel) (p : Prop) [Decidable p] cls, k.Copies (if p then k.countCrc cls else k) := fun _ _ _ _ =>
    .pick ⟨rfl⟩ (.refl _)
  unfold Channel.readChord
  exact .ite Prod.snd read (.ite Prod.snd read ((read.trans (crc _ _ _)).trans (Channel.readError_copies _ r _ _ _ _ _ _ _)))

theorem Channel.window_copies (unit uidx : Nat) (done : List Redo) (ts : XNum) (ix : Nat) (want : Option Nat) (r0 c0 nr nc : Nat) :
    k.Copies (k.window unit uidx r done ts ix want r0 c0 nr nc).2 := by
  let chan : List (Option (List XNum)) × Window × Channel → Channel := fun a => a.2.2
  unfold Channel.window
  refine .foldl (g := chan) (fun a p => ?_) _ ([], {}, k)
  have read := fun t n => Channel.readChord_copies a.2.2 r unit uidx t n done
  exact .ite chan (.refl _) (.ite chan (.ite chan (read _ _) (read _ _)) (.refl _))

/-! ### Tags and the ends of a pass -/

theorem Channel.tagTile_copies (h : HoldCause) : k.Copies (k.tagTile r h) := by
  have token : ∀ (k : Channel) t, k.Copies (k.tagToken t h) := fun _ t => by cases t <;> exact ⟨rfl⟩
  unfold Channel.tagTile
  split
  · unfold Channel.tagEntry
    split
    · exact .refl k
    · refine .pick (.refl k) (.trans ?_ (token _ _))
      exact ⟨rfl⟩
  · exact .refl k

theorem Channel.modReed_copies (f : Reed → Reed) : k.Copies (k.modReed r f) := ⟨rfl⟩

theorem Channel.modTile_copies (f : TileRun → TileRun) : k.Copies (k.modTile r f) := k.modReed_copies r _

theorem Channel.failTile_copies (e : RawErr) : k.Copies (k.failTile r e) := ⟨rfl⟩

theorem Channel.countTile_copies (t : TileRun) (c : ReedCnt) : k.Copies (k.countTile r t c) := ⟨rfl⟩

theorem Channel.countQuant_copies (layer place : Nat) (c : QGrid.Counts) : k.Copies (k.countQuant r layer place c) := ⟨rfl⟩

theorem Channel.redoStop_copies (t : TileRun) (l : List Redo) : k.Copies (k.redoStop r t l) := by
  have count : k.Copies (k.countLayer t { parErr := (l.filter (fun x => x.parity && x.space == 3)).length }) := ⟨rfl⟩
  exact (count.trans (Channel.tagTile_copies _ r _)).trans (Channel.modTile_copies _ r _)

theorem Channel.versionStop_copies (t : TileRun) : k.Copies (k.versionStop r t) := by
  have raised : ∀ x, k.Copies (k.raise x) := fun _ => ⟨rfl⟩
  unfold Channel.versionStop
  exact .pick (k.failTile_copies r _) (.pick (k.failTile_copies r _)
    (((raised _).trans (Channel.tagTile_copies _ r _)).trans (Channel.modTile_copies _ r _)))

theorem Channel.copyPass_copies (t : TileRun) : k.Copies (k.copyPass r t) := by
  unfold Channel.copyPass
  extract_lets +onlyGivenNames d
  split
  · exact k.failTile_copies r _
  · next ix want _ =>
    extract_lets +onlyGivenNames m lr len mts
    have window := k.window_copies r 0 r.val t.redone mts ix want
    have read := Channel.Copies.ite (p := lr = true) Prod.snd (window d.m0 0 128 len) (window 0 d.n0 len 128)
    generalize (if lr = true then k.window 0 r.val r t.redone mts ix want d.m0 0 128 len
      else k.window 0 r.val r t.redone mts ix want 0 d.n0 len 128) = x at read ⊢
    obtain ⟨w, k₁⟩ := x
    refine read.trans (.pick (k₁.modTile_copies r _) (.pick (k₁.redoStop_copies r _ _) (.pick (k₁.versionStop_copies r t) ?_)))
    extract_lets +onlyGivenNames vals pads li
    obtain ⟨lines, pads, saturated⟩ := throughCrook t 0 vals pads
    dsimp -zeta only
    extract_lets rung f q eff s fault sections tabled copied counted
    have table : k₁.Copies tabled := by
      unfold tabled
      split
      · exact .pick (.of_valveWorks (k₁.writeBytes_valveWorks r _ _ _ _ _ _)) (.refl k₁)
      · exact .refl k₁
    have copy : tabled.Copies copied := tabled.modTile_copies r _
    have count : copied.Copies counted := copied.countTile_copies r t _
    exact table.trans (copy.trans (count.trans (Channel.countQuant_copies _ r _ _ _)))

/-! ### The cue of a weight-copy tile, and all of them -/

theorem Channel.climbed_of_copy {t : TileRun} (copy : t.desc.prod = 3) : k.climbed t = false := by
  unfold Channel.climbed
  rw [copy]
  rfl

/-- The pass of a weight-copy tile is a copy pass. -/
theorem Channel.tilePass_copies {t : TileRun} (tile : (k.reed r).tile = some t) (copy : t.desc.prod = 3) : k.Copies (k.tilePass r) := by
  unfold Channel.tilePass
  rw [tile]
  dsimp only
  rw [if_pos copy]
  exact (k.modReed_copies r _).trans (Channel.copyPass_copies _ r t)

theorem Channel.cueTile_copies {i : Nat} (copy : (k.newTile i).desc.prod = 3) : k.Copies (k.cueTile r i) := by
  unfold Channel.cueTile
  dsimp only
  rw [Channel.climbed_of_copy _ copy, if_neg Bool.false_ne_true]
  exact (k.modReed_copies r _).trans (Channel.tilePass_copies _ r (by rw [Channel.reed_modReed_self]) copy)

theorem Channel.rerunCopy_copies {i : Nat} (copy : (Score.tileAt k.pool (k.entry i).desc).prod = 3) : k.Copies (k.rerunCopy i) := by
  unfold Channel.rerunCopy
  extract_lets e v versions
  split
  · exact .refl k
  · next r _ =>
    extract_lets cued wrote cleared
    have cue : ({ k with ver := { k.ver with cur := versionBefore v } } : Channel).Copies cued := Channel.cueTile_copies _ r copy
    have write : cued.Copies wrote := by
      unfold wrote
      split
      · exact .refl _
      · exact .foldl (g := id) (fun k x => .of_valveWorks (Channel.writeBytes_valveWorks k r _ _ _ _ _ _)) _ cued
    clear_value wrote
    exact (cue.trans write).atVersion.trans ⟨rfl⟩

/-- A loaded score's entry at its place. -/
theorem Channel.entry_of_mem {sc : Score} (h : k.score = some sc) {p : Entry × Nat} (mem : p ∈ sc.entries.zipIdx) : k.entry p.2 = p.1 := by
  unfold Channel.entry
  rw [h]
  exact congrArg (Option.getD · {}) (List.mem_zipIdx_iff_getElem?.mp mem)

/-- The channel as the weight-copy tiles are run again: the rungs of CUR are recorded. -/
def Channel.beforeCopies (k : Channel) : Channel :=
  { ({ k with tun := { k.tun with inForce := k.tun.layers }
              ver := { k.ver with cur := versionBefore k.ver.cur } } : Channel).recordRungs with ver := k.ver }

theorem Channel.beforeCopies_copies : k.Copies k.beforeCopies := ⟨rfl⟩

variable {k}

theorem Channel.rerunCopies_of_score {sc : Score} (h : k.score = some sc) : k.rerunCopies =
    (sc.entries.zipIdx).foldl (fun (k : Channel) (p : Entry × Nat) =>
      if p.1.action = 1 ∧ (Score.tileAt k.pool p.1.desc).prod = 3 then k.rerunCopy p.2 else k) k.beforeCopies := by
  unfold Channel.rerunCopies
  split
  next none => cases h.symm.trans none
  next loaded =>
    cases h.symm.trans loaded
    rfl

theorem Channel.rerunCopies_copies {sc : Score} (h : k.score = some sc) : k.Copies k.rerunCopies := by
  rw [Channel.rerunCopies_of_score h]
  refine List.foldlRecOn (motive := fun x => k.Copies x) _ _ k.beforeCopies_copies fun x hx p hp => ?_
  split
  next copy =>
    refine hx.trans (x.rerunCopy_copies ?_)
    rw [x.entry_of_mem (hx.score.trans h) hp]
    exact copy.2
  next => exact hx

/-- Without a weight-copy tile nothing is run again. -/
theorem Channel.mem_rerunCopies {sc : Score} (h : k.score = some sc)
    (none : ∀ e ∈ sc.entries, ¬ (e.action = 1 ∧ (Score.tileAt k.pool e.desc).prod = 3)) : k.rerunCopies.mem = k.mem := by
  rw [Channel.rerunCopies_of_score h]
  refine congrArg Channel.mem (a₂ := k.beforeCopies) ?_
  refine List.foldlRecOn (motive := fun x => x = k.beforeCopies) _ _ rfl fun x hx p hp => ?_
  obtain rfl := hx
  exact if_neg (none p.1 (List.fst_mem_of_mem_zipIdx hp))

end

/-! ### The loaded checkpoint in a score's tensors -/

end Sys2Proof.Machine
end

section
/-! SUPPORT. The candidates of a restart, and what it loads (13 R343; 17 R407, R422). -/

namespace Sys2Proof.Machine

open Sys2Proof

/-! ### The candidates -/

section
variable {s : State} {c : ChanId} {xs : List CkptImage} {p : Manifest × CkptImage}

/-- An image on a checkpoint target of a clean checkpoint of the channel's own job and number. -/
theorem State.candidate_eq_some {x : CkptImage} (h : s.candidate c x = some p) :
    p.2 = x ∧ Manifest.ofBytes x.manifest = some p.1 ∧ p.1.job = (s.chan c).bind.job ∧ p.1.chan = c.val
      ∧ bitOf ((s.chan c).svc.target x.target).role 1 = true ∧ s.cleanManifest c p.1 = true := by
  unfold State.candidate at h
  dsimp only at h
  split at h
  · cases h
  next role =>
    split at h
    next m read =>
      split at h
      next own =>
        cases h
        exact ⟨rfl, read, own.1, own.2.1, by simpa using role, own.2.2⟩
      next => cases h
    next => cases h

theorem State.of_mem_candidates (h : p ∈ s.candidates c xs) :
    p.2 ∈ xs ∧ Manifest.ofBytes p.2.manifest = some p.1 ∧ p.1.job = (s.chan c).bind.job ∧ p.1.chan = c.val
      ∧ bitOf ((s.chan c).svc.target p.2.target).role 1 = true ∧ s.cleanManifest c p.1 = true := by
  obtain ⟨x, mem, candidate⟩ := List.mem_filterMap.mp (List.mem_mergeSort.mp h)
  obtain ⟨rfl, rest⟩ := State.candidate_eq_some candidate
  exact ⟨mem, rest⟩

theorem State.candidates_newestFirst (s : State) (c : ChanId) (xs : List CkptImage) :
    (s.candidates c xs).Pairwise (fun a b => b.1.step ≤ a.1.step) := by
  unfold State.candidates
  refine (List.pairwise_mergeSort ?_ ?_ _).imp ?_
  · intro x y z
    grind
  · intro x y
    grind
  · intro x y
    grind

end

/-! ### The objects of a manifest -/

section
variable {m : Manifest} {conf : Bool} {key : List Byte} {xs : List (List Byte)} {os : List (Nat × List Byte)}

theorem Manifest.holds_of_opened (h : m.opened conf key xs = some os) : m.holds xs = true := by
  unfold Manifest.opened at h
  split at h
  next holds => exact holds
  next => cases h

theorem Manifest.length_of_holds (h : m.holds xs = true) : m.objects.length = xs.length := by
  unfold Manifest.holds at h
  rw [Bool.and_eq_true, beq_iff_eq] at h
  exact h.1

/-- What is opened has the manifest's types, in its order. -/
theorem Manifest.types_of_opened (h : m.opened conf key xs = some os) : os.map Prod.fst = m.objects.map (fun o => o.1) := by
  have holds := Manifest.holds_of_opened h
  unfold Manifest.opened at h
  rw [if_pos holds] at h
  rw [← List.map_fst_zip (Manifest.length_of_holds holds).le, List.map_map]
  generalize m.objects.zip xs = l at h ⊢
  induction l generalizing os with
  | nil =>
    cases h
    rfl
  | cons p l ih =>
    rw [List.foldr_cons] at h
    split at h
    next rest bs opened _ =>
      cases h
      rw [List.map_cons, List.map_cons, ih opened]
      rfl
    next => cases h

end

/-! ### The channel at the loaded step -/

/-- Where an object goes is a matter of the score. -/
theorem Channel.objectPlaces_of_score {k k' : Channel} (h : k'.score = k.score) (v typ : Nat) :
    k'.objectPlaces v typ = k.objectPlaces v typ := by
  have roles : ∀ role, k'.roleTensors role = k.roleTensors role := fun role => by
    unfold Channel.roleTensors Channel.tensor Channel.pool
    rw [h]
  have version : ∀ t, k'.atVersion v t = k.atVersion v t := fun t => by
    unfold Channel.atVersion Channel.tensor Channel.pool
    rw [h]
  unfold Channel.objectPlaces
  simp only [roles, version, h]

/-- The channel has taken a checkpoint's step, version and tables; its memory is as it was. -/
def Channel.takesCkpt (k : Channel) (m : Manifest) (k' : Channel) : Prop := k' = { k with
  ver := { cur := m.wver }, verSnap := none, step := wrap64 (m.step + 1), attempt := 0, lastEnd := none, tun := k'.tun, ww := k'.ww
  svc := { k.svc with resident := [], fetching := [], ckpt := none, ckptWaiting := false, ckptDue := false } }

theorem Channel.loadCkpt_eq (k : Channel) (m : Manifest) (os : List (Nat × List Byte)) : ∃ k',
    k.loadCkpt m os = (if k.score.isSome then k'.placeCkpt os else k') ∧ k.takesCkpt m k' := ⟨_, rfl, rfl⟩

section
variable {k k' : Channel} {m : Manifest} (h : k.takesCkpt m k') (os : List (Nat × List Byte))
include h

theorem Channel.takesCkpt.score : k'.score = k.score := (congrArg Channel.score h :)

theorem Channel.takesCkpt.cur : k'.ver.cur = m.wver := (congrArg (fun (x : Channel) => x.ver.cur) h :)

theorem Channel.takesCkpt.mem_putObjects : (k'.putObjects k'.ver.cur os).mem = (k.putObjects m.wver os).mem := by
  have mem : k'.mem = k.mem := (congrArg Channel.mem h :)
  unfold Channel.putObjects
  dsimp only
  rw [mem, h.cur]
  simp only [Channel.objectPlaces_of_score h.score]

/-- The objects go to their places and the copies are run again: the step, the attempt and the version stay those of the checkpoint. -/
theorem Channel.takesCkpt.placeCkpt_copies {sc : Score} (loaded : k.score = some sc) :
    (k'.putObjects k'.ver.cur os).Copies (k'.placeCkpt os) :=
  Channel.rerunCopies_copies (h.score.trans loaded)

theorem Channel.takesCkpt.mem_placeCkpt {sc : Score} (loaded : k.score = some sc)
    (none : ∀ e ∈ sc.entries, ¬ (e.action = 1 ∧ (Score.tileAt k.pool e.desc).prod = 3)) :
    (k'.placeCkpt os).mem = (k.putObjects m.wver os).mem := by
  have pool : (k'.putObjects k'.ver.cur os).pool = k.pool := by
    show k'.pool = k.pool
    unfold Channel.pool
    rw [h.score]
  rw [← h.mem_putObjects os]
  exact Channel.mem_rerunCopies (h.score.trans loaded) (by rw [pool]; exact none)

end

end Sys2Proof.Machine
end

section
/-! SUPPORT. The restart service starts the score at the step after its checkpoint, or reports that it cannot (13 R343; 17 R407). -/

namespace Sys2Proof.Machine

open Sys2Proof

section
variable {s : State} {c : ChanId}

/-! ### The start from a step -/

/-- The score starts at beat 0, perhaps on other Reeds. -/
theorem State.chan_startStep : (s.startStep c).chan c = { s.chan c with
    slotMap := ((s.startStep c).chan c).slotMap, etude := ((s.startStep c).chan c).etude, st := .run
    ww := { ((s.startStep c).chan c).ww with beat := 0 } } := by
  have starts : (s.startStep c).chan c = ((s.rebindSlots c).chan c).startAt false ((s.rebindSlots c).chan c).ww.stepPhrase := by
    rw [State.startStep, State.chan_settle, State.chan_modChan_self]
    rfl
  rw [starts, (s.rebindSlots_rebinds c).chan]
  rfl

theorem State.chan_startStep_ne {d : ChanId} (h : d ≠ c) : (s.startStep c).chan d = s.chan d := by
  rw [State.startStep, State.chan_settle, State.chan_modChan_ne _ _ h]
  exact ((s.rebindSlots_rebinds c).others d h).1

/-! ### The commands of RESTART_LOAD_DONE -/

variable {images : List CkptImage}

/-- What a candidate's objects hold, when they verify. -/
def State.verified (s : State) (c : ChanId) (p : Manifest × CkptImage) : Option (List (Nat × List Byte)) :=
  p.1.opened s.mram.conf (s.chan c).storageKey p.2.objects

/-- The checkpoint that the restart service loads: the first that verifies. -/
def State.restartFrom (s : State) (c : ChanId) (images : List CkptImage) : Option (Manifest × List (Nat × List Byte)) :=
  (s.candidates c images).findSome? (fun (p : Manifest × CkptImage) => (s.verified c p).map (fun os => (p.1, os)))

theorem State.restartFrom_of_none (h : ∀ p ∈ s.candidates c images, s.verified c p = none) : s.restartFrom c images = none :=
  List.findSome?_eq_none_iff.mpr fun p hp => by rw [h p hp]; rfl

theorem State.restartFrom_of_first {before after : List (Manifest × CkptImage)} {m : Manifest} {img : CkptImage}
    {os : List (Nat × List Byte)} (h : s.candidates c images = before ++ (m, img) :: after) (fails : ∀ p ∈ before, s.verified c p = none)
    (opens : s.verified c (m, img) = some os) : s.restartFrom c images = some (m, os) :=
  List.findSome?_eq_some_iff.mpr ⟨before, (m, img), after, h, by rw [opens]; rfl, fun p hp => by rw [fails p hp]; rfl⟩

/-- The state with a checkpoint loaded, and the restart service as given. -/
def State.withCkpt (s : State) (c : ChanId) (m : Manifest) (os : List (Nat × List Byte)) (x : Option RestartRun) : State :=
  (s.modChan c (fun k => (k.loadCkpt m os).measureObjects m)).modChan c (fun k => { k with svc := { k.svc with restart := x } })

/-- The state in which the restart service has loaded a checkpoint and started the score. -/
def State.restarted (s : State) (c : ChanId) (m : Manifest) (os : List (Nat × List Byte)) : State :=
  ((s.withCkpt c m os none).startStep c).rollbackDone c

theorem exec_restartLoadDone_of_idle (h : ∀ x, (s.chan c).svc.restart = some x → x.ready = true ∨ s.storageUp c = false) :
    exec (.restartLoadDone c images) s = .next s := by
  show execRestartLoadDone c images s = _
  unfold execRestartLoadDone
  dsimp only
  split
  · rfl
  next x restart =>
    refine if_pos ?_
    rcases h x restart with ready | down
    · rw [ready, Bool.true_or]
    · rw [down, Bool.not_false, Bool.or_true]

section
variable {x : RestartRun} (restart : (s.chan c).svc.restart = some x) (waits : x.ready = false) (up : s.storageUp c = true)
include restart waits up

theorem exec_restartLoadDone_of_none (h : s.restartFrom c images = none) : exec (.restartLoadDone c images) s
    = .next ((s.setChan c { s.chan c with svc := { (s.chan c).svc with restart := none } }).firmwareError c .restartFailed .J 9 0 anyDetail) := by
  show execRestartLoadDone c images s = _
  unfold execRestartLoadDone
  dsimp only
  split
  next idle => cases restart.symm.trans idle
  next y run =>
    cases restart.symm.trans run
    rw [if_neg (by rw [waits, up]; decide)]
    split
    next => rfl
    next found => cases h.symm.trans found

theorem exec_restartLoadDone_of_some {m : Manifest} {os : List (Nat × List Byte)} (h : s.restartFrom c images = some (m, os)) :
    exec (.restartLoadDone c images) s = if (s.chan c).score.isNone then .next (s.withCkpt c m os (some { ready := true, objects := os }))
      else .next (s.restarted c m os) := by
  show execRestartLoadDone c images s = _
  unfold execRestartLoadDone
  dsimp only
  split
  next idle => cases restart.symm.trans idle
  next y run =>
    cases restart.symm.trans run
    rw [if_neg (by rw [waits, up]; decide)]
    split
    next none => cases h.symm.trans none
    next found =>
      cases h.symm.trans found
      rfl

end

/-! ### The loaded checkpoint -/

section
variable {m : Manifest} {os : List (Nat × List Byte)} {x : Option RestartRun}

theorem State.chan_withCkpt : (s.withCkpt c m os x).chan c =
    { ((s.chan c).loadCkpt m os).measureObjects m with svc := { (((s.chan c).loadCkpt m os).measureObjects m).svc with restart := x } } := by
  rw [State.withCkpt, State.chan_modChan_self, State.chan_modChan_self]

theorem State.chan_withCkpt_ne {d : ChanId} (h : d ≠ c) : (s.withCkpt c m os x).chan d = s.chan d := by
  rw [State.withCkpt, State.chan_modChan_ne _ _ h, State.chan_modChan_ne _ _ h]

theorem State.chan_restarted_ne {d : ChanId} (h : d ≠ c) : (s.restarted c m os).chan d = s.chan d := by
  rw [State.restarted, (State.rollbackDone_logged _ c).others d h, State.chan_startStep_ne h, State.chan_withCkpt_ne h]

/-- The channel of the restarted score is that of the loaded checkpoint, running, but for its Reeds, its Windway and its errors. -/
theorem State.chan_restarted : (s.restarted c m os).chan c = { (s.withCkpt c m os none).chan c with
    slotMap := ((s.restarted c m os).chan c).slotMap, etude := ((s.restarted c m os).chan c).etude, st := .run
    ww := { ((s.restarted c m os).chan c).ww with beat := 0 }, err := ((s.restarted c m os).chan c).err } := by
  have logged := (State.rollbackDone_logged ((s.withCkpt c m os none).startStep c) c).chan
  rw [State.chan_startStep] at logged
  rw [State.restarted, logged]

/-- The channel is at the step after the checkpoint's, at attempt 0, with its weight version. -/
def Channel.after (k : Channel) (m : Manifest) : Prop := k.step = wrap64 (m.step + 1) ∧ k.attempt = 0 ∧ k.ver.cur = m.wver

/-- Without a score the objects wait, and memory is as it was. -/
theorem State.withCkpt_of_unscored (none : (s.chan c).score = none) : ((s.withCkpt c m os x).chan c).after m
    ∧ ((s.withCkpt c m os x).chan c).svc.restart = x ∧ ((s.withCkpt c m os x).chan c).st = (s.chan c).st
    ∧ ((s.withCkpt c m os x).chan c).mem = (s.chan c).mem := by
  obtain ⟨k', loads, takes⟩ := (s.chan c).loadCkpt_eq m os
  rw [if_neg (by rw [none]; decide)] at loads
  rw [State.chan_withCkpt, loads, show k' = _ from takes]
  exact ⟨⟨rfl, rfl, rfl⟩, rfl, rfl, rfl⟩

section
variable {sc : Score} (loaded : (s.chan c).score = some sc)
include loaded

theorem State.withCkpt_of_score : ((s.withCkpt c m os x).chan c).after m ∧ ((s.withCkpt c m os x).chan c).svc.restart = x := by
  obtain ⟨k', loads, takes⟩ := (s.chan c).loadCkpt_eq m os
  rw [if_pos (by rw [loaded]; rfl)] at loads
  have places := (takes.placeCkpt_copies os loaded).frame
  rw [State.chan_withCkpt, loads, places, show k' = _ from takes]
  exact ⟨⟨rfl, rfl, rfl⟩, rfl⟩

theorem State.mem_withCkpt (none : ∀ e ∈ sc.entries, ¬ (e.action = 1 ∧ (Score.tileAt (s.chan c).pool e.desc).prod = 3)) :
    ((s.withCkpt c m os x).chan c).mem = ((s.chan c).putObjects m.wver os).mem := by
  obtain ⟨k', loads, takes⟩ := (s.chan c).loadCkpt_eq m os
  rw [if_pos (by rw [loaded]; rfl)] at loads
  rw [State.chan_withCkpt, loads, ← takes.mem_placeCkpt os loaded none]
  rfl

/-- With a score the channel runs, from beat 0 of the step after the checkpoint's. -/
theorem State.restarted_of_score : ((s.restarted c m os).chan c).after m ∧ ((s.restarted c m os).chan c).svc.restart = none
    ∧ ((s.restarted c m os).chan c).st = .run ∧ ((s.restarted c m os).chan c).ww.beat = 0
    ∧ ((s.restarted c m os).chan c).mem = ((s.withCkpt c m os none).chan c).mem := by
  obtain ⟨after, restart⟩ := State.withCkpt_of_score (x := none) (m := m) (os := os) loaded
  rw [State.chan_restarted]
  exact ⟨after, restart, rfl, rfl, rfl⟩

end

end

end

/-- Settles O52: the first candidate that verifies is loaded, and the score, where there is one, starts at the step after it. -/
theorem restarts : Obligations.Restarts := by
  intro s c images
  dsimp only
  refine ⟨fun p => State.of_mem_candidates, s.candidates_newestFirst c images,
    fun p os opened => ⟨Manifest.holds_of_opened opened, Manifest.types_of_opened opened⟩, exec_restartLoadDone_of_idle,
    fun x restart waits up => ⟨fun fails => ?_, fun before m img after os split fails opened => ?_⟩⟩
  · exact exec_restartLoadDone_of_none restart waits up (State.restartFrom_of_none fails)
  · have loads := exec_restartLoadDone_of_some restart waits up (State.restartFrom_of_first split fails opened)
    cases score : (s.chan c).score with
    | none =>
      replace loads := loads.trans (if_pos (by rw [score]; rfl))
      obtain ⟨⟨step, attempt, cur⟩, rest⟩ := State.withCkpt_of_unscored (m := m) (os := os) (x := some { ready := true, objects := os }) score
      exact ⟨_, loads, fun d => State.chan_withCkpt_ne, step, attempt, cur, fun _ => rest, fun sc some => absurd some nofun⟩
    | some sc =>
      replace loads := loads.trans (if_neg (by rw [score]; exact Bool.false_ne_true))
      obtain ⟨⟨step, attempt, cur⟩, idle, run, beat, mem⟩ := State.restarted_of_score (m := m) (os := os) score
      refine ⟨_, loads, fun d => State.chan_restarted_ne, step, attempt, cur, fun none => absurd none nofun, fun sc' some => ?_⟩
      cases some
      exact ⟨idle, run, beat, fun plain => mem.trans (State.mem_withCkpt score plain)⟩

end Sys2Proof.Machine
end

section
/-! SUPPORT. The host port: its counters, its pause, and the frames that it receives (13 R332 to R334, R502; 20 R465, R466). -/

namespace Sys2Proof.Machine

open Sys2Proof

/-! ### Counters -/

section
variable {h : HostPort} {i : Nat} (n : Nat)

theorem HostPort.count_self (hi : i < h.cnt.length) : (h.count i n).cnt.getD i 0 = Nat.min (h.cnt.getD i 0 + n) 0xFFFFFFFFFFFFFFFF := by
  show (h.cnt.modify i (fun v => sat64 v n)).getD i 0 = sat64 (h.cnt.getD i 0) n
  rw [List.getD_eq_getElem _ _ (by rw [List.length_modify]; exact hi), List.getElem_modify_eq, List.getD_eq_getElem _ _ hi]

theorem HostPort.count_ne {j : Nat} (hj : j ≠ i) : (h.count i n).cnt.getD j 0 = h.cnt.getD j 0 := by
  show (h.cnt.modify i (fun v => sat64 v n)).getD j 0 = h.cnt.getD j 0
  rw [List.getD_eq_getElem?_getD, List.getElem?_modify_ne _ _ hj.symm, List.getD_eq_getElem?_getD]

end

/-- A counter of the host port rises by one. -/
def State.counted (s : State) (i : Nat) : State := { s with mp := { s.mp with host := s.mp.host.count i 1 } }

/-! ### The pause -/

section
variable {s : State}

/-- The ingress has passed three quarters of 16 MiB, on a priority that may be paused (13 R334). -/
def State.congested (s : State) : Prop := 12582912 < s.ingress ∧ s.mram.pfc ≠ 0

theorem State.pause_of_congested (full : s.congested) : s.pause = s.modMp (fun m => { m with host :=
    if !m.host.pausing then { (m.host.count 8 1).count 0 1 with pausing := true } else { m.host with pausing := true } }) := by
  have congested : (decide (12582912 < s.ingress) && s.mram.pfc != 0) = true := by simpa [State.congested] using full
  unfold State.pause
  simp only [congested, Bool.true_and]

/-- A pause in force goes on. -/
theorem State.pause_of_pausing (full : s.congested) (pausing : s.mp.host.pausing = true) : s.pause = s := by
  rw [State.pause_of_congested full, State.modMp, if_neg (by rw [pausing]; decide), ← pausing]

theorem State.pause_of_passing (full : s.congested) (passing : s.mp.host.pausing = false) :
    s.pause = { s with mp := { s.mp with host := { (s.mp.host.count 8 1).count 0 1 with pausing := true } } } := by
  rw [State.pause_of_congested full, State.modMp, if_pos (by rw [passing]; rfl)]

theorem State.pause_of_room (room : ¬ s.congested) :
    s.pause = { s with mp := { s.mp with host := { s.mp.host with pausing := false } } } := by
  have quiet : (decide (12582912 < s.ingress) && s.mram.pfc != 0) = false := by
    rw [Bool.eq_false_iff]
    simpa [State.congested] using room
  unfold State.pause
  simp only [quiet, Bool.false_and]
  rfl

/-- Channels that do not run cause no pause. -/
theorem State.ingress_of_idle (h : ∀ c, (s.chan c).st = .halted ∨ (s.chan c).st = .init ∨ (s.chan c).st = .holdup
    ∨ (s.chan c).ww.hold.isSome = true) : s.ingress = s.mp.host.fill.getD 0 0 := by
  unfold State.ingress
  rw [List.sum_eq_zero, Nat.add_zero]
  intro n hn
  obtain ⟨c, -, rfl⟩ := List.mem_map.mp hn
  refine if_pos ?_
  rcases h c with st | st | st | hold
  · simp [st]
  · simp [st]
  · simp [st]
  · simp [hold]

end

/-! ### Frames received -/

section
variable {s : State} {f : HostFrame}

/-- What has been taken from the receive buffers meanwhile is gone. -/
def State.drained (s : State) (f : HostFrame) : State := { s with mp := { s.mp with host := { s.mp.host with
  fill := (s.mp.host.fill.zipIdx).map (fun (x : Nat × Nat) => x.1 - f.drained.getD x.2 0) } } }

theorem State.fill_drained (e : Nat) : (s.drained f).mp.host.fill.getD e 0 = s.mp.host.fill.getD e 0 - f.drained.getD e 0 := by
  show ((s.mp.host.fill.zipIdx).map (fun (x : Nat × Nat) => x.1 - f.drained.getD x.2 0)).getD e 0 = _
  rw [List.getD_eq_getElem?_getD, List.getElem?_map, List.getElem?_zipIdx, List.getD_eq_getElem?_getD]
  cases s.mp.host.fill[e]? with
  | none => exact (Nat.zero_sub _).symm
  | some n => simp

/-- A frame has come in. -/
def State.received (s : State) (f : HostFrame) : State := (s.drained f).pause.counted 1

/-- A frame's bytes stand in an endpoint's buffer. -/
def State.buffered (s : State) (e len : Nat) : State :=
  { s with mp := { s.mp with host := { s.mp.host with fill := s.mp.host.fill.set e (s.mp.host.fill.getD e 0 + len) } } }

theorem State.receive_of_full {e len : Nat} (h : 4194304 < s.mp.host.fill.getD e 0 + len) :
    s.receive e len = (false, s.counted (3 + e)) := if_pos h

theorem State.receive_of_room {e len : Nat} (h : s.mp.host.fill.getD e 0 + len ≤ 4194304) :
    s.receive e len = (true, (s.buffered e len).pause) := if_neg (Nat.not_lt.mpr h)

/-! The INIT token bucket (20 R465). -/

/-- Millionths of a token in the bucket at a moment. -/
def State.tokensAt (s : State) (now : Nat) : Nat := Nat.min 256000000 (s.pins.bucket + 4096 * (now - s.pins.bucketAt))

theorem State.takeToken_of_started (now : Nat) (h : s.dev ≠ 0) : s.takeToken now = (true, s) := if_pos h

theorem State.takeToken_of_empty {now : Nat} (h : s.dev = 0) (empty : s.tokensAt now < 1000000) : s.takeToken now =
    (false, { s with pins := { s.pins with
      bucketAt := Nat.max now s.pins.bucketAt, bucket := s.tokensAt now, initDrops := Nat.min (s.pins.initDrops + 1) 0xFFFFFFFF } }) :=
  (if_neg (not_not.mpr h)).trans (if_pos empty)

theorem State.takeToken_of_token {now : Nat} (h : s.dev = 0) (token : 1000000 ≤ s.tokensAt now) : s.takeToken now =
    (true, { s with pins := { s.pins with bucketAt := Nat.max now s.pins.bucketAt, bucket := s.tokensAt now - 1000000 } }) :=
  (if_neg (not_not.mpr h)).trans (if_neg (Nat.not_lt.mpr token))

end

/-! ### HOST_FRAME_RECEIVE -/

/-- What follows when a frame has come to an endpoint: the Mouthpiece serves a datagram that it has taken, for a token. -/
def serveFrame (f : HostFrame) (e : Nat) (a : Bool × State) : Host.Outcome State Fault Refusal :=
  match f.dgram with
  | none => .next a.2
  | some b =>
    if !a.1 || e != 0 then .next a.2
    else if (a.2.takeToken f.now).1 then (a.2.takeToken f.now).2.datagram b
    else .next (a.2.takeToken f.now).2


section
variable {s : State} {f : HostFrame}

/-- While the device cannot send, nothing comes in. -/
theorem exec_hostFrameReceive_of_down (down : s.canSend = false) : exec (.hostFrameReceive f) s = .next s := if_pos (by rw [down]; rfl)

variable (up : s.canSend = true)
include up

/-! Frames of the device's own channels. -/

theorem exec_hostFrameReceive_of_inner {c e : Nat} (src : f.src = some c) (dst : f.dst = some e) (inner : e ≤ 4 ∧ e ≠ c + 1 ∧ c < 4) :
    exec (.hostFrameReceive f) s = .next ((s.drained f).pause.counted (4 + c)) := by
  obtain ⟨_, _, len, drained, pause, cnp, dgram, now⟩ := f
  cases src
  cases dst
  exact (if_neg (by rw [up]; decide)).trans (if_pos inner)

theorem exec_hostFrameReceive_of_outer {c : Nat} (src : f.src = some c) (outer : ∀ e, f.dst = some e → ¬ (e ≤ 4 ∧ e ≠ c + 1 ∧ c < 4)) :
    exec (.hostFrameReceive f) s = .next ((s.drained f).pause.counted 0) := by
  obtain ⟨_, dst, len, drained, pause, cnp, dgram, now⟩ := f
  cases src
  refine (if_neg (by rw [up]; decide)).trans ?_
  cases dst with
  | none => rfl
  | some e => exact if_neg (outer e rfl)

/-! Frames from outside. -/

variable (src : f.src = none)
include src

theorem exec_hostFrameReceive_of_pause (pause : f.pause = true) :
    exec (.hostFrameReceive f) s = .next ((s.received f).counted 9) := by
  obtain ⟨_, dst, len, drained, _, cnp, dgram, now⟩ := f
  cases src
  cases pause
  exact if_neg (by rw [up]; decide)

variable (data : f.pause = false)
include data

theorem exec_hostFrameReceive_of_cnp (cnp : f.cnp = true) : exec (.hostFrameReceive f) s = .next ((s.received f).counted 11) := by
  obtain ⟨_, dst, len, drained, _, _, dgram, now⟩ := f
  cases src
  cases data
  cases cnp
  exact if_neg (by rw [up]; decide)

variable (plain : f.cnp = false)
include plain

theorem exec_hostFrameReceive_of_stray (stray : f.dst = none ∨ ∃ e, f.dst = some e ∧ 4 < e) :
    exec (.hostFrameReceive f) s = .next ((s.received f).counted 2) := by
  obtain ⟨_, _, len, drained, _, _, dgram, now⟩ := f
  cases src
  cases data
  cases plain
  refine (if_neg (by rw [up]; decide)).trans ?_
  obtain dst | ⟨e, dst, far⟩ := stray
  · cases dst
    rfl
  · cases dst
    exact if_pos far

variable {e : Nat} (dst : f.dst = some e) (near : e ≤ 4)
include dst near

theorem exec_hostFrameReceive_of_endpoint : exec (.hostFrameReceive f) s = serveFrame f e ((s.received f).receive e f.len) := by
  obtain ⟨_, _, len, drained, _, _, dgram, now⟩ := f
  cases src
  cases data
  cases plain
  cases dst
  refine (if_neg (by rw [up]; decide)).trans ((if_neg (Nat.not_lt.mpr near)).trans ?_)
  cases dgram <;> rfl

end

section
variable {f : HostFrame} {e : Nat} {w : State}

theorem serveFrame_of_dropped : serveFrame f e (false, w) = .next w := by
  unfold serveFrame
  split <;> rfl

theorem serveFrame_of_held (held : e ≠ 0 ∨ f.dgram = none) : serveFrame f e (true, w) = .next w := by
  unfold serveFrame
  split
  · rfl
  next b dgram =>
    refine if_pos ?_
    rcases held with other | none
    · simpa using other
    · cases dgram.symm.trans none

variable {b : List Byte} (dgram : f.dgram = some b)
include dgram

theorem serveFrame_of_token {w' : State} (token : w.takeToken f.now = (true, w')) : serveFrame f 0 (true, w) = w'.datagram b := by
  unfold serveFrame
  split
  next none => cases dgram.symm.trans none
  next some =>
    cases dgram.symm.trans some
    rw [token]
    rfl

theorem serveFrame_of_empty {w' : State} (empty : w.takeToken f.now = (false, w')) : serveFrame f 0 (true, w) = .next w' := by
  unfold serveFrame
  split
  next none => cases dgram.symm.trans none
  next some =>
    cases dgram.symm.trans some
    rw [empty]
    rfl

end

end Sys2Proof.Machine
end

section
/-! SUPPORT. Connection requests, and the host link going down and coming up (13 R333, R348; 20 R462, R466). -/

namespace Sys2Proof.Machine

open Sys2Proof

section
variable {s : State} {c : ChanId}

/-! ### CM_REQUEST -/

theorem exec_cmRequest_of_down (down : s.canSend = false) : exec (.cmRequest c) s = .next s := if_pos (by rw [down]; rfl)

section
variable (up : s.canSend = true)
include up

theorem exec_cmRequest_of_unready (unready : (s.chan c).st = .init ∨ (s.chan c).st = .halted) :
    exec (.cmRequest c) s = .next (s.counted (12 + c.val)) :=
  (if_neg (by rw [up]; decide)).trans (if_pos (by rcases unready with st | st <;> simp [st]))

variable (init : (s.chan c).st ≠ .init) (halted : (s.chan c).st ≠ .halted)
include init halted

theorem exec_cmRequest_of_ready : exec (.cmRequest c) s = if (s.chan c).svc.qps < s.mp.host.pools.getD c.val 0 then
    .next (s.setChan c { s.chan c with svc := { (s.chan c).svc with qps := (s.chan c).svc.qps + 1 } }) else .next s :=
  (if_neg (by rw [up]; decide)).trans (if_neg (by simp [init, halted]))

end

/-! ### HOST_LINK_DOWN -/

/-- The services without a connection to a target (13 R333, R335). -/
def Services.disconnected (v : Services) : Services := { v with
  targets := v.targets.map (fun (t : Target) => { t with connected := false })
  qps := v.qps - (v.targets.filter (fun (t : Target) => t.connected)).length }

/-- The channel without a connection to a target. -/
def Channel.disconnected (k : Channel) : Channel := { k with svc := k.svc.disconnected }

theorem State.loseTargets_of_none (none : (s.chan c).svc.ckpt = none) : s.loseTargets c = s.modChan c Channel.disconnected := by
  unfold State.loseTargets
  split
  next some => cases none.symm.trans some
  next => rfl

/-- A checkpoint being written fails on each of its targets (13 R342). -/
theorem State.loseTargets_of_some {r : CkptRun} (run : (s.chan c).svc.ckpt = some r) :
    s.loseTargets c = (r.targets.foldl (fun (u : State) g => u.targetFail c g) s).modChan c Channel.disconnected := by
  unfold State.loseTargets
  split
  next some =>
    cases run.symm.trans some
    rfl
  next none => cases run.symm.trans none

/-- With no checkpoint being written, losing the targets of channels changes nothing else. -/
theorem State.foldl_loseTargets (l : List ChanId) (none : ∀ c, (s.chan c).svc.ckpt = none) :
    l.foldl State.loseTargets s = l.foldl (fun (u : State) c => u.modChan c Channel.disconnected) s := by
  induction l generalizing s with
  | nil => rfl
  | cons c l ih =>
    rw [List.foldl_cons, List.foldl_cons, State.loseTargets_of_none (none c)]
    refine ih fun d => ?_
    by_cases hd : d = c
    · rw [hd, State.chan_modChan_self]
      exact none c
    · rw [State.chan_modChan_ne _ _ hd]
      exact none d

theorem State.disconnect_frame (l : List ChanId) : l.foldl (fun (u : State) c => u.modChan c Channel.disconnected) s
    = { s with ch := (l.foldl (fun (u : State) c => u.modChan c Channel.disconnected) s).ch } :=
  foldl_keeps (P := fun u : State => u = { s with ch := u.ch }) (fun u c h => by rw [h]; rfl) l rfl

theorem State.chan_disconnect (c : ChanId) :
    (chans.foldl (fun (u : State) c => u.modChan c Channel.disconnected) s).chan c = (s.chan c).disconnected := by
  rw [get_foldl_update (get := State.chan) (g := fun _ => Channel.disconnected) (fun u c => u.chan_modChan_self c _)
    (fun u c d h => u.chan_modChan_ne _ h) (by decide) s c, if_pos (mem_chans c)]

/-- The state in which the host link is down. -/
def State.linkDown (s : State) : State := { s with mp := { s.mp with host := { s.mp.host with up := false, lanes := 0 } } }

theorem exec_hostLinkDown_of_down (down : s.mp.host.up = false) : exec .hostLinkDown s = .next s := if_pos (by rw [down]; rfl)

theorem exec_hostLinkDown_of_up (up : s.mp.host.up = true) : exec .hostLinkDown s = .next (chans.foldl State.loseTargets s.linkDown) :=
  if_neg (by rw [up]; decide)

/-! ### HOST_LINK_UP -/

theorem exec_hostLinkUp_of_awake (lanes : Nat) (awake : s.awake = true) : exec (.hostLinkUp lanes) s =
    .next { s with mp := { s.mp with host := { s.mp.host with up := true, lanes := lanes % 256 } } } := if_neg (by rw [awake]; decide)

theorem exec_hostLinkUp_of_asleep (lanes : Nat) (asleep : s.awake = false) : exec (.hostLinkUp lanes) s = .next s :=
  if_pos (by rw [asleep]; rfl)

end

end Sys2Proof.Machine
end

section
/-! SUPPORT. Frames at the host port and its link (13 R332 to R334, R348; 20 R462, R465, R466). -/

namespace Sys2Proof.Machine

open Sys2Proof

theorem State.fill_counted (s : State) (i : Nat) : (s.counted i).mp.host.fill = s.mp.host.fill := rfl

theorem State.fill_received (s : State) (f : HostFrame) : (s.received f).mp.host.fill = (s.drained f).pause.mp.host.fill :=
  State.fill_counted _ 1

section
variable {s : State} {f : HostFrame} {c : Nat}

/-- Is a frame of channel `c` addressed to another endpoint of the device? -/
def HostFrame.inner (f : HostFrame) (c : Nat) : Prop := c < 4 ∧ ∃ e, f.dst = some e ∧ e ≤ 4 ∧ e ≠ c + 1

variable (up : s.canSend = true)
include up

theorem exec_hostFrameReceive_of_own (src : f.src = some c) :
    (HostFrame.inner f c → exec (.hostFrameReceive f) s = .next ((s.drained f).pause.counted (4 + c)))
      ∧ (¬ HostFrame.inner f c → exec (.hostFrameReceive f) s = .next ((s.drained f).pause.counted 0)) := by
  refine ⟨fun inner => ?_, fun outer => ?_⟩
  · obtain ⟨own, e, dst, near, other⟩ := inner
    exact exec_hostFrameReceive_of_inner up src dst ⟨near, other, own⟩
  · exact exec_hostFrameReceive_of_outer up src fun e dst inner => outer ⟨inner.2.2, e, dst, inner.1, inner.2.1⟩

/-- The state in which an endpoint has taken a frame. -/
abbrev State.taken (s : State) (f : HostFrame) (e : Nat) : State := ((s.received f).buffered e f.len).pause

variable (src : f.src = none) (data : f.pause = false) (plain : f.cnp = false) {e : Nat} (dst : f.dst = some e) (near : e ≤ 4)
include src data plain dst near

theorem exec_hostFrameReceive_of_full (full : 4194304 < (s.drained f).pause.mp.host.fill.getD e 0 + f.len) :
    exec (.hostFrameReceive f) s = .next ((s.received f).counted (3 + e)) := by
  rw [exec_hostFrameReceive_of_endpoint up src data plain dst near, State.receive_of_full (by rw [State.fill_received]; exact full),
    serveFrame_of_dropped]

variable (room : (s.drained f).pause.mp.host.fill.getD e 0 + f.len ≤ 4194304)
include room

theorem exec_hostFrameReceive_of_room : exec (.hostFrameReceive f) s = serveFrame f e (true, s.taken f e) := by
  rw [exec_hostFrameReceive_of_endpoint up src data plain dst near, State.receive_of_room (by rw [State.fill_received]; exact room)]

end

theorem State.onlyMp_pause (s : State) : s.onlyMp s.pause := rfl

theorem State.onlyMp_counted (s : State) (i : Nat) : s.onlyMp (s.counted i) := rfl

theorem State.onlyMp_taken (s : State) (f : HostFrame) (e : Nat) : s.onlyMp (s.taken f e) := by
  have drained : s.onlyMp (s.drained f) := rfl
  have received : s.onlyMp (s.received f) :=
    State.onlyMp_trans (State.onlyMp_trans drained (State.onlyMp_pause _)) (State.onlyMp_counted _ 1)
  have buffered : (s.received f).onlyMp ((s.received f).buffered e f.len) := rfl
  exact State.onlyMp_trans (State.onlyMp_trans received buffered) (State.onlyMp_pause _)

theorem State.tokensAt_taken (s : State) (f : HostFrame) (e now : Nat) : (s.taken f e).tokensAt now = s.tokensAt now := by
  unfold State.tokensAt
  rw [(s.onlyMp_taken f e).pins]

/-! ### All frames and the link -/

section
variable {s : State} {f : HostFrame} {b : List Byte} (dgram : f.dgram = some b)
include dgram

/-- Out of INIT a datagram costs no token. -/
theorem serveFrame_of_started (started : s.dev ≠ 0) : serveFrame f 0 (true, s.taken f 0) = (s.taken f 0).datagram b :=
  serveFrame_of_token dgram (State.takeToken_of_started (s := s.taken f 0) f.now (by rw [(s.onlyMp_taken f 0).dev]; exact started))

section
variable (init : s.dev = 0)
include init

/-- In INIT a datagram is dropped and counted without a token. -/
theorem serveFrame_of_noToken (empty : s.tokensAt f.now < 1000000) : serveFrame f 0 (true, s.taken f 0) =
    .next { s.taken f 0 with pins := { s.pins with
      bucketAt := Nat.max f.now s.pins.bucketAt, bucket := s.tokensAt f.now, initDrops := Nat.min (s.pins.initDrops + 1) 0xFFFFFFFF } } := by
  refine (serveFrame_of_empty dgram (State.takeToken_of_empty (s := s.taken f 0) ?_ ?_)).trans ?_
  · rw [(s.onlyMp_taken f 0).dev, init]
  · rw [State.tokensAt_taken]
    exact empty
  · rw [State.tokensAt_taken, (s.onlyMp_taken f 0).pins]

/-- In INIT a datagram is served for a token. -/
theorem serveFrame_of_oneToken (token : 1000000 ≤ s.tokensAt f.now) : serveFrame f 0 (true, s.taken f 0) =
    State.datagram { s.taken f 0 with pins := { s.pins with
      bucketAt := Nat.max f.now s.pins.bucketAt, bucket := s.tokensAt f.now - 1000000 } } b := by
  refine (serveFrame_of_token dgram (State.takeToken_of_token (s := s.taken f 0) ?_ ?_)).trans ?_
  · rw [(s.onlyMp_taken f 0).dev, init]
  · rw [State.tokensAt_taken]
    exact token
  · rw [State.tokensAt_taken, (s.onlyMp_taken f 0).pins]

end

end

/-- Settles O39: each frame, request and change of the link is a case of its own. -/
theorem hostFrames : Obligations.HostFrames := by
  refine ⟨fun h i n hi => ⟨rfl, HostPort.count_self n hi, fun j => HostPort.count_ne n⟩,
    fun s => ⟨State.pause_of_pausing, State.pause_of_passing, State.pause_of_room, State.ingress_of_idle⟩,
    fun s down => ⟨fun f => exec_hostFrameReceive_of_down down, fun c => exec_cmRequest_of_down down⟩,
    fun s up => ⟨fun f => ⟨s.drained f, rfl, State.fill_drained, ?_⟩, fun c => ?_⟩,
    fun s => ⟨exec_hostLinkDown_of_down, fun up => ⟨exec_hostLinkDown_of_up up, fun none => ?_⟩,
      fun c r run => ⟨State.loseTargets_of_some run, fun g => rfl⟩, exec_hostLinkUp_of_awake, exec_hostLinkUp_of_asleep⟩⟩
  · refine ⟨fun c => exec_hostFrameReceive_of_own up, exec_hostFrameReceive_of_pause up, exec_hostFrameReceive_of_cnp up,
      exec_hostFrameReceive_of_stray up, fun e src data plain dst near =>
        ⟨exec_hostFrameReceive_of_full up src data plain dst near, fun room => ?_⟩⟩
    have taken := exec_hostFrameReceive_of_room up src data plain dst near room
    refine ⟨(s.received f).buffered e f.len, rfl, ?_, fun held => taken.trans (serveFrame_of_held held),
      fun b here dgram => ?_⟩
    · exact congrArg (fun fill : List Nat => (s.received f).mp.host.fill.set e (fill.getD e 0 + f.len)) (s.fill_received f)
    · cases here
      exact ⟨fun started => taken.trans (serveFrame_of_started dgram started),
        fun init => ⟨fun empty => taken.trans (serveFrame_of_noToken dgram init empty),
          fun token => taken.trans (serveFrame_of_oneToken dgram init token)⟩⟩
  · exact ⟨exec_cmRequest_of_unready up, fun init halted free => (exec_cmRequest_of_ready up init halted).trans (if_pos free),
      fun init halted none => (exec_cmRequest_of_ready up init halted).trans (if_neg (Nat.not_lt.mpr none))⟩
  · refine ⟨_, exec_hostLinkDown_of_up up, ?_, fun c => ?_⟩
    · rw [State.foldl_loseTargets chans (s := s.linkDown) none]
      exact State.disconnect_frame chans
    · rw [State.foldl_loseTargets chans (s := s.linkDown) none, State.chan_disconnect]
      rfl

end Sys2Proof.Machine
end
